-- ==== Sys2Proof/Word.lean ====
section
/-! DEFINITION. The word types of the AV9-4832 model and their plainest arithmetic. -/

namespace Sys2Proof

/-- One byte. -/
abbrev Byte := BitVec 8

/-- One 32-bit register or memory word (R6). -/
abbrev W32 := BitVec 32

/-- A tally: the 64-bit count of frames (R37). -/
abbrev Tally := BitVec 64

/-- A sparse table keyed by number, kept in strictly rising key order. -/
abbrev Tab (α : Type) := List (Nat × α)

end Sys2Proof
end

