-- ==== Sys2Proof/Syntax.lean ====
section
/-! DEFINITION. The commands of the block: one constructor of `Instr` for each row of spec/opcode_table.json, with the
operand types they carry. A row of the command language (ULC) carries its context, its tally prefix and its arguments as
the grammar of R90 derives them; every other row carries what the outside world brings with the event it names. -/

namespace Sys2Proof

/-- Who sent a command line: a console session (R81), a morning-script line (R127), a keyword macro (R133, with the
keyword's tally when PD3 was on), or a DESK-bound Coach route (R350). -/
inductive Origin where
  | sess (n : Nat)
  | morning (line : Nat)
  | keyword (slot : Nat) (seq : BitVec 16) (tally : Option Tally)
  | route (r : Nat) (msn : BitVec 16)
  deriving DecidableEq, Repr

/-- The context of one command line: its origin, the tag it carried in MACHINE mode (R103), and whether the cut-off of
R56 for the next tally edge had passed when the Desk accepted it. -/
structure Ctx where
  origin : Origin
  tag    : Option Nat
  cut    : Bool
  deriving DecidableEq, Repr

/-- The tally prefix of a line (R62). -/
inductive Pfx where
  | none
  | abs (t : Nat)
  | plus (n : Nat)
  deriving DecidableEq, Repr

/-- One item of a value (R90): a number `mant / 10^frac` with its suffix, a hexnum with its digit count, a word, a
dotname, or an addr4. -/
inductive Item where
  | num (neg : Bool) (mant frac : Nat) (unit : String)
  | hex (digits v : Nat)
  | word (w : String)
  | dot (parts : List String)
  | addr4 (a b c d : Nat)
  deriving DecidableEq, Repr

/-- A value of the grammar (R90). -/
inductive Val where
  | item (i : Item)
  | str (s : String)
  | list (xs : List Item)
  deriving DecidableEq, Repr

/-- One argument: a keyed value, or a bare value when `key` is empty (R90). -/
structure Arg where
  key : String
  val : Val
  deriving DecidableEq, Repr

abbrev Args := List Arg

/-- A house state (Table 1.2); the codes are those of PWR_STAT.HOUSE. -/
inductive House where
  | vault | hush | lobby | full
  deriving DecidableEq, Repr

/-- A clock of CLK_STAT and CLK_FAULT, in bit order (Table 2.5). -/
inductive Clk where
  | refclk | netref | core | mesh | mem | desk | usb | net | aud | deskrc | hearth | xtal32
  deriving DecidableEq, Repr

/-- The source of an event (R52, R53). Each Coach route is a source of its own. -/
inductive Src where
  | desk | porter | route (r : Nat) | larder | hearth
  deriving DecidableEq, Repr

/-- A step code (Table 5.4). -/
inductive StepCode where
  | run | reset | hold | stop
  deriving DecidableEq, Repr

/-- A guest class (R261), in the code order of INN_GINFO.CLASS. -/
inductive GClass where
  | keep | main | side | spare
  deriving DecidableEq, Repr

/-- State precision (R212). -/
inductive Prec where
  | wide | match_
  deriving DecidableEq, Repr

/-- Scale mode of a layer (Table 4.5). -/
inductive SMode where
  | folded | table | adapt
  deriving DecidableEq, Repr

/-- Late policy of a boundary hop (Table 9.7). -/
inductive HopLate where
  | hold | zero | mute
  deriving DecidableEq, Repr

/-- A bag operation (Table 7.3). -/
inductive BagOp where
  | sum | mean | lerp
  deriving DecidableEq, Repr

/-- A Larder request: guest, port, table, operation, weight (F32 bits) and row indices (R294, Table 7.2). -/
structure LdrReq where
  guest : Nat
  port  : Nat
  table : Nat
  op    : BagOp
  w     : W32
  idx   : List Nat
  deriving DecidableEq, Repr

/-- What an event does at its tally: the event commands of Tables 6.2 and 3.7, the row settings, the requests and
deliveries of the Larder, and the READY changes of the Hearth. -/
inductive Effect where
  | checkin (g : Nat) (plan : String) (prec : Prec) (cls : Option GClass) (fixed : Bool)
  | checkout (g : Nat)
  | away (g : Nat)
  | back (g : Nat)
  | step (g : Nat) (code : StepCode)
  | gclass (g : Nat) (cls : GClass)
  | bypass (g : Nat) (on : Bool)
  | scale (plan : String) (layer : Nat) (mode : Option SMode) (win hr : Option Nat) (exp : Option Int)
  | hopLate (plan : String) (hop : Nat) (pol : HopLate)
  | bind (plan : String) (ch : Option Nat)
  | request (r : LdrReq)
  | put (g port : Nat) (vals : List W32)
  | deliver (g port : Nat) (reqSrc : Src) (reqSeq : BitVec 16) (stamp : Tally) (vals : List Nat)
  | map (g : Nat) (ins outs : List Nat)
  | mute (g : Nat) (on : Bool)
  | ready (ch : Nat) (on : Bool)
  deriving DecidableEq, Repr

/-- A leased resource (Table 6.6). -/
inductive Lease where
  | port (bank p : Nat)
  | cellar (ch : Nat)
  | slot (n : Nat)
  deriving DecidableEq, Repr

/-- A Coach packet as it stands on the wire after its Ethernet, IP and UDP headers (Tables 9.1 and 9.2), with the facts
of those headers the part looks at: the source address and port, whether the checksum (when not zero) is right, and the
CE mark. `ext` holds the extension fields a kind does not carry as zero. -/
structure Packet where
  port    : Nat
  src     : String
  sport   : Nat
  csumOk  : Bool
  ce      : Bool
  ver     : Nat
  tl      : Bool
  ar      : Bool
  kind    : Nat
  rsvd    : Nat
  droute  : Nat
  sroute  : Nat
  pos     : Nat
  psn     : Nat
  msn     : BitVec 16
  tally   : Tally
  rkey    : W32
  roff    : Nat
  len     : Nat
  imm     : W32
  tagw    : W32
  apsn    : Nat
  status  : Nat
  cecnt   : Nat
  payload : List Byte
  fcsOk   : Bool := true
  fecUnc  : Bool := false
  deriving DecidableEq, Repr

/-- The decoded contents of one layer of a weave plan (the section contents whose byte layout the spec does not give;
log entry 4). `wts` and the other encoded elements hold the code of each element in the format named. -/
structure Layer where
  recipe   : Nat                 -- 0 GRU, 1 LSTM, 2 MGU, 3 PLAIN, 4 CUSTOM (Table 5.12)
  ops      : List W32            -- the micro-ops (R214)
  consts   : List W32            -- K0–K7, F32
  h        : Nat                 -- layer width H
  blocks   : Nat                 -- gate blocks g
  split    : List Bool           -- per block (R215)
  wfmt     : Nat                 -- weight format code (Table 4.1)
  wz       : Nat                 -- weight zero point
  infmt    : Nat                 -- operand format of the matrix inputs
  inz      : Nat                 -- input zero point
  outfmt   : Nat                 -- output format
  outz     : Nat
  glen     : Nat                 -- reduction group length (R160)
  fromPrev : Nat                 -- elements drawn from the previous layer or the audio, padded (R161)
  fromSelf : Nat                 -- elements drawn from the layer's own output, padded
  matPorts : List (Nat × Nat)    -- conditioning MATRIX inputs: port and padded element count
  walPorts : List Nat            -- ports read as C0–C3
  audioMat : Bool                -- the matrix takes the audio sample (R221)
  wts      : List (List Nat)     -- weight codes, one list per output row
  wexp     : List (List Int)     -- G6 weight block exponents per row and group, E − 127
  gscale   : List (List W32)     -- group scale per row tile and group
  cscale   : List W32            -- channel scale per output row
  sumw     : List (List W32)     -- sum file, per row and group
  vecs     : List (List W32)     -- B0–B3
  smode    : SMode
  exp0     : Int                 -- output exponent of the scale file
  fallback : Option Int          -- fallback exponent, when the plan carries a fallback table
  win      : Nat
  hr       : Nat
  emin     : Int
  emax     : Int
  usesS1   : Bool
  stake    : Nat                 -- logical stake
  deriving DecidableEq, Repr

/-- A conditioning port of a plan (R292). -/
structure PortDef where
  elems  : Nat
  matrix : Bool
  fmt    : Nat
  zp     : Nat
  dflt   : List Nat
  deriving DecidableEq, Repr

/-- A boundary hop entry (Table 9.6). -/
structure HopDef where
  hop   : Nat
  src   : Nat
  dst   : Nat
  pchip : Nat
  cchip : Nat
  size  : Nat
  late  : HopLate
  deriving DecidableEq, Repr

/-- A function table of a plan (R217): 1024 entries, scale and offset. -/
structure FnTable where
  entries : List W32
  scale   : W32
  offset  : W32
  deriving DecidableEq, Repr

/-- What the sections of a weave plan image say (R225), for the layers this chip carries: `first` is the plan-wide
number of the first of them. `sigOk` says whether the trailer's signature verifies under RFC 8032 against the key of its
slot. `store` lists the bytes the sections place in each logical stake's store. -/
structure PlanBody where
  first   : Nat
  layers  : List Layer
  ports   : List PortDef
  hops    : List HopDef
  tables  : List FnTable
  ein     : Int                  -- fixed input exponent EIN (R221)
  nin     : Nat                  -- audio channels in
  nout    : Nat
  sigOk   : Bool
  store   : List (Nat × Nat × Byte)
  deriving DecidableEq, Repr

/-- A directory entry of the boot flash (Table 15.7). -/
structure DirEntry where
  type   : Nat
  rsvd   : Nat
  name   : String
  offset : Nat
  length : Nat
  deriving DecidableEq, Repr

/-- The boot flash found on the board: whether it answers, its SFDP size (log2), erase size and modes, its bytes (one that is
not listed reads as erased), the bodies of its plan images by offset, and its patch images by offset with their version and
whether their signature verifies under RFC 8032. -/
structure Flash where
  present : Bool
  size    : Nat
  erase   : Nat
  octal   : Bool
  quad    : Bool
  bytes   : List (Nat × Byte)
  bodies  : Tab PlanBody
  patches : Tab (Nat × Bool)
  deriving DecidableEq, Repr

/-- What a channel's converters read at its pins in one loop period, in µV (R542), with the conditions the loop's own
timers have established by the end of the period: each named condition of Table 13.4 and of R553 to R555. -/
structure HMeas where
  hv       : Nat                 -- HV[n], µV
  hsp      : Int                 -- HSP[n], µV
  hsn      : Int                 -- HSN[n], µV
  over1ms  : Bool                -- loop current above 1.25 × ILIM for 1 ms
  open20   : Bool                -- Table 13.4 OPEN condition has lasted 20 ms
  fet100   : Bool                -- FETPOWER condition has lasted 100 ms
  adc1ms   : Bool                -- a converter at full scale for 1 ms
  below10  : Bool                -- current below ILIM for 10 ms
  cold10   : Bool                -- R below 0.85 × RHOT for 10 ms
  steady2s : Bool                -- R changed by less than 0.2 % over 2 s in RUN
  deriving DecidableEq, Repr

/-- How far a Ledger commit got before its step ended (R516): complete, or cut by a loss of supply. -/
inductive CommitEnd where
  | complete | beforeJournal | beforeWord | beforeMap
  deriving DecidableEq, Repr

/-- The stage of a control transfer in which a bus reset falls (Table 10.7). -/
inductive CtlStage where
  | idle | setup | dataOut | dataIn | status
  deriving DecidableEq, Repr

/-- A control request whose status stage completes (R437), reduced to what the device does. -/
inductive CtlReq where
  | setAddress (a : Nat)
  | setConfig (c : Nat)
  | setInterface (i alt : Nat)
  | setRemoteWakeup (on : Bool)
  | setRate
  | other
  deriving DecidableEq, Repr

/-- The header of a vendor bulk transfer (Table 10.6). -/
structure BulkHdr where
  magic : Nat
  op    : Nat
  rsvd  : Nat
  addr  : Nat
  len   : Nat
  deriving DecidableEq, Repr

/-- Whether a memory read met an error: none, a corrected single-bit error, or a double-bit error at an address (R322). -/
inductive Ecc where
  | ok
  | sec
  | ded (addr : Nat)
  deriving DecidableEq, Repr

/-- What the enrolment front end found in a take (R468). -/
structure Take where
  ms       : Nat
  bands    : List (List Nat)     -- energies of the 16 bands in each of its 10 ms frames, in E_ref / 65536 (R453)
  snr      : Nat
  fac      : List (Nat × Nat)    -- similarity to factory slots, whose templates are in ROM, in 1/256
  template : List Nat            -- the take's embedding, 32 H16 elements
  deriving DecidableEq, Repr

/-- What one 10 ms frame brings the island (R451): the charge drawn from VBAT in 50 nC units, the energies of the 16 bands in units
of E_ref / 65536 (R453), Hokuilok's embedding as 32 H16 elements, its similarity to each factory slot, whose templates are in ROM
(1/256 units, R455), whether voice was found (R465), and the state of the cancellation filter: reference below −60 dBFS, near-end
speech, the echo return loss enhancement in dB, and the microphone samples at 16 kHz. -/
structure Feature where
  charge : Nat
  bands  : List Nat
  emb    : List Nat
  fac    : List (Nat × Nat)
  voice  : Bool
  refLow : Bool
  near   : Bool
  erle   : Nat
  mic    : List W32
  deriving DecidableEq, Repr

/-- What a PTP message says of its sender: the port it reaches, its domain, and its grandmaster's priority1 (R41, R391). -/
structure PtpFrom where
  port   : Nat
  domain : Nat
  gmPrio : Nat
  deriving DecidableEq, Repr

/-- The pins of a channel's shunt, HSP[n] and HSN[n], in µV (R542). -/
structure HShunt where
  hsp : Int
  hsn : Int
  deriving DecidableEq, Repr

/-- A packet that arrives, and whether that is within 1.0 µs before the next frame edge (R56). -/
structure Arrival where
  packet : Packet
  cut    : Bool
  deriving DecidableEq, Repr

/-- The part's commands: one constructor per row of spec/opcode_table.json, in its order. -/
inductive Instr where
  | tallyEdge (ins : List (Nat × W32))
  | roundStart
  | rowJobComplete (stake slot row sec : Nat)
  | rowAbandon
  | stakeDoubleBitError (stake slot : Nat)
  | eraStart
  | refclkLoss
  | refclkReturn
  | frequencyWindow (ppm : Nat)
  | tallySourceLost
  | tallySourceReturn
  | ptpSync (m : PtpFrom) (sec ns : Nat) (offsetNs : Int)
  | tallyAlign (phaseNs : Int)
  | tallyLocked
  | eventEnqueue (src : Src) (seq : BitVec 16) (stamp : Tally) (cut : Bool) (eff : Effect)
  | tlyNowLoRead
  | tlyCntSkipLoRead
  | tlySourceWrite (v : W32)
  | tlyRateWrite (v : W32)
  | tlyEpochNsWrite (v : W32)
  | tlySet (c : Ctx) (p : Pfx) (a : Args)
  | tlyLate (c : Ctx) (p : Pfx) (a : Args)
  | tlyShow (c : Ctx) (p : Pfx) (a : Args)
  | clkShow (c : Ctx) (p : Pfx) (a : Args)
  | registerWrite (addr : Nat) (v : W32)
  | cdcDtrSet
  | cdcDtrClear
  | tcpConnect (port tcpPort : Nat) (peer : String)
  | tcpClose (sess : Nat)
  | typedCharacter (sess : Nat) (ch : Nat) (cut : Bool)
  | lineReceived (sess : Nat) (text : String) (cut : Bool)
  | deskDropped (sess : Nat)
  | replyBuffered (sess : Nat) (cut : Bool)
  | outputBufferDrain (sess n : Nat)
  | deferredEffect
  | deskMode (c : Ctx) (p : Pfx) (a : Args)
  | deskNotices (c : Ctx) (p : Pfx) (a : Args)
  | deskShow (c : Ctx) (p : Pfx) (a : Args)
  | deskUart (c : Ctx) (p : Pfx) (a : Args)
  | deskSet (c : Ctx) (p : Pfx) (a : Args)
  | deskClaim (c : Ctx) (p : Pfx) (a : Args)
  | deskRelease (c : Ctx) (p : Pfx) (a : Args)
  | deskPass (c : Ctx) (p : Pfx) (a : Args)
  | unlock (c : Ctx) (p : Pfx) (a : Args)
  | lock (c : Ctx) (p : Pfx) (a : Args)
  | unlockHoldoffEnd (sess : Nat)
  | unlockLockoutEnd
  | help (c : Ctx) (p : Pfx) (a : Args)
  | ping (c : Ctx) (p : Pfx) (a : Args)
  | peek (c : Ctx) (p : Pfx) (a : Args)
  | poke (c : Ctx) (p : Pfx) (a : Args)
  | morningSkip
  | morningLine (cut : Bool)
  | morningTimeout
  | morningShow (c : Ctx) (p : Pfx) (a : Args)
  | morningSet (c : Ctx) (p : Pfx) (a : Args)
  | morningDel (c : Ctx) (p : Pfx) (a : Args)
  | morningClear (c : Ctx) (p : Pfx) (a : Args)
  | morningRun (c : Ctx) (p : Pfx) (a : Args)
  | keywordMacroRun (cut : Bool)
  | macroSet (c : Ctx) (p : Pfx) (a : Args)
  | macroClear (c : Ctx) (p : Pfx) (a : Args)
  | macroShow (c : Ctx) (p : Pfx) (a : Args)
  | sysShow (c : Ctx) (p : Pfx) (a : Args)
  | sysCaps (c : Ctx) (p : Pfx) (a : Args)
  | sysMap (c : Ctx) (p : Pfx) (a : Args)
  | sysModes (c : Ctx) (p : Pfx) (a : Args)
  | sysHealth (c : Ctx) (p : Pfx) (a : Args)
  | houseShow (c : Ctx) (p : Pfx) (a : Args)
  | fmtShow (c : Ctx) (p : Pfx) (a : Args)
  | fmtConv (c : Ctx) (p : Pfx) (a : Args)
  | planSet (c : Ctx) (p : Pfx) (a : Args)
  | planSetHop (c : Ctx) (p : Pfx) (a : Args)
  | stkShow (c : Ctx) (p : Pfx) (a : Args)
  | stkSet (c : Ctx) (p : Pfx) (a : Args)
  | planLoad (c : Ctx) (p : Pfx) (a : Args)
  | planUnload (c : Ctx) (p : Pfx) (a : Args)
  | planShow (c : Ctx) (p : Pfx) (a : Args)
  | planHop (c : Ctx) (p : Pfx) (a : Args)
  | guestSetStep (c : Ctx) (p : Pfx) (a : Args)
  | guestRegister (c : Ctx) (p : Pfx) (a : Args)
  | guestRegisterDrop (c : Ctx) (p : Pfx) (a : Args)
  | guestCheckin (c : Ctx) (p : Pfx) (a : Args)
  | guestCheckout (c : Ctx) (p : Pfx) (a : Args)
  | guestAway (c : Ctx) (p : Pfx) (a : Args)
  | guestReturn (c : Ctx) (p : Pfx) (a : Args)
  | guestReopen (c : Ctx) (p : Pfx) (a : Args)
  | guestSetClass (c : Ctx) (p : Pfx) (a : Args)
  | guestShow (c : Ctx) (p : Pfx) (a : Args)
  | roomShow (c : Ctx) (p : Pfx) (a : Args)
  | innShow (c : Ctx) (p : Pfx) (a : Args)
  | innSet (c : Ctx) (p : Pfx) (a : Args)
  | bundleSet (c : Ctx) (p : Pfx) (a : Args)
  | bundleReopen (c : Ctx) (p : Pfx) (a : Args)
  | bundleShow (c : Ctx) (p : Pfx) (a : Args)
  | roomZeroed (room : Nat)
  | cellarWritebackDone (g : Nat)
  | swapInDone (g : Nat) (ecc : Ecc)
  | leaseRevoke (l : Lease)
  | thermalShed
  | innCellarWrite (hi : Bool) (v : W32)
  | ldrSet (c : Ctx) (p : Pfx) (a : Args)
  | ldrLoad (c : Ctx) (p : Pfx) (a : Args)
  | ldrBind (c : Ctx) (p : Pfx) (a : Args)
  | ldrUnbind (c : Ctx) (p : Pfx) (a : Args)
  | ldrReq (c : Ctx) (p : Pfx) (a : Args)
  | ldrPut (c : Ctx) (p : Pfx) (a : Args)
  | ldrInval (c : Ctx) (p : Pfx) (a : Args)
  | ldrShow (c : Ctx) (p : Pfx) (a : Args)
  | larderServe
  | rowFetchDone (slot : Nat) (ecc : Ecc)
  | deliveryWrite (g port : Nat) (cut : Bool)
  | memTrainDone (installed : Nat)
  | memTrainFail
  | mr4Poll (hot : Bool)
  | memShow (c : Ctx) (p : Pfx) (a : Args)
  | memSet (c : Ctx) (p : Pfx) (a : Args)
  | routeOpen (c : Ctx) (p : Pfx) (a : Args)
  | routeClose (c : Ctx) (p : Pfx) (a : Args)
  | routeClosed (r : Nat)
  | routeSet (c : Ctx) (p : Pfx) (a : Args)
  | routeRecv (c : Ctx) (p : Pfx) (a : Args)
  | routePost (c : Ctx) (p : Pfx) (a : Args)
  | routeShow (c : Ctx) (p : Pfx) (a : Args)
  | winOpen (c : Ctx) (p : Pfx) (a : Args)
  | winClose (c : Ctx) (p : Pfx) (a : Args)
  | winShow (c : Ctx) (p : Pfx) (a : Args)
  | cchRing (c : Ctx) (p : Pfx) (a : Args)
  | cchShow (c : Ctx) (p : Pfx) (a : Args)
  | cchDoorbell (v : W32)
  | cchRingTailWrite (v : W32)
  | issueWrite (r : Nat)
  | issueWriteImm (r : Nat)
  | issueRead (r : Nat)
  | issueSend (r : Nat)
  | issueFlush (r : Nat)
  | issueWait (r : Nat)
  | issueArm (r : Nat)
  | waybillComplete (r : Nat)
  | receiveWrite (k : Packet)
  | receiveWriteImm (k : Packet)
  | receiveReadReq (k : Packet) (ecc : Ecc)
  | receiveReadResp (k : Packet)
  | receiveSend (m : Arrival)
  | deskRouteLine (r : Nat) (cut : Bool)
  | receiveFlush (k : Packet)
  | receiveAck (k : Packet)
  | receiveNak (k : Packet)
  | receiveEase (k : Packet)
  | ackTimer (r : Nat)
  | retransmitTimeout (r : Nat)
  | rnrRetry (r : Nat)
  | ccTimer (r : Nat)
  | pfcFrameReceived (port vec : Nat) (xoff : Bool) (fifoFree : Nat)
  | hopDeadline
  | linkChange (port : Nat) (lock fecok modp : Bool)
  | arpRequest (port : Nat) (target sender : String)
  | ndpSolicitation (port : Nat) (target sender : String)
  | icmpEcho (port : Nat) (dst sender : String) (data : List Byte)
  | igmpQuery (port version : Nat)
  | netCtlWrite (port : Nat) (v : W32)
  | netSet (c : Ctx) (p : Pfx) (a : Args)
  | netShow (c : Ctx) (p : Pfx) (a : Args)
  | ptpSet (c : Ctx) (p : Pfx) (a : Args)
  | ptpShow (c : Ctx) (p : Pfx) (a : Args)
  | audSet (c : Ctx) (p : Pfx) (a : Args)
  | audMap (c : Ctx) (p : Pfx) (a : Args)
  | audDry (c : Ctx) (p : Pfx) (a : Args)
  | audMute (c : Ctx) (p : Pfx) (a : Args)
  | audShow (c : Ctx) (p : Pfx) (a : Args)
  | aesSet (c : Ctx) (p : Pfx) (a : Args)
  | aesShow (c : Ctx) (p : Pfx) (a : Args)
  | slavePortLock (port phase phasem : Nat)
  | fsyncSlip (port : Nat)
  | aes67Transmit (flow : Nat)
  | aes67Receive (flow seq ts : Nat) (samples : List (List W32))
  | aes67FlowLost (flow : Nat)
  | busReset (stage : CtlStage) (hs : Bool)
  | controlRequest (q : CtlReq)
  | suspend
  | resume
  | vbusLoss (stage : CtlStage)
  | vbusAttach
  | uac2OutPacket (samples : List (List W32)) (fb : W32)
  | vendorBulkWrite (h : BulkHdr) (data : List Byte) (body : Option PlanBody)
  | vendorBulkRead (h : BulkHdr)
  | vendorBulkEndWait (len : Nat) (patch : Option (Nat × Bool))
  | usbSet (c : Ctx) (p : Pfx) (a : Args)
  | usbShow (c : Ctx) (p : Pfx) (a : Args)
  | vaonFall
  | vaonReturn
  | islandColdStart
  | featureFrame (f : Feature)
  | refractoryEnd
  | pathChangeHoldEnd
  | dozeReturn
  | slotCrcCheck (bad : List Nat)
  | porSet (c : Ctx) (p : Pfx) (a : Args)
  | porEnrol (c : Ctx) (p : Pfx) (a : Args)
  | porEnrolDone (c : Ctx) (p : Pfx) (a : Args)
  | porEnrolAbort (c : Ctx) (p : Pfx) (a : Args)
  | porEnrolWake (c : Ctx) (p : Pfx) (a : Args)
  | enrolTake (t : Take)
  | enrolTimeout
  | porSlot (c : Ctx) (p : Pfx) (a : Args)
  | porSlotClear (c : Ctx) (p : Pfx) (a : Args)
  | porGaugeCheck (c : Ctx) (p : Pfx) (a : Args)
  | porGaugeNew (c : Ctx) (p : Pfx) (a : Args)
  | porGaugeUsed (c : Ctx) (p : Pfx) (a : Args)
  | porWakeRelease (c : Ctx) (p : Pfx) (a : Args)
  | porWakeHold (c : Ctx) (p : Pfx) (a : Args)
  | porShow (c : Ctx) (p : Pfx) (a : Args)
  | gaugeCheck (mv : Nat)
  | cellRemoved
  | cellReturn
  | wakeInAssert
  | wakeTimeout
  | ldgBatchBegin (c : Ctx) (p : Pfx) (a : Args)
  | ldgPut (c : Ctx) (p : Pfx) (a : Args)
  | ldgBatchCommit (c : Ctx) (p : Pfx) (a : Args)
  | ldgBatchAbort (c : Ctx) (p : Pfx) (a : Args)
  | ledgerCommit (fails : List Nat) (upto : CommitEnd) (residue : Bool)
  | ldgRead (c : Ctx) (p : Pfx) (a : Args)
  | ldgKey (c : Ctx) (p : Pfx) (a : Args)
  | ldgPass (c : Ctx) (p : Pfx) (a : Args)
  | ldgSlate (c : Ctx) (p : Pfx) (a : Args)
  | ldgWipe (c : Ctx) (p : Pfx) (a : Args)
  | ldgRefresh (c : Ctx) (p : Pfx) (a : Args)
  | ldgShow (c : Ctx) (p : Pfx) (a : Args)
  | partitionLockoutEnd (part : Nat)
  | refreshRun (weak early unreadable : List Nat) (fails : List Nat)
  | logBufferCommit (fails : List Nat)
  | logShow (c : Ctx) (p : Pfx) (a : Args)
  | logTail (c : Ctx) (p : Pfx) (a : Args)
  | logClear (c : Ctx) (p : Pfx) (a : Args)
  | hthSet (c : Ctx) (p : Pfx) (a : Args)
  | hthClear (c : Ctx) (p : Pfx) (a : Args)
  | hthStatClearWrite (ch : Nat) (v : W32)
  | hthModeWrite (ch : Nat) (v : W32)
  | hthShow (c : Ctx) (p : Pfx) (a : Args)
  | controlLoopPeriod (ms : List HMeas) (sns snsMean : Nat) (suprec sup10 vglow : Bool) (cut : Bool)
  | shortTrip (ch snsMean : Nat) (cut : Bool)
  | probeEnd (ch hv : Nat) (h : HShunt) (tamb : Nat)
  | holdTimeout
  | parkTimeout (cut : Bool)
  | backoffEnd (ch : Nat)
  | autoRetry (ch : Nat)
  | budgetExcess (cut : Bool)
  | gateWatchdog
  | houseSet (c : Ctx) (p : Pfx) (a : Args)
  | moveVaultToHush
  | moveHushToLobby
  | moveLobbyToFull
  | moveFullToLobby
  | moveLobbyToHush
  | moveHushToVault (mv : Nat)
  | quadrantRampEnd (q : Nat)
  | pwrfail (residue : Nat)
  | vaonWake (bootsel : BitVec 3)
  | pwrSet (c : Ctx) (p : Pfx) (a : Args)
  | pwrDomcfgWrite (v : W32)
  | pwrSenseWrite (v : W32)
  | pwrCrackClear (c : Ctx) (p : Pfx) (a : Args)
  | pwrFuse (c : Ctx) (p : Pfx) (a : Args)
  | pwrShow (c : Ctx) (p : Pfx) (a : Args)
  | pointRaise
  | sentinelRead (lows : List Nat) (stood1ms : Bool)
  | droop (on : Bool)
  | avsbusFrame (ok : Bool) (isWrite : Bool) (isStatus : Bool)
  | zoneSample (volts : List Nat) (means : List Nat)
  | thermalSample (tj : Int) (below100 : Bool)
  | thermalCapStep
  | pinReset (bootsel : BitVec 3)
  | boot (fl : Flash)
  | bootWaitTimeout
  | watchdogExpiry
  | sysResetWarm (c : Ctx) (p : Pfx) (a : Args)
  | sysResetFull (c : Ctx) (p : Pfx) (a : Args)
  | sysResetWriteWarm (v : W32)
  | sysResetWriteFull (v : W32)
  | sysBoot (c : Ctx) (p : Pfx) (a : Args)
  | sysFlashShow (c : Ctx) (p : Pfx) (a : Args)
  | sysFlashErase (c : Ctx) (p : Pfx) (a : Args)
  | sysFlashWrite (c : Ctx) (p : Pfx) (a : Args)
  | sysFlashRescan (c : Ctx) (p : Pfx) (a : Args)
  | extest (v : List Bool)
  | idcode
  | samplePreload (v : List Bool)
  | clamp
  | highz
  | bypass
  | debug (write : Bool) (addr : Nat) (v : W32)
  | clockLoss (k : Clk)
  | clockReturn (k : Clk)
  | vbatFall
  | hearthSupplyFault (vg : Bool) (cut : Bool)
  | netBootPatchReceived (patch : Option (Nat × Bool))
  | testmodeHigh
  deriving DecidableEq, Repr

end Sys2Proof
end

