-- ==== Sys2Proof/WellFormed.lean ====
section
/-! DEFINITION. Which commands are well formed: every index in an operand names something the part has, and every value of a
command line is one the grammar of R90 can derive. A meaning is total and does not rest on these checks. -/

namespace Sys2Proof

/-- A route of 512 (R327). -/
def Src.wf (x : Src) : Bool := match x with | .route r => decide (r < 512) | _ => true

/-- A leased resource of Table 6.6. -/
def Lease.wf (l : Lease) : Bool :=
  match l with | .port b p => decide (b < 8) && decide (p < 4) | .cellar c => decide (c < 8) | .slot n => decide (n < 64)

/-- A sender: a session of four (R81), a script line of 64 (R125), a word slot of 32 (R133), a route of 512 (R327). -/
def Origin.wf (o : Origin) : Bool :=
  match o with
  | .sess n => decide (n < 4)
  | .morning l => decide (1 ≤ l) && decide (l ≤ 64)
  | .keyword k _ _ => decide (k < 32)
  | .route r _ => decide (r < 512)

/-- An item of R90: a hexnum of at most 16 digits that holds its value, a word that is not empty. -/
def Item.wf (i : Item) : Bool :=
  match i with
  | .num _ _ _ _ => true
  | .hex d v => decide (1 ≤ d) && decide (d ≤ 16) && decide (v < 16 ^ d)
  | .word w => !w.isEmpty
  | .dot l => decide (2 ≤ l.length)
  | .addr4 _ _ _ _ => true

/-- A value of R90; a list has at least two items. -/
def Val.wf (v : Val) : Bool :=
  match v with
  | .item i => i.wf
  | .str _ => true
  | .list l => decide (2 ≤ l.length) && l.all Item.wf

/-- No key stands twice (R690). -/
def keysOnce (a : Args) : Bool := decide ((a.filterMap fun x => if x.key = "" then none else some x.key).Nodup)

/-- A command line of the command language: its sender exists, its tag has 16 bits (R103), its values are of the grammar. -/
def ulcWf (c : Ctx) (a : Args) : Bool :=
  c.origin.wf && (match c.tag with | some t => decide (t < 65536) | none => true) && (a.all fun x => x.val.wf) && keysOnce a

/-- The header fields of a Coach packet fit their widths (Tables 9.1 and 9.2), and its payload a frame. -/
def Packet.wf (k : Packet) : Bool :=
  decide (k.port < 2) && decide (k.ver < 16) && decide (k.kind < 256) && decide (k.pos < 4) && decide (k.psn < 2 ^ 24) &&
    decide (k.droute < 65536) && decide (k.sroute < 65536) && decide (k.len < 2 ^ 32) && decide (k.payload.length ≤ 4096)

/-- Whether a command is well formed. -/
def Instr.wf (i : Instr) : Bool :=
  match i with
  | .tallyEdge ins => ins.all fun e => decide (e.1 < 256)
  | .roundStart => true
  | .rowJobComplete stake slot row _ => decide (stake < 48) && decide (slot < 16) && decide (row < 16)
  | .rowAbandon => true
  | .stakeDoubleBitError stake slot => decide (stake < 48) && decide (slot < 16)
  | .eraStart => true
  | .refclkLoss => true
  | .refclkReturn => true
  | .frequencyWindow _ => true
  | .tallySourceLost => true
  | .tallySourceReturn => true
  | .ptpSync m sec ns _ =>
    decide (m.port < 2) && decide (ns < 10 ^ 9) && decide (sec < 2 ^ 48) && decide (m.domain < 256) && decide (m.gmPrio < 256)
  | .tallyAlign _ => true
  | .tallyLocked => true
  | .eventEnqueue src _ _ _ _ => src.wf
  | .tlyNowLoRead => true
  | .tlyCntSkipLoRead => true
  | .tlySourceWrite _ => true
  | .tlyRateWrite _ => true
  | .tlyEpochNsWrite _ => true
  | .tlySet c _ a => ulcWf c a
  | .tlyLate c _ a => ulcWf c a
  | .tlyShow c _ a => ulcWf c a
  | .clkShow c _ a => ulcWf c a
  | .registerWrite addr _ => decide (addr < 2 ^ 48)
  | .cdcDtrSet => true
  | .cdcDtrClear => true
  | .tcpConnect port tcpPort _ => decide (port < 2) && decide (tcpPort < 65536)
  | .tcpClose sess => decide (sess < 4)
  | .typedCharacter sess _ _ => decide (sess < 4)
  | .lineReceived sess _ _ => decide (sess < 4)
  | .deskDropped sess => decide (sess < 4)
  | .replyBuffered sess _ => decide (sess < 4)
  | .outputBufferDrain sess _ => decide (sess < 4)
  | .deferredEffect => true
  | .deskMode c _ a => ulcWf c a
  | .deskNotices c _ a => ulcWf c a
  | .deskShow c _ a => ulcWf c a
  | .deskUart c _ a => ulcWf c a
  | .deskSet c _ a => ulcWf c a
  | .deskClaim c _ a => ulcWf c a
  | .deskRelease c _ a => ulcWf c a
  | .deskPass c _ a => ulcWf c a
  | .unlock c _ a => ulcWf c a
  | .lock c _ a => ulcWf c a
  | .unlockHoldoffEnd sess => decide (sess < 4)
  | .unlockLockoutEnd => true
  | .help c _ a => ulcWf c a
  | .ping c _ a => ulcWf c a
  | .peek c _ a => ulcWf c a
  | .poke c _ a => ulcWf c a
  | .morningSkip => true
  | .morningLine _ => true
  | .morningTimeout => true
  | .morningShow c _ a => ulcWf c a
  | .morningSet c _ a => ulcWf c a
  | .morningDel c _ a => ulcWf c a
  | .morningClear c _ a => ulcWf c a
  | .morningRun c _ a => ulcWf c a
  | .keywordMacroRun _ => true
  | .macroSet c _ a => ulcWf c a
  | .macroClear c _ a => ulcWf c a
  | .macroShow c _ a => ulcWf c a
  | .sysShow c _ a => ulcWf c a
  | .sysCaps c _ a => ulcWf c a
  | .sysMap c _ a => ulcWf c a
  | .sysModes c _ a => ulcWf c a
  | .sysHealth c _ a => ulcWf c a
  | .houseShow c _ a => ulcWf c a
  | .fmtShow c _ a => ulcWf c a
  | .fmtConv c _ a => ulcWf c a
  | .planSet c _ a => ulcWf c a
  | .planSetHop c _ a => ulcWf c a
  | .stkShow c _ a => ulcWf c a
  | .stkSet c _ a => ulcWf c a
  | .planLoad c _ a => ulcWf c a
  | .planUnload c _ a => ulcWf c a
  | .planShow c _ a => ulcWf c a
  | .planHop c _ a => ulcWf c a
  | .guestSetStep c _ a => ulcWf c a
  | .guestRegister c _ a => ulcWf c a
  | .guestRegisterDrop c _ a => ulcWf c a
  | .guestCheckin c _ a => ulcWf c a
  | .guestCheckout c _ a => ulcWf c a
  | .guestAway c _ a => ulcWf c a
  | .guestReturn c _ a => ulcWf c a
  | .guestReopen c _ a => ulcWf c a
  | .guestSetClass c _ a => ulcWf c a
  | .guestShow c _ a => ulcWf c a
  | .roomShow c _ a => ulcWf c a
  | .innShow c _ a => ulcWf c a
  | .innSet c _ a => ulcWf c a
  | .bundleSet c _ a => ulcWf c a
  | .bundleReopen c _ a => ulcWf c a
  | .bundleShow c _ a => ulcWf c a
  | .roomZeroed room => decide (room < 32)
  | .cellarWritebackDone g => decide (g < 512)
  | .swapInDone g _ => decide (g < 512)
  | .leaseRevoke l => l.wf
  | .thermalShed => true
  | .innCellarWrite _ _ => true
  | .ldrSet c _ a => ulcWf c a
  | .ldrLoad c _ a => ulcWf c a
  | .ldrBind c _ a => ulcWf c a
  | .ldrUnbind c _ a => ulcWf c a
  | .ldrReq c _ a => ulcWf c a
  | .ldrPut c _ a => ulcWf c a
  | .ldrInval c _ a => ulcWf c a
  | .ldrShow c _ a => ulcWf c a
  | .larderServe => true
  | .rowFetchDone slot _ => decide (slot < 64)
  | .deliveryWrite g port _ => decide (g < 512) && decide (port < 16)
  | .memTrainDone installed => decide (installed < 256)
  | .memTrainFail => true
  | .mr4Poll _ => true
  | .memShow c _ a => ulcWf c a
  | .memSet c _ a => ulcWf c a
  | .routeOpen c _ a => ulcWf c a
  | .routeClose c _ a => ulcWf c a
  | .routeClosed r => decide (r < 512)
  | .routeSet c _ a => ulcWf c a
  | .routeRecv c _ a => ulcWf c a
  | .routePost c _ a => ulcWf c a
  | .routeShow c _ a => ulcWf c a
  | .winOpen c _ a => ulcWf c a
  | .winClose c _ a => ulcWf c a
  | .winShow c _ a => ulcWf c a
  | .cchRing c _ a => ulcWf c a
  | .cchShow c _ a => ulcWf c a
  | .cchDoorbell _ => true
  | .cchRingTailWrite _ => true
  | .issueWrite r => decide (r < 512)
  | .issueWriteImm r => decide (r < 512)
  | .issueRead r => decide (r < 512)
  | .issueSend r => decide (r < 512)
  | .issueFlush r => decide (r < 512)
  | .issueWait r => decide (r < 512)
  | .issueArm r => decide (r < 512)
  | .waybillComplete r => decide (r < 512)
  | .receiveWrite k => k.wf
  | .receiveWriteImm k => k.wf
  | .receiveReadReq k _ => k.wf
  | .receiveReadResp k => k.wf
  | .receiveSend m => m.packet.wf
  | .deskRouteLine r _ => decide (r < 512)
  | .receiveFlush k => k.wf
  | .receiveAck k => k.wf
  | .receiveNak k => k.wf
  | .receiveEase k => k.wf
  | .ackTimer r => decide (r < 512)
  | .retransmitTimeout r => decide (r < 512)
  | .rnrRetry r => decide (r < 512)
  | .ccTimer r => decide (r < 512)
  | .pfcFrameReceived port vec _ _ => decide (port < 2) && decide (vec < 256)
  | .hopDeadline => true
  | .linkChange port _ _ _ => decide (port < 2)
  | .arpRequest port _ _ => decide (port < 2)
  | .ndpSolicitation port _ _ => decide (port < 2)
  | .icmpEcho port _ _ _ => decide (port < 2)
  | .igmpQuery port _ => decide (port < 2)
  | .netCtlWrite port _ => decide (port < 2)
  | .netSet c _ a => ulcWf c a
  | .netShow c _ a => ulcWf c a
  | .ptpSet c _ a => ulcWf c a
  | .ptpShow c _ a => ulcWf c a
  | .audSet c _ a => ulcWf c a
  | .audMap c _ a => ulcWf c a
  | .audDry c _ a => ulcWf c a
  | .audMute c _ a => ulcWf c a
  | .audShow c _ a => ulcWf c a
  | .aesSet c _ a => ulcWf c a
  | .aesShow c _ a => ulcWf c a
  | .slavePortLock port _ _ => decide (port < 4)
  | .fsyncSlip port => decide (port < 4)
  | .aes67Transmit flow => decide (flow < 8)
  | .aes67Receive flow seq ts _ => decide (flow < 8) && decide (seq < 65536) && decide (ts < 2 ^ 32)
  | .aes67FlowLost flow => decide (flow < 8)
  | .busReset _ _ => true
  | .controlRequest _ => true
  | .suspend => true
  | .resume => true
  | .vbusLoss _ => true
  | .vbusAttach => true
  | .uac2OutPacket _ _ => true
  | .vendorBulkWrite _ _ _ => true
  | .vendorBulkRead _ => true
  | .vendorBulkEndWait _ _ => true
  | .usbSet c _ a => ulcWf c a
  | .usbShow c _ a => ulcWf c a
  | .vaonFall => true
  | .vaonReturn => true
  | .islandColdStart => true
  | .featureFrame f => f.bands.length == 16 && f.emb.length == 32
  | .refractoryEnd => true
  | .pathChangeHoldEnd => true
  | .dozeReturn => true
  | .slotCrcCheck _ => true
  | .porSet c _ a => ulcWf c a
  | .porEnrol c _ a => ulcWf c a
  | .porEnrolDone c _ a => ulcWf c a
  | .porEnrolAbort c _ a => ulcWf c a
  | .porEnrolWake c _ a => ulcWf c a
  | .enrolTake t => t.bands.all (·.length == 16) && t.template.length == 32
  | .enrolTimeout => true
  | .porSlot c _ a => ulcWf c a
  | .porSlotClear c _ a => ulcWf c a
  | .porGaugeCheck c _ a => ulcWf c a
  | .porGaugeNew c _ a => ulcWf c a
  | .porGaugeUsed c _ a => ulcWf c a
  | .porWakeRelease c _ a => ulcWf c a
  | .porWakeHold c _ a => ulcWf c a
  | .porShow c _ a => ulcWf c a
  | .gaugeCheck _ => true
  | .cellRemoved => true
  | .cellReturn => true
  | .wakeInAssert => true
  | .wakeTimeout => true
  | .ldgBatchBegin c _ a => ulcWf c a
  | .ldgPut c _ a => ulcWf c a
  | .ldgBatchCommit c _ a => ulcWf c a
  | .ldgBatchAbort c _ a => ulcWf c a
  | .ledgerCommit _ _ _ => true
  | .ldgRead c _ a => ulcWf c a
  | .ldgKey c _ a => ulcWf c a
  | .ldgPass c _ a => ulcWf c a
  | .ldgSlate c _ a => ulcWf c a
  | .ldgWipe c _ a => ulcWf c a
  | .ldgRefresh c _ a => ulcWf c a
  | .ldgShow c _ a => ulcWf c a
  | .partitionLockoutEnd part => decide (part < 8)
  | .refreshRun _ _ _ _ => true
  | .logBufferCommit _ => true
  | .logShow c _ a => ulcWf c a
  | .logTail c _ a => ulcWf c a
  | .logClear c _ a => ulcWf c a
  | .hthSet c _ a => ulcWf c a
  | .hthClear c _ a => ulcWf c a
  | .hthStatClearWrite ch _ => decide (ch < 8)
  | .hthModeWrite ch _ => decide (ch < 8)
  | .hthShow c _ a => ulcWf c a
  | .controlLoopPeriod ms _ _ _ _ _ _ => ms.length == 8
  | .shortTrip ch _ _ => decide (ch < 8)
  | .probeEnd ch _ _ _ => decide (ch < 8)
  | .holdTimeout => true
  | .parkTimeout _ => true
  | .backoffEnd ch => decide (ch < 8)
  | .autoRetry ch => decide (ch < 8)
  | .budgetExcess _ => true
  | .gateWatchdog => true
  | .houseSet c _ a => ulcWf c a
  | .moveVaultToHush => true
  | .moveHushToLobby => true
  | .moveLobbyToFull => true
  | .moveFullToLobby => true
  | .moveLobbyToHush => true
  | .moveHushToVault _ => true
  | .quadrantRampEnd q => decide (q < 4)
  | .pwrfail _ => true
  | .vaonWake _ => true
  | .pwrSet c _ a => ulcWf c a
  | .pwrDomcfgWrite _ => true
  | .pwrSenseWrite _ => true
  | .pwrCrackClear c _ a => ulcWf c a
  | .pwrFuse c _ a => ulcWf c a
  | .pwrShow c _ a => ulcWf c a
  | .pointRaise => true
  | .sentinelRead lows _ => lows.length == 32
  | .droop _ => true
  | .avsbusFrame _ _ _ => true
  | .zoneSample volts means => volts.length == 8 && means.length == 8
  | .thermalSample _ _ => true
  | .thermalCapStep => true
  | .pinReset _ => true
  | .boot _ => true
  | .bootWaitTimeout => true
  | .watchdogExpiry => true
  | .sysResetWarm c _ a => ulcWf c a
  | .sysResetFull c _ a => ulcWf c a
  | .sysResetWriteWarm _ => true
  | .sysResetWriteFull _ => true
  | .sysBoot c _ a => ulcWf c a
  | .sysFlashShow c _ a => ulcWf c a
  | .sysFlashErase c _ a => ulcWf c a
  | .sysFlashWrite c _ a => ulcWf c a
  | .sysFlashRescan c _ a => ulcWf c a
  | .extest _ => true
  | .idcode => true
  | .samplePreload _ => true
  | .clamp => true
  | .highz => true
  | .bypass => true
  | .debug _ addr _ => decide (addr < 2 ^ 48)
  | .clockLoss _ => true
  | .clockReturn _ => true
  | .vbatFall => true
  | .hearthSupplyFault _ _ => true
  | .netBootPatchReceived _ => true
  | .testmodeHigh => true

end Sys2Proof
end

