-- ==== Sys2Proof/Config.lean ====
section
/-! DEFINITION. The free values: what the spec leaves open and the hardware nevertheless produces. Each is a constant with
no body, applied to the count of free values drawn so far (`State.fresh`) or to the operands it depends on, so that no
proof can lean on a particular value. -/

namespace Sys2Proof

/-- A random 32-bit word, as an SSRC is drawn (R427). Log entry 3. -/
opaque Config.random : Nat → W32

/-- A word the spec does not state: a peek of state whose layout it does not give (R27), a field a show reports that no
rule computes. Log entry 5. -/
opaque Config.freeWord : Nat → W32

/-- The IPv6 link-local address of a port, by its MAC address (R389). Log entry 5. -/
opaque Config.linkLocal : BitVec 48 → String

/-- What partition IDENT's bytes say of an item the part reads from it, whose places in the partition the spec does not give: 0 the
serial number, 1 and 2 the MAC addresses of NETA and NETB, 3 and 4 the USB vendor and product, 5 the speed and 6 the FEC of the
NET boot (0 where IDENT names none). Log entry 5. -/
opaque Config.ident : Nat → List (BitVec 8) → Nat

/-- The cosine similarity, in 1/256, of two vectors of which one is zero or has an element that is no number: R455 states none. Log
entry 64. -/
opaque Config.similarity : List Nat → List Nat → Nat

/-- A sample of the cancellation reference at 16 kHz, from the base rate in Hz, the place between two frames and the newest samples at
the base rate: R476 bounds the response of the resampler and gives no coefficients. Log entry 66. -/
opaque Config.resample : Nat → Nat → List (BitVec 32) → BitVec 32

/-- The 256 cancellation taps, F32, after one frame of adaption, from the bulk delay, the step, the taps so far, the reference at 16 kHz
(newest first) and the microphone's samples: R477 names the method and not the order of its roundings. Log entry 89. -/
opaque Config.nlms : Nat → Nat → List (BitVec 32) → List (BitVec 32) → List (BitVec 32) → List (BitVec 32)

/-- The analogue gate drive in mV of a channel in HEATER-LINEAR, from what the loop regulates to, its current clamp, and the measured
load voltage and current: R550 gives the loop's aim and no law of its drive. Log entry 67. -/
opaque Config.gateDrive : Nat → Nat → Nat → Nat → Nat

end Sys2Proof
end

