-- ==== Sys2Proof/Machine/State.lean ====
section
/-! DEFINITION. The state of the block, as plain data: every register, queue, buffer, counter, mode and pin the spec
gives the AV9-4832. A field's default is its reset value; the comment names its width, the rule of spec/ that gives it
and, where the spec states no reset value, the log entry. `State.reset` is the part as its registers stand at reset:
in HUSH, PD0 to PD2 on (PWR_STAT.HOUSE, PWR_DOM). -/

namespace Sys2Proof.Machine

/-- Memory: address and byte pairs, addresses strictly rising, no byte equal to what an unlisted address reads as. -/
abbrev Memory := List Host.Cell

/-- Why a step stops with a fault. -/
inductive Fault where
  /-- Raised by no meaning: the spec gives every command an effect. Kept so that the type is inhabited; safe. -/
  | none
  deriving DecidableEq, Repr

/-- Why a step is refused. -/
inductive Refusal where
  /-- The command has no meaning yet; raised only by an arm of `exec`. Safe: no claim is made about the command. -/
  | notModelled (mnemonic : String)
  deriving DecidableEq, Repr

/-! ### Clocks and tally (spec 02) -/

/-- TLY_STAT.STATE (Table 2.8). -/
inductive TState where
  | freeRun | acquire | locked | holdover | ahead
  deriving DecidableEq, Repr

/-- CLK registers (R69 to R71). -/
structure ClkSt where
  stat   : BitVec 12 := 0        -- CLK_STAT bits 11:0 | 12 | 02 R69 | 0
  fault  : BitVec 12 := 0        -- CLK_FAULT bits 11:0 | 12 | 02 R69 | 0
  freq   : BitVec 16 := 0        -- CLK_CORE.FREQ | 16 | 02 R70 | 0
  mdiv   : BitVec 2 := 0         -- CLK_OUT.MDIV | 2 | 02 R71 | 0
  wclken : Bool := false         -- CLK_OUT.WCLKEN | 1 | 02 R71 | 0
  mclken : Bool := false         -- CLK_OUT.MCLKEN | 1 | 02 R71 | 0
  netLost : Bool := false        -- NETREF is lost and has not returned | 1 | 02 R33 R69 | 0
  deriving DecidableEq, Repr

/-- The settings the Steward keeps for the next PD3 power-on (R654); `none` where none has been accepted. -/
structure TlyKept where
  source : Option (BitVec 2) := none   -- kept TLY_CTL.SOURCE | 2 | 16 R654 | none accepted
  port   : Option Bool := none         -- kept TLY_CTL.PTPPORT | 1 | 16 R654 | none accepted
  rate   : Option (BitVec 3) := none   -- kept TLY_CTL.RATE | 3 | 16 R654 | none accepted
  relock : Option Bool := none         -- kept TLY_CTL.RELOCK | 1 | 16 R654 | none accepted
  slew   : Option (BitVec 8) := none   -- kept TLY_CTL.SLEW | 8 | 16 R654 | none accepted
  epoch  : Option (BitVec 48 × BitVec 30) := none   -- kept epoch, seconds and ns | 78 | 16 R654 | none accepted
  late   : Option (BitVec 4) := none   -- kept TLY_LATE | 4 | 16 R654 | none accepted
  deriving DecidableEq, Repr

/-- The tally and the TLY registers (R72 to R80). -/
structure TlySt where
  now      : Tally := 0              -- the tally, TLY_NOW | 64 | 02 R37 R72 | 0 (R38: an era starts at 0)
  nowHi    : W32 := 0                -- latched TLY_NOW_HI | 32 | 02 R72 | DESIGN CHOICE 0, log 2
  slew     : BitVec 8 := 0x14        -- TLY_CTL.SLEW | 8 | 02 R73 | 0x14
  ptpport  : Bool := false           -- TLY_CTL.PTPPORT | 1 | 02 R73 | 0
  relock   : Bool := false           -- TLY_CTL.RELOCK | 1 | 02 R73 | 0
  rate     : BitVec 3 := 1           -- TLY_CTL.RATE | 3 | 02 R73 | 0x1
  source   : BitVec 2 := 0           -- TLY_CTL.SOURCE | 2 | 02 R73 | 0x0
  holdEdges : Nat := 0               -- frame edges in the present holdover, TLY_STAT.HOLD in seconds | 8 | 02 R75 | 0
  refused  : Bool := false           -- TLY_STAT.REFUSED | 1 | 02 R75 | 0
  lost     : Bool := false           -- TLY_STAT.LOST | 1 | 02 R75 | 0
  state    : TState := .freeRun      -- TLY_STAT.STATE | 3 | 02 R75 | 0x0
  slo      : W32 := 0                -- TLY_EPOCH_SLO | 32 | 02 R76 | 0
  shi      : BitVec 16 := 0          -- TLY_EPOCH_SHI | 16 | 02 R76 | 0
  ns       : BitVec 30 := 0          -- TLY_EPOCH_NS | 30 | 02 R76 | 0
  epSec    : BitVec 48 := 0          -- epoch in force, seconds | 48 | 02 R76 R42 | 0
  epNs     : BitVec 30 := 0          -- epoch in force, ns | 30 | 02 R76 R42 | 0
  late     : BitVec 4 := 0           -- TLY_LATE bits 3:0 | 4 | 02 R77 | 0
  cDropped : BitVec 8 := 0           -- TLY_CNT_LATE.DROPPED | 8 | 02 R78 | 0
  cDup     : BitVec 8 := 0           -- TLY_CNT_LATE.DUP | 8 | 02 R78 | 0
  cReject  : BitVec 8 := 0           -- TLY_CNT_LATE.REJECT | 8 | 02 R78 | 0
  cLate    : BitVec 8 := 0           -- TLY_CNT_LATE.LATE | 8 | 02 R78 | 0
  skip     : BitVec 64 := 0          -- skip count TLY_CNT_SKIP | 64 | 02 R79 | 0
  skipHi   : W32 := 0                -- latched TLY_CNT_SKIP_HI | 32 | 02 R79 | 0
  target   : Option Tally := none    -- the value of R42 at the last PTP message | 64 | 02 R42 | none before a message
  servoNs  : Int := 0                -- PTP servo offset, ns | - | 02 R41 R42 | DESIGN CHOICE 0, log 2
  skipNext : Nat := 0                -- frames to skip at the next edge | 64 | 02 R47 R50 | 0, no skip is due
  slewNs   : Int := 0                -- phase error being slewed out, ns | - | 02 R46 R48 | 0, no slew is due
  aligned  : Bool := false           -- an alignment has been made in this era | 1 | 02 R47 | 0
  skipped  : List (Nat × Nat) := []  -- tallies skipped in this era, first and last | - | 02 R61 | none
  kept     : TlyKept := {}           -- settings kept by the Steward | - | 16 R654 | none accepted
  deriving DecidableEq, Repr

/-- One event in the queue: its stamp (R52), the tally at which it is staged (R56 to R59), whether it was late, and what
it does. `by_` is the session, script line or keyword slot that posted it (R97, R692). -/
structure Event where
  src   : Src
  seq   : BitVec 16
  stamp : Tally
  due   : Tally
  late  : Bool
  by_   : Option Origin
  eff   : Effect
  bare  : Bool := false          -- its command named no tally (R63)
  deriving DecidableEq, Repr

/-- The event queue (R52 to R68) and the sequence counters of the sources inside the part. -/
structure EvqSt where
  entries : List Event := []        -- event queue, 2048 entries shared by source | - | 02 R68 | empty (R80)
  held    : List Event := []        -- events kept by their source while its share is full | - | 02 R68 | empty
  deskSeq : BitVec 16 := 0          -- next Desk sequence | 16 | 02 R52, 03 R94 | DESIGN CHOICE 0, log 2
  larderSeq : BitVec 16 := 0        -- next Larder sequence | 16 | 02 R52 | DESIGN CHOICE 0, log 2
  hearthSeq : BitVec 16 := 0        -- next Hearth sequence | 16 | 02 R52, 13 R556 | DESIGN CHOICE 0, log 2
  deriving DecidableEq, Repr

/-! ### The Desk (spec 03) -/

/-- Access level (R115), in the code order of DSK_SESSn.LEVEL. -/
inductive Level where
  | visitor | keeper | owner
  deriving DecidableEq, Repr

/-- What an item of an output buffer is (R112, R113). -/
inductive OutKind where
  | reply | echo | prompt | notice | dropped (n : Nat)
  deriving DecidableEq, Repr

/-- One item of an output buffer: its kind, its characters, and how many of them the carrier has taken. -/
structure OutItem where
  kind : OutKind
  text : String
  sent : Nat
  deriving DecidableEq, Repr

/-- An open batch of a session (R509): each staged page with its image and the commit count of the page at staging. -/
structure Batch where
  pages : List (Nat × List Byte × Nat)
  deriving DecidableEq, Repr

/-- One console session (R81, Table 3.9). -/
structure Session where
  opened   : Bool := false           -- DSK_SESSn.OPEN | 1 | 03 R143 | 0
  machine  : Bool := false           -- DSK_SESSn.MODE | 1 | 03 R143 | 0
  level    : Level := .visitor       -- DSK_SESSn.LEVEL | 2 | 03 R143 | 0x0
  tag      : BitVec 16 := 0          -- DSK_SESSn.TAG | 16 | 03 R143 | 0
  held     : Bool := false           -- DSK_SESSn.FAILS5 | 1 | 03 R143 R120 | 0
  fails    : Nat := 0                -- failed unlocks of the session | - | 03 R120 | 0
  expect   : Option Nat := none      -- tag expected next; none: any | 16 | 03 R103 | none (R103)
  hist     : List (String × List String) := []  -- last 16 lines and their replies | - | 03 R104 | empty
  off      : List String := []       -- objects the notice mask disables | - | 03 R111 | none (R111)
  typed    : String := ""            -- partial input line | - | 03 R84 | empty
  esc      : Bool := false           -- inside an escape sequence | 1 | 03 Table 3.3 | 0
  cr       : Bool := false           -- the last character was CR, which a LF may follow | 1 | 03 R90 | 0
  next     : Option Bool := none     -- mode from the next line on; true for MACHINE | 1 | 03 R98 | none
  out      : List OutItem := []      -- output buffer, 8 KiB | - | 03 R112 | empty
  mid      : Bool := false           -- what was put there last does not end a line | 1 | 03 Table 3.2 | 0
  waiting  : Option (List String) := none   -- a reply that does not fit yet | - | 03 R114 | none
  busy     : Bool := false           -- a line whose work has not ended is unanswered | 1 | 03 R86 R87 | 0
  busyTag  : Option Nat := none      -- tag of that line | 16 | 03 R87 | none
  busyLine : Option String := none   -- text of that MACHINE line, for its stored reply | - | 03 R107 | none
  inq      : List String := []       -- lines received and not yet read | - | 03 R86 R114 | empty
  dropPend : Nat := 0                -- notices discarded and not yet reported | - | 03 R113 | 0
  keys     : List (Nat × Bool) := [] -- partition passwords held; true for write | - | 12 R504 | none
  batch    : Option Batch := none    -- the session's open batch | - | 12 R509 | none
  peer     : String := ""            -- TCP peer | - | 03 R696 | empty
  port     : Nat := 0                -- TCP port's network port | 1 | 03 Table 3.1 | DESIGN CHOICE 0, log 2
  deriving DecidableEq, Repr

/-- An effect that waits for its reply to leave (R688): the session and what then happens. -/
inductive Deferred where
  | uart (baud : Option (BitVec 22)) (flow : Option Bool)
  | house (h : House)
  | resetFull
  | resetWarm
  | wakeRelease
  | domains (cfg : BitVec 12)
  deriving DecidableEq, Repr

/-- What the line in progress of the morning script waits for: nothing, the house move it started (R128), or work that
its reply follows (R87). -/
inductive ScriptWait where
  | no | move | work
  deriving DecidableEq, Repr

/-- Where the morning script stands (R126 to R132). -/
inductive Script where
  | idle
  | running (line : Nat) (wait : ScriptWait)
  deriving DecidableEq, Repr

/-- A keyword event that waits for its macro (R136, R491): slot, Porter sequence, tally, and RTC time when heard in VAULT. -/
structure Keyword where
  slot  : Nat
  seq   : BitVec 16
  tally : Option Tally
  rtc   : Option Nat
  deriving DecidableEq, Repr

/-- The Desk (R81 to R146). -/
structure DeskSt where
  sess0    : Session := { opened := true }   -- session S0 | - | 03 R81 | open (S0 opens when PD2 powers on)
  sess1    : Session := {}           -- session S1 | - | 03 R81 | closed
  sess2    : Session := {}           -- session S2 | - | 03 R81 | closed
  sess3    : Session := {}           -- session S3 | - | 03 R81 | closed
  tcpPort  : BitVec 16 := 0x139F     -- DSK_CTL.TCPPORT | 16 | 03 R141 | 0x139F
  morning  : Bool := true            -- DSK_CTL.MORNING | 1 | 03 R141 | 1
  cdcen    : Bool := true            -- DSK_CTL.CDCEN | 1 | 03 R141 | 1
  tcpen    : Bool := true            -- DSK_CTL.TCPEN | 1 | 03 R141 | 1
  baud     : BitVec 22 := 0x1C200    -- DSK_UART.BAUD | 22 | 03 R142 | 0x1_C200
  flow     : Bool := false           -- DSK_UART.FLOW | 1 | 03 R142 | 0
  cCrc     : BitVec 8 := 0           -- DSK_CNT.CRC | 8 | 03 R144 | 0
  cSeq     : BitVec 8 := 0           -- DSK_CNT.SEQ | 8 | 03 R144 | 0
  cDup     : BitVec 8 := 0           -- DSK_CNT.DUP | 8 | 03 R144 | 0
  drop     : List (BitVec 8) := [0, 0, 0, 0]   -- DSK_DROP fields of S0 to S3 | 4 × 8 | 03 R145 | 0
  claims   : List (String × Nat) := []         -- claims: object and session | - | 03 R122 | none (R83)
  deferred : List (Nat × Deferred) := []       -- effects held for their reply | - | 03 R688 | none
  ready    : Bool := false           -- !desk.ready has been sent | 1 | 03 R131 | 0
  script   : Script := .running 1 .no        -- morning script | - | 03 R126 | started with PD2 (R126)
  kwq      : List Keyword := []      -- keywords whose macros wait | 8 | 03 R136 | empty
  refused  : List (Nat × String) := []         -- TCP connections answered busy and closed (peer text sent) | - | 03 R82 | none
  deriving DecidableEq, Repr

/-! ### The weave engine and the Innkeeper (specs 04, 05, 06) -/

/-- A bare F32 as its 32 bits. -/
abbrev F32 := W32

/-- The record of one layer for one row (Table 5.6): state (codes of the output format in MATCH), two outputs with exponents,
the pointer, the pointer as it stood at the start of the round in progress (R193), the adaptation record (R175): the maxima
recorded, newest first, at most 8; e₀ − HR of the fill whose copies of Qmax × 2^(e₀ − HR) complete the window (R173); and the
exponent. An element of a G6 vector holds its block's shared exponent above its six-bit code. -/
structure LayerRow where
  s0    : List F32 := []
  s1    : List F32 := []
  sexp  : Int := 0
  sexp1  : Int := 0
  out0  : List Nat := []
  out1  : List Nat := []
  oexp0 : Int := 0
  oexp1 : Int := 0
  ptr   : Bool := false
  rptr  : Bool := false
  win   : List F32 := []
  fill  : Option Int := none
  exp   : Int := 0
  deriving DecidableEq, Repr

/-- One step on the diagonal (R192, R204): the frame it samples (counted in own-rate steps), its code, its MUTE mark
(R402), and the input samples, Q23 containers. -/
structure StepRec where
  idx  : Nat
  code : StepCode
  mute : Bool
  ins  : List W32
  deriving DecidableEq, Repr

/-- A result in the output FIFO (R20): the own-rate frame edges until it is sent, its Q23 samples, its MUTE mark (R402), and
whether the guest was muted by an event in the round of the result (R278, R279, R424). -/
structure OutRes where
  due  : Nat
  vals : List W32
  mute : Bool
  soft : Bool
  deriving DecidableEq, Repr

/-- Guest states (Table 6.1), in the code order of INN_GINFO.STATE. -/
inductive GState where
  | free | registered | staying | leaving | away | quarantined
  deriving DecidableEq, Repr

/-- What happens when a LEAVING guest's last step ends (Table 6.2). -/
inductive LeaveTo where
  | registered | away
  deriving DecidableEq, Repr

/-- One guest (R234, Table 6.8; audio: Table 10.10). -/
structure Guest where
  state   : GState := .free
  cls     : GClass := .main
  div     : Nat := 1
  nin     : Nat := 1
  nout    : Nat := 1
  plan    : String := ""
  prec    : Prec := .wide
  row     : Nat := 0
  room    : Nat := 0
  join    : Nat := 0              -- rooms held: 0, 1, 2 or 4
  c       : Nat := 0              -- check-in or return tally
  phase   : Nat := 0
  code    : StepCode := .run      -- present step code of the row
  leaveTo : LeaveTo := .registered
  ended   : Bool := false         -- END has been applied
  swapping : Bool := false        -- a swap-in has not ended (R254)
  filled  : Nat := 0              -- rooms of that swap-in filled so far
  lates   : Bool := false         -- SWAPLATE counted for this return
  writing : Bool := false         -- a write-back has not ended (R250)
  gone    : Bool := false         -- LEAVING, its row released while its rooms go to the cellar (R250, R260)
  recs    : List Bool := []       -- which layers have an adaptation record in its rooms (R175)
  hist    : List (List W32) := []  -- input samples of steps no longer on the diagonal, newest first (Table 5.6)
  shed    : Bool := false         -- INN_GINFO.SHED
  bypass  : Bool := false         -- guest.set bypass= (03 keyword macro example)
  steps   : List StepRec := []    -- steps on the diagonal, newest first
  layers  : List LayerRow := []   -- one record per layer of this chip
  image   : List LayerRow := []   -- the records its cellar image was written from (R250)
  fifo    : List OutRes := []     -- output FIFO, 2 frames
  cur     : Option (List W32) := none  -- result sent in the present frame; none: the dry value
  ports   : Tab (List Nat) := []  -- conditioning in force, per port (R223)
  portsN  : Tab (List Nat) := []  -- next half of the conditioning buffers
  ins     : List Nat := []        -- AUD_GIN source codes
  outs    : List Nat := []        -- AUD_GOUT destination codes
  thru    : Bool := false         -- AUD_GDRY.POLICY
  fade    : Nat := 5              -- AUD_GDRY.FADE, ms
  mute    : Bool := false         -- AUD_GDRY.MUTE
  fading  : Bool := false         -- being faded out before a check-out (R18)
  hmute   : Bool := false         -- AUD_GDRY.HMUTE
  lostSrc : Bool := false         -- AUD_GDRY.LOST
  gain    : F32 := 0x3F800000     -- present gain g of R424
  clip    : BitVec 16 := 0        -- AUD_GCNT.CLIP
  under   : BitVec 16 := 0        -- AUD_GCNT.UNDER
  pf      : Tab Nat := []         -- first index of the last request per port (R317)
  muted   : Bool := false         -- mute state whose fade is under way (R424)
  deriving DecidableEq, Repr

/-- A loaded layer's live scale settings (R182, Table 4.7). -/
structure LayerSet where
  mode     : SMode
  win      : Nat
  hr       : Nat
  exp0     : Int
  switched : Bool := false
  drift    : Bool := false
  pendMove : Bool := false
  deriving DecidableEq, Repr

/-- A hop of a loaded plan (R392 to R401): its entry, binding, late policy, window half contents and counters. -/
structure Hop where
  def_   : HopDef
  late   : HopLate
  route  : Option Nat := none
  key    : Option W32 := none
  win    : Option Nat := none
  buf    : Memory := []           -- the delivery buffer of its window, 2 × ROWS × R bytes (R394)
  recs   : List (Nat × Nat) := [] -- valid on-time records: round, row
  prev   : List (Nat × List Byte) := []         -- last vector used, per row
  noted  : Option Nat := none                   -- tally of the last `!plan.hoplate`
  deriving DecidableEq, Repr

/-- A loaded plan (R225 to R230) and its bundle (R203). -/
structure Plan where
  name    : String
  src     : String := ""
  nLayers : Nat
  rows    : Nat
  rates   : BitVec 8
  chip    : Nat
  chips   : Nat
  stakes  : Nat
  base    : Nat
  key     : Nat
  member  : Nat := 0              -- MEMBER (Table 5.9)
  label   : List Byte := []       -- NAME (Table 5.9)
  body    : PlanBody
  sets    : List LayerSet
  hops    : List Hop := []
  prec    : Option Prec := none
  hearth  : Option Nat := none
  hmuted  : Bool := false
  quar    : Bool := false
  pendQuar : Option Nat := none   -- cause of a quarantine due at the next round start
  deriving DecidableEq, Repr

/-- The counters of one stake (Table 5.11) and its status bits (Table 5.10). -/
structure Stake where
  fault : Bool := false          -- STK_STAT.FAULT
  peak  : BitVec 16 := 0         -- STK_CYC.PEAK
  last  : BitVec 16 := 0         -- STK_CYC.LAST
  ovr   : W32 := 0               -- STK_OVR
  ded   : BitVec 16 := 0         -- STK_ECC.DED
  sec   : BitVec 16 := 0         -- STK_ECC.SEC
  clip  : BitVec 16 := 0         -- STK_SCL_CNT.CLIPSTEP
  nan   : BitVec 16 := 0         -- STK_SCL_CNT.NAN
  deriving DecidableEq, Repr

/-- What a room is doing when no guest simply holds it (R242, R282). -/
inductive RoomUse where
  | zeroing | writing
  deriving DecidableEq, Repr

/-- A zeroing that is due or in progress (R243, R244): its room, whether a check-in waits for it, and the 64-byte lines cleared. -/
structure ZeroJob where
  room    : Nat
  checkin : Bool
  cleared : Nat := 0
  deriving DecidableEq, Repr

/-- The weave engine: plans, stakes and the round in progress. -/
structure WeaveSt where
  plans   : List Plan := []              -- loaded plans and bundles | - | 05 R203 R225 | none
  stakes  : Tab Stake := []              -- STK_STAT.FAULT and the counters of stakes 0–47 | - | 05 R231 R232 | 0
  todo    : List (Nat × Nat × Nat) := [] -- jobs of the round not yet complete: stake, slot, row | - | 05 R194 R200 | none
  round   : Bool := false                -- a round is in progress | 1 | 05 R194 | 0
  abandoned : List Nat := []             -- guests abandoned in the round in progress | - | 06 R262 | none
  undo    : List (Nat × Nat × Nat × LayerRow) := []  -- jobs complete in the round: stake, slot, guest, its record before | - | 05 R190 | none
  deriving DecidableEq, Repr

/-- The Innkeeper (R234 to R287). -/
structure InnSt where
  guests   : Tab Guest := []             -- 512 guests | - | 06 R234 | all FREE (Table 6.8)
  rooms    : Tab Nat := []               -- rooms held: room to guest | 32 | 06 R240 R282 | none (INN_ROOMS 0)
  inUse    : Tab RoomUse := []           -- rooms being zeroed or written back | 32 | 06 R242 R282 | none (INN_ZEROING 0)
  zeroq    : List ZeroJob := []          -- their zeroings, in the order asked for | - | 06 R243 R244 | none
  ports    : Tab (Nat × String) := []    -- bank-port leases: 4 × bank + port to stake and bundle | 32 | 06 R268 | none
  thermal  : Bool := false               -- INN_STAT.THERMAL | 1 | 06 R281 | 0
  hotShed  : Bool := false               -- a thermal shed waits for the next round start | 1 | 06 R263 R265 | 0
  overload : Bool := false               -- INN_STAT.OVERLOAD | 1 | 06 R281 | 0
  overSent : Bool := false               -- !inn.overload sent since OVERLOAD was cleared | 1 | 06 R266 | 0
  round    : W32 := 0                    -- INN_ROUND | 32 | 06 R282 | 0
  cellarLo : BitVec 12 := 0              -- INN_CELLAR_LO 31:20 | 12 | 06 R283 | 0
  cellarHi : BitVec 16 := 0              -- INN_CELLAR_HI | 16 | 06 R283 | 0
  ovrn     : BitVec 5 := 8               -- INN_SHED.OVRN | 5 | 06 R285 | 0x08
  enable   : Bool := true                -- INN_SHED.ENABLE | 1 | 06 R285 | 1
  cShed    : BitVec 8 := 0               -- INN_CNT.SHED | 8 | 06 R286 | 0
  cSwap    : BitVec 8 := 0               -- INN_CNT.SWAPLATE | 8 | 06 R286 | 0
  cQuar    : BitVec 8 := 0               -- INN_CNT.QUAR | 8 | 06 R286 | 0
  cRevoke  : BitVec 8 := 0               -- INN_CNT.REVOKE | 8 | 06 R286 | 0
  gsel     : BitVec 9 := 0               -- INN_GSEL | 9 | 06 R287 | 0
  overruns : List Bool := []             -- overrun record of the last 16 rounds, newest first | 16 | 06 R262 | none
  lastAband : List Nat := []             -- guests abandoned in the latest overrun round | - | 06 R262 | none
  quarG    : List (Nat × Nat) := []      -- guests to quarantine at the next round start, with cause | - | 06 R273 | none
  swapT    : Nat × Nat := (0, 0)         -- tally and rooms of swap-ins accepted for it | - | 06 R253 | DESIGN CHOICE (0,0), log 2
  chans    : Tab Nat := []               -- cellar channels in use: channel to guest | 8 | 06 R248 | none
  deriving DecidableEq, Repr

/-! ### The Larder and memory (spec 07) -/

/-- A table descriptor (Table 7.1). -/
structure TableD where
  name   : String
  local_ : Bool
  addr   : Nat
  route  : Nat
  key    : W32
  offset : Nat
  rows   : Nat
  size   : Nat
  fmt    : Nat
  elems  : Nat
  zp     : Nat
  pin    : Bool
  pf     : Bool
  deriving DecidableEq, Repr

/-- A request being served: the tally of its event, the tally it named before it was late (R55), and the rows still to fetch and already read. -/
structure Serve where
  src    : Src
  seq    : BitVec 16
  stamp  : Tally
  named  : Tally
  req    : LdrReq
  rows   : List (Nat × List Byte)
  wait   : List Nat
  deriving DecidableEq, Repr

/-- A fetch slot in use (R308): table, row, whether a prefetch, the route when remote, the guest whose bundle owns it, and the
bytes a READ has brought, whether all of them, and whether poisoned. -/
structure Fetch where
  table    : Nat
  row      : Nat
  prefetch : Bool
  route    : Option Nat
  guest    : Nat
  data     : List Byte := []
  full     : Bool := false
  poison   : Bool := false
  deriving DecidableEq, Repr

/-- A result in the delivery store (R305), as F32, with the tally its request named (R55). `posted` says that its event waits for an
entry of the Larder's share (R299). -/
structure Delivery where
  guest : Nat
  port  : Nat
  src   : Src
  seq   : BitVec 16
  stamp : Tally
  named : Tally
  req   : LdrReq
  vals  : List Nat
  posted : Bool := false
  deriving DecidableEq, Repr

/-- One line of the row cache (R311): its set, its table, line offset / 64, its pin mark, and the bytes of a REMOTE table's line
(a LOCAL line always equals the memory it covers, R315). -/
structure Line where
  set  : Nat
  table : Nat
  off  : Nat
  pin  : Bool
  data : List Byte := []
  deriving DecidableEq, Repr

/-- The Larder (R288 to R316, R325). -/
structure LdrSt where
  pfen    : Bool := true                 -- LDR_CTL.PFEN | 1 | 07 R325 | 1
  tables  : Tab TableD := []             -- 64 table descriptors | - | 07 R288 | none (LDR_STAT.TABLES 0)
  lastB   : BitVec 9 := 0                -- LDR_BIND.LAST | 9 | 07 R325 | 0
  unbind  : List Nat := []               -- routes whose unbind waits (R294) | - | 07 R294 | none
  queue   : List Serve := []             -- requests waiting for service | - | 07 R299 R308 | empty
  serving : List Serve := []             -- requests whose rows are being fetched | - | 07 R308 | empty
  slots   : Tab Fetch := []              -- fetch slots in use, 64 | - | 07 R308 | none (LDR_STAT.SLOTS 0x40)
  store   : List Delivery := []          -- delivery store, 512 KiB | - | 07 R305 | empty
  cache   : List Line := []              -- row cache lines, most recently used first | 8 MiB | 07 R311 | DESIGN CHOICE empty, log 2
  whole   : List Nat := []               -- pinned LOCAL tables of which every line is cached | - | 07 R313 | none
  pinNext : Tab Nat := []                -- pinned REMOTE tables still loading: the next row to fetch | - | 07 R313 | none
  applied : List (Nat × Nat × Nat × Src × BitVec 16) := [] -- latest delivery applied per guest and port: stamped tally, request's source and sequence | - | 07 R300 R307 | none
  cHit    : W32 := 0                     -- LDR_CNT_HIT | 32 | 07 R325 | 0
  cMiss   : W32 := 0                     -- LDR_CNT_MISS | 32 | 07 R325 | 0
  cBad    : BitVec 8 := 0                -- LDR_CNT_DLV.BADREQ | 8 | 07 R325 | 0
  cNorow  : BitVec 8 := 0                -- LDR_CNT_DLV.NOROW | 8 | 07 R325 | 0
  cSuper  : BitVec 8 := 0                -- LDR_CNT_DLV.SUPER | 8 | 07 R325 | 0
  cLate   : BitVec 8 := 0                -- LDR_CNT_DLV.LATE | 8 | 07 R325 | 0
  cEcc    : BitVec 8 := 0                -- LDR_CNT_ERR.ECC | 8 | 07 R325 | 0
  cRoute  : BitVec 8 := 0                -- LDR_CNT_ERR.ROUTE | 8 | 07 R325 | 0
  cNan    : BitVec 16 := 0               -- LDR_CNT_CLIP.NAN | 16 | 07 R325 | 0
  cClip   : BitVec 16 := 0               -- LDR_CNT_CLIP.CLIP | 16 | 07 R325 | 0
  tsel    : BitVec 6 := 0                -- LDR_TSEL | 6 | 07 R325 | 0
  deriving DecidableEq, Repr

/-- The MEM block (R319 to R326). -/
structure MemSt where
  rate    : BitVec 2 := 0                -- MEM_STAT.RATE | 2 | 07 R326 | 0
  eccOn   : Bool := false                -- MEM_STAT.ECCON | 1 | 07 R326 | 0
  hot     : Bool := false                -- MEM_STAT.HOT | 1 | 07 R326 | 0
  fail    : Bool := false                -- MEM_STAT.TRAINFAIL | 1 | 07 R326 | 0
  trained : Bool := false                -- MEM_STAT.TRAINED | 1 | 07 R326 | 0
  ctlRate : BitVec 2 := 2                -- MEM_CTL.RATE | 2 | 07 R326 | 0x2
  ctlEcc  : Bool := true                 -- MEM_CTL.ECC | 1 | 07 R326 | 1
  eccNext : Bool := true                 -- MEM_CTL.ECC as taken at PD9's power-on | 1 | 07 R321 | 1
  rateNext : BitVec 2 := 2               -- MEM_CTL.RATE as taken for the training in progress | 2 | 07 R326 | 0x2
  ded     : BitVec 16 := 0               -- MEM_ECC.DED | 16 | 07 R326 | 0
  sec     : BitVec 16 := 0               -- MEM_ECC.SEC | 16 | 07 R326 | 0
  erra    : BitVec 48 := 0               -- MEM_ERRA | 48 | 07 R326 | 0
  valid   : Bool := false                -- SYS_MEMSIZE.VALID | 1 | 01 R31 | 0
  installed : BitVec 8 := 0              -- SYS_MEMSIZE.INSTALLED | 8 | 01 R31 | 0x00
  usable  : BitVec 8 := 0                -- SYS_MEMSIZE.USABLE | 8 | 01 R31 | 0x00
  bodies  : Tab PlanBody := []           -- bodies of plan images in LPDDR5X, by address | - | 05 R225, log 4 | none
  deriving DecidableEq, Repr

/-! ### Coach (specs 08, 09) -/

/-- A waybill (Table 8.3). -/
structure Waybill where
  wid    : W32
  op     : Nat
  flags  : Nat
  aop    : Nat
  rsvd   : Nat
  laddr  : Nat
  len    : Nat
  rkey   : W32
  roff   : Nat
  imm    : W32
  tagw   : W32
  wroute : Nat
  wcount : W32
  tally  : Tally
  met    : Bool := false          -- a WAIT whose counter has been reached (R358)
  hop    : Bool := false          -- a boundary record (R397)
  larder : Option Nat := none     -- a Larder READ, with its fetch slot (R309)
  data   : Option (List Byte) := none  -- the bytes of a part-made message (a hop record, a DESK reply)
  issued : Bool := false
  armed  : Bool := false          -- an ARM that has fired issues as AOP
  psn    : Nat := 0
  psns   : Nat := 0
  msn    : BitVec 16 := 0
  post   : Nat := 0               -- order of posting across the part (R361)
  got    : Nat := 0               -- READ response packets placed
  poison : Bool := false
  deriving DecidableEq, Repr

/-- Route states (Table 8.2), in the code order of CCH_RINFO.STATE. -/
inductive RState where
  | closed | opened | error | closing
  deriving DecidableEq, Repr

/-- What a route is bound to (Table 8.1). -/
inductive Bind where
  | none | larder | desk
  deriving DecidableEq, Repr

/-- A route's context and queues (R327, Table 8.1) and its wire state (R373 to R388). -/
structure Route where
  state    : RState := .closed
  port     : Nat := 0
  peer     : String := ""
  peerPort : Nat := 51120
  peerRoute : Option Nat := none         -- required: `none` until it is given
  vlan     : Option Nat := none
  dscp     : Nat := 0
  lossless : Bool := false
  sq       : Nat := 64
  rq       : Nat := 16
  sring    : Nat := 0
  rring    : Nat := 0
  bind     : Bind := .none
  level    : Level := .visitor
  reply    : Bool := false
  rejLate  : Bool := false
  status   : Nat := 0
  ccOut    : W32 := 0
  ccIn     : W32 := 0
  sendq    : List Waybill := []
  recvq    : List (Nat × Nat) := []      -- posted buffers: address, length
  pool     : Nat := 0                    -- internal buffers free to this route (R354)
  lines    : List (BitVec 16 × List Byte) := []   -- DESK-bound lines received and not yet run
  pending  : List (List Event) := []     -- Larder records not yet posted, by internal buffer (R294, R295)
  psn      : Nat := 0                    -- next PSN to send
  msn      : BitVec 16 := 0
  ackd     : Nat := 0                    -- oldest unacknowledged PSN
  retx     : List (Nat × Packet) := []   -- retransmit store: PSN and packet
  epsn     : Nat := 0                    -- next PSN expected
  nakSent  : Bool := false
  unacked  : Nat := 0                    -- packets executed since the last ACK
  place    : Nat := 0                    -- bytes of the present message placed
  cur      : Option (Nat × Nat) := none  -- buffer the present SEND fills
  buf      : List Byte := []             -- bytes of the present SEND on an internal buffer
  curTag   : W32 := 0
  curPsn   : Nat := 0                    -- PSN of the first packet of the present message
  retries  : Nat := 0
  rnr      : Nat := 0
  rnrPsn   : Option Nat := none          -- PSN of the last RNR
  rnrWait  : Bool := false               -- its wait is on (R383)
  rate     : Nat := 0                    -- present rate, 1/65536 of line rate
  easeIn   : Bool := false               -- an EASE came in this TIMER
  easeOut  : Bool := false               -- an EASE was sent in this TIMER
  ceCnt    : Nat := 0                    -- CE-marked packets since the last EASE sent
  deriving DecidableEq, Repr

/-- A window (R333 to R338). -/
structure Window where
  opened : Bool := false
  tag    : BitVec 22 := 0
  addr   : Nat := 0
  len    : Nat := 0
  rd     : Bool := false
  wr     : Bool := false
  route  : Option Nat := none
  hop    : Option (String × Nat) := none
  closing : Bool := false
  deriving DecidableEq, Repr

/-- A receipt (Table 8.6). -/
structure Receipt where
  wid    : W32
  route  : Nat
  target : Bool
  op     : Nat
  status : Nat
  len    : Nat
  imm    : W32
  tally  : Option Tally
  psn    : Nat
  tagw   : W32
  phase  : Bool
  deriving DecidableEq, Repr

/-- A receipt ring (R363). -/
structure Ring where
  head     : Nat := 0
  tail     : Nat := 0
  phase    : Bool := false
  reserved : Nat := 0
  entries  : List Receipt := []
  deriving DecidableEq, Repr

/-- Coach (R327 to R366). -/
structure CchSt where
  udp      : BitVec 16 := 0xC7B0         -- CCH_CTL.UDPPORT | 16 | 08 R365 | 0xC7B0
  routes   : Tab Route := []             -- 512 routes | - | 08 R327 | CLOSED (CCH_STAT 0)
  wins     : Tab Window := []            -- 1024 windows | - | 08 R333 | closed (CCH_STAT 0)
  rings    : Tab Ring := []              -- 64 receipt rings | - | 08 R363 | empty
  poolFree : Nat := 512                  -- internal receive buffers free | - | 08 R354 | 512
  rsel     : BitVec 9 := 0               -- CCH_RSEL | 9 | 08 R365 | 0
  post     : List W32 := List.replicate 16 0   -- CCH_POST0 to CCH_POST15 | 16 × 32 | 08 R365 | 0
  refused  : Bool := false               -- CCH_POSTSTAT.REFUSED | 1 | 08 R365 | 0
  accepted : Bool := false               -- CCH_POSTSTAT.ACCEPTED | 1 | 08 R365 | 0
  ringsel  : BitVec 6 := 0               -- CCH_RINGSEL | 6 | 08 R365 | 0
  wsel     : BitVec 10 := 0              -- CCH_WSEL | 10 | 08 R365 | 0
  cNoreply : BitVec 8 := 0               -- CCH_CNT.NOREPLY | 8 | 08 R365 | 0
  cRnr     : BitVec 8 := 0               -- CCH_CNT.RNR | 8 | 08 R365 | 0
  cKey     : BitVec 16 := 0              -- CCH_CNT.KEYFAIL | 16 | 08 R365 | 0
  sealed   : List Nat := []              -- rounds whose boundary half is sealed | - | 09 R399 | none
  posted   : Nat := 0                    -- waybills posted, for the order of R361 | - | 08 R361 | 0
  nakWait  : Tab Nat := []               -- frame edges until a route may send PEER-CLOSED again | - | 09 R372 | none
  deriving DecidableEq, Repr

/-- A frame a port has sent: a Coach packet with its header as the wire carries it, or one of the other frames of R389, R427 and R431. -/
inductive TxFrame where
  | coach (dst : String) (dport : Nat) (vlan : Option Nat) (prio dscp : Nat) (ect : Bool) (udpCsum : Bool) (hdr : List Byte) (k : Packet)
  | pfc (vec : Nat) (xoff : Bool)
  | arp (ip : String)
  | ndp (ip : String)
  | echo (ip : String) (data : List Byte)
  | igmp (v3 : Bool) (groups : List String)
  | rtp (dst : String) (dport dscp seq : Nat) (ts ssrc : W32) (pt : Nat) (samples : List (List W32))
  deriving DecidableEq, Repr

/-- One network port (R389, R406). -/
structure NetSt where
  ect    : Bool := true                  -- NET_CTL.ECT | 1 | 09 R406 | 1
  pfcpri : BitVec 3 := 3                 -- NET_CTL.PFCPRI | 3 | 09 R406 | 0x3
  mtu    : Bool := false                 -- NET_CTL.MTU | 1 | 09 R406 | 0
  fec    : BitVec 2 := 0                 -- NET_CTL.FEC | 2 | 09 R406 | 0x0
  speed  : Bool := false                 -- NET_CTL.SPEED | 1 | 09 R406 | 0
  en     : Bool := false                 -- NET_CTL.EN | 1 | 09 R406 | 0
  modp   : Bool := false                 -- NET_STAT.MOD | 1 | 09 R406 | 0
  paused : BitVec 8 := 0                 -- priorities paused by the peer; NET_STAT.PAUSED | 8 | 09 R385 R406 | 0
  fecok  : Bool := false                 -- NET_STAT.FECOK | 1 | 09 R406 | 0
  link   : Bool := false                 -- NET_STAT.LINK | 1 | 09 R406 | 0
  ccTimer : BitVec 8 := 0x32             -- NET_CC.TIMER | 8 | 09 R406 | 0x32
  ccRmin : BitVec 8 := 0x01              -- NET_CC.RMIN | 8 | 09 R406 | 0x01
  ccStep : BitVec 8 := 0x08              -- NET_CC.STEP | 8 | 09 R406 | 0x08
  ccCut  : BitVec 8 := 0x40              -- NET_CC.CUT | 8 | 09 R406 | 0x40
  ackt   : BitVec 8 := 4                 -- NET_ACK.ACKT | 8 | 09 R406 | 0x04
  ackn   : BitVec 8 := 8                 -- NET_ACK.ACKN | 8 | 09 R406 | 0x08
  llto   : BitVec 16 := 0x3E8            -- NET_RTO.LLTO | 16 | 09 R406 | 0x03E8
  lyto   : BitVec 16 := 0x14             -- NET_RTO.LYTO | 16 | 09 R406 | 0x0014
  cCsum  : BitVec 8 := 0                 -- NET_CNT_ERR.CSUM | 8 | 09 R406 | 0
  cFecU  : BitVec 8 := 0                 -- NET_CNT_ERR.FECUNC | 8 | 09 R406 | 0
  cFcs   : BitVec 8 := 0                 -- NET_CNT_ERR.FCS | 8 | 09 R406 | 0
  cDisc  : BitVec 8 := 0                 -- NET_CNT_ERR.DISCARD | 8 | 09 R406 | 0
  cNakS  : BitVec 8 := 0                 -- NET_CNT_REL.NAKSEQ | 8 | 09 R406 | 0
  cGoB   : BitVec 8 := 0                 -- NET_CNT_REL.GOBACK | 8 | 09 R406 | 0
  cTmo   : BitVec 8 := 0                 -- NET_CNT_REL.TIMEOUT | 8 | 09 R406 | 0
  cRnr   : BitVec 8 := 0                 -- NET_CNT_REL.RNR | 8 | 09 R406 | 0
  cEaseR : BitVec 16 := 0                -- NET_CNT_CC.EASE_RX | 16 | 09 R406 | 0
  cEaseT : BitVec 16 := 0                -- NET_CNT_CC.EASE_TX | 16 | 09 R406 | 0
  cXoffT : BitVec 16 := 0                -- NET_CNT_PFC.XOFF_TX | 16 | 09 R406 | 0
  cXoffR : BitVec 16 := 0                -- NET_CNT_PFC.XOFF_RX | 16 | 09 R406 | 0
  cHopL  : BitVec 16 := 0                -- NET_CNT_HOP.LATE | 16 | 09 R406 | 0
  cHopS  : BitVec 16 := 0                -- NET_CNT_HOP.STALE | 16 | 09 R406 | 0
  ip4    : W32 := 0                      -- NET_IP4 | 32 | 09 R406 | 0
  prefix4 : Nat := 0                     -- prefix length of the IPv4 address | 6 | 09 R389 | DESIGN CHOICE 0, log 2
  ip6    : String := ""                  -- static IPv6 address | 128 | 09 R389 | DESIGN CHOICE none, log 2
  mac    : BitVec 48 := 0                -- NET_MAC | 48 | 09 R406 | from Ledger: DESIGN CHOICE 0 in a blank part, log 2
  xoff   : Bool := false                 -- XOFF in force for the lossless priority | 1 | 09 R385 | 0
  tx     : List TxFrame := []            -- frames sent, newest first | - | 09 R367 R379 | none
  prof   : Nat := 0                      -- PTP profile, 0 default 1 ST 2059-2 | 1 | 09 R389 | DESIGN CHOICE 0, log 2
  twoStep : Bool := false                -- PTP two-step | 1 | 09 R389 | DESIGN CHOICE 0, log 2
  prio1  : Nat := 255                    -- PTP priority1 | 8 | 09 R391 | 255
  domain : Nat := 0                      -- PTP domain | 8 | 09 R389 | DESIGN CHOICE 0, log 2
  master : Bool := false                 -- the port is PTP master | 1 | 09 R391 | 0
  synced : Bool := false                 -- a PTP message has updated the servo | 1 | 09 R391 | 0
  deriving DecidableEq, Repr

/-! ### Audio and USB (spec 10) -/

/-- A TDM port (R442, R443). -/
structure TdmPort where
  hiz    : Bool := false
  bclkpol : Bool := false
  delay  : Bool := true
  fspol  : Bool := false
  fsw    : Bool := false
  slots  : BitVec 4 := 7
  phase  : BitVec 2 := 0
  div    : BitVec 2 := 0
  master : Bool := false
  en     : Bool := false
  lock   : Bool := false
  phasem : BitVec 8 := 0
  slip   : BitVec 16 := 0
  deriving DecidableEq, Repr

/-- AES67 flow states, in the code order of AUD_FINFO.STATE. -/
inductive FState where
  | idle | run | lost | wait
  deriving DecidableEq, Repr

/-- An AES67 flow (Table 10.4, Table 10.11). -/
structure Flow where
  portB   : Bool := false
  state   : FState := .idle
  ch      : Nat := 2
  ptime   : BitVec 2 := 2
  rate96  : Bool := false
  en      : Bool := false
  loss    : BitVec 16 := 0
  late    : BitVec 16 := 0
  playout : BitVec 16 := 48
  pt      : Nat := 98
  addr    : String := ""
  udp     : Nat := 0
  filter  : String := ""
  dscp    : Nat := 34
  tsoff   : W32 := 0
  ssrc    : W32 := 0
  seq     : Option Nat := none       -- next RTP sequence, expected or to be sent
  good    : Nat := 0                 -- consecutive packets on time while LOST
  jitter  : List (Nat × List W32) := []   -- jitter buffer: timestamp and one sample per channel
  acc     : List (Nat × List W32) := []   -- transmit samples of the packet being filled: frame index, samples
  ready   : List (Nat × List (List W32)) := []  -- packets complete and waiting to leave
  deriving DecidableEq, Repr

/-- One output of a frame: destination code, the 32 bits sent, or high impedance. -/
structure OutSlot where
  code : Nat
  val  : Option W32
  deriving DecidableEq, Repr

/-- The AUD block (R408 to R431, R442 to R445). -/
structure AudSt where
  ports  : List TdmPort := [{}, {}, {}, {}]    -- AUD_PORTn_CTL and _STAT, n = 0 to 3 | 4 × 64 | 10 R442 R443 | 0x0000_4700, 0
  gsel   : BitVec 9 := 0                 -- AUD_GSEL | 9 | 10 R444 | 0
  fsel   : BitVec 4 := 0                 -- AUD_FSEL | 4 | 10 R445 | 0
  rx     : List Flow := List.replicate 8 {}    -- receive flows | - | 10 R425 R445 | IDLE
  tx     : List Flow := List.replicate 8 {}    -- transmit flows | - | 10 R425 R445 | IDLE
  inNow  : List (Nat × W32) := []        -- input samples completed at the last edge, by source code | - | 10 R408 | none
  outNow : List OutSlot := []            -- what the outputs carried in the frames the last edge ended | - | 10 R420 | none
  deriving DecidableEq, Repr

/-- USB device states, in the code order of USB_STAT.STATE. -/
inductive UState where
  | detached | powered | default_ | address | configured | suspended
  deriving DecidableEq, Repr

/-- The USB device (R432 to R441, R446). -/
structure UsbSt where
  hsen    : Bool := true                 -- USB_CTL.HSEN | 1 | 10 R446 | 1
  bulken  : Bool := true                 -- USB_CTL.BULKEN | 1 | 10 R446 | 1
  uacen   : Bool := true                 -- USB_CTL.UACEN | 1 | 10 R446 | 1
  attach  : Bool := true                 -- USB_CTL.ATTACH | 1 | 10 R446 | 1
  rwake   : Bool := false                -- USB_STAT.RWAKE | 1 | 10 R446 | 0
  altIn   : BitVec 2 := 0                -- USB_STAT.ALTIN | 2 | 10 R446 | 0x0
  altOut  : BitVec 2 := 0                -- USB_STAT.ALTOUT | 2 | 10 R446 | 0x0
  addr    : BitVec 7 := 0                -- USB_STAT.ADDR | 7 | 10 R446 | 0x00
  hs      : Bool := false                -- USB_STAT.HS | 1 | 10 R446 | 0
  vbus    : Bool := false                -- USB_STAT.VBUS | 1 | 10 R446 | 0
  state   : UState := .detached          -- USB_STAT.STATE | 3 | 10 R446 | 0x0
  resumeTo : UState := .powered          -- state before SUSPENDED | 3 | 10 R439 | DESIGN CHOICE POWERED, log 2
  vid     : BitVec 16 := 0               -- USB_ID.VID | 16 | 10 R446 | from Ledger: DESIGN CHOICE 0 in a blank part, log 2
  pid     : BitVec 16 := 0               -- USB_ID.PID | 16 | 10 R446 | from Ledger: DESIGN CHOICE 0 in a blank part, log 2
  cBulk   : BitVec 8 := 0                -- USB_CNT.BULKERR | 8 | 10 R446 | 0
  cSusp   : BitVec 8 := 0                -- USB_CNT.SUSPEND | 8 | 10 R446 | 0
  cAband  : BitVec 8 := 0                -- USB_CNT.ABANDON | 8 | 10 R446 | 0
  cReset  : BitVec 8 := 0                -- USB_CNT.RESET | 8 | 10 R446 | 0
  fb      : W32 := 0                     -- USB_FB | 32 | 10 R446 | 0
  pullup  : Bool := false                -- D+ pull-up | 1 | 10 R441 | 0 (Table 15.4)
  inReset : Bool := false                -- reset seen and not yet configured, or no VBUS | 1 | 10 R424 | 0
  fifoIn  : List (List W32) := []        -- USB-to-AUD FIFO, oldest first | - | 02 Table 2.2, 10 R434 | empty
  bulkIn  : List (List Byte) := []       -- transfers answered on 0x86, newest first | - | 10 R435 | none
  wakeup  : Nat := 0                     -- resume signals given | - | 10 R440 | 0
  stalls  : Nat := 0                     -- control requests stalled | - | 10 R433 | 0
  deriving DecidableEq, Repr

/-! ### The Porter (spec 11) -/

/-- Porter modes (R464), in the code order of POR_STAT.EFF. -/
inductive PMode where
  | off | doze | listen | enrol
  deriving DecidableEq, Repr

/-- Gauge outcomes (Table 11.7), in the code order of POR_STAT.GAUGE. -/
inductive Gauge where
  | good | disagree | low | empty
  deriving DecidableEq, Repr

/-- A word slot record (Table 11.4): flags, threshold and templates. -/
structure Slot where
  en      : Bool := false
  wake    : Bool := false
  factory : Bool := false
  crcbad  : Bool := false
  n       : Nat := 0
  thr     : BitVec 8 := 205
  tpl     : List (List Nat) := []
  deriving DecidableEq, Repr

/-- An enrolment in progress (R467): slot, accepted templates, and their pairwise similarities. -/
structure Enrol where
  slot  : Nat
  takes : List (List Nat)
  sims  : List Nat
  deriving DecidableEq, Repr

/-- The VAULT word log entry (R488): slot, RTC time, WAKEFAIL mark. -/
structure VWord where
  slot : Nat
  rtc  : Nat
  fail : Bool
  seq  : BitVec 16
  deriving DecidableEq, Repr

/-- Factory slots 0 to 7 at reset: enabled, one ROM template, threshold 205 (R459). -/
def factorySlots : Tab Slot :=
  (List.range 8).map fun k => (k, { en := true, factory := true, n := 1, thr := 205 })

/-- The Porter island (R447 to R497). -/
structure PorSt where
  refract : BitVec 5 := 4                -- POR_CTL.REFRACT | 5 | 11 R494 | 0x04
  winpol  : Bool := false                -- POR_CTL.WINPOL | 1 | 11 R494 | 0
  bias    : Bool := false                -- POR_CTL.BIAS | 1 | 11 R494 | 0
  gain    : BitVec 3 := 2                -- POR_CTL.GAIN | 3 | 11 R494 | 0x2
  cancel  : Bool := false                -- POR_CTL.CANCEL | 1 | 11 R494 | 0
  mode    : PMode := .listen             -- POR_CTL.MODE | 2 | 11 R494 | 0x2
  cold    : Bool := true                 -- POR_STAT.COLD | 1 | 11 R495 | 1
  wakeOut : Bool := false                -- POR_STAT.WAKEOUT, the WAKE_OUT pin | 1 | 11 R495 | 0
  pend    : Option Nat := none           -- PENDING enrolment's slot, POR_STAT.PEND | 1 | 11 R474 R495 | 0
  gauge   : Gauge := .good               -- POR_STAT.GAUGE | 2 | 11 R495 | 0x0
  digital : Bool := false                -- POR_STAT.PATH | 1 | 11 R495 | 0
  onVbat  : Bool := false                -- POR_STAT.SUPPLY | 1 | 11 R495 | 0
  ovr     : Option Gauge := none         -- override of R484 in force | 2 | 11 R484 | none
  dozing  : Bool := true                 -- DOZE senses one frame in four | 1 | 11 R465 | DESIGN CHOICE 1, log 2
  frame   : Nat := 0                     -- frame count modulo 4 | 2 | 11 R465 | DESIGN CHOICE 0, log 2
  slotsel : BitVec 5 := 0                -- POR_SLOTSEL | 5 | 11 R496 | 0
  slots   : Tab Slot := factorySlots     -- retention SRAM slot records, 32 | 32 × 336 B | 11 R461 R496 | factory slots 205 (R459); user slots DESIGN CHOICE empty, log 2
  quals   : Tab Nat := []                -- consecutive qualifying embeddings per slot | - | 11 R456 | DESIGN CHOICE none, log 2
  refr    : Bool := false                -- refractory time running | 1 | 11 R457 | 0
  pathHold : Bool := false               -- 100 ms after a path change | 1 | 11 R454 | 0
  vlog    : List VWord := []             -- VAULT word log, 8 entries | 128 B | 11 R461 R488 | empty
  enrol   : Option Enrol := none         -- enrolment in progress | 512 B | 11 R467 | none
  seq     : BitVec 16 := 0               -- next Porter sequence | 16 | 11 R491 | DESIGN CHOICE 0, log 2
  held    : List Keyword := []           -- keyword events that wait for their share | 8 | 11 R493 | empty
  tally   : BitVec 40 := 0               -- POR_GAUGE charge tally | 40 | 11 R497 | 0
  est     : Nat := 2250                  -- capacity estimate in 0.1 mAh, POR_CAP.EST | 16 | 11 R483 R497 | 0x00E1 mAh
  nom     : BitVec 16 := 0xE1            -- POR_CAP.NOM | 16 | 11 R497 | 0x00E1
  mv      : BitVec 12 := 0               -- POR_VLOAD.MV | 12 | 11 R497 | 0
  lastChk : Nat := 0                     -- RTC frame of the last check, POR_VLOAD.AGE | 8 | 11 R497 | 0
  cWords  : BitVec 16 := 0               -- POR_CNT.WORDS | 16 | 11 R497 | 0
  cVault  : BitVec 8 := 0                -- POR_CNT.VAULT | 8 | 11 R497 | 0
  cDisc   : BitVec 8 := 0                -- POR_CNT.DISCARD | 8 | 11 R497 | 0
  frozen  : Bool := false                -- POR_AEC.FROZEN | 1 | 11 R497 | 0
  mu      : BitVec 8 := 0x40             -- POR_AEC.MU | 8 | 11 R497 | 0x40
  delay   : BitVec 8 := 0x10             -- POR_AEC.DELAY | 8 | 11 R497 | 0x10
  erle    : BitVec 6 := 0                -- POR_AEC.ERLE | 6 | 11 R497 | 0
  taps    : List W32 := []               -- the cancellation taps, F32; empty while all are zero | 256 × 32 | 11 R461 R477 R479 | all zero
  refDst  : W32 := 0                     -- POR_REF | 32 | 11 R497 | 0
  codes   : List Nat := []               -- newest feature vector, 16 codes | 16 × 8 | 11 R451 R453 | none formed
  refIn   : List F32 := []               -- reference at the base rate, newest first | - | 11 R475 | none
  refPhase : Nat := 0                    -- place between two 16 kHz samples, in 1/16000 of a frame | - | 11 R476 | DESIGN CHOICE 0, log 2
  refMix  : List F32 := []               -- cancellation reference at 16 kHz, newest first | 671 × 32 | 11 R475 R476 | none
  ticks   : Nat := 0                     -- 10 ms frames since the island's cold start, POR_RTC | 32 | 11 R497 | 0
  hold    : Bool := false                -- POR_WAKE.HOLD | 1 | 11 R497 | 0
  tmo     : BitVec 8 := 0x14             -- POR_WAKE.TMO | 8 | 11 R497 | 0x14
  removed : Bool := false                -- the cell is marked removed | 1 | 11 R486 | 0
  outcomes : List (Gauge × Nat × Nat) := []   -- outcomes kept: outcome, RTC seconds, mV | - | 11 R485 | none
  crcSaid : List Nat := []               -- slots whose CRC failure has been reported | - | 11 R463 | none
  wakeWord : Bool := false               -- WAKE_OUT was asserted by the newest VAULT word | 1 | 11 R489 | 0
  micOn   : Bool := true                 -- MICBIAS driven | 1 | 11 Table 11.1 R464 | 1 in LISTEN (R464)
  running : Bool := true                 -- the island runs (it stops without any supply) | 1 | 11 R450 | 1
  vbatOk  : Bool := true                 -- VBAT at or above 1.8 V | 1 | 11 R450 | DESIGN CHOICE 1, log 2
  deriving DecidableEq, Repr

/-! ### The Ledger (spec 12) -/

/-- Roles of a physical page, in the code order of LDG_PGINFO.ROLE. -/
inductive Role where
  | serves | pool | spare | retired | transit
  deriving DecidableEq, Repr

/-- A physical page (R498, LDG_PGINFO). -/
structure PhysPage where
  role    : Role
  writes  : BitVec 17 := 0
  stage   : BitVec 2 := 0
  stages  : List Nat := []       -- times each stage was reached (R527)
  lost    : Bool := false
  residue : Bool := false
  bad     : Bool := false        -- uncorrectable (R531)
  voice   : Bool := false        -- holds data of partition 1 or 2 (R537, R540)
  data    : List Byte := []
  deriving DecidableEq, Repr

/-- A partition's passwords and failures (R504 to R508). -/
structure PartSt where
  rpw    : BitVec 64 := 0
  wpw    : BitVec 64 := 0
  fails  : BitVec 8 := 0
  locks  : Nat := 0              -- lockouts since the last success
  locked : Bool := false
  endAt  : Nat := 0              -- powered frame at which the lockout ends
  deriving DecidableEq, Repr

/-- What a committed batch of an internal writer changes beside its pages (partition 1 and 2 contents). -/
inductive LUpd where
  | none
  | pass (l : Level) (p : String)
  | line (n : Nat) (t : Option String) (onerr : Option Bool)
  | onerr (on : Bool)
  | clearLines
  | keyword (slot : Nat) (t : Option String)
  | slot (k : Nat) (v : Slot)
  | wipe (part : Nat)
  | logPages (n : Nat)
  | clearLog
  deriving DecidableEq, Repr

/-- Who is answered when a commit ends. -/
inductive LWho where
  | nobody
  | batch (n : Nat)
  | enrolDone (o : Origin)
  | enrolSelf
  | line (o : Origin)
  deriving DecidableEq, Repr

/-- A commit that has been requested (R515): the staged pages of a session's batch with the commit count at staging, or what an
internal writer changes, and who reads its outcome. -/
structure LJob where
  pages : List (Nat × List Byte × Nat)
  upd   : LUpd
  who   : LWho
  deriving DecidableEq, Repr

/-- A log entry (Table 12.5). -/
structure LogEntry where
  lseq  : Nat
  era   : BitVec 16
  src   : Nat
  rtc   : Bool
  late  : Bool
  tally : Tally
  code  : BitVec 16
  evseq : BitVec 16
  arg   : BitVec 64
  arg2  : BitVec 16
  deriving DecidableEq, Repr

/-- A journal record (R516): the batch sequence, its pairs, whether the commit word is written and the map entered. -/
structure Journal where
  seq   : Nat
  pairs : List (Nat × Nat)
  word  : Bool
  entered : Bool
  deriving DecidableEq, Repr

/-- The Ledger and the Slate (R498 to R541). -/
structure LdgSt where
  map      : Tab Nat := []               -- page map: logical to physical where it is not the same number | 2048 × 16 | 12 R500 | DESIGN CHOICE identity, log 2
  phys     : Tab PhysPage := []          -- physical pages that differ from a blank page | 2144 × 256 B | 12 R498 | DESIGN CHOICE blank, log 2
  commits  : Tab Nat := []               -- commits per logical page, for R514 | - | 12 R514 | 0
  queue    : List LJob := []             -- commits requested and not yet run | - | 12 R515 | empty
  journal0 : Option Journal := none      -- journal record 0 | 128 B | 12 R500 R516 | none written
  journal1 : Option Journal := none      -- journal record 1 | 128 B | 12 R500 R516 | none written
  jseq     : Nat := 0                    -- next batch sequence | - | 12 R516 | DESIGN CHOICE 0, log 2
  parts    : Tab PartSt := []            -- partition keys | 256 B | 12 R500 R504 | no password set: DESIGN CHOICE, log 2
  user     : Memory := []                -- user Slate of partitions 4 to 7 | 2 KiB | 12 R500 R522 | DESIGN CHOICE 0, log 2
  sparesUsed : Nat := 0                  -- spares that have joined the pool; LDG_STAT.SPARES | 7 | 12 R541 | from Slate: DESIGN CHOICE none used, log 2
  retired  : BitVec 8 := 0               -- LDG_WEAR.RETIRED | 8 | 12 R541 | from Slate: DESIGN CHOICE 0, log 2
  refresh  : Bool := false               -- LDG_STAT.REFRESH, a run is due or in progress | 1 | 12 R541 | 0
  ready    : Bool := false               -- LDG_STAT.READY | 1 | 12 R541 | 0
  refen    : Bool := true                -- LDG_CTL.REFEN | 1 | 12 R541 | 1
  cCommits : BitVec 16 := 0              -- LDG_CNT.COMMITS | 16 | 12 R541 | 0
  cFault   : BitVec 8 := 0               -- LDG_CNT.FAULT | 8 | 12 R541 | 0
  cBusy    : BitVec 8 := 0               -- LDG_CNT.BUSY | 8 | 12 R541 | 0
  cW1      : BitVec 8 := 0               -- LDG_WEAR.WEAR1 | 8 | 12 R541 | 0
  cW2      : BitVec 8 := 0               -- LDG_WEAR.WEAR2 | 8 | 12 R541 | 0
  cW3      : BitVec 8 := 0               -- LDG_WEAR.WEAR3 | 8 | 12 R541 | 0
  lastRef  : Nat := 0                    -- RTC seconds of the last refresh run's start; LDG_REFRESH.AGE | 16 | 12 R525 R541 | from Slate: DESIGN CHOICE 0, log 2
  rewritten : BitVec 16 := 0             -- LDG_REFRESH.REWRITTEN | 16 | 12 R541 | 0
  cLost    : BitVec 16 := 0              -- LDG_LOG.LOST | 16 | 12 R541 | 0
  lostSince : Nat := 0                   -- entries lost since the last entry of R534 | - | 12 R534 | 0
  lseq     : Nat := 0                    -- next LSEQ, LDG_LSEQ.NEXT | 32 | 12 R541 | from Slate: DESIGN CHOICE 0, log 2
  pgsel    : BitVec 12 := 0              -- LDG_PGSEL | 12 | 12 R541 | 0x000
  log      : List LogEntry := []         -- committed entries, oldest first, 8192 | 256 KiB | 12 R532 | DESIGN CHOICE empty, log 2
  buffer   : List LogEntry := []         -- entries in the 256-entry buffer, oldest first | 256 × 32 B | 12 R534 | empty
  overflow : List LogEntry := []         -- log overflow of the Slate, 16 entries | 512 B | 12 R535 | DESIGN CHOICE empty, log 2
  era      : BitVec 16 := 0              -- era count, TLY_STAT.ERA | 16 | 02 R38 R75 | from Slate: DESIGN CHOICE 0, log 2
  unlockFails : BitVec 8 := 0            -- part-wide unlock failures, DSK_LOCKOUT.FAILS | 8 | 03 R121 R146 | from Slate: DESIGN CHOICE 0, log 2
  lockTicks : Nat := 0                   -- powered frames since the 20th failure, DSK_LOCKOUT.REMAIN | 16 | 03 R121 R146 | from Slate: DESIGN CHOICE 0, log 2
  powered  : Nat := 0                    -- powered time, 10 ms frames | - | 12 R500 | DESIGN CHOICE 0, log 2
  refCut   : Bool := false               -- the last refresh run did not end | 1 | 12 R525 | DESIGN CHOICE 0, log 2
  sinceRef : Nat := 0                    -- powered frames since the last refresh run | - | 12 R525 | DESIGN CHOICE 0, log 2
  passK    : Option String := none       -- KEEPER passphrase | - | 03 R116 R117 | none set: DESIGN CHOICE, log 2
  passO    : Option String := none       -- OWNER passphrase | - | 03 R116 R117 | none set: DESIGN CHOICE, log 2
  onerr    : Bool := false               -- morning.set onerr=continue in force | 1 | 03 R129 | DESIGN CHOICE 0, log 2
  lines    : Tab String := []            -- morning script lines | 64 | 03 R125 | empty: DESIGN CHOICE, log 2
  words    : Tab String := []            -- keyword macro lines | 32 | 03 R133, 12 R700 | empty: DESIGN CHOICE, log 2
  slots    : Tab Slot := []              -- Ledger copy of user word slots and factory flags | - | 12 R502 | empty: DESIGN CHOICE, log 2
  deriving DecidableEq, Repr

/-! ### Hearth (spec 13) -/

/-- Channel modes (Table 13.2), in the code order of HTH_CHn_CTL.MODE. -/
inductive HMode where
  | off | linear | switched | lamp
  deriving DecidableEq, Repr

/-- Channel states (Table 13.3), in code order. -/
inductive HState where
  | off | wait | probe | ramp | hold | park | backoff | run | fault
  deriving DecidableEq, Repr

/-- Channel faults (Table 13.4), in code order. -/
inductive HFault where
  | none | short | overcur | open_ | fetpower | rampfail | budget | sense | supply
  deriving DecidableEq, Repr

/-- One Hearth channel (R574). -/
structure Chan where
  ramp   : BitVec 8 := 0x14
  fpwm   : BitVec 8 := 0x64
  rhotauto : Bool := false
  autoretry : Bool := false
  reg    : Bool := false
  mode   : HMode := .off
  target : BitVec 16 := 0
  pdmax  : BitVec 8 := 0x14
  itrip  : BitVec 8 := 0xC8
  ilim   : BitVec 16 := 0
  div    : BitVec 16 := 0xE00
  shunt  : BitVec 16 := 0
  rhot   : BitVec 16 := 0
  v      : BitVec 16 := 0
  i      : BitVec 16 := 0
  temp   : BitVec 16 := 0
  rest   : BitVec 16 := 0
  shorts : BitVec 8 := 0
  retries : BitVec 3 := 0         -- retries after aborts (R565)
  autos  : Nat := 0               -- auto-retries since clear or mode change (R569)
  token  : Bool := false
  ready  : Bool := false
  fault  : HFault := .none
  state  : HState := .off
  fwRhot : BitVec 16 := 0         -- RHOT as firmware last wrote it (R571)
  autoDone : Bool := false        -- RHOTAUTO has written RHOT (R555)
  present : Nat := 0              -- present target of the ramp, register units × 10^6
  heldI  : Nat := 0               -- current held in HOLD, mA
  rcold  : Nat := 0               -- 10 mΩ
  tamb   : Nat := 0               -- K
  asked  : Nat := 0               -- loop period of the token request; 0: none
  gate   : Bool := false          -- the gate is driven
  aim    : Nat := 0               -- what the loop regulates to in the next period, mV or mA
  clamp  : Nat := 0               -- current the loop clamps at in that period, mA
  duty   : Nat := 0               -- PWM on-time, counter steps of 1/48 MHz (Table 13.2)
  drive  : Nat := 0               -- analogue gate drive, mV
  deriving DecidableEq, Repr

/-- The Hearth (R542 to R575). -/
structure HthSt where
  tokens : BitVec 4 := 2                 -- HTH_CTL.TOKENS | 4 | 13 R573 | 0x2
  suphigh : Bool := false                -- HTH_STAT.SUPHIGH | 1 | 13 R573 | 0
  vglow  : Bool := false                 -- HTH_STAT.VGLOW | 1 | 13 R573 | 0
  suplow : Bool := false                 -- HTH_STAT.SUPLOW | 1 | 13 R573 | 0
  sag    : Bool := false                 -- HTH_STAT.SAG | 1 | 13 R573 | 0
  imax   : BitVec 16 := 0xBB8            -- HTH_IMAX | 16 | 13 R573 | 0x0BB8
  vref   : BitVec 16 := 0                -- HTH_SUP.VREF | 16 | 13 R573 | 0
  vsup   : BitVec 16 := 0                -- HTH_SUP.VSUP | 16 | 13 R573 | 0
  ratio  : BitVec 16 := 0xE00            -- HTH_SUPDIV.RATIO | 16 | 13 R573 | 0x0E00
  chans  : List Chan := List.replicate 8 {}    -- channels 0 to 7 | 8 × 256 | 13 R574 | Table 13.7
  frozen : Nat := 0                      -- loop periods for which VREF stays frozen after a SHORT trip | - | 13 R563 | 0, not frozen
  period : Nat := 1                      -- loop periods, for the order of token requests | - | 13 R557 | DESIGN CHOICE 1, log 2
  deriving DecidableEq, Repr

/-! ### Power and house (spec 14) -/

/-- Thermal levels (Table 14.8), in the code order of PWR_STAT.THERM. -/
inductive Therm where
  | none | warn | derate | emergency | trip
  deriving DecidableEq, Repr

/-- A zone of crack detection (R614 to R616). -/
structure Zone where
  drop   : Int := 0              -- last extra drop, 0.1 mV
  zbase  : Nat := 0              -- fused baseline, 0.1 mV
  lightN : Nat := 0              -- light-load samples above 25 mV in a row
  raised : Bool := false
  deriving DecidableEq, Repr

/-- Power delivery and the house (R576 to R619). -/
structure PwrSt where
  house   : House := .hush               -- PWR_STAT.HOUSE | 2 | 14 R618 | 0x1
  goal    : Option House := none         -- state a move is on its way to; PWR_STAT.MOVING | 1 | 14 R587 R618 | 0
  rising  : Bool := false                -- the move LOBBY → FULL is under way | 1 | 14 R588 | 0
  dom     : BitVec 16 := 0x0007          -- PWR_DOM.ON | 16 | 14 R618 | 0x0007
  cfg     : BitVec 12 := 0xFFF           -- PWR_DOMCFG.CFG | 12 | 14 R618 | 0xFFF
  pfail   : Bool := false                -- PWR_STAT.PFAIL | 1 | 14 R618 | 0
  avsfail : Bool := false                -- PWR_STAT.AVSFAIL | 1 | 14 R618 | 0
  vmax    : Bool := false                -- PWR_STAT.VMAX | 1 | 14 R618 | 0
  therm   : Therm := .none               -- PWR_STAT.THERM | 3 | 14 R618 | 0x0
  guard   : BitVec 8 := 0x14             -- PWR_CTL.GUARD | 8 | 14 R618 | 0x14
  offset  : BitVec 8 := 0                -- PWR_CTL.OFFSET | 8 | 14 R618 | 0x00
  avsclk  : BitVec 2 := 1                -- PWR_CTL.AVSCLK | 2 | 14 R618 | 0x1
  lcen    : Bool := true                 -- PWR_CTL.LCEN | 1 | 14 R618 | 1
  set     : BitVec 3 := 0                -- PWR_CTL.SET | 3 | 14 R618 | 0x0
  remote  : Bool := false                -- PWR_SENSE.SENSE, in force | 1 | 14 R618 | 0
  remoteN : Option Bool := none          -- sensing mode that waits for a round start | 1 | 14 R619 | none
  eff     : BitVec 3 := 4                -- PWR_POINT.EFF | 3 | 14 R618 | 0x4
  capA    : BitVec 3 := 0                -- PWR_POINT.AVSCAP | 3 | 14 R618 | 0x0
  capV    : BitVec 3 := 0                -- PWR_POINT.VMAXCAP | 3 | 14 R618 | 0x0
  capC    : BitVec 3 := 0                -- PWR_POINT.CRACKCAP | 3 | 14 R618 | 0x0
  capT    : BitVec 3 := 0                -- PWR_POINT.THERMCAP | 3 | 14 R618 | 0x0
  acked   : Bool := false                -- a Voltage write has been acknowledged since PD2 | 1 | 14 R597 | 0
  raiseTo : Option Nat := none           -- the point a raise is on its way to | 3 | 14 R595 | none, no raise is due
  raiseOk : Bool := false                -- the new target is reached: the raise may take effect | 1 | 14 R595 | 0
  raiseAnn : Bool := false               -- the forecast of the round ahead counts the raised point | 1 | 14 R609 | 0
  vmin    : BitVec 16 := 0               -- PWR_VTGT.VMIN | 16 | 14 R618 | 0
  vtgt    : BitVec 16 := 0x2EE           -- PWR_VTGT.VTGT | 16 | 14 R618 | 0x02EE
  wtgt    : Nat := 750                   -- target last written on AVSBus, mV | - | 14 R595 R599 | 750 (R603)
  lc      : BitVec 3 := 0                -- PWR_LC.CODE, the LOADCAST pins | 3 | 14 R618 | 0x0
  fcast   : BitVec 16 := 0               -- PWR_LC.FCAST | 16 | 14 R618 | 0
  ramping : Option Nat := none           -- stake quadrant whose switch ramps | 2 | 14 R613 | none
  tj      : Int := 0                     -- PWR_THERM.TJ | 8 | 14 R618 | 0
  rail    : BitVec 4 := 0                -- PWR_AVS.RAIL | 4 | 14 R618 | 0x0
  zsel    : BitVec 3 := 0                -- PWR_ZSEL | 3 | 14 R618 | 0x0
  zones   : List Zone := List.replicate 8 {}   -- PWR_ZINFO and PWR_STAT.CRACK of zones 0 to 7 | 8 × 33 | 14 R618 | DROP 0; ZBASE fused: DESIGN CHOICE 0, log 2
  cDroop  : BitVec 16 := 0               -- PWR_CNT.DROOP | 16 | 14 R618 | 0
  cAvs    : BitVec 8 := 0                -- PWR_CNT.AVSERR | 8 | 14 R618 | 0
  cStb    : BitVec 8 := 0                -- PWR_CNT.STB, saturating | 8 | 14 R618 | 0
  half    : Bool := false                -- every second CORE cycle removed | 1 | 14 R601 | 0
  avsBad  : Nat := 0                     -- failed AVSBus frames in a row | - | 14 R605 | 0
  avsRetry : Bool := false               -- pwr.set avs=retry given | 1 | 14 R605 | 0
  coreStop : Bool := false               -- CORE stopped by TRIP | 1 | 14 R617 | 0
  vaon    : Bool := true                 -- VAON at or above 2.9 V | 1 | 11 R447, 14 R590 | 1 (out of reset, R578)
  byFail  : Bool := false                -- VAULT was entered through a power failure | 1 | 14 R590 | 0
  woken   : Bool := false                -- WAKE_OUT asserted under R488 since VAULT was entered | 1 | 14 R590 | 0
  resetV  : Nat := 0                     -- Reset Voltage commands sent | - | 14 R588 R591 | 0
  deriving DecidableEq, Repr

/-! ### Bring-up (spec 15) -/

/-- The JTAG port (R642, R643). -/
structure JtagSt where
  ir   : Nat := 1                        -- instruction register | 6 | 15 R642 | IDCODE: PRESUMED (IEEE 1149.1), log 2
  dr   : List Bool := []                 -- boundary-scan register | - | 15 R643 | DESIGN CHOICE empty, log 2
  pins : Option (List Bool) := none      -- pins driven by EXTEST or CLAMP; `some []`: high-impedance | - | 15 R643 | none
  out  : W32 := 0                        -- last data register read | 32 | 15 R642 | DESIGN CHOICE 0, log 2
  deriving DecidableEq, Repr

/-- The SYS block, the boot and the fuses (R12, R626 to R650). -/
structure SysSt where
  grade   : BitVec 4 := 1                -- SYS_ID.GRADE | 4 | 00 R12 | per part: DESIGN CHOICE 0x1, log 2
  step    : BitVec 8 := 0xA0             -- SYS_ID.STEP | 8 | 00 R12 | per part: DESIGN CHOICE 0xA0, log 2
  patch   : BitVec 16 := 0               -- SYS_BOOT.PATCH | 16 | 15 R650 | from boot: 0, none applied
  unsigned : Bool := false               -- SYS_BOOT.UNSIGNED | 1 | 15 R650 | from boot: DESIGN CHOICE 0, log 2
  fallback : Bool := false               -- SYS_BOOT.FALLBACK | 1 | 15 R650 | from boot: DESIGN CHOICE 0, log 2
  dir     : Bool := false                -- SYS_BOOT.DIR | 1 | 15 R650 | from boot: DESIGN CHOICE 0, log 2
  store   : Bool := false                -- SYS_BOOT.STORE | 1 | 15 R650 | from boot: DESIGN CHOICE 0, log 2
  source  : BitVec 3 := 4                -- SYS_BOOT.SOURCE | 3 | 15 R650 | from boot: DESIGN CHOICE ROM, log 2
  badstrap : Bool := false               -- SYS_BOOT.BADSTRAP | 1 | 15 R650 | from boot: DESIGN CHOICE 0, log 2
  strap   : BitVec 3 := 4                -- SYS_BOOT.STRAP, the sampled BOOTSEL | 3 | 15 R627 R650 | from boot: DESIGN CHOICE 4, log 2
  warms   : BitVec 8 := 0                -- SYS_RSTCAUSE.WARMS | 8 | 15 R650 | 0
  rWdog2  : Bool := false                -- SYS_RSTCAUSE.WDOG2 | 1 | 15 R650 | 0
  rSoft   : Bool := false                -- SYS_RSTCAUSE.SOFT | 1 | 15 R650 | 0
  rWarm   : Bool := false                -- SYS_RSTCAUSE.WARM | 1 | 15 R650 | 0
  rWdog   : Bool := false                -- SYS_RSTCAUSE.WDOG | 1 | 15 R650 | 0
  rPin    : Bool := false                -- SYS_RSTCAUSE.PIN | 1 | 15 R650 | 0
  rCold   : Bool := true                 -- SYS_RSTCAUSE.COLD | 1 | 15 R650 | 1
  wdogEn  : Bool := true                 -- SYS_WDOG.EN | 1 | 15 R650 | 1
  wdogTmo : BitVec 8 := 0x14             -- SYS_WDOG.TMO | 8 | 15 R650 | 0x14
  wdogHit : Bool := false                -- a watchdog reset since the last !desk.ready | 1 | 15 R647 | 0
  keyrev  : BitVec 4 := 0                -- SYS_FUSE.KEYREV | 4 | 15 R650 | fused: DESIGN CHOICE 0, log 2
  keyprog : BitVec 4 := 1                -- SYS_FUSE.KEYPROG | 4 | 15 R650 | fused: slot 0 from manufacture
  jtaglock : Bool := false               -- SYS_FUSE.JTAGLOCK | 1 | 15 R650 | fused: DESIGN CHOICE 0, log 2
  sigenf  : Bool := false                -- SYS_FUSE.SIGENF | 1 | 15 R650 | fused: DESIGN CHOICE 0, log 2
  keys    : Tab (List Byte) := []        -- key slots 1 to 3 | 3 × 32 B | 15 R640 | unprogrammed: DESIGN CHOICE, log 2
  serial  : BitVec 64 := 0               -- SYS_SERIAL | 64 | 15 R650 | from Ledger: DESIGN CHOICE 0 in a blank part, log 2
  ffreq   : BitVec 8 := 0                -- SYS_FLASH.FREQ | 8 | 15 R650 | from boot: DESIGN CHOICE 0, log 2
  fmode   : BitVec 2 := 0                -- SYS_FLASH.MODE | 2 | 15 R650 | from boot: DESIGN CHOICE 0, log 2
  fsize   : BitVec 8 := 0                -- SYS_FLASH.SIZE | 8 | 15 R650 | from boot: DESIGN CHOICE 0, log 2
  flash   : Option Flash := none         -- the boot flash as last read | - | 15 R634 | none read before boot
  dirOf   : Option (Nat × List DirEntry) := none   -- directory in use: GEN and valid entries | - | 15 R634 R635 | none before boot
  ram     : Option (Nat × Bool) := none  -- patch RAM: version and signature outcome | 512 KiB | 15 R630 R646 | DESIGN CHOICE none, log 2
  waiting : Bool := false                -- a USB or NET boot wait is on | 1 | 15 R630 R632 | 0
  booted  : Bool := false                -- boot has ended | 1 | 15 R627 | 0
  pd2Frames : Nat := 0                   -- 10 ms frames since PD2 powered on, up to 100 | - | 15 R640, 03 R132 | 0: PD2 has just powered on
  testmode : Bool := false               -- TESTMODE high | 1 | 15 R626 | 0 (tied to VSS)
  unsignedNote : Bool := false           -- !sys.unsigned waits for !desk.ready | 1 | 15 R639 | 0
  readData : List W32 := []              -- words the last register or memory read returned | 32 each | 01 R27, 02 R72 | none read
  deriving DecidableEq, Repr

/-- The whole block. -/
structure State where
  clk     : ClkSt
  tly     : TlySt
  evq     : EvqSt
  desk    : DeskSt
  weave   : WeaveSt
  inn     : InnSt
  ldr     : LdrSt
  mem     : MemSt
  cch     : CchSt
  neta    : NetSt
  netb    : NetSt
  aud     : AudSt
  usb     : UsbSt
  por     : PorSt
  ldg     : LdgSt
  hth     : HthSt
  pwr     : PwrSt
  jtag    : JtagSt
  sys     : SysSt
  ram     : Memory
  fresh   : Nat
  pending : List Instr
  deriving DecidableEq, Repr

/-- The part right after reset: every field at its default, no command waiting, no memory listed. -/
def State.reset : State :=
  { clk := {}, tly := {}, evq := {}, desk := {}, weave := {}, inn := {}, ldr := {}, mem := {}, cch := {}, neta := {}, netb := {},
    aud := {}, usb := {}, por := {}, ldg := {}, hth := {}, pwr := {}, jtag := {}, sys := {}, ram := [], fresh := 0, pending := [] }

end Sys2Proof.Machine
end

