-- ==== Sys2Proof/Machine/Ops.lean ====
section
/-! DEFINITION. The named operations every meaning is built from: sparse tables, the byte memory in its canonical form, bit
fields, saturating counters, and one update function for each part of the state. -/

namespace Sys2Proof.Machine

/-! ### Sparse tables, keys strictly rising -/

/-- The entry of key `k`. -/
def tget {α : Type} (t : Tab α) (k : Nat) : Option α :=
  match t with
  | [] => none
  | (j, v) :: r => if j = k then some v else tget r k

/-- The entry of key `k`, or `d`. -/
def tgetD {α : Type} (t : Tab α) (k : Nat) (d : α) : α := (tget t k).getD d

/-- `t` with key `k` holding `v`, in rising order. -/
def tset {α : Type} (t : Tab α) (k : Nat) (v : α) : Tab α :=
  match t with
  | [] => [(k, v)]
  | (j, w) :: r => if k < j then (k, v) :: (j, w) :: r else if j = k then (k, v) :: r else (j, w) :: tset r k v

/-- `t` without key `k`. -/
def tdel {α : Type} (t : Tab α) (k : Nat) : Tab α := t.filter fun e => e.1 != k

/-- `t` with the entry of `k` (or `d`) changed by `f`. -/
def tmod {α : Type} (t : Tab α) (k : Nat) (d : α) (f : α → α) : Tab α := tset t k (f (tgetD t k d))

/-- The `k`-th element of a list changed by `f`. -/
def lmod {α : Type} (l : List α) (k : Nat) (f : α → α) : List α := l.modify k f

/-! ### Memory (R22): an unlisted byte reads 0 (log entry 1) -/

/-- What an unlisted address reads as. -/
def Memory.blank : Byte := 0

/-- One byte of memory. -/
def Memory.read (m : Memory) (a : Nat) : Byte :=
  match m with
  | [] => Memory.blank
  | c :: r => if c.1 = a then c.2 else Memory.read r a

/-- `m` with one byte written, in canonical form. -/
def Memory.write (m : Memory) (a : Nat) (b : Byte) : Memory :=
  match m with
  | [] => if b = Memory.blank then [] else [(a, b)]
  | c :: r =>
    if a < c.1 then (if b = Memory.blank then c :: r else (a, b) :: c :: r)
    else if c.1 = a then (if b = Memory.blank then r else (a, b) :: r)
    else c :: Memory.write r a b

/-- Every address of `m` is above `lo`, addresses rise strictly, and no byte is the blank one. -/
def Memory.wfFrom (lo : Option Nat) (m : Memory) : Bool :=
  match m with
  | [] => true
  | c :: r => (match lo with | none => true | some l => decide (l < c.1)) && decide (c.2 ≠ Memory.blank) && Memory.wfFrom (some c.1) r

/-- The canonical form of a memory. -/
def Memory.wf (m : Memory) : Bool := Memory.wfFrom none m

/-- `n` bytes from address `a`. -/
def Memory.readN (m : Memory) (a n : Nat) : List Byte := (List.range n).map fun k => m.read (a + k)

/-- The bytes `bs` written from address `a`, in order. -/
def Memory.writeN (m : Memory) (a : Nat) (bs : List Byte) : Memory :=
  match bs with
  | [] => m
  | b :: r => Memory.writeN (m.write a b) (a + 1) r

/-- `m` with the `n` bytes from `a` zeroed (the blank byte). -/
def Memory.zero (m : Memory) (a n : Nat) : Memory := m.filter fun c => !(decide (a ≤ c.1) && decide (c.1 < a + n))

/-- `m` with `n` bytes from `src` copied to `dst`, as they stood before. -/
def Memory.copy (m : Memory) (src dst n : Nat) : Memory :=
  (m.filter fun c => decide (src ≤ c.1) && decide (c.1 < src + n)).foldl (fun t c => t.write (c.1 - src + dst) c.2) (m.zero dst n)

/-- A 32-bit little-endian word (R6). -/
def Memory.readW (m : Memory) (a : Nat) : W32 :=
  (m.read (a + 3) ++ m.read (a + 2) ++ m.read (a + 1) ++ m.read a : BitVec 32)

/-- The four bytes of a word, least significant first (R6). -/
def wordBytes (w : W32) : List Byte := [w.extractLsb' 0 8, w.extractLsb' 8 8, w.extractLsb' 16 8, w.extractLsb' 24 8]

/-- A 32-bit little-endian word written (R6). -/
def Memory.writeW (m : Memory) (a : Nat) (w : W32) : Memory := m.writeN a (wordBytes w)

/-- A little-endian number of `bs`. -/
def leNat (bs : List Byte) : Nat := bs.foldr (fun b n => b.toNat + 256 * n) 0

/-- The `n` little-endian bytes of a number. -/
def natLe (n v : Nat) : List Byte := (List.range n).map fun k => BitVec.ofNat 8 (v / 256 ^ k)

/-! ### Bit fields and counters -/

/-- Bits `lo + w − 1` to `lo` of a word, as a number. -/
def fld (v : W32) (lo w : Nat) : Nat := v.toNat / 2 ^ lo % 2 ^ w

/-- A number placed at bit `lo`. -/
def put (lo n : Nat) : W32 := BitVec.ofNat 32 (n * 2 ^ lo)

/-- A bit as a number. -/
def b2n (b : Bool) : Nat := if b then 1 else 0

/-- A counter that counts one and saturates (R8: RC counters). -/
def satInc {w : Nat} (c : BitVec w) : BitVec w := if c = BitVec.allOnes w then c else c + 1

/-- A counter that counts `n` and saturates. -/
def satAdd {w : Nat} (c : BitVec w) (n : Nat) : BitVec w :=
  if c.toNat + n < 2 ^ w then BitVec.ofNat w (c.toNat + n) else BitVec.allOnes w

/-- The smaller of a number and a bound, in `w` bits. -/
def satOf (w n : Nat) : BitVec w := if n < 2 ^ w then BitVec.ofNat w n else BitVec.allOnes w

/-- `a − b` modulo 2^16 lies between 1 and 32 767 (R54: `b` precedes `a`). -/
def seqAfter (a b : BitVec 16) : Bool := decide (1 ≤ (a - b).toNat) && decide ((a - b).toNat ≤ 32767)

/-- The remainder of `n` by `m`, and `n` itself for `m = 0`. -/
def wrap (n m : Nat) : Nat := n % m

/-! ### Updates of the parts of the state -/

def State.onClk (s : State) (f : ClkSt → ClkSt) : State := { s with clk := f s.clk }
def State.onTly (s : State) (f : TlySt → TlySt) : State := { s with tly := f s.tly }
def State.onEvq (s : State) (f : EvqSt → EvqSt) : State := { s with evq := f s.evq }
def State.onDesk (s : State) (f : DeskSt → DeskSt) : State := { s with desk := f s.desk }
def State.onWeave (s : State) (f : WeaveSt → WeaveSt) : State := { s with weave := f s.weave }
def State.onInn (s : State) (f : InnSt → InnSt) : State := { s with inn := f s.inn }
def State.onLdr (s : State) (f : LdrSt → LdrSt) : State := { s with ldr := f s.ldr }
def State.onMem (s : State) (f : MemSt → MemSt) : State := { s with mem := f s.mem }
def State.onCch (s : State) (f : CchSt → CchSt) : State := { s with cch := f s.cch }
def State.onAud (s : State) (f : AudSt → AudSt) : State := { s with aud := f s.aud }
def State.onUsb (s : State) (f : UsbSt → UsbSt) : State := { s with usb := f s.usb }
def State.onPor (s : State) (f : PorSt → PorSt) : State := { s with por := f s.por }
def State.onLdg (s : State) (f : LdgSt → LdgSt) : State := { s with ldg := f s.ldg }
def State.onHth (s : State) (f : HthSt → HthSt) : State := { s with hth := f s.hth }
def State.onPwr (s : State) (f : PwrSt → PwrSt) : State := { s with pwr := f s.pwr }
def State.onJtag (s : State) (f : JtagSt → JtagSt) : State := { s with jtag := f s.jtag }
def State.onSys (s : State) (f : SysSt → SysSt) : State := { s with sys := f s.sys }

/-- Network port 0 is NETA, 1 NETB. -/
def State.net (s : State) (p : Nat) : NetSt := if p = 0 then s.neta else s.netb
def State.onNet (s : State) (p : Nat) (f : NetSt → NetSt) : State :=
  if p = 0 then { s with neta := f s.neta } else { s with netb := f s.netb }

/-- Sessions S0 to S3. -/
def DeskSt.sess (d : DeskSt) (n : Nat) : Session :=
  match n with
  | 0 => d.sess0
  | 1 => d.sess1
  | 2 => d.sess2
  | _ => d.sess3
def DeskSt.setSess (d : DeskSt) (n : Nat) (x : Session) : DeskSt :=
  match n with
  | 0 => { d with sess0 := x }
  | 1 => { d with sess1 := x }
  | 2 => { d with sess2 := x }
  | 3 => { d with sess3 := x }
  | _ => d
def State.sess (s : State) (n : Nat) : Session := s.desk.sess n
def State.onSess (s : State) (n : Nat) (f : Session → Session) : State :=
  s.onDesk fun d => d.setSess n (f (d.sess n))

/-- Guests, by number; a guest not listed is FREE with the register values of Tables 6.8 and 10.10. -/
def State.guest (s : State) (g : Nat) : Guest := tgetD s.inn.guests g {}
def State.onGuest (s : State) (g : Nat) (f : Guest → Guest) : State :=
  s.onInn fun i => { i with guests := tmod i.guests g {} f }

/-- Stakes, by number; a stake not listed has every counter at 0. -/
def State.stake (s : State) (k : Nat) : Stake := tgetD s.weave.stakes k {}
def State.onStake (s : State) (k : Nat) (f : Stake → Stake) : State :=
  s.onWeave fun w => { w with stakes := tmod w.stakes k {} f }

/-- Loaded plans, by name. -/
def State.plan? (s : State) (n : String) : Option Plan := s.weave.plans.find? fun p => p.name == n
def State.onPlan (s : State) (n : String) (f : Plan → Plan) : State :=
  s.onWeave fun w => { w with plans := w.plans.map fun p => if p.name == n then f p else p }

/-- Routes, windows and rings, by number. -/
def State.route (s : State) (r : Nat) : Route := tgetD s.cch.routes r {}
def State.onRoute (s : State) (r : Nat) (f : Route → Route) : State :=
  s.onCch fun c => { c with routes := tmod c.routes r {} f }
def State.win (s : State) (w : Nat) : Window := tgetD s.cch.wins w {}
def State.onWin (s : State) (w : Nat) (f : Window → Window) : State :=
  s.onCch fun c => { c with wins := tmod c.wins w {} f }
def State.ring (s : State) (k : Nat) : Ring := tgetD s.cch.rings k {}
def State.onRing (s : State) (k : Nat) (f : Ring → Ring) : State :=
  s.onCch fun c => { c with rings := tmod c.rings k {} f }

/-- Hearth channels. -/
def State.chan (s : State) (k : Nat) : Chan := s.hth.chans.getD k {}
def State.onChan (s : State) (k : Nat) (f : Chan → Chan) : State :=
  s.onHth fun h => { h with chans := lmod h.chans k f }

/-- One free word drawn (log entry 5). -/
def State.draw (s : State) : W32 × State := (Config.freeWord s.fresh, { s with fresh := s.fresh + 1 })

/-- One random word drawn (log entry 3). -/
def State.drawRandom (s : State) : W32 × State := (Config.random s.fresh, { s with fresh := s.fresh + 1 })

/-- Whether power domain PD `k` is on (Table 1.1, PWR_DOM). -/
def State.on (s : State) (k : Nat) : Bool := s.pwr.dom.getLsbD k

/-- The state changed when a condition holds. -/
def State.when (s : State) (c : Bool) (f : State → State) : State := if c then f s else s

/-- A state changed by each element of a list in turn. -/
def State.forEach {α : Type} (s : State) (l : List α) (f : α → State → State) : State := l.foldl (fun t a => f a t) s

end Sys2Proof.Machine
end

