-- ==== Sys2Proof/Machine/Text.lean ====
section
/-! DEFINITION. How numbers, tallies and reply lines are written (R3, R4, R100 to R102). -/

namespace Sys2Proof.Machine

/-- One hex digit, upper case. -/
def hexDigit (n : Nat) : Char := if n < 10 then Char.ofNat (48 + n) else Char.ofNat (55 + n)

/-- The `d` hex digits of `v`, least significant first. -/
def hexDigitsRev (d v : Nat) : List Char :=
  match d with
  | 0 => []
  | k + 1 => hexDigit (v % 16) :: hexDigitsRev k (v / 16)

/-- An underscore after every fourth digit, counted from the right, on digits least significant first (R3). -/
def groupFours (l : List Char) : List Char :=
  match l with
  | a :: b :: c :: d :: e :: r => a :: b :: c :: d :: '_' :: groupFours (e :: r)
  | l => l

/-- A number in `d` hex digits under R3. -/
def hexS (d v : Nat) : String := "0x" ++ String.ofList (groupFours (hexDigitsRev d v)).reverse

/-- A number in `d` bare hex digits, as the CRC of a line is written (R102). -/
def hexBare (d v : Nat) : String := String.ofList (hexDigitsRev d v).reverse

/-- A tally in its 16 digits (R4). -/
def tallyS (t : Nat) : String := hexS 16 t

/-- A decimal number. -/
def natS (n : Nat) : String := toString n

/-- A signed decimal number. -/
def intS (i : Int) : String := if i < 0 then "-" ++ natS i.natAbs else natS i.natAbs

/-- `n` decimal digits of `v`, with leading zeros. -/
def padS (n v : Nat) : String := String.ofList (List.replicate (n - (natS v).length) '0') ++ natS v

/-- A decimal number in units of 10^−d, its trailing zeros dropped (log entry 7). -/
def decS (d v : Nat) : String :=
  let f := (padS d (v % 10 ^ d)).toList.reverse.dropWhile (· == '0')
  if d = 0 ∨ f.isEmpty then natS (v / 10 ^ d) else natS (v / 10 ^ d) ++ "." ++ String.ofList f.reverse

def onoff (b : Bool) : String := if b then "on" else "off"
def yesno (b : Bool) : String := if b then "yes" else "no"

/-- A field of a reply or notice. -/
def kv (k v : String) : String := k ++ "=" ++ v
def kn (k : String) (n : Nat) : String := kv k (natS n)

/-- Words set apart by spaces, or by commas. -/
def spaced (l : List String) : String := String.intercalate " " l
def commas (l : List String) : String := if l.isEmpty then "none" else String.intercalate "," l

/-- A run of numbers as ranges, ascending: `0-3,5`. -/
def rangeStep (acc : List (Nat × Nat)) (n : Nat) : List (Nat × Nat) :=
  match acc with
  | (a, b) :: r => if n = b + 1 then (a, n) :: r else (n, n) :: (a, b) :: r
  | [] => [(n, n)]
def rangesS (pre : String) (l : List Nat) : String :=
  commas (((l.foldl rangeStep []).reverse).map fun e =>
    if e.1 = e.2 then pre ++ natS e.1 else pre ++ natS e.1 ++ "-" ++ pre ++ natS e.2)

/-- One bit of CRC-16/CCITT-FALSE. -/
def crcBit (c : BitVec 16) : BitVec 16 := if c.getLsbD 15 then (c <<< 1) ^^^ 0x1021 else c <<< 1

/-- One character of CRC-16/CCITT-FALSE. -/
def crcByte (c : BitVec 16) (b : Nat) : BitVec 16 :=
  let x := c ^^^ BitVec.ofNat 16 (b * 256)
  crcBit (crcBit (crcBit (crcBit (crcBit (crcBit (crcBit (crcBit x)))))))

/-- CRC-16/CCITT-FALSE of a run of bytes (R101). -/
def crc16 (l : List Nat) : BitVec 16 := l.foldl crcByte 0xFFFF

/-- The CRC of a line's characters (R101). -/
def lineCrc (t : String) : BitVec 16 := crc16 (t.toList.map Char.toNat)

/-- Words packed into lines of at most `w` characters; a word longer than a line is cut. -/
def packWords (w fuel : Nat) (cur : List Char) (ws : List (List Char)) : List (List Char) :=
  match fuel with
  | 0 => [cur]
  | f + 1 =>
    match ws with
    | [] => [cur]
    | x :: r =>
      if cur.isEmpty then
        if x.length ≤ w then packWords w f x r else (x.take w) :: packWords w f [] (x.drop w :: r)
      else if cur.length + 1 + x.length ≤ w then packWords w f (cur ++ ' ' :: x) r
      else cur :: packWords w f [] ws

/-- A reply line's fields split into lines of at most `w` characters (R100). -/
def splitLine (w : Nat) (t : String) : List String :=
  if t.length ≤ w then [t]
  else (packWords w (2 * t.length + 2) [] (t.toList.splitOn ' ')).map String.ofList

/-- Characters lowered: names, keys and enumerated values are case-insensitive (R91). -/
def lowerS (t : String) : String := String.ofList (t.toList.map Char.toLower)

/-- The characters of `a` equal those of `b` without regard to case (R91). -/
def sameWord (a b : String) : Bool := lowerS a == lowerS b

/-- The carriage return and line feed that end each line the Desk sends (log entry 7). -/
def crlf : String := String.ofList [Char.ofNat 13, Char.ofNat 10]

/-- The prompt of TYPED mode (Table 3.2). -/
def promptS : String := "av9> "

end Sys2Proof.Machine
end

