-- ==== Sys2Proof/Machine/Notice.lean ====
section
/-! DEFINITION. What the Desk puts into a session's output buffer (R99 to R114), the notices, the end of a session (R84),
and the entries of the event log (R532 to R534, R704). -/

namespace Sys2Proof.Machine

/-! ### The output buffer -/

/-- The size of a session's output buffer (R112). -/
def outCap : Nat := 8192

/-- Characters of a session's buffer that have not left. -/
def outUsed (x : Session) : Nat := (x.out.map fun i => i.text.length - i.sent).sum

/-- Whether an item is a notice that may be discarded: one of which nothing has left (R112). -/
def OutItem.droppable (i : OutItem) : Bool :=
  match i.kind with
  | .notice => i.sent == 0
  | .dropped _ => i.sent == 0
  | _ => false

/-- Notices reported as discarded once item `i` is discarded. -/
def OutItem.worth (i : OutItem) : Nat :=
  match i.kind with
  | .dropped n => n + 1
  | _ => 1

/-- The oldest droppable item removed, with it. -/
def dropOldest (l : List OutItem) : Option (OutItem × List OutItem) :=
  match l with
  | [] => none
  | i :: r => if i.droppable then some (i, r) else (dropOldest r).map fun p => (p.1, i :: p.2)

/-- Notices discarded, oldest first, until `need` characters fit or no notice is left; the items, the number discarded,
and what they are worth in `!desk.dropped`. -/
def makeRoom (fuel need : Nat) (l : List OutItem) : List OutItem × Nat × Nat :=
  match fuel with
  | 0 => (l, 0, 0)
  | f + 1 =>
    if (l.map fun i => i.text.length - i.sent).sum + need ≤ outCap then (l, 0, 0)
    else match dropOldest l with
      | none => (l, 0, 0)
      | some (i, r) => let (l', n, w) := makeRoom f need r; (l', n + 1, i.worth + w)

/-- `n` notices of session `k` counted in DSK_DROP (R145). -/
def countDrops (k n : Nat) (d : DeskSt) : DeskSt := { d with drop := lmod d.drop k fun c => satAdd c n }

/-- Whether the output stands inside a line once `text` has been put there. -/
def leavesMid (mid : Bool) (text : String) : Bool := match text.toList.getLast? with | some c => c != Char.ofNat 10 | none => mid

/-- An item placed in the buffer of session `k`; room is made as R112 and R114 say. A notice that does not fit is discarded
and counted; any other item then waits in `waiting` for space. -/
def pushOut (k : Nat) (kind : OutKind) (text : String) (s : State) : State :=
  let x := s.sess k
  let isNote := match kind with | .notice => true | .dropped _ => true | _ => false
  if isNote && x.waiting.isSome then
    (s.onSess k fun x => { x with dropPend := x.dropPend + 1 }).onDesk (countDrops k 1)
  else
    let (l, n, w) := makeRoom (x.out.length + 1) text.length x.out
    let fits := decide ((l.map fun i => i.text.length - i.sent).sum + text.length ≤ outCap)
    let s := (s.onSess k fun x => { x with out := l, dropPend := x.dropPend + w }).onDesk (countDrops k n)
    if fits && x.waiting.isNone then s.onSess k fun x => { x with out := x.out ++ [⟨kind, text, 0⟩], mid := leavesMid x.mid text }
    else if isNote then (s.onSess k fun x => { x with dropPend := x.dropPend + 1 }).onDesk (countDrops k 1)
    else s.onSess k fun x => { x with waiting := some ((x.waiting.getD []) ++ [text]), mid := leavesMid x.mid text }

/-- What waits for space enters the buffer as far as it fits: it has first claim on every byte that frees (R114). -/
def refill (fuel k : Nat) (s : State) : State :=
  match fuel with
  | 0 => s
  | f + 1 =>
    let x := s.sess k
    match x.waiting with
    | some (t :: r) =>
      let free := outCap - outUsed x
      if t.length ≤ free then
        refill f k (s.onSess k fun x => { x with out := x.out ++ [⟨.reply, t, 0⟩], waiting := if r.isEmpty then none else some r })
      else if free = 0 then s
      else s.onSess k fun x => { x with
        out := x.out ++ [⟨.reply, String.ofList (t.toList.take free), 0⟩], waiting := some (String.ofList (t.toList.drop free) :: r) }
    | some [] => s.onSess k fun x => { x with waiting := none }
    | none => s

/-! ### Lines as they are sent -/

/-- A line with its CRC, as MACHINE mode sends it (R101, R102). -/
def withCrc (t : String) : String := t ++ "*" ++ hexBare 4 (lineCrc t).toNat

/-- The tag that opens a MACHINE reply: `#n`, or `#?` where the line's tag did not parse (R106). -/
def tagS (t : Option Nat) : String := match t with | some n => "#" ++ natS n | none => "#?"

/-- The text of a reply in a mode: its fields, one string a line, split under R100 (Table 3.2). -/
def okText (machine : Bool) (tag : Option Nat) (ls : List String) : String :=
  let ls := if ls.isEmpty then [""] else ls
  let w := if machine then 240 - 16 else 240 - 3
  let ls := (ls.map fun t => splitLine w t).flatten
  let line (last : Bool) (t : String) : String :=
    let body := if t.isEmpty then "" else " " ++ t
    (if machine then withCrc (tagS tag ++ (if last then " ok" else " ok+") ++ body) else "ok" ++ body) ++ crlf
  String.join ((ls.dropLast.map (line false)) ++ [line true (ls.getLastD "")])

/-- The word of an error code (Table 3.5). -/
def errWord (c : Nat) : String :=
  match c with
  | 10 => "syntax" | 11 => "unknown-verb" | 12 => "unknown-object" | 13 => "bad-value" | 14 => "missing-key"
  | 15 => "crc" | 16 => "seq" | 20 => "denied" | 21 => "locked" | 30 => "busy" | 31 => "no-room" | 32 => "no-cycles"
  | 33 => "no-memory" | 40 => "not-now" | 41 => "pending" | 50 => "fault" | 51 => "quarantined" | 60 => "signature"
  | _ => "format"

/-- The fields of an error reply in at most `w` characters (R99, R100): a key that does not fit is cut (DESIGN CHOICE, log entry 7). -/
def errBody (w code : Nat) (at_ : String) : String :=
  let t := "err " ++ natS code ++ " " ++ errWord code ++ (if at_.isEmpty then "" else " at=" ++ at_)
  String.ofList (t.toList.take w)

/-- The text of an error reply (R99, R100, Table 3.2); a MACHINE reply keeps 5 of its 240 characters for the CRC. -/
def errText (machine : Bool) (tag : Option Nat) (code : Nat) (at_ : String) : String :=
  let head := tagS tag ++ " "
  (if machine then withCrc (head ++ errBody (235 - head.length) code at_) else errBody 240 code at_) ++ crlf

/-- Whether a key's value is a secret that the echo of TYPED mode masks (R119, R505): inside a string of an `unlock` or
`desk.pass` line, and each digit of an rpw= or wpw= value. -/
def maskStr (inS esc : Bool) (l : List Char) : List Char :=
  match l with
  | [] => []
  | c :: r =>
    if inS then
      if esc then '*' :: maskStr true false r
      else if c = '\\' then '*' :: maskStr true true r
      else if c = '"' then c :: maskStr false false r
      else '*' :: maskStr true false r
    else if c = '"' then c :: maskStr true false r else c :: maskStr false false r

/-- The characters up to the next space masked. -/
def maskDigits (l : List Char) : List Char :=
  match l with
  | [] => []
  | c :: r => if c = ' ' then c :: r else '*' :: maskDigits r

/-- Every rpw= and wpw= value of a line masked. -/
def maskPw (fuel : Nat) (l : List Char) : List Char :=
  match fuel with
  | 0 => l
  | f + 1 =>
    match l with
    | [] => []
    | a :: b :: c :: d :: r =>
      if (a.toLower = 'r' ∨ a.toLower = 'w') ∧ b.toLower = 'p' ∧ c.toLower = 'w' ∧ d = '=' then
        a :: b :: c :: d :: maskPw f (maskDigits r)
      else a :: maskPw f (b :: c :: d :: r)
    | a :: r => a :: maskPw f r

/-- A line from its command on: a tag and a tally prefix stand before it (R90). -/
def fromCommand (fuel : Nat) (l : List Char) : List Char :=
  match fuel with
  | 0 => l
  | f + 1 =>
    match l with
    | ' ' :: r => fromCommand f r
    | '#' :: r => fromCommand f (r.dropWhile (· != ' '))
    | '@' :: r => fromCommand f (r.dropWhile (· != ' '))
    | _ => l

/-- A line as it is echoed or shown: no passphrase and no password of it stands in clear (R119, R505). -/
def echoed (t : String) : String :=
  let l := t.toList
  let low := lowerS (String.ofList (fromCommand (l.length + 1) l))
  let l := if low.startsWith "unlock" || low.startsWith "desk.pass" then maskStr false false l else l
  String.ofList (maskPw (l.length + 1) l)

/-! ### Notices -/

/-- The tally of a notice's last field (R109). -/
def noticeT (s : State) : String := if s.on 3 then tallyS s.tly.now.toNat else "none"

/-- A notice line in a session's mode (Table 3.2): in TYPED mode on a fresh line, with the prompt and the partial input
echoed again after it. -/
def noticeText (x : Session) (t : String) : String :=
  if x.machine then withCrc t ++ crlf else (if x.mid then crlf else "") ++ t ++ crlf ++ promptS ++ echoed x.typed

/-- A notice put to session `k`, if it is open and served (R131) and, unless `always`, its mask enables the object. -/
def sayTo (k : Nat) (obj text : String) (s : State) : State :=
  let x := s.sess k
  if x.opened && s.desk.ready && !x.off.contains obj then pushOut k .notice (noticeText x text) s else s

/-- A notice `!obj.rest t=…` to every session whose mask enables the object (R109, R111). -/
def notify (obj rest : String) (s : State) : State :=
  let t := "!" ++ obj ++ "." ++ rest ++ " " ++ kv "t" (noticeT s)
  sayTo 3 obj t (sayTo 2 obj t (sayTo 1 obj t (sayTo 0 obj t s)))

/-- A notice to one session (R97). -/
def notifyOne (k : Nat) (obj rest : String) (s : State) : State :=
  sayTo k obj ("!" ++ obj ++ "." ++ rest ++ " " ++ kv "t" (noticeT s)) s

/-! ### The event log -/

/-- RTC seconds: the island counts 100 frames of 10 ms to a second (log entry 8). -/
def State.rtc (s : State) : Nat := s.por.ticks / 100

/-- One entry put into the log buffer, or counted lost (R534). -/
def pushLog (e : LogEntry) (s : State) : State :=
  s.onLdg fun d =>
    let d := if d.lostSince > 0 ∧ d.buffer.length < 256 then
        let x := { e with
          lseq := d.lseq, src := 9, late := false, code := 0x0101, evseq := 0, arg := BitVec.ofNat 64 d.lostSince, arg2 := 0 }
        { d with buffer := d.buffer ++ [x], lseq := wrap (d.lseq + 1) (2 ^ 32), lostSince := 0 }
      else d
    if d.buffer.length < 256 then { d with buffer := d.buffer ++ [{ e with lseq := d.lseq }], lseq := wrap (d.lseq + 1) (2 ^ 32) }
    else { d with cLost := satInc d.cLost, lostSince := d.lostSince + 1 }

/-- A log entry of Table 12.7 whose TALLY is the present tally, or RTC seconds while PD3 is off (R533, R704). -/
def logEv (src code evseq arg arg2 : Nat) (s : State) : State :=
  pushLog { lseq := 0, era := s.ldg.era, src := src, rtc := !s.on 3, late := false,
            tally := if s.on 3 then s.tly.now else BitVec.ofNat 64 s.rtc, code := BitVec.ofNat 16 code,
            evseq := BitVec.ofNat 16 evseq, arg := BitVec.ofNat 64 arg, arg2 := BitVec.ofNat 16 arg2 } s

/-- A log entry at a tally of its own (R704). -/
def logAt (t : Tally) (late : Bool) (src code evseq arg arg2 : Nat) (s : State) : State :=
  pushLog { lseq := 0, era := s.ldg.era, src := src, rtc := false, late := late, tally := t,
            code := BitVec.ofNat 16 code, evseq := BitVec.ofNat 16 evseq, arg := BitVec.ofNat 64 arg, arg2 := BitVec.ofNat 16 arg2 } s

/-! ### The end of a session -/

/-- A commit requested by a session that has ended answers no one. -/
def forget (k : Nat) (j : LJob) : LJob :=
  match j.who with
  | .line (.sess n) => if n == k then { j with who := .nobody } else j
  | .batch n => if n == k then { j with who := .nobody } else j
  | .enrolDone (.sess n) => if n == k then { j with who := .enrolDone (.sess 4) } else j
  | _ => j

/-- A commit requested by a line of a morning script that has ended answers no one: the line it would answer runs no longer (R127). -/
def forgetScript (j : LJob) : LJob :=
  match j.who with
  | .line (.morning _) => { j with who := .nobody }
  | .enrolDone (.morning _) => { j with who := .enrolDone (.sess 4) }
  | _ => j

/-- An event posted by a session that has ended is reported to no session (R97). -/
def orphan (k : Nat) (e : Event) : Event := if e.by_ == some (.sess k) then { e with by_ := none } else e

/-- Session `k` ends (R84, R513): its input, buffer, claims, level, batch and passwords are gone, and the other open
sessions are told. An effect held for a reply that has not left falls due (R688); `settleDue` lets it take place within the same step. -/
def endSession (k : Nat) (s : State) : State :=
  if (s.sess k).opened then
    let s := s.onSess k fun _ => {}
    let s := s.onDesk fun d => { d with
      claims := d.claims.filter fun c => c.2 != k, deferred := d.deferred.map fun e => if e.1 = k then (4, e.2) else e }
    let s := s.onLdg fun d => { d with queue := d.queue.map (forget k) }
    let s := s.onEvq fun q => { q with entries := q.entries.map (orphan k), held := q.held.map (orphan k) }
    notify "desk" ("end " ++ kn "sess" k) s
  else s

end Sys2Proof.Machine
end

