-- ==== Sys2Proof/Machine/Operands.lean ====
section
/-! DEFINITION. The operand forms of a command line: what type of value a key takes, how a number with its suffix becomes a
number in the key's base unit (R92), and the checks of order 6 and 7 of Table 3.5. -/

namespace Sys2Proof.Machine

/-- What a key takes. -/
inductive KTy where
  /-- A whole number in the base unit, from `lo` to `hi`. -/
  | int (unit : String) (lo hi : Int)
  /-- A number that is whole in units of 1/`scale` of the base unit, from `lo` to `hi` of them. -/
  | dec (unit : String) (scale : Nat) (lo hi : Int)
  /-- A decimal number of seconds of at most 9 fractional digits, in ns, from 0 to `hi` (R686). -/
  | secs (hi : Int)
  /-- A number taken to the nearest 1/`scale` of the base unit, from `lo` to `hi` of them (log entry 17). -/
  | near (unit : String) (scale : Nat) (lo hi : Int)
  /-- One of the listed whole numbers. -/
  | oneOf (unit : String) (xs : List Int)
  /-- A number of at most `bits` bits, usually written as a hexnum. -/
  | hex (bits : Nat)
  /-- A list of at most `n` numbers of at most `bits` bits. -/
  | hexs (bits n : Nat)
  /-- A list of at most `n` whole numbers from `lo` to `hi`. -/
  | ints (lo hi : Int) (n : Nat)
  /-- One of the listed words. -/
  | enum (ws : List String)
  /-- A list of the listed words. -/
  | enums (ws : List String)
  /-- A name: a word, a dotname or a string. -/
  | name
  /-- A list of at most `n` names. -/
  | names (n : Nat)
  /-- A string of `lo` to `hi` characters. -/
  | str (lo hi : Nat)
  /-- An IPv4 address, or an IPv6 address in a string (R691). -/
  | ip
  /-- Any value; the command reads it itself. -/
  | any
  deriving DecidableEq, Repr

/-- A value after its check. -/
inductive V where
  | num (i : Int)
  | word (w : String)
  | nums (l : List Int)
  | words (l : List String)
  | raw (v : Val)
  deriving DecidableEq, Repr

/-- The checked arguments of a line. -/
abbrev Env := List (String × V)

/-- One key of a verb: its name, whether it stands without a key (`pos`), may repeat without a key (`many`), is required,
and what it takes. -/
structure KeySpec where
  name : String
  ty   : KTy
  req  : Bool := false
  pos  : Bool := false
  many : Bool := false
  deriving DecidableEq, Repr

/-- The multiplier of a suffix that is no unit (R92). -/
def multOf (u : String) : Option Nat :=
  match u with
  | "k" => some 1000
  | "M" => some 1000000
  | "G" => some 1000000000
  | _ => none

/-- What a number's suffix multiplies it by on a key of that base unit: nothing for no suffix and for the unit the key expects, or
a multiplier (R92). -/
def suffixMul (unit u : String) : Option Nat := if u = "" ∨ u = unit then some 1 else multOf u

/-- A number in units of 1/`scale` of the base unit, when its suffix fits the key and the result is whole (R92). -/
def itemScaled (unit : String) (scale : Nat) (i : Item) : Option Int :=
  match i with
  | .num neg mant frac u =>
    match suffixMul unit u with
    | none => none
    | some m =>
      let v := mant * m * scale
      let q := 10 ^ frac
      if v % q = 0 then some (if neg then -(v / q : Nat) else (v / q : Nat)) else none
  | .hex _ v => some (v * scale : Nat)
  | _ => none

/-- A decimal number of seconds with at most 9 fractional digits, in ns (R686). -/
def itemSecs (i : Item) : Option Int :=
  match i with
  | .num _ _ frac _ => if frac ≤ 9 then itemScaled "s" (10 ^ 9) i else none
  | _ => none

/-- A number in units of 1/`scale` of the base unit, to the nearest, a half away from zero (log entry 17). -/
def itemNear (unit : String) (scale : Nat) (i : Item) : Option Int :=
  match i with
  | .num neg mant frac u =>
    (suffixMul unit u).map fun m =>
      let q := 10 ^ frac
      let v := (2 * (mant * m * scale) + q) / (2 * q)
      if neg then -(v : Int) else (v : Int)
  | .hex _ v => some (v * scale : Nat)
  | _ => none

/-- The parts of a dotname joined again. -/
def dotS (l : List String) : String := String.intercalate "." l

/-- A name as written. -/
def itemName (i : Item) : Option String :=
  match i with
  | .word w => some w
  | .dot l => some (dotS l)
  | _ => none

/-- A character of an IPv6 address. -/
def isV6Char (c : Char) : Bool := c.isDigit || ('a' ≤ c && c ≤ 'f') || c == ':' || c == '.'

/-- An address as the part holds it: dotted decimal, or the text of an IPv6 address in lower case (R691). -/
def ipOf (v : Val) : Option String :=
  match v with
  | .item (.addr4 a b c d) =>
    if a < 256 ∧ b < 256 ∧ c < 256 ∧ d < 256 then some (dotS [natS a, natS b, natS c, natS d]) else none
  | .str t =>
    let ps := t.toList.splitOn '.'
    let oct (p : List Char) : Bool :=
      !p.isEmpty && p.all Char.isDigit && decide (p.length ≤ 3) && decide (p.foldl (fun n c => n * 10 + (c.toNat - 48)) 0 < 256)
    if ps.length = 4 ∧ ps.all oct then some t
    else
      let l := (lowerS t).toList
      if l.all isV6Char ∧ l.count ':' ≥ 2 ∧ l.length ≤ 39 then some (String.ofList l) else none
  | _ => none

/-- The four bytes of a dotted address, most significant first; 0 for anything else. -/
def ip4Word (t : String) : W32 :=
  let num (p : List Char) : Nat := p.foldl (fun n c => n * 10 + (c.toNat - 48)) 0
  match (t.toList.splitOn '.').map num with
  | [a, b, c, d] => BitVec.ofNat 32 (((a * 256 + b) * 256 + c) * 256 + d)
  | _ => 0

/-- The items of a value. -/
def valItems (v : Val) : List Item :=
  match v with
  | .item i => [i]
  | .list l => l
  | .str _ => []

/-- Every element of a list of options, or none. -/
def allSome {α : Type} (l : List (Option α)) : Option (List α) :=
  match l with
  | [] => some []
  | none :: _ => none
  | some x :: r => (allSome r).map (x :: ·)

/-- A value checked against its type (check order 7). -/
def KTy.check (t : KTy) (v : Val) : Option V :=
  let one : Option Item := match v with | .item i => some i | _ => none
  match t with
  | .int u lo hi => (one.bind (itemScaled u 1)).bind fun n => if lo ≤ n ∧ n ≤ hi then some (.num n) else none
  | .dec u sc lo hi => (one.bind (itemScaled u sc)).bind fun n => if lo ≤ n ∧ n ≤ hi then some (.num n) else none
  | .secs hi => (one.bind itemSecs).bind fun n => if 0 ≤ n ∧ n ≤ hi then some (.num n) else none
  | .near u sc lo hi => (one.bind (itemNear u sc)).bind fun n => if lo ≤ n ∧ n ≤ hi then some (.num n) else none
  | .oneOf u xs => (one.bind (itemScaled u 1)).bind fun n => if xs.contains n then some (.num n) else none
  | .hex b => (one.bind (itemScaled "" 1)).bind fun n => if 0 ≤ n ∧ n < (2 ^ b : Nat) then some (.num n) else none
  | .hexs b k => (allSome ((valItems v).map (itemScaled "" 1))).bind fun l =>
      if l.isEmpty ∨ k < l.length ∨ l.any (fun n => n < 0 || decide ((2 ^ b : Nat) ≤ n)) then none else some (.nums l)
  | .ints lo hi k => (allSome ((valItems v).map (itemScaled "" 1))).bind fun l =>
      if l.isEmpty ∨ k < l.length ∨ l.any (fun n => n < lo || hi < n) then none else some (.nums l)
  | .enum ws => (one.bind itemName).bind fun w => if ws.contains (lowerS w) then some (.word (lowerS w)) else none
  | .enums ws => (allSome ((valItems v).map itemName)).bind fun l =>
      let l := l.map lowerS
      if l.isEmpty ∨ l.any (fun w => !ws.contains w) then none else some (.words l)
  | .name => match v with
      | .str x => some (.word x)
      | _ => (one.bind itemName).map .word
  | .names k => match v with
      | .str x => some (.words [x])
      | _ => (allSome ((valItems v).map itemName)).bind fun l => if l.isEmpty ∨ k < l.length then none else some (.words (l.map lowerS))
  | .str lo hi => match v with
      | .str x => if lo ≤ x.length ∧ x.length ≤ hi then some (.word x) else none
      | _ => none
  | .ip => (ipOf v).map .word
  | .any => some (.raw v)

/-- The arguments that stand without a key matched to the verb's positions; none where a position is lacking. -/
def matchPos (ks : List KeySpec) (vs : List Val) : Option (List (KeySpec × Val)) :=
  match vs with
  | [] => some []
  | v :: r =>
    match ks with
    | [] => none
    | k :: ks' => (matchPos (if k.many then k :: ks' else ks') r).map ((k, v) :: ·)

/-- The arguments of a line as key specifications with values; a key the verb does not take answers its name. -/
def bindArgs (ks : List KeySpec) (a : Args) : Except String (List (KeySpec × Val)) :=
  let pos := matchPos (ks.filter (·.pos)) ((a.filter (·.key == "")).map (·.val))
  let keyed := (a.filter (·.key != "")).map fun x => (ks.find? (fun k => !k.pos && k.name == lowerS x.key), x)
  match keyed.find? (fun p => p.1.isNone) with
  | some (_, x) => .error x.key
  | none =>
    match pos with
    | none => .error ""
    | some l => .ok (l ++ keyed.filterMap fun p => p.1.map fun k => (k, p.2.val))

/-- The first required key a line lacks (check order 6). -/
def missingKey (ks : List KeySpec) (a : Args) : Option String :=
  let n := (a.filter (·.key == "")).length
  let posMissing := ((ks.filter (·.pos)).drop n).find? (·.req)
  let keyMissing := ks.find? fun k => !k.pos && k.req && !a.any fun x => lowerS x.key == k.name
  match posMissing with
  | some k => some k.name
  | none => keyMissing.map (·.name)

/-- The checks of order 6 and 7 on a line's arguments: the checked values, or the error and the key it names. -/
def checkArgs (ks : List KeySpec) (a : Args) : Except (Nat × String) Env :=
  match missingKey ks a with
  | some k => .error (14, k)
  | none =>
    match bindArgs ks a with
    | .error k => .error (13, k)
    | .ok l =>
      match l.find? (fun p => (p.1.ty.check p.2).isNone) with
      | some p => .error (13, p.1.name)
      | none => .ok (l.filterMap fun p => (p.1.ty.check p.2).map fun v => (p.1.name, v))

/-! ### Reading the checked values -/

/-- The value of a key. -/
def Env.v (e : Env) (k : String) : Option V := (e.find? fun p => p.1 == k).map (·.2)

/-- Whether a key is given. -/
def Env.has (e : Env) (k : String) : Bool := (e.v k).isSome

/-- A number. -/
def Env.int? (e : Env) (k : String) : Option Int := match e.v k with | some (.num i) => some i | _ => none
def Env.nat? (e : Env) (k : String) : Option Nat := (e.int? k).map Int.toNat
def Env.nat (e : Env) (k : String) : Nat := (e.nat? k).getD 0
def Env.int (e : Env) (k : String) : Int := (e.int? k).getD 0

/-- A word or name. -/
def Env.word? (e : Env) (k : String) : Option String := match e.v k with | some (.word w) => some w | _ => none
def Env.word (e : Env) (k : String) : String := (e.word? k).getD ""

/-- The name of a plan: names carry no case (R91), and the part keeps them in lower case. -/
def Env.plan (e : Env) (k : String) : String := lowerS (e.word k)

/-- A list of numbers, or of names. -/
def Env.nums (e : Env) (k : String) : List Nat := match e.v k with | some (.nums l) => l.map Int.toNat | _ => []
def Env.words (e : Env) (k : String) : List String := match e.v k with | some (.words l) => l | _ => []

/-- A value the command reads itself. -/
def Env.raw? (e : Env) (k : String) : Option Val := match e.v k with | some (.raw v) => some v | _ => none

/-- An on/off key. -/
def Env.flag? (e : Env) (k : String) : Option Bool := (e.word? k).map (· == "on")

/-- Every number given under a name that may repeat, in order. -/
def Env.allNums (e : Env) (k : String) : List Nat :=
  e.filterMap fun p => if p.1 == k then (match p.2 with | .num i => some i.toNat | _ => none) else none

/-- The keys `on` and `off`. -/
def onOffTy : KTy := .enum ["on", "off"]

/-- A named field of the line: an integer without a unit. -/
def kInt (n : String) (lo hi : Int) (req : Bool := false) : KeySpec := { name := n, ty := .int "" lo hi, req := req }
def kEnum (n : String) (ws : List String) (req : Bool := false) : KeySpec := { name := n, ty := .enum ws, req := req }
def kOnOff (n : String) : KeySpec := { name := n, ty := onOffTy }
def kName (n : String) (req : Bool := false) : KeySpec := { name := n, ty := .name, req := req }
def kHex (n : String) (bits : Nat) (req : Bool := false) : KeySpec := { name := n, ty := .hex bits, req := req }

end Sys2Proof.Machine
end

