-- ==== Sys2Proof/Machine/Command.lean ====
section
/-! DEFINITION. How one command line is checked, run and answered: levels (R115), claims (R122), the check order of Table 3.5
and the reply to each kind of sender (Table 3.2, R129, R135, R351). -/

namespace Sys2Proof.Machine

/-- What a command's own checks and effect answer: a reply's lines, the error of check order 7 to 10, or work that a later
step ends and answers (R87). The state given with an error holds the counts an error makes. -/
inductive Res where
  | ok (ls : List String) (s : State)
  | err (code : Nat) (key : String) (s : State)
  | work (s : State)
  deriving DecidableEq, Repr

/-- The catalogue entry of a verb (R695, Table 3.7): its object (empty for a bare verb), its kind, whether it changes
anything (R122), its level and its keys. -/
structure Verb where
  obj     : String
  name    : String
  event   : Bool := false
  changes : Bool := true
  level   : Level := .visitor
  keys    : List KeySpec := []
  deriving DecidableEq, Repr

/-- The order of levels (R115). -/
def Level.rank (l : Level) : Nat := match l with | .visitor => 0 | .keeper => 1 | .owner => 2

/-- The level a line runs at (R115, R127, R133, R350). -/
def State.levelOf (s : State) (o : Origin) : Level :=
  match o with
  | .sess n => (s.sess n).level
  | .morning _ => .owner
  | .keyword .. => .keeper
  | .route r _ => (s.route r).level

/-- Whether a bare word stands among the arguments. -/
def hasWord (a : Args) (w : String) : Bool :=
  a.any fun x => x.key == "" && (match x.val with | .item (.word y) => lowerS y == w | _ => false)

/-- Whether a key stands among the arguments. -/
def hasKey (a : Args) (k : String) : Bool := a.any fun x => lowerS x.key == k

/-- Whether a key stands among the arguments with the number `n`. -/
def keyIsNum (a : Args) (k : String) (n : Nat) : Bool :=
  a.any fun x => lowerS x.key == k && (match x.val with | .item i => itemScaled "" 1 i == some (n : Int) | _ => false)

/-- Whether a key stands among the arguments with the word `w`. -/
def keyIsWord (a : Args) (k w : String) : Bool :=
  a.any fun x => lowerS x.key == k && (match x.val with | .item i => (itemName i).map lowerS == some w | _ => false)

/-- The number a key stands with among the arguments. -/
def argNat? (a : Args) (k : String) : Option Nat :=
  (a.find? fun x => lowerS x.key == k).bind fun x => match x.val with | .item i => ((itemScaled "" 1 i).filter (0 ≤ ·)).map Int.toNat | _ => none

/-- The level a line of a verb needs (Table 3.7): release with `force`, `usb.set bulk=`, `por.gauge used=` and a put to
partition 0 need OWNER, and a write by `ldg.slate` KEEPER. -/
def Verb.needs (v : Verb) (a : Args) : Level :=
  match v.obj, v.name with
  | "desk", "release" => if hasWord a "force" then .owner else v.level
  | "usb", "set" => if hasKey a "bulk" then .owner else v.level
  | "por", "gauge" => if hasKey a "used" then .owner else v.level
  | "ldg", "put" => if keyIsNum a "part" 0 then .owner else v.level
  | "ldg", "slate" => if hasKey a "val" then .keeper else v.level
  | _, _ => v.level

/-- Whether a line meets a claim held by another session (R122, R124): claims bind sessions and routes, and hold `desk.claim` and
`desk.release` of the claimed object too (R123). A line of `ldg.slate`
or `desk.notices` without a key to set changes nothing, and an OWNER's forced release ends any claim (R123). -/
def claimBars (v : Verb) (o : Origin) (a : Args) (s : State) : Bool :=
  let reads := (v.obj == "ldg" && v.name == "slate" && !hasKey a "val") || (v.obj == "desk" && v.name == "notices" && a.isEmpty)
  let frees := v.obj == "desk" && v.name == "release" && hasWord a "force"
  let moves := v.obj == "desk" && (v.name == "claim" || v.name == "release")
  v.changes && !reads && !frees && match o with
    | .sess n => s.desk.claims.any fun c => c.2 != n && (c.1 == v.obj || (moves && keyIsWord a "obj" c.1))
    | .route .. => s.desk.claims.any fun c => c.1 == v.obj
    | _ => false

/-- Whether `unlock` is locked out, in its session or in the part (R120, R121: every session; a line of the script or of a macro
belongs to none, and R694 answers it). -/
def unlockBars (v : Verb) (o : Origin) (s : State) : Bool :=
  v.obj == "" && v.name == "unlock" && (match o with | .sess n => (s.sess n).held || decide (20 ≤ s.ldg.unlockFails.toNat) | _ => false)

/-! ### Partition passwords (R504 to R508) -/

def State.part (s : State) (p : Nat) : PartSt := tgetD s.ldg.parts p {}
def State.onPart (s : State) (p : Nat) (f : PartSt → PartSt) : State := s.onLdg fun d => { d with parts := tmod d.parts p {} f }

/-- A partition's read (`false`) or write password; 0 means none is set. -/
def PartSt.pw (x : PartSt) (w : Bool) : BitVec 64 := if w then x.wpw else x.rpw

/-- Whether the sender may do what a password guards: none is set, or its session holds it (R504). -/
def mayUse (o : Origin) (p : Nat) (w : Bool) (s : State) : Bool :=
  (s.part p).pw w == 0 || (match o with | .sess n => (s.sess n).keys.contains (p, w) | _ => false)

/-- The partition and the password (write: `true`) a verb's line is guarded by. -/
def guardOf (v : Verb) (a : Args) : Option (Nat × Bool) :=
  if v.obj = "ldg" then
    (argNat? a "part").bind fun p =>
      match v.name with
      | "put" => some (p, true)
      | "pass" => some (p, true)
      | "wipe" => some (p, true)
      | "read" => some (p, false)
      | "slate" => if hasKey a "val" then some (p, true) else none
      | _ => none
  else if v.obj = "log" then
    match v.name with
    | "tail" => some (3, false)
    | "clear" => some (3, true)
    | _ => none
  else none

/-- Whether a line lacks a partition password, or names a partition that only the part itself reads or writes (R503, R504). -/
def passBars (v : Verb) (o : Origin) (a : Args) (s : State) : Bool :=
  match guardOf v a with
  | some (p, w) =>
    decide (p < 8) && (!mayUse o p w s || (v.name == "put" && (p == 1 || p == 2 || p == 3)) || (v.name == "read" && (p == 1 || p == 2)))
  | none => false

/-- The partition whose password an `ldg.key` line presents. -/
def keyPart (v : Verb) (o : Origin) (a : Args) : Option Nat :=
  match o with
  | .sess _ => if v.obj = "ldg" ∧ v.name = "key" ∧ hasWord a "drop" = false then (argNat? a "part").filter (· < 8) else none
  | _ => none

/-- Whether `ldg.key` names a partition that is locked out (R507). -/
def keyLocked (v : Verb) (o : Origin) (a : Args) (s : State) : Bool :=
  match o with
  | .sess _ => v.obj == "ldg" && v.name == "key" && ((argNat? a "part").filter (· < 8)).any fun p => (s.part p).locked
  | _ => false

/-- Whether an `ldg.key` line presents a wrong password of a kind the partition has set (R504, R506). -/
def keyWrong (v : Verb) (o : Origin) (a : Args) (s : State) : Option Nat :=
  (keyPart v o a).filter fun p =>
    let wrong (k : String) (w : Bool) : Bool :=
      (s.part p).pw w != 0 && (match argNat? a k with | some n => decide (n < 2 ^ 64) && (s.part p).pw w != BitVec.ofNat 64 n | none => false)
    wrong "rpw" false || wrong "wpw" true

/-- Frames of 10 ms in a minute of powered time. -/
def perMinute : Nat := 6000

/-- A failed presentation (R506, R507): the 8th in a row, and after a lockout each one, locks the partition. -/
def failPart (p : Nat) (s : State) : State :=
  let s := s.onPart p fun x => { x with fails := satInc x.fails }
  let x := s.part p
  if 8 ≤ x.fails.toNat ∨ 0 < x.locks then
    let min := min 960 (15 * 2 ^ min x.locks 7)
    let s := s.onPart p fun x => { x with locked := true, locks := x.locks + 1, endAt := s.ldg.powered + min * perMinute }
    notify "ldg" ("lockout " ++ kn "part" p ++ " " ++ kn "min" min) s
  else s

/-! ### The checks -/

/-- The keys of `hth.set` that belong to a channel. -/
def hthChanKeys : List String :=
  ["mode", "reg", "v", "i", "fpwm", "ramp", "ilim", "itrip", "shunt", "div", "rhot", "pdmax", "rhotauto", "autoretry"]

/-- The names of the AES67 flows (R457): receive, then transmit. -/
def flowNames : List String := ((List.range 8).map fun k => "rx" ++ natS k) ++ (List.range 8).map fun k => "tx" ++ natS k

/-- The required key a line lacks beyond those its verb always requires (check order 6): one the other arguments, or the object as it
stands, call for. -/
def Verb.lacks (v : Verb) (a : Args) (s : State) : Option String :=
  let any (l : List String) : Bool := l.any (hasKey a)
  let first (l : List String) : Option String := l.find? fun k => !hasKey a k
  let lack (c : Bool) (k : String) : Option String := if c && !hasKey a k then some k else none
  match v.obj, v.name with
  | "aud", "dry" => if any ["policy", "fade"] then none else some "policy"
  | "morning", "set" => if hasKey a "line" then first ["text"] else if hasKey a "text" || !hasKey a "onerr" then some "line" else none
  | "ldg", "key" => if hasWord a "drop" || any ["rpw", "wpw"] then none else some "rpw"
  | "ldg", "pass" => if any ["rpw", "wpw"] then none else some "rpw"
  | "ldg", "put" => if hasKey a "data" then first ["off"] else if hasKey a "src" then none else some "data"
  | "fmt", "conv" => lack (keyIsWord a "from" "g6") "e"
  | "plan", "hop" =>
    lack (s.weave.plans.any fun p => keyIsWord a "name" p.name && p.hops.any fun h =>
      (argNat? a "hop").any (h.def_.hop == ·) && h.def_.pchip == p.chip) "key"
  | "plan", "set" => if any ["hop", "smode", "win", "hr", "exp"] then none else some "smode"
  | "hth", "set" => lack (any hthChanKeys) "ch"
  | "pwr", "fuse" =>
    if any ["fuse", "key", "keyrev"] || hasWord a "sigenf" || hasWord a "jtaglock" then lack (hasKey a "key") "src" else some "fuse"
  | "route", "open" =>
    let x := ((argNat? a "r").bind fun r => tget s.cch.routes r).getD {}
    (lack (x.peer == "") "peer").or (lack x.peerRoute.isNone "peerroute")
  | "aes", "set" =>
    let x := (s.aud.rx ++ s.aud.tx).zipIdx.find? fun f => keyIsWord a "flow" (flowNames.getD f.2 "")
    x.bind fun f => (lack f.1.addr.isEmpty "addr").or (lack (f.1.udp == 0) "udp")
  | "ldr", "req" => if keyIsWord a "op" "lerp" then first ["w"] else none
  | "ldr", "set" =>
    if (argNat? a "table").any fun t => (tget s.ldr.tables t).isNone then
      first (["name", "place"] ++ (if keyIsWord a "place" "remote" then ["route", "key", "offset"] else ["addr"]) ++ ["rows", "size", "fmt", "elems"])
    else none
  | _, _ => none

/-- Check orders 5 to 7 of Table 3.5 as far as every command shares them: level, password, lockout and claim, missing keys, and
values. -/
def checkKeys (v : Verb) (c : Ctx) (a : Args) (s : State) : Except (Nat × String) Env :=
  let routeClaim : Bool := match c.origin with | .route .. => v.obj == "desk" && (v.name == "claim" || v.name == "release") | _ => false
  if (s.levelOf c.origin).rank < (v.needs a).rank ∨ routeClaim ∨ passBars v c.origin a s then .error (20, "")
  else if unlockBars v c.origin s ∨ claimBars v c.origin a s ∨ keyLocked v c.origin a s then .error (21, "")
  else match missingKey v.keys a with
    | some k => .error (14, k)
    | none => match v.lacks a s with
      | some k => .error (14, k)
      | none => checkArgs v.keys a

/-- A setting with a tally prefix. -/
def strayPrefix (v : Verb) (p : Pfx) : Bool := !v.event && p != .none

/-- Check orders 5 to 7, the prefix on a setting among them (R96). -/
def checkLine (v : Verb) (c : Ctx) (p : Pfx) (a : Args) (s : State) : Except (Nat × String) Env :=
  match checkKeys v c a s with
  | .error e => .error e
  | .ok e => if strayPrefix v p then .error (13, "") else .ok e

/-- Whether the sender's next line can be run: a session is open, served and between lines (R86, R131); a script line is run
while the script runs; a route line while its route is bound to the Desk (R350). -/
def canRun (o : Origin) (s : State) : Bool :=
  s.on 2 && match o with
    | .sess n => decide (n < 4) && (s.sess n).opened && s.desk.ready && !(s.sess n).busy && (s.sess n).waiting.isNone
    | .morning _ => match s.desk.script with | .running _ w => w == .no | .idle => false
    | .keyword .. => s.desk.ready
    | .route r _ => (s.route r).bind == .desk && (s.route r).state == .opened

/-! ### The end of the morning script -/

/-- The words heard in VAULT become keyword events in the order heard, before the words heard since, and their log is cleared; the
words beyond the first 8 are discarded and logged (R492, R136). -/
def takeVaultWords (s : State) : State :=
  let heard (w : VWord) : Keyword := ⟨w.slot, w.seq, if s.on 3 then some s.tly.now else none, some w.rtc⟩
  let q := s.por.vlog.map heard ++ s.desk.kwq
  let s := s.forEach s.por.vlog fun w s => notify "por" ("word " ++ kn "slot" w.slot ++ " " ++ kn "rtc" w.rtc) s
  let s := s.forEach (q.drop 8) fun w s => logEv 0 0x0104 w.seq.toNat w.slot 0 s
  (s.onDesk fun d => { d with kwq := q.take 8 }).onPor fun p => { p with vlog := [] }

/-- The morning script stands still, and no commit answers a line of it any more (R127). -/
def endScript (s : State) : State :=
  (s.onDesk fun d => { d with script := .idle }).onLdg fun d => { d with queue := d.queue.map forgetScript }

/-- The morning script has ended: `!desk.ready` to every open session, with its first prompt, and the sessions and the held
keyword macros are served (R131, R136, R492). -/
def deskReady (how : String) (s : State) : State :=
  let s := endScript (s.onDesk fun d => { d with ready := true })
  let s := notify "desk" ("ready " ++ kv "script" how) s
  let s := if s.sys.unsignedNote then
      (notify "sys" "unsigned" s).onSys fun y => { y with unsignedNote := false }
    else s
  let s := s.onSys fun y => { y with wdogHit := false }
  takeVaultWords s

/-! ### Replies -/

/-- The ring of the part that a waybill of its own uses (R330), which of 56 to 63 it is being log entry 81. -/
def Waybill.partRing (w : Waybill) : Option Nat :=
  if w.larder.isSome then some 56 else if w.hop then some 57 else if w.data.isSome then some 58 else none

/-- A reply queued as a SEND on a DESK-bound route with REPLY on, its receipt reserved on a ring of the part, or counted in
NOREPLY; with REPLY off a failed line is reported by a notice (R351). -/
def routeReply (r : Nat) (text : String) (err : Option Nat) (s : State) : State :=
  let x := s.route r
  if x.reply then
    if x.state ≠ .opened then s
    else if x.sendq.length < x.sq ∧ (s.ring 58).reserved < 1024 then
      let bytes := (text.toList.map fun ch => BitVec.ofNat 8 ch.toNat).take 4096
      let w : Waybill := { wid := 0, op := 3, flags := 0, aop := 0, rsvd := 0, laddr := 0, len := bytes.length, rkey := 0,
                           roff := 0, imm := 0, tagw := 0, wroute := 0, wcount := 0, tally := 0, data := some bytes,
                           post := s.cch.posted }
      let s := s.onRing 58 fun g => { g with reserved := g.reserved + 1 }
      (s.onRoute r fun x => { x with sendq := x.sendq ++ [w] }).onCch fun c => { c with posted := c.posted + 1 }
    else s.onCch fun c => { c with cNoreply := satInc c.cNoreply }
  else match err with
    | some e => notify "cch" ("line " ++ kn "route" r ++ " " ++ kn "err" e) s
    | none => s

/-- The lines of a reply without terminators, set apart by a line feed, as one SEND carries them (log entry 9), split under R100. -/
def plainReply (ls : List String) : String :=
  let ls := ((if ls.isEmpty then [""] else ls).map (splitLine 237)).flatten
  String.intercalate (String.ofList [Char.ofNat 10]) (ls.map fun l => if l.isEmpty then "ok" else "ok " ++ l)

/-- A reply put to an open session, with a prompt in TYPED mode (Table 3.2). -/
def sessReply (n : Nat) (text : String) (s : State) : State :=
  let s' := pushOut n .reply text s
  if (s.sess n).machine then s' else pushOut n .prompt promptS s'

/-- The text of a reply to a session. -/
def replyText (machine : Bool) (tag : Option Nat) (r : Except (Nat × String) (List String)) : String :=
  match r with
  | .ok ls => okText machine tag ls
  | .error (e, k) => errText machine tag e k

/-- A line's reply to its session. One that the line itself has ended gets none (R84). -/
def sessAnswer (n : Nat) (tag : Option Nat) (r : Except (Nat × String) (List String)) (s : State) : State :=
  let x := s.sess n
  if x.opened && s.desk.ready then sessReply n (replyText x.machine tag r) s else s

/-- One of the last 16 lines of a session, with its reply (R104). -/
def remember (line text : String) (x : Session) : Session := { x with hist := (x.hist ++ [(line, [text])]).drop (x.hist.length + 1 - 16) }

/-- A session's line whose work has ended is answered: the session is freed for its next line, and the reply of a MACHINE
line is stored with the line (R87, R107). -/
def finishSess (n : Nat) (r : Except (Nat × String) (List String)) (s : State) : State :=
  let x := s.sess n
  if decide (n < 4) && x.busy then
    let s := s.onSess n fun x =>
      let y := { x with busy := false, busyTag := none, busyLine := none }
      match x.busyLine with | some l => remember l (replyText x.machine x.busyTag r) y | none => y
    sessAnswer n x.busyTag r s
  else s

/-- The script line that waited for the end of a house move goes on once no move is under way (R128). -/
def moveEnds (s : State) : State :=
  if s.pwr.goal.isNone then
    s.onDesk fun d => { d with script := match d.script with | .running l .move => .running (l + 1) .no | x => x }
  else s

/-- The script has ended: the run of a power-up with `!desk.ready`, a run of `morning.run` in silence (its line was answered, R87). -/
def scriptEnd (how : String) (s : State) : State := if s.desk.ready then endScript s else deskReady how s

/-- Whether line `n` of the script is the one that runs. -/
def runsLine (n : Nat) (s : State) : Bool := match s.desk.script with | .running l _ => l == n | .idle => false

/-- What a sender is told when its line has been answered. -/
def answer (o : Origin) (tag : Option Nat) (r : Except (Nat × String) (List String)) (s : State) : State :=
  match o with
  | .sess n => sessAnswer n tag r s
  | .morning line =>
    if runsLine line s = false then s
    else match r with
    | .ok _ => s.onDesk fun d => { d with script := .running (line + 1) .no }
    | .error (e, _) =>
      let s := logEv 0 0x0101 0 line e s
      if s.ldg.onerr then s.onDesk fun d => { d with script := .running (line + 1) .no } else scriptEnd "stopped" s
  | .keyword slot _ _ =>
    let fields := match r with
      | .ok ls => if ls.isEmpty then "" else " " ++ spaced ls
      | .error (e, _) => " " ++ kn "err" e
    notify "desk" ("macro " ++ kn "slot" slot ++ fields) s
  | .route rt _ =>
    match r with
    | .ok ls => routeReply rt (plainReply ls) none s
    | .error (e, k) => routeReply rt (errBody 240 e k) (some e) s

/-- The tag of an accepted MACHINE line recorded (R103, R143). -/
def noteTag (o : Origin) (tag : Option Nat) (s : State) : State :=
  match o, tag with
  | .sess n, some t => s.onSess n fun x =>
      if x.machine then { x with tag := BitVec.ofNat 16 t, expect := some (wrap (t + 1) 65536) } else x
  | _, _ => s

/-- A line whose work has begun and is answered when it ends (R87): its session reads no further line. -/
def holdLine (o : Origin) (tag : Option Nat) (s : State) : State :=
  match o with
  | .sess n => s.onSess n fun x => { x with busy := true, busyTag := tag }
  | .morning line => s.onDesk fun d => { d with
      script := match d.script with | .running l .move => .running l .move | .idle => .idle | _ => .running line .work }
  | _ => s

/-- The mode a line has asked for, once its reply stands in the buffer; a switch into MACHINE clears the tag history (R98). -/
def switchMode (o : Origin) (s : State) : State :=
  match o with
  | .sess n => s.onSess n fun x => match x.next with
      | some true => if x.machine then { x with next := none } else { x with machine := true, next := none, hist := [], expect := none }
      | some false => { x with machine := false, next := none }
      | none => x
  | _ => s

/-- A result delivered to the sender of a line. -/
def deliver (c : Ctx) (r : Res) : State :=
  match r with
  | .ok ls s => switchMode c.origin (answer c.origin c.tag (.ok ls) (noteTag c.origin c.tag s))
  | .err e k s => answer c.origin c.tag (.error (e, k)) (noteTag c.origin c.tag s)
  | .work s => holdLine c.origin c.tag (noteTag c.origin c.tag s)

/-- A setting with a tally prefix has no effect: bad-value, or an error its own checks find earlier in check order (R96, R108). -/
def settled (r : Res) (s : State) : Res :=
  match r with
  | .err e k s' => if e = 20 ∨ e = 21 ∨ e = 14 then .err e k s' else .err 13 "" s
  | _ => .err 13 "" s

/-- A line's result: check orders 5 to 7, then the verb's own checks and effect. A wrong partition password counts whatever else is
wrong with its line (R506). -/
def runVerb (v : Verb) (body : Ctx → Pfx → Env → State → Res) (c : Ctx) (p : Pfx) (a : Args) (s : State) : Res :=
  match checkKeys v c a s with
  | .error (e, k) =>
    match (if e = 20 ∨ e = 21 then none else keyWrong v c.origin a s) with
    | some n => .err 20 "part" (failPart n s)
    | none => .err e k s
  | .ok env => if strayPrefix v p then settled (body c p env s) s else body c p env s

/-- One command of the command language, run and answered. Where its sender has no line to run, it has no effect. -/
def runCommand (v : Verb) (body : Ctx → Pfx → Env → State → Res) (c : Ctx) (p : Pfx) (a : Args) (s : State) : State :=
  if canRun c.origin s then deliver c (runVerb v body c p a s) else s

/-- The next state of a command of the command language. -/
def ulc (v : Verb) (body : Ctx → Pfx → Env → State → Res) (c : Ctx) (p : Pfx) (a : Args) (s : State) :
    Host.Outcome State Fault Refusal := .next (runCommand v body c p a s)

/-- The session a line came from, when it came from one. -/
def Origin.sess? (o : Origin) : Option Nat := match o with | .sess n => some n | _ => none

/-- A line whose work ended outside its own step is answered (R87). -/
def finishLine (o : Origin) (r : Except (Nat × String) (List String)) (s : State) : State :=
  match o with
  | .sess n => finishSess n r s
  | _ => answer o none r s

end Sys2Proof.Machine
end

