-- ==== Sys2Proof/Machine/CoachBase.lean ====
section
/-! DEFINITION. The parts of Coach that other blocks use: the usable memory range, frames sent, receipts and rings (R363,
R364), completions (R345, R358), route errors (Table 8.2), and the posting and issuing of waybills (R340 to R347, R367 to
R380). -/

namespace Sys2Proof.Machine

/-! ### Memory regions -/

/-- Bytes of usable LPDDR5X (R23): 15/16 of the installed capacity with inline ECC and all of it without, nothing while VALID is 0. -/
def State.usable (s : State) : Nat :=
  if s.mem.valid then (if s.mem.eccOn then s.mem.installed.toNat * 15 * 2 ^ 24 else s.mem.installed.toNat * 2 ^ 28) else 0

/-- Whether `n` bytes from `a` lie inside the usable range. -/
def inUsable (a n : Nat) (s : State) : Bool := decide (a + n ≤ s.usable) && decide (0 < s.usable)

/-- INN_CELLAR (R283). -/
def State.cellar (s : State) : Nat := s.inn.cellarHi.toNat * 2 ^ 32 + s.inn.cellarLo.toNat * 2 ^ 20

/-- Whether `n` bytes from `a` meet the 128 MiB cellar (R247). -/
def inCellar (a n : Nat) (s : State) : Bool := decide (a < s.cellar + 2 ^ 27) && decide (s.cellar < a + n)

/-! ### Ports -/

/-- The power domain of a port. -/
def portDom (p : Nat) : Nat := if p = 0 then 6 else 7

/-- A frame given to a port; a port that is off, not enabled or without a link sends nothing. -/
def sendFrame (p : Nat) (f : TxFrame) (s : State) : State :=
  if s.on (portDom p) && (s.net p).en && (s.net p).link then s.onNet p fun n => { n with tx := f :: n.tx } else s

/-- PMAX (R370). -/
def State.pmax (s : State) (p : Nat) : Nat := if (s.net p).mtu then 4096 else 1024

/-- The priority of a route's packets (R381). -/
def routePrio (s : State) (x : Route) : Nat := if x.lossless then (s.net x.port).pfcpri.toNat else 0

/-- Whether an address is an IPv6 address. -/
def isV6 (t : String) : Bool := t.toList.contains ':'

/-- A number as `n` bytes on the wire, the most significant first (R367). -/
def beBytes (n v : Nat) : List Byte := (List.range n).reverse.map fun i => BitVec.ofNat 8 (v / 256 ^ i)

/-- The Coach header of a packet: the base of Table 9.1, the tally where TL is 1, and the extension of Table 9.2 (R369). -/
def coachHeader (k : Packet) : List Byte :=
  let first : Bool := k.pos == 0 || k.pos == 1
  let last : Bool := k.pos == 0 || k.pos == 3
  let place := beBytes 4 k.rkey.toNat ++ beBytes 8 k.roff
  let imm := if last then beBytes 4 k.imm.toNat else []
  beBytes 1 (16 * k.ver + 8 * b2n k.tl + 4 * b2n k.ar) ++ beBytes 1 k.kind ++ beBytes 2 k.droute ++ beBytes 2 k.sroute ++ beBytes 1 k.pos ++
    beBytes 1 0 ++ beBytes 4 k.psn ++ beBytes 2 k.msn.toNat ++ beBytes 2 k.payload.length ++ (if k.tl then beBytes 8 k.tally.toNat else []) ++
    (match k.kind with
      | 0 => place
      | 1 => place ++ imm
      | 2 => place ++ beBytes 4 k.len
      | 3 => (if first then beBytes 4 k.tagw.toNat else []) ++ imm
      | 0x10 => beBytes 4 k.apsn
      | 0x11 => beBytes 4 (k.apsn + 2 ^ 24 * k.status)
      | 0x12 => beBytes 4 k.cecnt
      | _ => [])

/-- A Coach packet sent on a route (R367 to R369, R386). -/
def sendCoach (r : Nat) (k : Packet) (s : State) : State :=
  let x := s.route r
  sendFrame x.port (.coach x.peer x.peerPort x.vlan (routePrio s x) x.dscp (s.net x.port).ect (isV6 x.peer) (coachHeader k) k) s

/-- A packet of a route with its header fields at the values every packet of the route carries. -/
def basePacket (s : State) (r : Nat) (kind : Nat) : Packet :=
  let x := s.route r
  { port := x.port, src := "", sport := s.cch.udp.toNat, csumOk := true, ce := false, ver := 1, tl := false, ar := false,
    kind := kind, rsvd := 0, droute := x.peerRoute.getD 0, sroute := r, pos := 0, psn := 0, msn := 0, tally := 0, rkey := 0,
    roff := 0, len := 0, imm := 0, tagw := 0, apsn := 0, status := 0, cecnt := 0, payload := [] }

/-! ### Receipts and rings -/

/-- Unread target receipts of a route on a ring. -/
def targetHeld (k r : Nat) (s : State) : Nat := ((s.ring k).entries.filter fun e => e.target && e.route == r).length

/-- Entries of a ring that are taken: the receipts of R340's posts, written or still to come, what each route's RQ reserves (R329),
and the target receipts that a closed route has left unread. -/
def ringUsed (k : Nat) (s : State) : Nat :=
  let g := s.ring k
  let on := s.cch.routes.filter fun e => e.2.state != .closed && e.2.rring == k
  (g.entries.filter fun e => !e.target || !on.any fun o => o.1 == e.route).length + g.reserved +
    (on.map fun o => max o.2.rq (targetHeld k o.1 s)).sum

/-- Whether a post finds a free entry on a ring (R340). -/
def ringFree (k : Nat) (s : State) : Bool := decide (ringUsed k s < 1024)

/-- A receipt written at a ring's head (R363). The part reads the rings of R330 at once (log entry 81). -/
def writeReceipt (k : Nat) (x : Receipt) (s : State) : State :=
  s.onRing k fun g =>
    let h := wrap (g.head + 1) 1024
    { g with
      entries := if k < 56 then g.entries ++ [{ x with phase := g.phase }] else g.entries, head := h
      tail := if k < 56 then g.tail else h, phase := if g.head = 1023 then !g.phase else g.phase }

/-- Whether a waybill is the part's own. -/
def Waybill.own (w : Waybill) : Bool := w.partRing.isSome

/-- The ring of a waybill's sender receipt: its route's SRING, or one of the part (R330). -/
def wayRing (x : Route) (w : Waybill) : Nat := w.partRing.getD x.sring

/-- The oldest waybill of a route leaves its queue with a status: CC_OUT counts a success, which only status OK is, and a sender
receipt is written for every other end and for a signalled success (R345, log entry 82). -/
def finishHead (r st : Nat) (s : State) : State :=
  match (s.route r).sendq with
  | [] => s
  | w :: q =>
    let x := s.route r
    let ok := st == 0
    let s := s.onRoute r fun x => { x with sendq := q, ccOut := if ok then x.ccOut + 1 else x.ccOut }
    let s := s.onRing (wayRing x w) fun g => { g with reserved := g.reserved - 1 }
    if !ok || w.flags % 2 = 1 then
      writeReceipt (wayRing x w) {
        wid := w.wid, route := r, target := false, op := w.op, status := st
        len := if ok || st = 9 then w.len else 0, imm := if w.op = 1 ∨ w.op = 3 then w.imm else 0, tally := none, psn := w.psn
        tagw := w.tagw, phase := false } s
    else s

/-- Every waybill of a route completes with a status (Table 8.2). -/
def flushAll (fuel r st : Nat) (s : State) : State :=
  match fuel with
  | 0 => s
  | f + 1 => if (s.route r).sendq.isEmpty then s else flushAll f r st (finishHead r st s)

/-- Whether the oldest waybill of a route is complete on its own: a READ whose every response packet is placed, a FLUSH that is
acknowledged (R342, R375), a WAIT whose counter has been reached (R358). A route in CLOSING still completes what it has sent. -/
def headDone (r : Nat) (s : State) : Option Nat :=
  let x := s.route r
  match x.sendq with
  | w :: _ =>
    let d := wrap (x.ackd + 2 ^ 24 - w.psn) (2 ^ 24)
    if (x.state != .opened && x.state != .closing) || !w.issued then none
    else if w.op = 2 ∧ w.psns ≤ w.got then some (if w.poison then 9 else 0)
    else if w.op = 4 ∧ 1 ≤ d ∧ d ≤ 2 ^ 23 then some 0
    else if w.op = 5 ∧ w.met then some 0
    else none
  | [] => none

/-- The waybills at the head of a route that are done complete in queue order (R364). -/
def settleHead (fuel r : Nat) (s : State) : State :=
  match fuel with
  | 0 => s
  | f + 1 => match headDone r s with
    | some st => settleHead f r (finishHead r st s)
    | none => s

/-- Whether the WAIT that a route has issued is satisfied (R358), or its watched route has left OPEN (R359). -/
inductive WaitNow where
  | blocked | done | failed
  deriving DecidableEq, Repr

def waitNow (r : Nat) (s : State) : WaitNow :=
  let x := s.route r
  match x.sendq.find? fun w => w.op == 5 && w.issued && !w.met with
  | some w =>
    if x.state == .opened || x.state == .closing then
      let y := s.route w.wroute
      let c := if w.flags / 8 % 2 = 1 then y.ccIn else y.ccOut
      if decide ((c - w.wcount).toNat < 2 ^ 31) then .done
      else if x.state == .opened && y.state != .opened then .failed else .blocked
    else .blocked
  | none => .blocked

/-- A route's issued WAIT is satisfied: it no longer blocks, and completes in its turn. -/
def meetWait (r : Nat) (s : State) : State :=
  let s := s.onRoute r fun x => { x with sendq := x.sendq.map fun w => if w.op == 5 && w.issued then { w with met := true } else w }
  settleHead ((s.route r).sendq.length + 1) r s

/-- `!ldr.route` once each time a route of a REMOTE table leaves OPEN (R309). -/
def leftOpen (r : Nat) (s : State) : State :=
  if s.ldr.tables.any fun e => !e.2.local_ && e.2.route == r then notify "ldr" ("route " ++ kn "route" r) s else s

/-- A route enters ERROR (Table 8.2): its oldest waybill completes with the status, every later one FLUSHED, the notice and
the log entry follow, and the Larder reports the route once (R309). `own` is the status of the oldest waybill: `st`, or FLUSHED
where the failing one has completed already. -/
def routeErrorOne (r st own : Nat) (s : State) : State :=
  if (s.route r).state == .opened then
    let s := s.onRoute r fun x => { x with state := .error, status := st, retx := [] }
    let s := finishHead r own s
    let s := flushAll ((s.route r).sendq.length + 1) r 1 s
    let s := notify "cch" ("error " ++ kn "route" r ++ " " ++ kv "st" (hexS 2 st)) s
    let s := logEv 2 0x0101 0 r st s
    leftOpen r s
  else s

/-- The waybills of a route up to the first that `p` tells complete FLUSHED (log entry 10). -/
def flushBefore (p : Waybill → Bool) (r : Nat) (s : State) : State :=
  s.forEach ((s.route r).sendq.takeWhile fun w => !p w) fun _ => finishHead r 1

/-- A route's issued WAIT fails, and the route enters ERROR (R359). -/
def failWait (r : Nat) (s : State) : State :=
  routeErrorOne r 6 6 (flushBefore (fun w => w.op == 5 && w.issued && !w.met) r s)

/-- Blocked WAITs complete or fail until none moves (R358, R359). -/
def settleWaits (fuel : Nat) (s : State) : State :=
  match fuel with
  | 0 => s
  | f + 1 =>
    match s.cch.routes.find? fun e => waitNow e.1 s != .blocked with
    | none => s
    | some (r, _) => settleWaits f (if waitNow r s = .done then meetWait r s else failWait r s)

/-- Waybills queued on the part. -/
def queuedAll (s : State) : Nat := (s.cch.routes.map fun e => e.2.sendq.length).sum

/-- The waits of the part after a change of a counter or a state. -/
def afterCount (s : State) : State := settleWaits (queuedAll s + 1) s

/-- A route enters ERROR, and the WAITs that watched it with it. -/
def routeError (r st : Nat) (s : State) : State := afterCount (routeErrorOne r st st s)

/-- The completions that follow a change at the head of a route, and the WAITs they satisfy. -/
def settleRoute (r : Nat) (s : State) : State := afterCount (settleHead ((s.route r).sendq.length + 1) r s)

/-! ### Posting (R340, R341, R361) -/

/-- Whether a waybill's fields are valid (R341): its operation, an ARM's included, its flags, its reserved fields and, where it has
one, its local address. A waybill of the part's own has no local address. AOP means nothing but in an ARM. -/
def waybillValid (w : Waybill) (s : State) : Bool :=
  let op := if w.op = 6 then w.aop else w.op
  decide (w.op ≤ 6) && decide (w.flags < 16) && w.rsvd == 0 && (w.op != 6 || decide (w.aop ≤ 3)) &&
    decide (w.laddr < 2 ^ 48) &&
    (decide (4 ≤ op) || w.own ||
      (decide (w.len ≤ (if op = 3 then 4096 else 2 ^ 20)) && (w.len == 0 && s.mem.valid || inUsable w.laddr w.len s)))

/-- ARMs waiting across the part (R361); one that has fired waits no more. -/
def armsWaiting (s : State) : Nat := (s.cch.routes.map fun e => (e.2.sendq.filter fun w => w.op == 6 && !w.armed).length).sum

/-- Whether a post finds its places: a send queue entry, a ring entry, and for an ARM one of 64 (R340, R361). -/
def postRoom (r : Nat) (w : Waybill) (s : State) : Bool :=
  let x := s.route r
  decide (x.sendq.length < x.sq) && ringFree (wayRing x w) s && (w.op != 6 || decide (armsWaiting s < 64))

/-- A waybill put at the end of a route's send queue, its ring entry reserved. On a route in ERROR it completes at once
FLUSHED (R332). -/
def postWaybill (r : Nat) (w : Waybill) (s : State) : State :=
  let x := s.route r
  let s := s.onCch fun c => { c with posted := c.posted + 1 }
  let s := s.onRing (wayRing x w) fun g => { g with reserved := g.reserved + 1 }
  let s := s.onRoute r fun x => { x with sendq := x.sendq ++ [{ w with post := s.cch.posted }] }
  if x.state == .error then flushAll (x.sendq.length + 1) r 1 s else s

/-! ### Issuing (R346, R347, R373, R377, R378) -/

/-- The first waybill of a queue not yet issued, with those before it. -/
def firstUnissued (before : List Waybill) (q : List Waybill) : Option (List Waybill × Waybill × List Waybill) :=
  match q with
  | [] => none
  | w :: r => if w.issued then firstUnissued (before ++ [w]) r else some (before, w, r)

/-- Whether earlier waybills hold a waybill back: a WAIT not satisfied or an ARM that has not fired, or, with FENCE, a READ or FLUSH
(R347, R358, R360). -/
def heldBack (before : List Waybill) (w : Waybill) : Bool :=
  before.any (fun b => b.op == 5 && !b.met || b.op == 6) || (w.flags / 2 % 2 == 1 && before.any (fun b => b.op == 2 || b.op == 4))

/-- The payload of a waybill's data in packets of at most `m` bytes. -/
def segments (fuel m : Nat) (l : List Byte) : List (List Byte) :=
  match fuel with
  | 0 => []
  | f + 1 => if l.length ≤ m then [l] else l.take m :: segments f m (l.drop m)

/-- The bytes a waybill sends. -/
def wayData (w : Waybill) (s : State) : List Byte :=
  match w.data with
  | some d => d
  | none => if w.op = 0 ∨ w.op = 1 ∨ w.op = 3 then s.ram.readN w.laddr w.len else []

/-- The packets of a request (R369, R370, R373, R377, R380). -/
def wayPackets (r : Nat) (w : Waybill) (s : State) : List Packet :=
  let x := s.route r
  let segs := segments ((wayData w s).length + 1) (s.pmax x.port) (wayData w s)
  let n := segs.length
  let carriesMsn := w.op = 1 ∨ w.op = 3
  let b := basePacket s r w.op
  let out := (x.retx.map fun e => e.2.payload.length).sum
  (segs.zip (List.range n)).map fun e =>
    let last := e.2 + 1 = n
    { b with
      tl := w.flags / 4 % 2 = 1
      tally := if w.flags / 4 % 2 = 1 then w.tally else 0
      ar := decide last || decide (2 ^ 20 < out + e.2 * s.pmax x.port)
      pos := if n = 1 then 0 else if e.2 = 0 then 1 else if last then 3 else 2
      psn := wrap (x.psn + e.2) (2 ^ 24)
      msn := if carriesMsn then x.msn else 0
      rkey := if w.op ≤ 2 then w.rkey else 0
      roff := if w.op ≤ 2 then w.roff + e.2 * s.pmax x.port else 0
      len := if w.op = 2 then w.len else 0
      imm := if carriesMsn ∧ last then w.imm else 0
      tagw := if w.op = 3 ∧ e.2 = 0 then w.tagw else 0
      payload := e.1 }

/-- PSNs a request takes: one for each packet, and for a READ one for each packet of its response (R373). -/
def wayPsns (r : Nat) (w : Waybill) (s : State) : Nat :=
  if w.op = 2 then max 1 ((w.len + s.pmax (s.route r).port - 1) / s.pmax (s.route r).port) else (wayPackets r w s).length

/-- Bytes in the retransmit store of a port (R378). -/
def retxUsed (p : Nat) (s : State) : Nat :=
  (s.cch.routes.map fun e => if e.2.port = p then (e.2.retx.map fun k => k.2.payload.length).sum else 0).sum

/-- A waybill issued: its packets take their PSNs, go into the retransmit store and leave (R344, R373, R378). -/
def sendWay (r : Nat) (before : List Waybill) (w : Waybill) (after : List Waybill) (s : State) : State :=
  let x := s.route r
  let ks := wayPackets r w s
  let n := wayPsns r w s
  let w := { w with issued := true, psn := x.psn, psns := n, msn := x.msn }
  let s := s.onRoute r fun x => { x with
    sendq := before ++ [w] ++ after, psn := wrap (x.psn + n) (2 ^ 24), msn := if w.op = 1 ∨ w.op = 3 then x.msn + 1 else x.msn,
    retx := x.retx ++ ks.map fun k => (k.psn, k) }
  s.forEach ks (sendCoach r)

/-- Whether the port has room for a route's next waybill: in the store, in the PSN window, and no pause on its priority. -/
def hasRoom (r : Nat) (w : Waybill) (s : State) : Bool :=
  let x := s.route r
  decide (retxUsed x.port s + (wayData w s).length ≤ 2 ^ 22) &&
    decide (wrap (x.psn + 2 ^ 24 - x.ackd) (2 ^ 24) + wayPsns r w s < 2 ^ 23) &&
    !(s.net x.port).paused.getLsbD (routePrio s x)

/-- Whether the next waybill of a route is a boundary record that could leave now. -/
def recordNext (r : Nat) (s : State) : Bool :=
  let x := s.route r
  x.state == .opened && match firstUnissued [] x.sendq with
    | some (before, w, _) => w.hop && !heldBack before w && hasRoom r w s
    | none => false

/-- Whether a boundary record waits to leave on the port and priority of a route: it goes ahead of all other data there (R405); within
its own route the order of the queue stands (log entry 79). -/
def recordWaits (r : Nat) (s : State) : Bool :=
  let x := s.route r
  s.cch.routes.any fun e => e.2.port == x.port && routePrio s e.2 == routePrio s x && recordNext e.1 s

/-- Whether a route's next waybill may leave. -/
def mayLeave (r : Nat) (w : Waybill) (s : State) : Bool := hasRoom r w s && (w.hop || !recordWaits r s)

/-- The next waybill of a route issued when it is of operation `op` and nothing holds it back; one found bad at issue
completes LOCAL, those before it FLUSHED, and the route enters ERROR, whichever operation it names (R341, log entry 10). -/
def issueOp (r op : Nat) (s : State) : State :=
  let x := s.route r
  if x.state == .opened then
    match firstUnissued [] x.sendq with
    | some (before, w, after) =>
      let bad := !waybillValid w s
      if (w.op = op ∨ (bad ∧ 7 ≤ w.op)) ∧ heldBack before w = false then
        if bad then routeError r 5 (flushBefore (fun v => !v.issued) r s)
        else if op = 5 then afterCount (s.onRoute r fun x => { x with sendq := before ++ [{ w with issued := true }] ++ after })
        else if op = 6 then
          if w.armed then
            let w' := { w with op := w.aop }
            if mayLeave r w' s then sendWay r before w' after s else s.onRoute r fun x => { x with sendq := before ++ [w'] ++ after }
          else s.onRoute r fun x => { x with sendq := before ++ [{ w with issued := true }] ++ after }
        else if mayLeave r w s then sendWay r before w after s
        else s
      else s
    | none => s
  else s

/-! ### Windows (R333, R334) -/

/-- The key of a window: its tag above its index (R333). -/
def winKey (w : Nat) (s : State) : W32 := (s.win w).tag ++ BitVec.ofNat 10 w

/-- A window opened: its tag advances by one (R334). -/
def openWindow (w : Nat) (x : Window) (s : State) : State := s.onWin w fun old => { x with opened := true, tag := old.tag + 1 }

/-- A window closed; its tag stays. -/
def closeWindow (w : Nat) (s : State) : State := s.onWin w fun old => { tag := old.tag }

/-- The highest-numbered closed window, which a boundary hop takes (log entry 21). -/
def hopWindow (s : State) : Option Nat := (List.range 1024).reverse.find? fun w => !(s.win w).opened

/-! ### Rates (R387) -/

/-- The line rate in units of 1/65536. -/
def lineRate : Nat := 65536

/-- Whether a route carries a boundary hop (R388). -/
def carriesHop (r : Nat) (s : State) : Bool := s.weave.plans.any fun p => p.hops.any fun h => h.route == some r

end Sys2Proof.Machine
end

