-- ==== Sys2Proof/Machine/Num.lean ====
section
/-! DEFINITION. The number formats (R147 to R152), exact values, F32 arithmetic with one rounding (R155), and every
conversion (R157, R158). -/

namespace Sys2Proof.Machine

/-- An exact finite value: a sign and a quotient. A zero keeps its sign. -/
structure Q where
  neg : Bool
  num : Nat
  den : Nat
  deriving DecidableEq, Repr

/-- A source value of a conversion or an operand of F32 arithmetic. -/
inductive X where
  | nan
  | inf (neg : Bool)
  | fin (q : Q)
  deriving DecidableEq, Repr

/-- `m × 2^e` with a sign. -/
def Q.dy (neg : Bool) (m : Nat) (e : Int) : Q :=
  if 0 ≤ e then ⟨neg, m * 2 ^ e.toNat, 1⟩ else ⟨neg, m, 2 ^ (-e).toNat⟩

def Q.ofInt (i : Int) : Q := ⟨decide (i < 0), i.natAbs, 1⟩
def Q.isZero (q : Q) : Bool := q.num == 0

/-- A value times `2^e`. -/
def Q.shift (q : Q) (e : Int) : Q :=
  if 0 ≤ e then ⟨q.neg, q.num * 2 ^ e.toNat, q.den⟩ else ⟨q.neg, q.num, q.den * 2 ^ (-e).toNat⟩

/-- The exact sum; a sum of zero is +0 unless both are negative zeros. -/
def Q.add (a b : Q) : Q :=
  if a.isZero && b.isZero then ⟨a.neg && b.neg, 0, 1⟩
  else
    let x := a.num * b.den
    let y := b.num * a.den
    if a.neg == b.neg then ⟨a.neg, x + y, a.den * b.den⟩
    else if x = y then ⟨false, 0, 1⟩
    else if y < x then ⟨a.neg, x - y, a.den * b.den⟩
    else ⟨b.neg, y - x, a.den * b.den⟩

def Q.mul (a b : Q) : Q := ⟨a.neg != b.neg, a.num * b.num, a.den * b.den⟩
def Q.div (a b : Q) : Q := ⟨a.neg != b.neg, a.num * b.den, a.den * b.num⟩
def Q.neg' (a : Q) : Q := { a with neg := !a.neg }
def Q.abs (a : Q) : Q := { a with neg := false }

/-- `a ≤ b` on magnitudes. -/
def Q.magLe (a b : Q) : Bool := decide (a.num * b.den ≤ b.num * a.den)

/-- `a < b`. -/
def Q.lt (a b : Q) : Bool :=
  if a.isZero && b.isZero then false
  else match a.neg, b.neg with
    | true, false => true
    | false, true => false
    | false, false => decide (a.num * b.den < b.num * a.den)
    | true, true => decide (b.num * a.den < a.num * b.den)

/-- floor(log2 q) of a positive value. -/
def Q.log2 (q : Q) : Int :=
  let k : Int := (q.num.log2 : Int) - (q.den.log2 : Int)
  let ge : Bool := if 0 ≤ k then decide (q.den * 2 ^ k.toNat ≤ q.num) else decide (q.den ≤ q.num * 2 ^ (-k).toNat)
  if ge then k else k - 1

/-- ceil(log2 q) of a positive value. -/
def Q.clog2 (q : Q) : Int :=
  let k := q.log2
  let eq : Bool := if 0 ≤ k then decide (q.den * 2 ^ k.toNat = q.num) else decide (q.den = q.num * 2 ^ (-k).toNat)
  if eq then k else k + 1

/-- `q` to the nearest multiple of `2^u`, ties away from zero: how many multiples. -/
def Q.roundTo (q : Q) (u : Int) : Nat :=
  let a := if 0 ≤ u then q.num else q.num * 2 ^ (-u).toNat
  let d := if 0 ≤ u then q.den * 2 ^ u.toNat else q.den
  if d = 0 then 0 else (2 * a + d) / (2 * d)

/-! ### Formats (Table 4.1) -/

/-- A floating format: fraction bits, exponent of the smallest normal number, width, and the codes of the largest finite
value, of infinity where there is one, and of the canonical NaN. -/
structure FFmt where
  p    : Nat
  emin : Int
  bits : Nat
  top  : Nat
  inf  : Option Nat
  nan  : Nat
  deriving DecidableEq, Repr

def fE4M3 : FFmt := ⟨3, -6, 8, 0x7E, none, 0x7F⟩
def fE5M2 : FFmt := ⟨2, -14, 8, 0x7B, some 0x7C, 0x7E⟩
def fH16 : FFmt := ⟨10, -14, 16, 0x7BFF, some 0x7C00, 0x7E00⟩
def fB16 : FFmt := ⟨7, -126, 16, 0x7F7F, some 0x7F80, 0x7FC0⟩
def fF32 : FFmt := ⟨23, -126, 32, 0x7F7FFFFF, some 0x7F800000, 0x7FC00000⟩

/-- The kinds of format, by code: integer (bits, fraction bits), unsigned with a zero point, Q23, floating, or G6. -/
inductive FKind where
  | int (bits frac : Nat)
  | u8
  | q23
  | flt (f : FFmt)
  | g6
  deriving DecidableEq, Repr

/-- Table 4.1 by code; codes 0xD to 0xF name no format and read as S32 here, refused before use. -/
def fmtKind (c : Nat) : FKind :=
  match c with
  | 0 => .int 4 0 | 1 => .int 8 0 | 2 => .u8 | 3 => .int 16 0 | 4 => .int 32 0 | 5 => .q23 | 6 => .int 32 31
  | 7 => .flt fE4M3 | 8 => .flt fE5M2 | 9 => .g6 | 10 => .flt fH16 | 11 => .flt fB16 | 12 => .flt fF32
  | _ => .int 32 0

/-- The names of the formats, in code order. -/
def fmtNames : List String :=
  ["s4", "s8", "u8", "s16", "s32", "q23", "q31", "e4m3", "e5m2", "g6", "h16", "b16", "f32"]

/-- Bits of one element (Table 4.1); a G6 code has 6. -/
def fmtBits (c : Nat) : Nat :=
  match c with
  | 0 => 4 | 1 | 2 | 7 | 8 => 8 | 3 | 10 | 11 => 16 | 9 => 6 | _ => 32

/-- Bytes of `n` elements of a format as a tensor holds them (R148, R151, R152). -/
def fmtBytes (c n : Nat) : Nat :=
  match c with
  | 0 => (n + 1) / 2
  | 9 => (n + 31) / 32 * 25
  | _ => n * (fmtBits c / 8)

/-- A two's complement code of `b` bits as an integer. -/
def sext (b c : Nat) : Int := if c % 2 ^ b < 2 ^ (b - 1) then (c % 2 ^ b : Nat) else (c % 2 ^ b : Nat) - (2 ^ b : Nat)

/-- An integer as a code of `b` bits. -/
def toCode (b : Nat) (i : Int) : Nat := (i % (2 ^ b : Nat)).toNat

/-- The value of a floating code. -/
def fltVal (f : FFmt) (c : Nat) : X :=
  let neg := decide (c / 2 ^ (f.bits - 1) % 2 = 1)
  let mag := c % 2 ^ (f.bits - 1)
  let e := mag / 2 ^ f.p
  let m := mag % 2 ^ f.p
  if some mag = f.inf then .inf neg
  else if f.top < mag then .nan
  else if e = 0 then .fin (Q.dy neg m (f.emin - f.p))
  else .fin (Q.dy neg (2 ^ f.p + m) (f.emin - f.p + (e - 1 : Nat)))

/-- A value rounded to a floating grid without an upper end: its magnitude as a code that may pass the largest. -/
def fltMag (f : FFmt) (q : Q) : Nat :=
  if q.num = 0 then 0
  else
    let l := q.log2
    let u := (if l < f.emin then f.emin else l) - f.p
    let n := q.roundTo u
    -- the code of n × 2^u, n at most 2^(p+1)
    (n + (u + f.p - f.emin).toNat * 2 ^ f.p)

def signBit (f : FFmt) (neg : Bool) : Nat := if neg then 2 ^ (f.bits - 1) else 0

/-- The result of a conversion of one element: its code and what it counts as. -/
structure Conv where
  code : Nat
  clip : Bool
  nan  : Bool
  deriving DecidableEq, Repr

/-- Conversion into an integer grid with `frac` fraction bits, from `lo` to `hi`, codes shifted by `z` (R157). -/
def toGrid (frac : Nat) (lo hi z : Int) (bits sh : Nat) (v : X) : Conv :=
  let code (i : Int) : Nat := toCode bits (i + z) * 2 ^ sh
  match v with
  | .nan => ⟨code 0, false, true⟩
  | .inf neg => ⟨code (if neg then lo else hi), true, false⟩
  | .fin q =>
    let n : Int := q.roundTo (-(frac : Int))
    let i := if q.neg then -n else n
    if hi < i then ⟨code hi, true, false⟩ else if i < lo then ⟨code lo, true, false⟩ else ⟨code i, false, false⟩

/-- Conversion into a floating format (R157). -/
def toFlt (f : FFmt) (v : X) : Conv :=
  match v with
  | .nan => ⟨f.nan, false, true⟩
  | .inf neg => match f.inf with
    | some i => ⟨signBit f neg + i, false, false⟩
    | none => ⟨signBit f neg + f.top, true, false⟩
  | .fin q =>
    let m := fltMag f q
    if f.top < m then ⟨signBit f q.neg + f.top, true, false⟩ else ⟨signBit f q.neg + m, false, false⟩

/-- The value of a code of format `c` with zero point `z` (Table 4.1, R149, R150). A G6 code is its integer. -/
def fmtVal (c : Nat) (z code : Nat) : X :=
  match fmtKind c with
  | .int b fr => .fin ((Q.ofInt (sext b code)).shift (-(fr : Int)))
  | .u8 => .fin (Q.ofInt ((code % 256 : Nat) - (z : Int)))
  | .q23 => .fin ((Q.ofInt (sext 24 (code / 256))).shift (-23))
  | .flt f => fltVal f code
  | .g6 => .fin (Q.ofInt (sext 6 code))

/-- One element converted into format `c` (R157). -/
def fmtConv (c : Nat) (z : Nat) (v : X) : Conv :=
  match fmtKind c with
  | .int b fr => toGrid fr (-(2 ^ (b - 1) : Nat)) ((2 ^ (b - 1) : Nat) - 1) 0 b 0 v
  | .u8 => toGrid 0 (-(z : Int)) (255 - z) z 8 0 v
  | .q23 => toGrid 23 (-(2 ^ 23 : Nat)) ((2 ^ 23 : Nat) - 1) 0 24 8 v
  | .flt f => toFlt f v
  | .g6 => toGrid 0 (-32) 31 0 6 0 v

/-- A value times `2^e`. -/
def X.shift (x : X) (e : Int) : X := match x with | .fin q => .fin (q.shift e) | y => y

/-- The finite values among a list, as magnitudes, and the largest (R158, R169). -/
def maxMag (l : List X) : Q :=
  l.foldl (fun m x => match x with | .fin q => if m.magLe q then q.abs else m | _ => m) ⟨false, 0, 1⟩

/-- The shared exponent of a G6 block (R158): the smallest E from 0 to 254 for which A × 2^(127 − E) rounds to at most 31,
254 when none fits, 0 when A is 0. -/
def g6Exp (a : Q) : Nat :=
  if a.num = 0 then 0
  else
    -- a smaller E than log2 a + 121 makes the largest code exceed 31
    let lo : Nat := (a.log2 + 121).toNat
    (((List.range 9).map fun k => lo + k).find? fun (e : Nat) =>
      decide (e ≤ 254) && decide ((a.shift (127 - (e : Int))).roundTo 0 ≤ 31)).getD 254

/-- A block of 32 elements into G6: the shared exponent and the codes (R158). -/
def g6Block (l : List X) : Nat × List Conv :=
  let e := g6Exp (maxMag l)
  (e, l.map fun x => fmtConv 9 0 (x.shift (127 - (e : Int))))

/-- The value of a G6 element (R151). -/
def g6Val (e : Nat) (code : Nat) : X :=
  if e = 255 then .fin ⟨false, 0, 1⟩ else .fin ((Q.ofInt (sext 6 code)).shift ((e : Int) - 127))

/-! ### F32 arithmetic (R155) -/

/-- The value of an F32. -/
def f32X (w : W32) : X := fltVal fF32 w.toNat

/-- An exact result rounded to F32: nearest, ties away from zero, beyond the largest finite value infinity, NaN canonical. -/
def roundX (x : X) : W32 :=
  match x with
  | .nan => 0x7FC00000
  | .inf neg => BitVec.ofNat 32 (signBit fF32 neg + 0x7F800000)
  | .fin q =>
    let m := fltMag fF32 q
    BitVec.ofNat 32 (signBit fF32 q.neg + (if 0x7F7FFFFF < m then 0x7F800000 else m))

/-- Exact sum and product of extended values. -/
def X.add (a b : X) : X :=
  match a, b with
  | .nan, _ => .nan
  | _, .nan => .nan
  | .inf x, .inf y => if x == y then .inf x else .nan
  | .inf x, .fin _ => .inf x
  | .fin _, .inf y => .inf y
  | .fin p, .fin q => .fin (p.add q)
def X.mul (a b : X) : X :=
  match a, b with
  | .nan, _ => .nan
  | _, .nan => .nan
  | .inf x, .inf y => .inf (x != y)
  | .inf x, .fin q => if q.isZero then .nan else .inf (x != q.neg)
  | .fin q, .inf x => if q.isZero then .nan else .inf (x != q.neg)
  | .fin p, .fin q => .fin (p.mul q)
def X.neg (a : X) : X := match a with | .nan => .nan | .inf n => .inf (!n) | .fin q => .fin q.neg'
def X.ofInt (i : Int) : X := .fin (Q.ofInt i)

def fAdd (a b : W32) : W32 := roundX ((f32X a).add (f32X b))
def fSub (a b : W32) : W32 := roundX ((f32X a).add (f32X b).neg)
def fMul (a b : W32) : W32 := roundX ((f32X a).mul (f32X b))
/-- One rounding of `a × b + c`. -/
def fFma (a b c : W32) : W32 := roundX (((f32X a).mul (f32X b)).add (f32X c))
def fIsNan (a : W32) : Bool := match f32X a with | .nan => true | _ => false
/-- An F32 result as an operation delivers it: a NaN is the canonical one (R155). -/
def fCanon (a : W32) : W32 := if fIsNan a then 0x7FC00000 else a

/-- `a < b`; false where either is NaN. -/
def fLt (a b : W32) : Bool :=
  match f32X a, f32X b with
  | .nan, _ => false
  | _, .nan => false
  | .inf x, .inf y => x && !y
  | .inf x, .fin _ => x
  | .fin _, .inf y => !y
  | .fin p, .fin q => p.lt q
def fOfInt (i : Int) : W32 := roundX (X.ofInt i)

/-- The largest finite value of a format (R168): for U8 with z ≠ 0 the smaller of z and 255 − z. -/
def qmax (c z : Nat) : Q :=
  match fmtKind c with
  | .int b fr => (Q.ofInt ((2 ^ (b - 1) : Nat) - 1)).shift (-(fr : Int))
  | .u8 => Q.ofInt (if z = 0 then 255 else min z (255 - z) : Nat)
  | .q23 => (Q.ofInt ((2 ^ 23 : Nat) - 1)).shift (-23)
  | .flt f => match fltVal f f.top with | .fin q => q | _ => ⟨false, 0, 1⟩
  | .g6 => (Q.ofInt 31).shift 127

/-! ### Writing exact values -/

/-- Digits after the point that a quotient by `2^k` needs. -/
def decDigits (den : Nat) : Nat := den.log2

/-- An exact value in decimal; every value of the formats has a finite expansion. -/
def Q.dec (q : Q) : String :=
  let k := decDigits q.den
  let v := q.num * 10 ^ k / q.den
  let f := ((String.ofList (List.replicate (k - (toString (v % 10 ^ k)).length) '0') ++ toString (v % 10 ^ k)).toList.reverse.dropWhile
    (· == '0')).reverse
  (if q.neg && decide (0 < q.num) then "-" else "") ++ toString (v / 10 ^ k) ++
    (if k = 0 || f.isEmpty then "" else "." ++ String.ofList f)

def X.dec (x : X) : String :=
  match x with
  | .nan => "nan"
  | .inf neg => if neg then "-inf" else "inf"
  | .fin q => if q.neg && q.isZero then "-0" else q.dec

end Sys2Proof.Machine
end

