-- ==== Sys2Proof/Machine/Wale.lean ====
section
/-! DEFINITION. What one row's job computes: the matrix product in the order of R156, the Wale recipe (R213 to R220), the
output exponent (R165 to R176) and the conversion of the result (R166). -/

namespace Sys2Proof.Machine

/-! ### Elements of vectors -/

/-- The value of an element as it stands in a vector of format `f`; a G6 element carries its shared exponent above bit 6. -/
def elemVal (f z n : Nat) : X := if f = 9 then g6Val (n / 64) (n % 64) else fmtVal f z n

/-- What a stake expands an operand element to (R154): the code for U8 and G6, the value otherwise. The codes of a G6 block with
E = 0xFF stand for zeros (R151). -/
def operandVal (f n : Nat) : X := if f = 9 then (if n / 64 = 255 then X.ofInt 0 else X.ofInt (sext 6 (n % 64))) else fmtVal f 0 n

/-- The element that stands for 0 (R161). -/
def zeroElem (f z : Nat) : Nat := if f = 2 then z else 0

/-- A vector that enters a matrix: its elements, format, zero point and row scale exponent (R164). -/
structure Vec where
  elems : List Nat
  fmt   : Nat
  z     : Nat
  exp   : Int
  deriving DecidableEq, Repr

/-- A list cut or padded to `n` elements. -/
def fitTo (n pad : Nat) (l : List Nat) : List Nat := l.take n ++ List.replicate (n - l.length) pad

/-- A list of values in blocks of 32 (R151). -/
def blocks32 (fuel : Nat) (l : List X) : List (List X) :=
  match fuel with
  | 0 => []
  | f + 1 => if l.isEmpty then [] else l.take 32 :: blocks32 f (l.drop 32)

/-- Values converted into format `f` with scale 2^e: the elements, whether any clipped and how many were NaN (R157, R158). -/
def convVec (f z : Nat) (e : Int) (l : List X) : List Nat × Bool × Nat :=
  let l := l.map fun x => x.shift (-e)
  let cs : List Conv :=
    if f = 9 then ((blocks32 (l.length + 1) l).map fun b => let (se, c) := g6Block b; c.map fun k => { k with code := k.code + 64 * se }).flatten
    else l.map (fmtConv f z)
  (cs.map (·.code), cs.any (·.clip), (cs.filter (·.nan)).length)

/-- A vector brought into an operand format, with whether an element clipped and how many were NaN (R159): as it is when it is in
that format, and converted with scale 1, its exponent kept, otherwise. The spec names no such conversion (DESIGN CHOICE, log entry 77). -/
def Vec.to (v : Vec) (f z : Nat) : Vec × Bool × Nat :=
  if v.fmt = f && v.z = z then (v, false, 0)
  else
    let (l, clip, nans) := convVec f z 0 (v.elems.map (elemVal v.fmt v.z))
    (⟨l, f, z, v.exp⟩, clip, nans)

/-! ### The matrix product (R156) -/

/-- Neighbours of a list added pairwise, each sum rounded. -/
def pairSums (l : List W32) : List W32 :=
  match l with
  | a :: b :: r => fAdd a b :: pairSums r
  | r => r

/-- The tree sum of R156. -/
def treeSum (fuel : Nat) (l : List W32) : W32 :=
  match fuel with
  | 0 => 0
  | f + 1 =>
    match l with
    | [] => 0
    | [a] => a
    | l => treeSum f (pairSums l)

/-- A list in chunks of `n`. -/
def chunks (fuel n : Nat) (l : List Nat) : List (List Nat) :=
  match fuel with
  | 0 => []
  | f + 1 => if l.isEmpty || n = 0 then [] else l.take n :: chunks f n (l.drop n)

/-- One reduction group of the inputs: its elements, the scale exponent of its vector, and whether it is recurrent (R215). -/
structure Group where
  elems : List Nat
  exp   : Int
  self  : Bool
  deriving DecidableEq, Repr

/-- The groups of a vector. -/
def vecGroups (glen : Nat) (self : Bool) (v : Vec) : List Group :=
  (chunks (v.elems.length + 1) glen v.elems).map fun c => ⟨c, v.exp, self⟩

/-- The shared exponent of a group of G6 elements, E − 127; 0 for other formats (R156). -/
def groupExp (f : Nat) (l : List Nat) : Int := if f = 9 then ((l.headD 0 / 64 : Nat) : Int) - 127 else 0

/-- The sum of the input operands of a group, exact (R156: sumx; log entry 77). -/
def sumX (f : Nat) (l : List Nat) : X := l.foldl (fun t n => t.add (operandVal f n)) (X.ofInt 0)

/-- The weights of a G6 block whose shared exponent is 0xFF are zeros (R151). -/
def weightCodes (f : Nat) (ew : Int) (ws : List Nat) : List Nat := if f = 9 ∧ ew = 128 then ws.map fun _ => 0 else ws

/-- The contribution of group `g` to output row `r` (the body of the loop of R156). -/
def groupStep (ly : Layer) (r : Nat) (acc : W32) (g : Nat) (x : Group) (ws : List Nat) : W32 :=
  let ew := if ly.wfmt = 9 then (ly.wexp.getD r []).getD g 0 else 0
  let p := treeSum (x.elems.length + 1)
    (List.zipWith (fun w i => roundX ((operandVal ly.wfmt w).mul (operandVal ly.infmt i))) (weightCodes ly.wfmt ew ws) x.elems)
  let sumw := (ly.sumw.getD r []).getD g 0
  let zx : Int := if ly.infmt = 2 then ly.inz else 0
  let zw : Int := if ly.wfmt = 2 then ly.wz else 0
  let p := if zx = 0 ∧ zw = 0 then p
    else roundX ((((f32X p).add ((X.ofInt zx).mul (f32X sumw)).neg).add ((X.ofInt zw).mul (sumX ly.infmt x.elems)).neg).add
      (X.ofInt (x.elems.length * zw * zx)))
  let sc := (f32X ((ly.gscale.getD (r / 64) []).getD g 0)).shift (x.exp + ew + groupExp ly.infmt x.elems)
  roundX ((f32X acc).add ((f32X p).mul sc))

/-- One accumulator of an output row over the groups `pick` chooses, times the channel scale. -/
def rowAcc (ly : Layer) (r : Nat) (pick : Group → Bool) (gs : List Group) : W32 :=
  let ws := chunks ((ly.wts.getD r []).length + 1) ly.glen (ly.wts.getD r [])
  let acc := ((gs.zip (List.range gs.length)).zip ws).foldl
    (fun a e => if pick e.1.1 then groupStep ly r a e.1.2 e.1.1 e.2 else a) (0 : W32)
  fMul acc (ly.cscale.getD r 0)

/-! ### Function tables (R217, R218) -/

/-- The scale of fixed-point work: results are exact to far below half a unit of an F32. -/
def fixOne : Nat := 2 ^ 200

/-- The terms of exp(r) in fixed point, r below 1. -/
def expTerms (fuel k term r acc : Nat) : Nat :=
  match fuel with
  | 0 => acc
  | f + 1 => let t := term * r / fixOne / (k + 1); expTerms f (k + 1) t r (acc + t)

/-- A fixed-point number squared `n` times. -/
def sqTimes (n y : Nat) : Nat := match n with | 0 => y | k + 1 => sqTimes k (y * y / fixOne)

/-- exp(num/den) in fixed point. -/
def expFix (num den : Nat) : Nat := sqTimes 6 (expTerms 48 0 fixOne (num * fixOne / (den * 64)) fixOne)

/-- Entry i of T_SIG (R218). -/
def tSig (i : Nat) : W32 :=
  let x : Int := -16 * 1023 + 32 * (i : Int)
  let e := expFix x.natAbs 1023
  roundX (.fin (if 0 ≤ x then ⟨false, e, e + fixOne⟩ else ⟨false, fixOne, e + fixOne⟩))

/-- Entry i of T_TANH (R218). -/
def tTanh (i : Nat) : W32 :=
  let x : Int := -8 * 1023 + 16 * (i : Int)
  let e := expFix (2 * x.natAbs) 1023
  roundX (.fin ⟨decide (x < 0), e - fixOne, e + fixOne⟩)

/-- floor of an F32 between 0 and 1023. -/
def fFloor (a : W32) : Nat := match f32X a with | .fin q => q.num / q.den | _ => 0

/-- The value of a table at `a` (R217). -/
def tabAt (entry : Nat → W32) (s o a : W32) : W32 :=
  let u := fFma a s o
  if fIsNan a || fIsNan u then 0x7FC00000
  else if !fLt 0 u then fCanon (entry 0)
  else if !fLt u (fOfInt 1023) then fCanon (entry 1023)
  else
    let i := fFloor u
    fFma (fSub u (fOfInt i)) (fSub (entry (i + 1)) (entry i)) (entry i)

/-! ### The Wale pipe -/

/-- What the Wale reads for one row: y of each block and split part, the state, plan vectors, conditioning and audio. -/
structure WaleIn where
  g   : List (List W32)
  u   : List (List W32)
  b   : List (List W32)
  c   : List (List W32)
  s0  : List W32
  s1  : List W32
  x   : List W32
  k   : List W32
  tab : List FnTable
  deriving DecidableEq, Repr

/-- What one lane has written: its registers, S0, S1 and the output. -/
structure Lane where
  v  : List W32 := List.replicate 8 0
  s0 : Option W32 := none
  s1 : Option W32 := none
  o  : Option W32 := none
  deriving DecidableEq, Repr

/-- A source of Table 5.7 for element `e`. The state read is the state before this step. -/
def waleSrc (w : WaleIn) (l : Lane) (e n : Nat) : W32 :=
  if n < 8 then l.v.getD n 0
  else if n < 0x10 then w.k.getD (n - 8) 0
  else if n < 0x14 then (w.g.getD (n - 0x10) []).getD e 0
  else if n < 0x18 then (w.u.getD (n - 0x14) []).getD e 0
  else if n < 0x1C then (w.b.getD (n - 0x18) []).getD e 0
  else if n < 0x20 then (w.c.getD (n - 0x1C) []).getD e 0
  else if n = 0x20 then w.s0.getD e 0
  else if n = 0x21 then w.s1.getD e 0
  else if 0x22 ≤ n ∧ n < 0x26 then w.x.getD (n - 0x22) 0
  else 0

def fMax (a b : W32) : W32 := if fIsNan a || fIsNan b then 0x7FC00000 else if fLt a b then b else a
def fMin (a b : W32) : W32 := if fIsNan a || fIsNan b then 0x7FC00000 else if fLt b a then b else a

/-- A / t with t = |A| + 1, rounded (Table 5.8). -/
def fSsgn (a : W32) : W32 :=
  match f32X a with
  | .nan => 0x7FC00000
  | .inf _ => 0x7FC00000
  | .fin q => match f32X (roundX (.fin (q.abs.add ⟨false, 1, 1⟩))) with
    | .fin t => roundX (.fin (q.div t))
    | _ => BitVec.ofNat 32 (signBit fF32 q.neg)

/-- One micro-op on one lane (R214, R216). -/
def waleOp (w : WaleIn) (e : Nat) (l : Lane) (op : W32) : Lane :=
  let a := waleSrc w l e (fld op 17 6)
  let b := waleSrc w l e (fld op 11 6)
  let c := waleSrc w l e (fld op 5 6)
  let put (r : W32) : Lane := { l with v := l.v.set (fld op 23 3) r }
  match fld op 26 6 with
  | 0x01 => put (fAdd a b)
  | 0x02 => put (fMul a b)
  | 0x03 => put (fFma a b c)
  | 0x04 => put (tabAt tSig (roundX (.fin ⟨false, 3196875, 100000⟩)) (roundX (.fin ⟨false, 1023, 2⟩)) a)
  | 0x05 => put (tabAt tTanh (roundX (.fin ⟨false, 639375, 10000⟩)) (roundX (.fin ⟨false, 1023, 2⟩)) a)
  | 0x06 => put (fSsgn a)
  | 0x07 => put (fMin (fMax (fFma a 0x3E4CCCCD 0x3F000000) 0) 0x3F800000)
  | 0x08 => put (if fIsNan a then 0x7FC00000 else if fLt 0 a then a else 0)
  | 0x09 => put (fMin (fMax a b) c)
  | 0x0A => match w.tab[fld op 0 5]? with
    | some t => put (tabAt (fun i => t.entries.getD i 0) t.scale t.offset a)
    | none => l
  | 0x0B => { l with s0 := some (fCanon a) }
  | 0x0C => { l with s1 := some (fCanon a) }
  | 0x0D => { l with o := some (fCanon a) }
  | _ => l

/-! ### The output exponent -/

/-- M / Qmax of a TABLE-ADAPT row: M is the largest of the last `w` values recorded, the copies of a fill among them while fewer
than `w` steps have followed it (R170, R173). -/
def winRatio (ly : Layer) (w : Nat) (l : LayerRow) : Q :=
  let m := (maxMag ((l.win.take w).map f32X)).div (qmax ly.outfmt ly.outz)
  match l.fill with
  | some k => let f := (Q.ofInt 1).shift k; if l.win.length < w && m.magLe f then f else m
  | none => m

/-- eₙ of a TABLE-ADAPT row from its window of `w` steps (R170). -/
def adaptExp (ly : Layer) (w hr : Nat) (l : LayerRow) : Int :=
  let q := winRatio ly w l
  let e : Int := if q.isZero then ly.emin else q.clog2 + hr
  if e < ly.emin then ly.emin else if ly.emax < e then ly.emax else e

/-- The window filled at check-in, RESET and a mode change (R173): copies of Qmax × 2^(e₀ − HR). -/
def fillWin (hr : Nat) (e0 : Int) (l : LayerRow) : LayerRow := { l with win := [], fill := some (e0 - hr) }

/-- e₀ of a layer: its exponent in the scale file, or its fallback exponent for a layer compiled FOLDED with one (R173). -/
def baseExp (ly : Layer) (st : LayerSet) : Int :=
  match ly.fallback with
  | some f => if st.switched || ly.smode == .folded then f else st.exp0
  | none => st.exp0

/-! ### One row's job -/

/-- The current output of a row's layer, as it stood at the start of the round (R193). -/
def LayerRow.current (l : LayerRow) : List Nat × Int := if l.rptr then (l.out1, l.oexp1) else (l.out0, l.oexp0)

/-- The newest output of a row's layer. -/
def LayerRow.newest (l : LayerRow) : List Nat × Int := if l.ptr then (l.out1, l.oexp1) else (l.out0, l.oexp0)

/-- What a completed job leaves: the row's record, whether an element of its inputs clipped as it was converted, whether one of its
results did, and how many were NaN (R159, R177). -/
structure JobOut where
  row    : LayerRow
  inClip : Bool
  clip   : Bool
  nans   : Nat
  deriving DecidableEq, Repr

/-- A row's job (R195): `prev` is the layer's first input vector, `ports` its MATRIX conditioning, `cond` its WALE
conditioning, `audio` the step's samples as F32, `tabs` the plan's tables. RESET runs from zero state and output. -/
def rowJob (ly : Layer) (st : LayerSet) (prec : Prec) (reset : Bool) (prev : Vec) (ports : List Vec) (cond : List (List W32))
    (audio : List W32) (tabs : List FnTable) (l : LayerRow) : JobOut :=
  let l := if reset then
      fillWin st.hr (baseExp ly st) { l with s0 := [], s1 := [], sexp := 0, sexp1 := 0 }
    else l
  let pad := zeroElem ly.infmt ly.inz
  let conv (v : Vec) : Vec × Bool × Nat := v.to ly.infmt ly.inz
  let fit (n : Nat) (v : Vec) : Vec := let v := (conv v).1; { v with elems := fitTo n pad v.elems }
  let own : Vec := if reset then ⟨[], ly.infmt, ly.inz, 0⟩ else ⟨l.newest.1, ly.outfmt, ly.outz, l.newest.2⟩
  let gs := vecGroups ly.glen false (fit ly.fromPrev prev) ++ vecGroups ly.glen true (fit ly.fromSelf own) ++
    (List.zipWith (fun p v => vecGroups ly.glen false (fit p.2 v)) ly.matPorts ports).flatten
  let rows (b : Nat) (pick : Group → Bool) : List W32 := (List.range ly.h).map fun e => rowAcc ly (b * ly.h + e) pick gs
  let ins := conv prev :: conv own :: ports.map conv
  let isSplit (b : Nat) : Bool := ly.split.getD b false
  let dec (s : List W32) (k : Int) : List W32 :=
    if prec == Prec.match_ then (s.map fun c => roundX ((elemVal ly.outfmt ly.outz c.toNat).shift k)) else s
  let w : WaleIn := {
    g := (List.range ly.blocks).map fun b => rows b fun x => !(isSplit b && x.self)
    u := (List.range ly.blocks).map fun b => if isSplit b then rows b fun x => x.self else List.replicate ly.h 0
    b := ly.vecs, c := cond, s0 := dec l.s0 l.sexp, s1 := dec l.s1 l.sexp1, x := audio, k := ly.consts, tab := tabs }
  let lanes := (List.range ly.h).map fun e => ly.ops.foldl (waleOp w e) {}
  let ys := lanes.map fun a => a.o.getD 0
  let e : Int :=
    if ly.outfmt = 9 then 0 else match st.mode with
      | .folded => 0
      | .table => st.exp0
      | .adapt => adaptExp ly st.win st.hr l
  let (out, clip, nans) := convVec ly.outfmt ly.outz e (ys.map f32X)
  let state (old : List W32) (k : Int) (f : Lane → Option W32) : List W32 × Int × Bool × Nat :=
    if lanes.any fun a => (f a).isSome then
      let vs := lanes.map fun a => (f a).getD 0
      if prec == Prec.match_ then
        let (cs, c, n) := convVec ly.outfmt ly.outz e (vs.map f32X)
        (cs.map (BitVec.ofNat 32), e, c, n)
      else (vs, 0, false, 0)
    else (old, k, false, 0)
  let (s0, k0, c0, n0) := state l.s0 l.sexp (·.s0)
  let (s1, k1, c1, n1) := state l.s1 l.sexp1 (·.s1)
  let m := roundX (.fin (maxMag (ys.map f32X)))
  let l := { l with s0 := s0, s1 := s1, sexp := k0, sexp1 := k1 }
  let l := if l.ptr then { l with out0 := out, oexp0 := e, ptr := false } else { l with out1 := out, oexp1 := e, ptr := true }
  let l := if st.mode = .adapt then { l with win := (m :: l.win).take 8, exp := e } else { l with exp := e }
  ⟨l, ins.any (·.2.1), clip || c0 || c1, nans + n0 + n1 + (ins.map (·.2.2)).sum⟩

/-- The first `n` elements of a vector as Q23 containers, and how many clipped (R224). -/
def outQ23 (ly : Layer) (n : Nat) (v : List Nat × Int) : List W32 × Nat :=
  let cs := (fitTo n (zeroElem ly.outfmt ly.outz) v.1).map fun c => fmtConv 5 0 ((elemVal ly.outfmt ly.outz c).shift v.2)
  (cs.map fun c => BitVec.ofNat 32 c.code, (cs.filter (·.clip)).length)

/-! ### Vectors as bytes (R148 to R152) -/

/-- A G6 vector as blocks of 25 bytes. -/
def g6Bytes (fuel : Nat) (l : List Nat) : List Byte :=
  match fuel with
  | 0 => []
  | f + 1 =>
    if l.isEmpty then []
    else
      let b := l.take 32
      let field := (List.range 32).foldl (fun n i => n + (b.getD i 0 % 64) * 2 ^ (6 * i)) 0
      BitVec.ofNat 8 (b.headD 0 / 64) :: natLe 24 field ++ g6Bytes f (l.drop 32)

/-- Pairs of four-bit codes as bytes. -/
def s4Bytes (l : List Nat) : List Byte :=
  match l with
  | a :: b :: r => BitVec.ofNat 8 (a % 16 + 16 * (b % 16)) :: s4Bytes r
  | [a] => [BitVec.ofNat 8 (a % 16)]
  | [] => []

/-- A vector as it stands in memory. -/
def vecBytes (f : Nat) (l : List Nat) : List Byte :=
  if f = 9 then g6Bytes (l.length + 1) l else if f = 0 then s4Bytes l else (l.map fun c => natLe (fmtBits f / 8) c).flatten

/-- The `n` elements of a vector that stands in memory as `bs`. A G6 block with E = 0xFF holds zeros. -/
def bytesVec (f n : Nat) (bs : List Byte) : List Nat :=
  let byte (i : Nat) : Nat := (bs.getD i 0).toNat
  (List.range n).map fun i =>
    if f = 9 then
      let e := byte (i / 32 * 25)
      if e = 255 then 64 * e else leNat ((bs.drop (i / 32 * 25 + 1)).take 24) / 2 ^ (6 * (i % 32)) % 64 + 64 * e
    else if f = 0 then byte (i / 2) / 16 ^ (i % 2) % 16
    else leNat ((bs.drop (i * (fmtBits f / 8))).take (fmtBits f / 8))

/-! ### The built-in recipes (R219) -/

/-- A micro-op (R214). -/
def uop (op d a b c : Nat) (tab : Nat := 0) : W32 := put 26 op + put 23 d + put 17 a + put 11 b + put 5 c + put 0 tab

/-- Codes of the sources the recipes read (Table 5.7): lane registers stand as their numbers. -/
def srcK0 : Nat := 0x08
def srcG (k : Nat) : Nat := 0x10 + k
def srcU (k : Nat) : Nat := 0x14 + k
def srcB (k : Nat) : Nat := 0x18 + k
def srcS0 : Nat := 0x20

def gruOps : List W32 :=
  [uop 0x01 0 (srcG 0) (srcB 0) 0, uop 0x04 0 0 0 0, uop 0x01 1 (srcG 1) (srcB 1) 0, uop 0x04 1 1 0 0,
   uop 0x01 2 (srcU 2) (srcB 3) 0, uop 0x01 3 (srcG 2) (srcB 2) 0, uop 0x03 2 1 2 3, uop 0x05 2 2 0 0,
   uop 0x03 3 2 srcK0 srcS0, uop 0x03 3 0 3 2, uop 0x0B 0 3 0 0, uop 0x0D 0 3 0 0]
def lstmOps : List W32 :=
  [uop 0x01 0 (srcG 0) (srcB 0) 0, uop 0x04 0 0 0 0, uop 0x01 1 (srcG 1) (srcB 1) 0, uop 0x04 1 1 0 0,
   uop 0x01 2 (srcG 2) (srcB 2) 0, uop 0x05 2 2 0 0, uop 0x02 2 0 2 0, uop 0x03 3 1 srcS0 2, uop 0x0B 0 3 0 0, uop 0x05 4 3 0 0,
   uop 0x01 5 (srcG 3) (srcB 3) 0, uop 0x04 5 5 0 0, uop 0x02 4 5 4 0, uop 0x0D 0 4 0 0]
def mguOps : List W32 :=
  [uop 0x01 0 (srcG 0) (srcB 0) 0, uop 0x04 0 0 0 0, uop 0x01 1 (srcG 1) (srcB 1) 0, uop 0x03 1 0 (srcU 1) 1, uop 0x05 1 1 0 0,
   uop 0x03 2 srcS0 srcK0 1, uop 0x03 2 0 2 srcS0, uop 0x0B 0 2 0 0, uop 0x0D 0 2 0 0]

/-- PLAIN: the plan's act, one of SIG, TANH, SSGN, HSIG, RELU and TAB, stands in the first such op it lists. -/
def plainOps (l : List W32) : List W32 :=
  let acts := (l.filter fun w => decide (0x04 ≤ fld w 26 6) && decide (fld w 26 6 ≤ 0x0A) && fld w 26 6 != 0x09).take 1
  [uop 0x01 0 (srcG 0) (srcB 0) 0] ++ acts.map (fun w => uop (fld w 26 6) 0 0 0 0 (fld w 0 5)) ++ [uop 0x0D 0 0 0 0]

/-- A layer with the micro-ops, blocks and constants that its recipe fixes; K0 is −1.0. A CUSTOM recipe is the plan's own (R220). -/
def withRecipe (ly : Layer) : Layer :=
  let fixed (ops : List W32) (n : Nat) (split : List Bool) : Layer :=
    { ly with ops := ops, blocks := n, split := split, consts := 0xBF800000 :: List.replicate 7 0, usesS1 := false }
  match ly.recipe with
  | 0 => fixed gruOps 3 [false, false, true]
  | 1 => fixed lstmOps 4 []
  | 2 => fixed mguOps 2 [false, true]
  | 3 => fixed (plainOps ly.ops) 1 []
  | _ => ly

/-! ### Cycle costs (R186 to R188, R201) -/

/-- Cycles of one batch row of a layer: the matrix, and the Wale. -/
def cMat (ly : Layer) : Nat :=
  let i := ly.fromPrev + ly.fromSelf + (ly.matPorts.map (·.2)).sum
  ((ly.blocks * ly.h + 63) / 64) * ((i + 63) / 64)
def cWale (ly : Layer) : Nat := ((ly.h + 63) / 64) * ly.ops.length
def cRow (ly : Layer) : Nat := max (cMat ly) (cWale ly)

end Sys2Proof.Machine
end

