-- ==== Sys2Proof/Machine/Rooms.lean ====
section
/-! DEFINITION. What a row's rooms hold (R175, R211, R212, Table 5.6): the row's records as bytes and back. The places of the fields
inside a region, which the spec leaves open, are those of log entry 80. -/

namespace Sys2Proof.Machine

/-! ### Sizes -/

/-- A size rounded up to 64 bytes. -/
def up64 (n : Nat) : Nat := (n + 63) / 64 * 64

/-- Bytes of one state vector, before its exponent word. -/
def stateSize (ly : Layer) (prec : Prec) : Nat := if prec == .match_ then fmtBytes ly.outfmt ly.h else 4 * ly.h

/-- Bytes of a layer's part of a room; `rec` tells whether it has an adaptation record (Table 5.6, log entry 12). -/
def layerSize (ly : Layer) (prec : Prec) (rec : Bool) : Nat :=
  let st := up64 (stateSize ly prec + 4)
  st + (if ly.usesS1 then st else 0) + 2 * up64 (fmtBytes ly.outfmt ly.h + 4) + (if rec then 64 else 0)

/-- Which layers of a plan have an adaptation record in the rooms of a row checked in now: those in TABLE-ADAPT, compiled so or set
so, and those with a fallback table. -/
def planRecs (p : Plan) : List Bool :=
  (p.body.layers.zip (List.range p.body.layers.length)).map fun e =>
    e.1.smode == .adapt || e.1.fallback.isSome || (p.sets[e.2]?).any fun st => st.mode == .adapt

/-- Bytes of the header and of the input history, L + 1 steps of every channel (Table 5.6). -/
def headSize (p : Plan) : Nat := 256 + up64 ((p.nLayers + 1) * p.body.nin * 4)

/-- Bytes of a row's part of its room (Table 5.6; the worked figures of R212, log entry 12). -/
def rowBytes (p : Plan) (prec : Prec) : Nat :=
  headSize p + (List.zipWith (fun ly rec => layerSize ly prec rec) p.body.layers (planRecs p)).sum

/-- Rooms a row needs: 1, 2 or 4; none when it needs more (R212). -/
def roomsNeeded (p : Plan) (prec : Prec) : Option Nat :=
  let n := rowBytes p prec
  if n ≤ 65536 then some 1 else if n ≤ 131072 then some 2 else if n ≤ 262144 then some 4 else none

/-! ### Records as bytes (log entry 80) -/

/-- A list cut or padded with zeros to `n` bytes. -/
def padBytes (n : Nat) (l : List Byte) : List Byte := l.take n ++ List.replicate (n - l.length) 0

/-- A state vector with its exponent word. -/
def stateBytes (ly : Layer) (prec : Prec) (v : List F32) (e : Int) : List Byte :=
  let n := stateSize ly prec
  let d := if prec == .match_ then vecBytes ly.outfmt (v.map (·.toNat)) else (v.map wordBytes).flatten
  padBytes (up64 (n + 4)) (padBytes n d ++ natLe 4 (if prec == .match_ then toCode 32 e else 0))

/-- An output buffer with its exponent word, whose bit 31 is `ptr`. -/
def outBytes (ly : Layer) (v : List Nat) (e : Int) (ptr : Bool) : List Byte :=
  let n := fmtBytes ly.outfmt ly.h
  padBytes (up64 (n + 4)) (padBytes n (vecBytes ly.outfmt v) ++ natLe 4 (toCode 31 e + if ptr then 2 ^ 31 else 0))

/-- The F32 that stands for one copy of a fill (R173): Qmax × 2^k, at most the largest finite value. -/
def fillWord (ly : Layer) (k : Int) : F32 :=
  let w := roundX (.fin ((qmax ly.outfmt ly.outz).shift k))
  match f32X w with | .inf _ => 0x7F7FFFFF | _ => w

/-- The adaptation record (R175): eight maxima, newest first, the copies of a fill behind those recorded, and the exponent. -/
def recBytes (ly : Layer) (l : LayerRow) : List Byte :=
  let pad : F32 := match l.fill with | some k => fillWord ly k | none => 0
  padBytes 64 (((l.win ++ List.replicate (8 - l.win.length) pad).map wordBytes).flatten ++ natLe 4 (toCode 32 l.exp))

/-- A layer's part of a room: S0, S1 where the recipe uses it, the two output buffers, and the adaptation record. -/
def layerBytes (ly : Layer) (prec : Prec) (rec : Bool) (l : LayerRow) : List Byte :=
  stateBytes ly prec l.s0 l.sexp ++ (if ly.usesS1 then stateBytes ly prec l.s1 l.sexp1 else []) ++
    outBytes ly l.out0 l.oexp0 l.ptr ++ outBytes ly l.out1 l.oexp1 false ++ (if rec then recBytes ly l else [])

/-- The code a step code has in a header, that of Table 5.4. -/
def codeBits (c : StepCode) : Nat := match c with | .run => 0 | .reset => 1 | .hold => 2 | .stop => 3
def bitsCode (n : Nat) : StepCode := match n % 4 with | 0 => .run | 1 => .reset | 2 => .hold | _ => .stop

/-- The header: check-in tally, D, phase, the code of the newest step and the code pending. -/
def headBytes (x : Guest) : List Byte :=
  padBytes 256 (natLe 8 x.c ++ [BitVec.ofNat 8 x.div, BitVec.ofNat 8 x.phase,
    BitVec.ofNat 8 ((x.steps.head?.map fun r => codeBits r.code).getD 0), BitVec.ofNat 8 (codeBits x.code)])

/-- The input samples of the last L + 1 steps that ran, newest first; a step under HOLD records none (corner of chapter 5). -/
def rowHist (p : Plan) (x : Guest) : List (List W32) :=
  ((x.steps.filter fun r => r.code != .hold).map (·.ins) ++ x.hist).take (p.nLayers + 1)

/-- The input history, channel by channel. -/
def histBytes (p : Plan) (x : Guest) : List Byte :=
  padBytes (up64 ((p.nLayers + 1) * p.body.nin * 4)) ((rowHist p x).map fun v => padBytes (4 * p.body.nin) (v.map wordBytes).flatten).flatten

/-- A row's part of its rooms. -/
def rowImage (p : Plan) (x : Guest) : List Byte :=
  headBytes x ++ histBytes p x ++
    ((p.body.layers.zip (List.range p.body.layers.length)).map fun e =>
      layerBytes e.1 x.prec (x.recs.getD e.2 false) (x.layers.getD e.2 {})).flatten

/-! ### Bytes as records -/

/-- A little-endian two's complement word of 31 or 32 bits at an offset. -/
def expAt (bs : List Byte) (off bits : Nat) : Int := sext bits (leNat ((bs.drop off).take 4))

/-- A state vector and its exponent. -/
def readState (ly : Layer) (prec : Prec) (bs : List Byte) : List F32 × Int :=
  let n := stateSize ly prec
  if prec == .match_ then ((bytesVec ly.outfmt ly.h bs).map (BitVec.ofNat 32), expAt bs n 32)
  else ((List.range ly.h).map fun i => BitVec.ofNat 32 (leNat ((bs.drop (4 * i)).take 4)), 0)

/-- A layer's record as its part of a room says it; the record that stands where the bytes are those it has. -/
def readLayer (ly : Layer) (prec : Prec) (rec : Bool) (bs : List Byte) (old : LayerRow) : LayerRow :=
  if bs = layerBytes ly prec rec old then old
  else
    let n := up64 (stateSize ly prec + 4)
    let m := fmtBytes ly.outfmt ly.h
    let s0 := readState ly prec bs
    let bs1 := bs.drop n
    let s1 := if ly.usesS1 then readState ly prec bs1 else ([], 0)
    let o0 := if ly.usesS1 then bs1.drop n else bs1
    let o1 := o0.drop (up64 (m + 4))
    let r := o1.drop (up64 (m + 4))
    let ptr := decide (2 ^ 31 ≤ leNat ((o0.drop m).take 4))
    { old with
      s0 := s0.1, s1 := s1.1, sexp := s0.2, sexp1 := s1.2, out0 := bytesVec ly.outfmt ly.h o0, out1 := bytesVec ly.outfmt ly.h o1
      oexp0 := expAt o0 m 31, oexp1 := expAt o1 m 31, ptr := ptr
      win := if rec then (List.range 8).map fun i => BitVec.ofNat 32 (leNat ((r.drop (4 * i)).take 4)) else old.win
      fill := if rec then none else old.fill, exp := if rec then expAt r 32 32 else old.exp }

/-- The records of a row's layers, from the bytes that follow its history. -/
def readLayers (prec : Prec) (ls : List (Layer × Bool)) (bs : List Byte) (old : List LayerRow) : List LayerRow :=
  match ls with
  | [] => []
  | (ly, rec) :: r =>
    let n := layerSize ly prec rec
    readLayer ly prec rec (bs.take n) (old.headD {}) :: readLayers prec r (bs.drop n) old.tail

/-- The input history of a row, from its part of its rooms. -/
def readHist (p : Plan) (bs : List Byte) : List (List W32) :=
  (List.range (p.nLayers + 1)).map fun k => (List.range p.body.nin).map fun c =>
    BitVec.ofNat 32 (leNat ((bs.drop (256 + 4 * (k * p.body.nin + c))).take 4))

/-- The layers of a row, from its part of its rooms. -/
def rowLayers (p : Plan) (bs : List Byte) (x : Guest) : List LayerRow :=
  readLayers x.prec ((p.body.layers.zip (List.range p.body.layers.length)).map fun e => (e.1, x.recs.getD e.2 false)) (bs.drop (headSize p))
    x.layers

/-- Steps with the samples of a history, and what of the history is left. -/
def giveHist (l : List StepRec) (h : List (List W32)) : List StepRec × List (List W32) :=
  match l with
  | [] => ([], h)
  | r :: t =>
    if r.code == .hold then let (a, b) := giveHist t h; (r :: a, b)
    else match h with
      | [] => (r :: t, [])
      | v :: h => let (a, b) := giveHist t h; ({ r with ins := v } :: a, b)

/-- A running row whose layers and input history are what its rooms say: `bs` is its part of them. -/
def readRow (p : Plan) (bs : List Byte) (x : Guest) : Guest :=
  let (steps, hist) := giveHist x.steps (readHist p bs)
  { x with steps := steps, hist := hist, layers := rowLayers p bs x }

/-! ### Stake stores (R189, Table 5.1; the places inside an area are those of log entry 80) -/

/-- Base address of a stake store (Table 1.5). -/
def stakeBase (k : Nat) : Nat := 0x100000000000 + k * 0x200000

/-- The layers of a plan on a logical stake, in slot order, with their index in the plan's list on this chip. -/
def layersOn (p : Plan) (j : Nat) : List (Nat × Layer) :=
  ((List.range p.body.layers.length).zip p.body.layers).filter fun e => e.2.stake == j

/-- Groups of a layer's inputs. -/
def layerGroups (ly : Layer) : Nat := (ly.fromPrev + ly.fromSelf + (ly.matPorts.map (·.2)).sum) / max 1 ly.glen

/-- Whether a layer has a U8 input (R163). -/
def u8Input (b : PlanBody) (ly : Layer) : Bool :=
  ly.infmt == 2 || ly.matPorts.any fun p => (b.ports[p.1]?).any fun d => d.fmt == 2

/-- Whether the scale file holds an output exponent for a layer (R162). -/
def hasExpEntry (ly : Layer) : Bool := ly.smode == .table || ly.fallback.isSome

/-- Scale-file entries of a layer (R162), its sum-file entries (R163), and the bytes of its weights and of its vectors. -/
def scaleEntries (ly : Layer) : Nat := (ly.blocks * ly.h + 63) / 64 * layerGroups ly + ly.blocks * ly.h + b2n (hasExpEntry ly)
def sumEntries (b : PlanBody) (ly : Layer) : Nat := if u8Input b ly then ly.blocks * ly.h * layerGroups ly else 0
def matrixBytes (ly : Layer) : Nat := ly.blocks * ly.h * fmtBytes ly.wfmt (layerGroups ly * ly.glen)
def vectorBytes (ly : Layer) : Nat := 4 * (ly.vecs.map (·.length)).sum

/-- The weights of one output row; a G6 row as its blocks. -/
def weightRow (ly : Layer) (k : Nat) : List Byte :=
  let codes := ly.wts.getD k []
  let es := ly.wexp.getD k []
  padBytes (fmtBytes ly.wfmt (layerGroups ly * ly.glen)) (vecBytes ly.wfmt (if ly.wfmt = 9 then
    (codes.zip (List.range codes.length)).map fun e => e.1 % 64 + 64 * ((es.getD (e.2 / 32) 0 + 127).toNat % 256) else codes))

/-- F32 words as bytes, cut or padded to `n` entries. -/
def f32Bytes (n : Nat) (l : List F32) : List Byte := padBytes (4 * n) (l.map wordBytes).flatten

/-- The F32 that stands for an integer. -/
def intF32 (i : Int) : F32 := roundX (.fin (Q.ofInt i))

/-- The weight area of a stake: the weights of its layers in slot order, row by row, then their vectors. -/
def weightArea (ls : List Layer) : List Byte :=
  (ls.map fun ly => ((List.range (ly.blocks * ly.h)).map (weightRow ly)).flatten).flatten ++
    (ls.map fun ly => (ly.vecs.map fun v => (v.map wordBytes).flatten).flatten).flatten

/-- A layer's part of the scale file: group scales by row tile and group, channel scales, and the output exponent. -/
def scalePart (ly : Layer) (e : Int) : List Byte :=
  let n := layerGroups ly
  ((List.range ((ly.blocks * ly.h + 63) / 64)).map fun t => f32Bytes n (ly.gscale.getD t [])).flatten ++
    f32Bytes (ly.blocks * ly.h) ly.cscale ++ (if hasExpEntry ly then wordBytes (intF32 e) else [])

/-- A layer's part of the sum file. -/
def sumPart (b : PlanBody) (ly : Layer) : List Byte :=
  if u8Input b ly then ((List.range (ly.blocks * ly.h)).map fun r => f32Bytes (layerGroups ly) (ly.sumw.getD r [])).flatten else []

/-- The plan's function tables that the layers of a stake use, in ascending number (R216). -/
def stakeTables (b : PlanBody) (ls : List Layer) : List Nat :=
  (List.range b.tables.length).filter fun t => ls.any fun ly => ly.ops.any fun w => fld w 26 6 == 0x0A && fld w 0 5 == t

/-- The areas of a loaded plan's stake: offset and bytes of each. -/
def stakeAreas (p : Plan) (j : Nat) : List (Nat × List Byte) :=
  let ls := layersOn p j
  let lys := ls.map (·.2)
  let exp (e : Nat × Layer) : Int := match e.2.fallback with
    | some f => if e.2.smode == .folded then f else ((p.sets[e.1]?).map (·.exp0)).getD 0
    | none => ((p.sets[e.1]?).map (·.exp0)).getD 0
  [(0, weightArea lys), (0x1BC000, (ls.map fun e => scalePart e.2 (exp e)).flatten), (0x1C0000, (lys.map (sumPart p.body)).flatten),
   (0x1E0000, ((stakeTables p.body lys).map fun t => f32Bytes 1024 ((p.body.tables[t]?).map (·.entries) |>.getD [])).flatten)]

/-- Where the scale file of a stake holds the output exponent of its layer of index `i`, if it does. -/
def expOffset (p : Plan) (j i : Nat) : Option Nat :=
  let ls := layersOn p j
  match ls.find? fun e => e.1 == i with
  | some (_, ly) =>
    if hasExpEntry ly then
      some (0x1BC000 + 4 * (((ls.takeWhile fun e => e.1 != i).map fun e => scaleEntries e.2).sum + scaleEntries ly - 1))
    else none
  | none => none

/-- The ports that feed the layers of a stake, in ascending number (R292). -/
def stakePorts (b : PlanBody) (ls : List Layer) : List Nat :=
  (List.range b.ports.length).filter fun k => ls.any fun ly => (ly.matPorts.any fun e => e.1 == k) || ly.walPorts.contains k

/-- Bytes of one port's vector in a conditioning buffer. -/
def portBytes (d : PortDef) : Nat := if d.matrix then fmtBytes d.fmt d.elems else 4 * d.elems

/-- A row's part of a conditioning buffer of a stake: the vectors of its ports one after the other. -/
def condRow (b : PlanBody) (ls : List Layer) (vals : Tab (List Nat)) : List Byte :=
  ((stakePorts b ls).map fun k => match b.ports[k]? with
    | some d =>
      let v := tgetD vals k d.dflt
      padBytes (portBytes d) (if d.matrix then vecBytes d.fmt v else (v.map fun c => natLe 4 c).flatten)
    | none => []).flatten

end Sys2Proof.Machine
end

