-- ==== Sys2Proof/Machine/Inn.lean ====
section
/-! DEFINITION. The Innkeeper's operations: rooms (R240 to R246), the cellar (R247 to R256), admission (R257 to R260, R404),
shedding (R262 to R266), leases (R268 to R271), quarantine and reopening (R272 to R276). -/

namespace Sys2Proof.Machine

/-! ### Rates and budgets -/

/-- The base rate in Hz (Table 2.7). -/
def rateHz (r : BitVec 3) : Nat :=
  match r.toNat with | 0 => 44100 | 1 => 48000 | 2 => 88200 | 3 => 96000 | 4 => 176400 | _ => 192000

/-- The base rate in force. -/
def State.fs (s : State) : Nat := rateHz s.tly.rate

/-- floor(f_CORE × (1/fs − ns)), f in MHz (R201, R404). -/
def budgetAt (f fs ns : Nat) : Nat := f * (10 ^ 9 - ns * fs) / (1000 * fs)

/-- B at the present rate and CORE frequency (R201). -/
def State.budget (s : State) : Nat := budgetAt s.clk.freq.toNat s.fs 300

/-! ### Plans and rows -/

/-- The plan on a physical stake. -/
def State.planAt (s : State) (k : Nat) : Option Plan :=
  s.weave.plans.find? fun p => decide (p.base ≤ k) && decide (k < p.base + p.stakes)

def GState.inRounds (g : GState) : Bool := g == .staying || g == .leaving
def GState.isHeld (g : GState) : Bool := g == .staying || g == .leaving || g == .quarantined

/-- Whether a guest is a row of the rounds: STAYING, or LEAVING and not yet released (R197, R260). -/
def Guest.inRounds (x : Guest) : Bool := x.state.inRounds && !x.gone

/-- Whether a guest is a row of its bundle, quarantined ones included. -/
def Guest.isHeld (x : Guest) : Bool := x.state.isHeld && !x.gone

/-- Guests of a plan of some kind. -/
def State.rowsOf (s : State) (n : String) (f : Guest → Bool) : List (Nat × Guest) :=
  s.inn.guests.filter fun e => e.2.plan == n && f e.2

/-- Whether any guest is STAYING (R40, R74, Table 6.1). -/
def State.anyStaying (s : State) : Bool := s.inn.guests.any fun e => e.2.state == .staying

/-- The guest of a plan's row. -/
def State.guestOfRow (s : State) (n : String) (row : Nat) : Option (Nat × Guest) :=
  (s.rowsOf n Guest.isHeld).find? fun e => e.2.row == row

/-! ### Rooms -/

/-- Whether a room is free: no guest holds it and it is not being zeroed or written back (R242). -/
def roomFree (s : State) (r : Nat) : Bool := (tget s.inn.rooms r).isNone && (tget s.inn.inUse r).isNone

/-- The lowest free aligned run of `n` rooms (R240, R241). -/
def findRooms (s : State) (n : Nat) : Option Nat :=
  (List.range 32).find? fun r => r % n == 0 && (List.range n).all fun i => roomFree s (r + i)

/-- The rooms a guest holds. -/
def Guest.run (x : Guest) : List Nat := (List.range x.join).map (x.room + ·)

/-- The base address of a room (Table 1.5). -/
def roomBase (r : Nat) : Nat := 0x110000000000 + r * 0x10000

/-- A room's contents zeroed. -/
def zeroRoom (r : Nat) (s : State) : State := { s with ram := s.ram.zero (roomBase r) 0x10000 }

/-- Rooms given to a guest. -/
def holdRooms (g r n : Nat) (s : State) : State :=
  s.onInn fun i => { i with rooms := ((List.range n).map (r + ·)).foldl (fun t k => tset t k g) i.rooms }

/-- The rooms of its run that a guest still holds. -/
def heldRooms (g : Nat) (s : State) : List Nat := (s.guest g).run.filter fun r => tget s.inn.rooms r == some g

/-- Zeroings of rooms that are over or called off. -/
def dropJobs (rs : List Nat) (s : State) : State :=
  s.onInn fun i => { i with
    inUse := rs.foldl (fun t k => tdel t k) i.inUse, zeroq := i.zeroq.filter fun j => !rs.contains j.room }

/-- Zeroings asked for, for a check-in or after an owner has left (R243). -/
def askZero (checkin : Bool) (rs : List Nat) (s : State) : State :=
  (dropJobs rs s).onInn fun i => { i with
    inUse := rs.foldl (fun t k => tset t k .zeroing) i.inUse, zeroq := i.zeroq ++ rs.map fun r => ⟨r, checkin, 0⟩ }

/-- The zeroing in progress in a bank: a check-in's before any other, and each kind in the order asked for (R244, log entry 83). -/
def zeroNow (b : Nat) (s : State) : Option ZeroJob :=
  let l := s.inn.zeroq.filter fun j => j.room / 4 == b
  (l.find? (·.checkin)).or l.head?

/-- The guest and plan whose records stand in a room: a row of the rounds whose room is neither being zeroed nor being filled. -/
def liveRow (n : Nat) (s : State) : Option (Nat × Plan) :=
  match tget s.inn.rooms n with
  | some g =>
    let x := s.guest g
    if x.inRounds && !x.swapping && x.run.all fun r => (tget s.inn.inUse r).isNone then (s.plan? x.plan).map fun p => (g, p) else none
  | none => none

/-- The records of a row put as bytes into its rooms, which no longer follow them. -/
def settleRoom (g : Nat) (s : State) : State :=
  let x := s.guest g
  match liveRow x.room s with
  | some (k, p) => if k = g then { s with ram := s.ram.writeN (roomBase x.room) (rowImage p x) } else s
  | none => s

/-- The part of a row of which byte `off` of room `n` is one: the guest, its plan, its bytes and the place among them (R211). -/
def roomByte (n off : Nat) (s : State) : Option (Nat × Plan × List Byte × Nat) :=
  (liveRow n s).bind fun e =>
    let x := s.guest e.1
    let bs := rowImage e.2 x
    let k := (n - x.room) * 0x10000 + off
    if k < bs.length then some (e.1, e.2, bs, k) else none

/-- A room as it is read during its zeroing (R246): how many 64-byte lines its engine has cleared by then is free (log entry 5). -/
def partZeroed (n : Nat) (s : State) : State :=
  match zeroNow (n / 4) s with
  | some j =>
    if j.room = n then
      let (w, s) := s.draw
      let k := w.toNat % (1025 - j.cleared)
      let s := { s with ram := s.ram.zero (roomBase n + 64 * j.cleared) (64 * k) }
      s.onInn fun i => { i with zeroq := i.zeroq.map fun q => if q.room = n then { q with cleared := q.cleared + k } else q }
    else s
  | none => s

/-- A word of the room store as it stands (R27, R246). -/
def readRoom (n off : Nat) (s : State) : W32 × State :=
  match roomByte n off s with
  | some (_, _, bs, k) => (BitVec.ofNat 32 (leNat ((bs.drop k).take 4)), s)
  | none =>
    let s := partZeroed n s
    (s.ram.readW (roomBase n + off), s)

/-- A word written into the room store: into the records of a row that runs, or into the room. -/
def writeRoom (n off : Nat) (v : W32) (s : State) : State :=
  match roomByte n off s with
  | some (g, p, bs, k) => s.onGuest g (readRow p (bs.take k ++ wordBytes v ++ bs.drop (k + 4)))
  | none => { s with ram := s.ram.writeW (roomBase n + off) v }

/-- The rooms of a guest taken from it, to be zeroed (R243). -/
def freeRooms (g : Nat) (s : State) : State :=
  let rs := heldRooms g s
  askZero false rs ((settleRoom g s).onInn fun i => { i with rooms := rs.foldl (fun t k => tdel t k) i.rooms })

/-- A guest without steps, rooms, channels or run state. -/
def Guest.idle (x : Guest) (st : GState) : Guest :=
  { x with
    state := st, steps := [], layers := [], image := [], gone := false, recs := [], hist := [], join := 0, room := 0, row := 0, code := .run, ended := false
    leaveTo := .registered, swapping := false, filled := 0, lates := false, writing := false, ports := [], portsN := [], fading := false }

/-- The cellar channels of a guest released. -/
def freeChans (g : Nat) (s : State) : State := s.onInn fun i => { i with chans := i.chans.filter fun e => e.2 != g }

/-- Cellar channels from `lo` to `hi` not in use, at most `n` (R248). -/
def takeChans (g lo hi n : Nat) (s : State) : State :=
  let free := ((List.range 8).filter fun c => decide (lo ≤ c) && decide (c ≤ hi) && (tget s.inn.chans c).isNone).take n
  s.onInn fun i => { i with chans := free.foldl (fun t c => tset t c g) i.chans }

/-- Rooms of a guest still to be written to the cellar. -/
def roomsToWrite (s : State) (x : Guest) : List Nat :=
  if x.writing then x.run.filter fun r => tget s.inn.inUse r == some .writing else []

/-- Free channels given to the swaps that have fewer of them than rooms left, in ascending guest number (R248, log entry 20); a guest
whose quarantine is due gets no more. -/
def assignChans (s : State) : State :=
  let waiting := s.inn.guests.filter fun e => (e.2.swapping || e.2.writing) && !s.inn.quarG.any fun q => q.1 == e.1
  s.forEach (waiting.map (·.1)) fun g s =>
    let x := s.guest g
    let has := (s.inn.chans.filter fun e => e.2 == g).length
    if x.swapping then takeChans g 0 5 (x.join - x.filled - has) s else takeChans g 6 7 ((roomsToWrite s x).length - has) s

/-- A guest leaves every round, its rooms to be zeroed, and becomes REGISTERED (R208, R265, R275). -/
def toRegistered (g : Nat) (s : State) : State :=
  assignChans (freeChans g ((freeRooms g s).onGuest g fun x => x.idle .registered))

/-- The end of a LEAVING guest's last step (R208, R250): check-out, or the write-back of its rooms. -/
def releaseRow (g : Nat) (s : State) : State :=
  match (s.guest g).leaveTo with
  | .registered => toRegistered g s
  | .away =>
    let s := (settleRoom g s).onGuest g fun x => { x with
      image := x.layers, hist := [], steps := [], writing := true, gone := true }
    assignChans (s.onInn fun i => { i with inUse := (s.guest g).run.foldl (fun t k => tset t k .writing) i.inUse })

/-- A guest whose last room of a write-back has been zeroed gives its rooms up and is AWAY (R250). -/
def awayWhenZeroed (s : State) : State :=
  let done := s.inn.guests.filter fun e => e.2.writing && e.2.run.all fun r => (tget s.inn.inUse r).isNone
  s.forEach (done.map (·.1)) fun g s =>
    let rs := heldRooms g s
    (s.onInn fun i => { i with rooms := rs.foldl (fun t k => tdel t k) i.rooms }).onGuest g fun x => { x with
      state := .away, room := 0, row := 0, code := .run, leaveTo := .registered, ended := false, writing := false, gone := false
      layers := [], steps := [], ports := [], portsN := [] }

/-- A zeroing that ends: the room reads as zero and is in use no longer. -/
def roomZeroed (room : Nat) (s : State) : State := awayWhenZeroed (zeroRoom room (dropJobs [room] s))

/-- Check-in zeroings that a round started have ended before the next starts (R245). -/
def endCheckinZeroing (s : State) : State :=
  s.forEach ((s.inn.zeroq.filter (·.checkin)).map (·.room)) roomZeroed

/-! ### Admission -/

/-- The phase class in which a row of divisor `d` and phase `ph` costs cycles (R258). -/
def inClass (d ph q : Nat) : Bool := d == 1 || (d == 2 && ph % 2 == q % 2) || (d == 4 && ph % 4 == q)

/-- The cost of a logical stake in class `q` for rows (D, phase), the jobs up to index `upto` (R258, R404). -/
def stakeCost (p : Plan) (rows : List (Nat × Nat)) (j q : Nat) (upto : Nat) : Nat :=
  let n := (rows.filter fun r => inClass r.1 r.2 q).length
  let ls := (layersOn p j).filter fun e => decide (e.1 ≤ upto)
  (ls.map fun e => n * cRow e.2).sum + 32 * (ls.length - 1)

/-- The rows of a plan that count in R258: STAYING, and LEAVING until released (R260). -/
def planRows (s : State) (p : Plan) : List (Nat × Nat) :=
  (s.rowsOf p.name Guest.inRounds).map fun e => (e.2.div, e.2.phase)

/-- The largest cost over stakes and classes. -/
def peakCost (p : Plan) (rows : List (Nat × Nat)) : Nat :=
  ((List.range p.stakes).map fun j => ((List.range 4).map fun q => stakeCost p rows j q p.body.layers.length).foldl max 0).foldl max 0

/-- Record size of a hop (Table 9.6). -/
def hopRec (h : Hop) : Nat := h.def_.size

/-- Wire bytes of one record: preamble, Ethernet, IP, UDP, Coach header, payload, FCS and gap for each packet (R404). -/
def wireBytes (s : State) (r : Nat) (size : Nat) : Nat :=
  let x := s.route r
  let m := s.pmax x.port
  let n := max 1 ((size + m - 1) / m)
  n * (8 + 14 + (if x.vlan.isSome then 4 else 0) + (if isV6 x.peer then 40 else 20) + 8 + 32 + 4 + 12) + size

/-- Line bits per microsecond of a port. -/
def lineMbps (s : State) (p : Nat) : Nat := if (s.net p).speed then 10000 else 25000

/-- The boundary checks of R404 for `n` rows: the stake or port that fails, where one does. -/
def hopFail (s : State) (p : Plan) (rows : List (Nat × Nat)) : Option String :=
  let fs := s.fs
  let bhop := budgetAt s.clk.freq.toNat fs 2500
  let outs := p.hops.filter fun h => h.def_.pchip == p.chip
  let n := rows.length
  let idx (h : Hop) : Nat := h.def_.src - p.body.first
  let stakeBad := outs.find? fun h => match p.body.layers[idx h]? with
    | some ly => (List.range 4).any fun q => decide (bhop < stakeCost p rows ly.stake q (idx h))
    | none => false
  match stakeBad with
  | some h => some (match p.body.layers[idx h]? with | some ly => "stake." ++ natS (p.base + ly.stake) | none => "")
  | none =>
    let portOf (h : Hop) : Nat := match h.route with | some r => (s.route r).port | none => 0
    let bad (pt : Nat) : Bool :=
      -- capacity of the port per round, in tenths of a kB, below (Table 9.8)
      let all := s.weave.plans.foldl (fun t q => t ++ (q.hops.filter fun h => h.def_.pchip == q.chip && portOf h == pt).map
        fun h => (if q.name == p.name then n else (s.rowsOf q.name Guest.inRounds).length, h)) ([] : List (Nat × Hop))
      let bytes := (all.map fun e => e.1 * wireBytes s (e.2.route.getD 0) (hopRec e.2)).sum
      let cap := lineMbps s pt * 10 ^ 6 / 8 / fs / 100 * 100
      -- wire time and row time in picoseconds (check 3)
      let drain := ((outs.filter fun h => portOf h == pt).map fun h =>
        let tw := wireBytes s (h.route.getD 0) (hopRec h) * 8 * 10 ^ 6 / lineMbps s pt
        let tr := match p.body.layers[idx h]? with
          | some ly => if s.clk.freq.toNat = 0 then 0 else cRow ly * 10 ^ 6 / s.clk.freq.toNat
          | none => 0
        n * tw - (n - 1) * min tr tw).sum
      decide (cap < bytes) || decide (1500000 < drain)
    if bad 0 then some "neta" else if bad 1 then some "netb" else none

/-- What a check-in or return lacks: an error code and the key it names, none when it fits. The rows given include the new
one (R258, R404). -/
def cyclesFail (s : State) (p : Plan) (rows : List (Nat × Nat)) : Option (Nat × String) :=
  if s.budget < peakCost p rows then some (32, "")
  else (hopFail s p rows).map fun w => (32, w)

/-- The phase of a source or destination code (R418), its divisor, and whether its port, flow or USB stream carries it. -/
structure ChanOf where
  ok    : Bool
  div   : Nat
  phase : Nat
  deriving DecidableEq, Repr

def divOf (c : BitVec 2) : Nat := match c.toNat with | 0 => 1 | 1 => 2 | _ => 4

/-- The USB stream rate (R433) and its divisor. -/
def usbDiv (s : State) : Nat := match s.tly.rate.toNat with | 0 => 1 | 1 => 1 | 2 => 2 | 3 => 2 | _ => 4

/-- Whether the USB device offers UAC2: high speed and UACEN (R432). -/
def usbAudio (s : State) : Bool := s.on 5 && s.usb.hs && s.usb.uacen

/-- The channel a code of Table 10.3 names. Code 0 is carried by everything. -/
def chanOf (s : State) (dst : Bool) (code : Nat) : ChanOf :=
  if code = 0 then ⟨true, 0, 0⟩
  else if 0x20 ≤ code ∧ code < 0x30 then ⟨usbAudio s, usbDiv s, 0⟩
  else if 0x40 ≤ code ∧ code < 0x80 then
    let p := s.aud.ports.getD (code / 16 % 4) {}
    ⟨p.en && decide (code % 16 ≤ p.slots.toNat), divOf p.div, p.phase.toNat % divOf p.div⟩
  else if 0x80 ≤ code then
    let f := (if dst then s.aud.tx else s.aud.rx).getD (code / 16 % 8) {}
    let r := if f.rate96 then 96000 else 48000
    ⟨f.en && decide (code % 16 < f.ch), if s.fs % r = 0 then s.fs / r else 0, 0⟩
  else ⟨false, 0, 0⟩

/-- The phase a guest's map fixes, when it names any channel (R419). -/
def mapPhase (s : State) (x : Guest) : Option Nat :=
  match (x.ins.filter (· != 0)).head? with
  | some c => some (chanOf s false c).phase
  | none => (x.outs.filter (· != 0)).head?.map fun c => (chanOf s true c).phase

/-- The first tally from `t` on whose value modulo `d` is `ph`. -/
def alignUp (t d ph : Nat) : Nat := t + (ph + d - t % d) % d

/-- The tally at which a check-in applied at `t` takes effect (R259, R419). -/
def checkinTally (s : State) (p : Plan) (x : Guest) (t : Nat) (fixed : Bool) : Nat :=
  if x.div ≤ 1 then t
  else match mapPhase s x with
    | some ph => alignUp t x.div ph
    | none =>
      if fixed then t
      else ((List.range x.div).foldl (fun (best : Option (Nat × Nat)) i =>
          let c := peakCost p (planRows s p ++ [(x.div, (t + i) % x.div)])
          match best with
          | some (b, j) => if c < b then some (c, i) else some (b, j)
          | none => some (c, i)) none).elim t fun e => t + e.2

/-- The lowest row index of a plan not taken by a guest that is in its bundle. -/
def freeRow (s : State) (p : Plan) : Option Nat :=
  (List.range p.rows).find? fun r => (s.guestOfRow p.name r).isNone

/-- The checks of a check-in in the order of R257; the error and the key it names. The bundle takes as many rows as the plan's ROWS
says, at most 16 (Table 5.9). An unbound hop (R396) is looked at after the bundle (log entry 78). -/
def admission (s : State) (g : Nat) (plan : String) (prec : Prec) (ph : Nat) : Option (Nat × String) :=
  let x := s.guest g
  if s.pwr.house ≠ .full ∨ s.on 10 = false then some (40, "")
  else if x.state = .quarantined then some (51, "")
  else if x.state ≠ .registered then some (40, "")
  else match s.plan? plan with
    | none => some (13, "plan")
    | some p =>
      let bundle := s.rowsOf plan Guest.isHeld
      if p.rates.getLsbD s.tly.rate.toNat = false ∨ p.body.nin ≠ x.nin ∨ p.body.nout ≠ x.nout then some (13, "plan")
      else if bundle ≠ [] ∧ p.prec ≠ some prec then some (13, "prec")
      else if (freeRow s p).isNone then some (30, "")
      else if p.quar then some (51, "")
      else if (p.hops.any fun h => h.route.isNone) then some (40, "")
      else match roomsNeeded p prec with
        | none => some (61, "")
        | some n =>
          if (findRooms s n).isNone then some (31, "") else cyclesFail s p (planRows s p ++ [(x.div, ph)])

/-- The record of a layer with state and outputs zero, its window filled (R173, R205). -/
def freshLayer (ly : Layer) (st : LayerSet) : LayerRow :=
  let z := List.replicate ly.h (zeroElem ly.outfmt ly.outz)
  fillWin st.hr (baseExp ly st)
    { s0 := List.replicate ly.h 0, s1 := if ly.usesS1 then List.replicate ly.h 0 else [], out0 := z, out1 := z, exp := baseExp ly st }

/-- The default vectors of a plan's ports (R293). -/
def portDefaults (p : Plan) : Tab (List Nat) := (List.range p.body.ports.length).zip (p.body.ports.map (·.dflt))

/-- A guest admitted at tally `c` (R205, R240 to R243, Table 6.2). -/
def doCheckin (s : State) (g : Nat) (p : Plan) (prec : Prec) (cls : Option GClass) (c : Nat) : State :=
  match roomsNeeded p prec, freeRow s p with
  | some n, some row =>
    match findRooms s n with
    | some r =>
      let s := askZero true ((List.range n).map (r + ·)) (holdRooms g r n s)
      let s := s.onPlan p.name fun q => { q with prec := some prec }
      s.onGuest g fun x => { x with
        state := .staying, cls := cls.getD x.cls, plan := p.name, prec := prec, row := row, room := r, join := n, c := c
        phase := c % x.div, code := .reset, leaveTo := .registered, ended := false, swapping := false, lates := false
        writing := false, gone := false, shed := false, steps := [], image := [], hist := [], recs := planRecs p
        layers := List.zipWith freshLayer p.body.layers p.sets, ports := portDefaults p, portsN := portDefaults p }
    | none => s
  | _, _ => s

/-- Rooms that can be swapped in for one tally (R253, Table 6.3). -/
def swapCapacity (fs : Nat) : Nat := 6 * ((10 ^ 9 - 300 * fs) / (2000 * fs))

/-- What a return at tally `c` lacks (R253, R256, R257, R669); its row costs cycles in the phase class of `c` (R255, R419). -/
def returnFail (s : State) (g : Nat) (c : Nat) : Option (Nat × String) :=
  let x := s.guest g
  if s.pwr.house ≠ .full ∨ s.on 10 = false then some (40, "")
  else if x.state = .quarantined then some (51, "")
  else if x.state ≠ .away then some (40, "")
  else match s.plan? x.plan with
    | none => some (13, "")
    | some p =>
      if p.quar then some (13, "")
      else if roomsNeeded p x.prec ≠ some x.join ∨ (p.prec ≠ some x.prec ∧ s.rowsOf p.name Guest.isHeld ≠ []) then some (13, "")
      else if (freeRow s p).isNone then some (30, "")
      else if (findRooms s x.join).isNone then some (31, "")
      else match cyclesFail s p (planRows s p ++ [(x.div, c % max 1 x.div)]) with
        | some e => some e
        | none =>
          let used := if s.inn.swapT.1 = c then s.inn.swapT.2 else 0
          if swapCapacity s.fs < used + x.join then some (30, "") else none

/-- A guest back from the cellar at tally `c` (R252). -/
def doReturn (s : State) (g c : Nat) : State :=
  let x := s.guest g
  match s.plan? x.plan, findRooms s x.join with
  | some p, some r =>
    let s := holdRooms g r x.join s
    let s := s.onPlan p.name fun q => { q with prec := some x.prec }
    let s := s.onGuest g fun y => { y with
      state := .staying, room := r, row := (freeRow s p).getD 0, c := c, code := .run, leaveTo := .registered, ended := false
      swapping := true, filled := 0, lates := false, gone := false, steps := [], layers := x.image, ports := portDefaults p
      portsN := portDefaults p }
    let s := s.onInn fun i => { i with swapT := (c, (if i.swapT.1 = c then i.swapT.2 else 0) + x.join) }
    assignChans s
  | _, _ => s

/-- A guest's cellar slot (R247). -/
def cellarSlot (s : State) (g : Nat) : Nat := s.cellar + g * 0x40000

/-- A cellar image discarded and its slot zeroed (Table 6.2). -/
def dropImage (g : Nat) (s : State) : State :=
  let s := { s with ram := s.ram.zero (cellarSlot s g) 0x40000 }
  s.onGuest g fun x => x.idle .registered

/-- A step code set on a row (R204, R210); END makes the guest LEAVING. -/
def setStep (g : Nat) (code : StepCode) (to_ : LeaveTo) (s : State) : State :=
  s.onGuest g fun x => { x with
    code := code, state := if code = .stop then .leaving else x.state, leaveTo := if code = .stop then to_ else x.leaveTo }

/-! ### Shedding (R262 to R266) -/

/-- The order of classes in shedding: SPARE first. -/
def classNum (c : GClass) : Nat := match c with | .keep => 0 | .main => 1 | .side => 2 | .spare => 3
def classS (c : GClass) : String := match c with | .keep => "KEEP" | .main => "MAIN" | .side => "SIDE" | .spare => "SPARE"

/-- Whether guest `a` is shed before guest `b` (R264). -/
def shedBefore (a b : Nat × Guest) : Bool :=
  if classNum a.2.cls ≠ classNum b.2.cls then decide (classNum b.2.cls < classNum a.2.cls)
  else if a.2.c ≠ b.2.c then decide (b.2.c < a.2.c) else decide (b.1 < a.1)

/-- The guest to shed among candidates; never a KEEP guest. -/
def shedChoice (l : List (Nat × Guest)) : Option (Nat × Guest) :=
  (l.filter fun e => e.2.cls != .keep).foldl (fun best e =>
    match best with
    | some b => if shedBefore e b then some e else some b
    | none => some e) none

/-- A shed that is due: one guest leaves, or OVERLOAD is set when only KEEP guests are candidates (R265, R266). -/
def shedOne (l : List (Nat × Guest)) (thermal : Bool) (s : State) : State :=
  match shedChoice l with
  | some (g, x) =>
    let s := toRegistered g s
    let s := s.onGuest g fun y => { y with shed := true }
    let s := s.onInn fun i => { i with cShed := satInc i.cShed }
    let s := notify "inn" ("shed " ++ kn "id" g ++ " " ++ kv "class" (classS x.cls)) s
    logEv 5 0x0102 0 g (classNum x.cls + if thermal then 256 else 0) s
  | none =>
    if l.isEmpty then s
    else
      let sent := s.inn.overSent
      let s := s.onInn fun i => { i with overload := true, overSent := true }
      if sent then s else notify "inn" "overload" s

/-! ### Quarantine (R272 to R276) -/

def causeS (c : Nat) : String :=
  match c with | 1 => "stake" | 2 => "port" | 3 => "larder" | 4 => "cellar" | _ => "poison"

/-- Guests quarantined: they leave every round, their rooms held as they stand and not zeroed; one notice, one log entry for each
(R273). -/
def quarGuests (plan : String) (gs : List Nat) (cause : Nat) (s : State) : State :=
  let s := s.forEach gs fun g s => (freeChans g (dropJobs (heldRooms g s) (settleRoom g s))).onGuest g fun x => { x with
    state := .quarantined, steps := [], code := .run, swapping := false, writing := false }
  let s := s.onInn fun i => { i with cQuar := satAdd i.cQuar gs.length }
  let s := assignChans s
  let s := notify "inn" ("quar " ++ kv "plan" plan ++ " " ++ kv "ids" (commas (gs.map natS)) ++ " " ++ kv "cause" (causeS cause)) s
  s.forEach gs fun g s => logEv 5 0x0101 0 g cause s

/-- A bundle quarantined at a round start (R272, R273). -/
def quarBundle (n : String) (cause : Nat) (s : State) : State :=
  match s.plan? n with
  | some p =>
    if p.quar then s.onPlan n fun q => { q with pendQuar := none }
    else
      let gs := (s.rowsOf n Guest.inRounds).map (·.1)
      let s := s.onPlan n fun q => { q with quar := true, pendQuar := none }
      quarGuests n gs cause s
  | none => s

/-- Every quarantine that is due (R273). -/
def takeQuarantines (s : State) : State :=
  let due := s.weave.plans.filterMap fun p => p.pendQuar.map fun c => (p.name, c)
  let s := s.forEach due fun e s => quarBundle e.1 e.2 s
  let qs := s.inn.quarG
  let s := s.onInn fun i => { i with quarG := [] }
  s.forEach qs fun e s => if (s.guest e.1).state.inRounds then quarGuests (s.guest e.1).plan [e.1] e.2 s else s

/-- A bundle to be quarantined at the next round start. -/
def pendBundle (n : String) (cause : Nat) (s : State) : State :=
  s.onPlan n fun p => { p with pendQuar := if p.quar then p.pendQuar else some (p.pendQuar.getD cause) }

/-- Every quarantined row of a bundle reopened: rooms zeroed and freed, the image discarded (R275). A quarantine that is due stays
due. -/
def reopenBundle (n : String) (s : State) : State :=
  let gs := (s.rowsOf n fun x => x.state == .quarantined).map (·.1)
  (s.forEach gs toRegistered).onPlan n fun p => { p with quar := false }

/-! ### Bank-port leases (R268, Table 6.6) -/

/-- The bank whose rooms a stake's next job streams, with the bundle; a bundle whose quarantine is due has given its leases back
(R271). -/
def portWanted (s : State) (k : Nat) : Option (Nat × String) :=
  match s.weave.todo.find? fun e => e.1 == k with
  | some (_, _, row) => (s.planAt k).bind fun p =>
    if p.quar || p.pendQuar.isSome then none else (s.guestOfRow p.name row).map fun e => (e.2.room / 4, p.name)
  | none => none

/-- A lease of the lowest free port of a bank for a stake that has none; with all four taken its job waits (log entry 84). -/
def leasePort (t : Tab (Nat × String)) (k : Nat) (w : Nat × String) : Tab (Nat × String) :=
  if t.any fun e => e.2.1 == k then t
  else match (List.range 4).find? fun i => (tget t (4 * w.1 + i)).isNone with
    | some i => tset t (4 * w.1 + i) (k, w.2)
    | none => t

/-- The bank-port leases after the jobs of the round have moved on. -/
def settlePorts (s : State) : State :=
  let want := (List.range 48).filterMap fun k => (portWanted s k).map fun w => (k, w)
  s.onInn fun i => { i with
    ports := want.foldl (fun t w => leasePort t w.1 w.2) (i.ports.filter fun e => want.contains (e.2.1, e.1 / 4, e.2.2)) }

/-! ### Muting by the Hearth (R278 to R280) -/

/-- Whether a plan's bundle is muted by its Hearth channel. -/
def planMuted (s : State) (p : Plan) : Bool := p.hearth.isSome && (p.hmuted || !s.on 4)

/-- Every AWAY, STAYING, LEAVING and QUARANTINED guest becomes REGISTERED as PD10 switches off (R238). -/
def allRegistered (s : State) : State :=
  s.forEach ((s.inn.guests.filter fun e => e.2.state != .free && e.2.state != .registered).map (·.1)) fun g s =>
    s.onGuest g fun x => x.idle .registered

end Sys2Proof.Machine
end

