-- ==== Sys2Proof/Machine/Events.lean ====
section
/-! DEFINITION. Events: their order (R52 to R55), the queue and its shares (R56, R68), late events (R59 to R61), what each does
at its tally (R58, R97), and how a command posts one (R62 to R66, R94, R95). -/

namespace Sys2Proof.Machine

/-! ### Sources -/

/-- The order of sources (R53). -/
def srcRank (x : Src) : Nat :=
  match x with | .desk => 0 | .porter => 1 | .route r => 2 + r | .larder => 100000 | .hearth => 100001

/-- The name of a source in `!tly.reject` (R60). -/
def srcS (x : Src) : String :=
  match x with | .desk => "desk" | .porter => "porter" | .route r => "route." ++ natS r | .larder => "larder" | .hearth => "hearth"

/-- The source field of a late event's log entry (Table 12.7). -/
def srcCode (x : Src) : Nat :=
  match x with | .desk => 0 | .porter => 1 | .route r => 0x2000 + r | .larder => 3 | .hearth => 4

/-- Entries reserved for the share a source belongs to (R68); every route shares Coach's. -/
def shareOf (x : Src) : Nat :=
  match x with | .desk => 512 | .porter => 128 | .route _ => 1024 | .larder => 256 | .hearth => 128

def sameShare (a b : Src) : Bool :=
  match a, b with | .route _, .route _ => true | a, b => a == b

/-- Whether a source is set to REJECT-LATE (R59, R77, Table 8.1). -/
def rejectsLate (x : Src) (s : State) : Bool :=
  match x with
  | .desk => s.tly.late.getLsbD 0
  | .porter => s.tly.late.getLsbD 1
  | .larder => s.tly.late.getLsbD 2
  | .hearth => s.tly.late.getLsbD 3
  | .route r => (s.route r).rejLate

/-- Entries of a source's share in use: events queued, and requests whose delivery is not yet posted (R299). -/
def shareUsed (x : Src) (s : State) : Nat :=
  (s.evq.entries.filter fun e => sameShare e.src x).length +
    (s.ldr.queue.filter fun e => sameShare e.src x).length + (s.ldr.serving.filter fun e => sameShare e.src x).length +
    (s.ldr.store.filter fun e => sameShare e.src x).length

def shareFull (x : Src) (s : State) : Bool := decide (shareOf x ≤ shareUsed x s)

/-- Whether event `a` takes effect before `b` at one tally (R53, R54). -/
def evBefore (a b : Event) : Bool :=
  if srcRank a.src = srcRank b.src then seqAfter b.seq a.seq else decide (srcRank a.src < srcRank b.src)

/-- The order of events of several tallies: the earlier tally first, and within one the order of R53. -/
def evOrder (a b : Event) : Bool := if a.due = b.due then evBefore a b else decide (a.due < b.due)

/-- An event put in its place in a list in the order of R53. -/
def evInsert (e : Event) (l : List Event) : List Event :=
  match l with
  | [] => [e]
  | x :: r => if evOrder e x then e :: x :: r else x :: evInsert e r

def evSort (l : List Event) : List Event := l.foldl (fun t e => evInsert e t) []

/-! ### Failures -/

/-- An event whose effect failed at its tally is reported (R97, R692, R668). -/
def deskFail (e : Event) (code : Nat) (s : State) : State :=
  let base := "fail " ++ kv "seq" (hexS 4 e.seq.toNat) ++ " " ++ kn "err" code
  match e.by_ with
  | some (.sess n) => notifyOne n "desk" base s
  | some (.morning l) => logEv 0 0x0103 e.seq.toNat l code (notify "desk" (base ++ " from=morning " ++ kn "line" l) s)
  | some (.keyword k _ _) => logEv 0 0x0103 e.seq.toNat k (0x8000 + code) (notify "desk" (base ++ " from=macro " ++ kn "slot" k) s)
  | _ => s

/-! ### The cut-off and late events -/

/-- The first tally whose cut-off has not passed (R56, R59). -/
def firstOpen (cut : Bool) (s : State) : Nat := s.tly.now.toNat + (if cut then 2 else 1)

/-- Whether a tally was skipped in this era (R61). -/
def wasSkipped (t : Nat) (s : State) : Bool := s.tly.skipped.any fun e => decide (e.1 ≤ t) && decide (t ≤ e.2)

/-- Whether an event for tally `t` that enters now is on time (R56, R61). -/
def onTime (t : Nat) (cut : Bool) (s : State) : Bool := decide (firstOpen cut s ≤ t) && !wasSkipped t s

/-- An event rejected as late (R60). -/
def rejectEv (e : Event) (s : State) : State :=
  let s := s.onTly fun t => { t with cReject := satInc t.cReject }
  let s := notify "tly" ("reject " ++ kv "src" (srcS e.src) ++ " " ++ kv "seq" (hexS 4 e.seq.toNat) ++ " " ++
    kv "stamp" (tallyS e.stamp.toNat)) s
  logAt s.tly.now true 5 0x0202 e.seq.toNat e.stamp.toNat (srcCode e.src) s

/-- A late event counted and logged with the tally at which it takes effect (R59, R61); one whose command named no tally is never
counted LATE (R63). -/
def countLate (e : Event) (due : Nat) (s : State) : State :=
  if e.bare then s
  else logAt (BitVec.ofNat 64 due) true 5 0x0201 e.seq.toNat e.stamp.toNat (srcCode e.src) (s.onTly fun t => { t with cLate := satInc t.cLate })

/-- An event moved to a later tally and counted (R59). -/
def lateTo (e : Event) (due : Nat) (s : State) : State :=
  let d : Tally := BitVec.ofNat 64 due
  let s := countLate e due s
  let s := match e.eff with
    | .deliver .. => s.onLdr fun l => { l with cLate := satInc l.cLate, cMiss := satInc l.cMiss }
    | _ => s
  s.onEvq fun q => { q with entries := q.entries ++ [{ e with due := d, late := true }] }

/-- A late event handled by its source's policy (R59, R60, R306). The Hearth posts a rejected READY again as it now stands (corner of
chapter 13). -/
def handleLate (e : Event) (due : Nat) (s : State) : State :=
  if rejectsLate e.src s then
    let s := match e.eff with
      | .deliver .. => s.onLdr fun l => { l with cMiss := satInc l.cMiss }
      | _ => s
    let s := deskFail e 40 (rejectEv e s)
    match e.eff with
    | .ready ch _ =>
      let d : Tally := BitVec.ofNat 64 due
      s.onEvq fun q => { q with
        hearthSeq := q.hearthSeq + 1
        entries := q.entries ++ [{ e with seq := q.hearthSeq, stamp := d, due := d, late := false, eff := .ready ch (s.chan ch).ready }] }
    | _ => s
  else lateTo e due s

/-- Whether an event with the same tally, source and sequence is queued (R55). The records of one SEND share its sequence (R295,
R349): among the requests of a route, one is the same event only if it asks for the same. -/
def isDup (src : Src) (seq : BitVec 16) (stamp : Tally) (eff : Effect) (s : State) : Bool :=
  let sameReq (q : LdrReq) : Bool := match src, eff with | .route _, .request r => q == r | _, _ => true
  let same (e : Serve) : Bool := e.src == src && e.seq == seq && e.named == stamp && sameReq e.req
  (s.evq.entries.any fun e => e.src == src && e.seq == seq && e.stamp == stamp) || s.ldr.queue.any same || s.ldr.serving.any same ||
    s.ldr.store.any fun d => d.src == src && d.seq == seq && d.named == stamp && sameReq d.req

/-- A request that named tally `named` given to the Larder for tally `stamp` (R299, R305); one that arrives while PD11 is off is
discarded (R303). -/
def queueRequest (src : Src) (seq : BitVec 16) (named stamp : Tally) (r : LdrReq) (s : State) : State :=
  if s.on 11 = false then s
  else s.onLdr fun l => { l with
    queue := l.queue ++ [{ src := src, seq := seq, stamp := stamp, named := named, req := r, rows := [], wait := [] }] }

/-- The event a waiting request is. -/
def serveEvent (x : Serve) : Event :=
  { src := x.src, seq := x.seq, stamp := x.named, due := x.stamp, late := false, by_ := none, eff := .request x.req }

/-- An event enters the queue (R55, R56, R59, R60, R68): a duplicate is discarded and counted; one whose share is full is kept
by its source; one on time is queued for its tally; any other is late. -/
def enqueue (e : Event) (cut : Bool) (s : State) : State :=
  if isDup e.src e.seq e.stamp e.eff s then s.onTly fun t => { t with cDup := satInc t.cDup }
  else if shareFull e.src s then s.onEvq fun q => { q with held := q.held ++ [e] }
  else
    let isOn := onTime e.stamp.toNat cut s
    match e.eff with
    | .request r =>
      if isOn then queueRequest e.src e.seq e.stamp e.stamp r s
      else if rejectsLate e.src s then deskFail e 40 (rejectEv e s)
      else queueRequest e.src e.seq e.stamp (BitVec.ofNat 64 (firstOpen cut s)) r (countLate e (firstOpen cut s) s)
    | _ =>
      if isOn then s.onEvq fun q => { q with entries := q.entries ++ [{ e with due := e.stamp }] }
      else handleLate e (firstOpen cut s) s

/-- A route returned from the Larder to NONE, its buffers to the pool (R294). -/
def finishUnbind (r : Nat) (s : State) : State :=
  let n := (s.route r).rq
  ((s.onRoute r fun x => { x with bind := .none, pool := 0 }).onCch fun c => { c with poolFree := c.poolFree + n }).onLdr fun l =>
    { l with unbind := l.unbind.filter (· != r) }

/-- Request records of one route posted while Coach's share has room, in record order; each internal buffer is given back once
its records are posted, and an unbind that waited for the last of them ends (R68, R294, R295). -/
def drainRoute (fuel r : Nat) (cut : Bool) (s : State) : State :=
  match fuel with
  | 0 => s
  | f + 1 =>
    match (s.route r).pending with
    | [] => if s.ldr.unbind.contains r then finishUnbind r s else s
    | [] :: rest => drainRoute f r cut (s.onRoute r fun x => { x with pending := rest, pool := x.pool + 1 })
    | (e :: l) :: rest =>
      if shareFull e.src s then s
      else drainRoute f r cut (enqueue e cut (s.onRoute r fun x => { x with pending := l :: rest }))

/-- Records of every route posted as far as Coach's share has room. The spec does not say which route's record takes an entry that
frees: the routes go in ascending number, after the events in `held` (DESIGN CHOICE, log entry 70). -/
def drainRoutes (cut : Bool) (s : State) : State :=
  s.forEach (s.cch.routes.filter fun e => !e.2.pending.isEmpty) fun e s =>
    drainRoute (2 + (e.2.pending.map fun l => l.length + 1).sum) e.1 cut s

/-- The result of a delivery that is posted leaves the delivery store, and its event enters the queue with the tally of its request
(R299, R305). -/
def postDelivery (cut : Bool) (d : Delivery) (s : State) : State :=
  let q := s.evq.larderSeq
  let s := (s.onLdr fun l => { l with store := l.store.erase d }).onEvq fun v => { v with larderSeq := v.larderSeq + 1 }
  enqueue { src := .larder, seq := q, stamp := d.stamp, due := d.stamp, late := false, by_ := none
            eff := .deliver d.guest d.port d.src d.seq d.stamp d.vals } cut s

/-- Deliveries that wait for an entry of the Larder's share posted as it has room (R68, R299). -/
def postStored (cut : Bool) (s : State) : State :=
  s.forEach (s.ldr.store.filter (·.posted)) fun d s => if shareFull .larder s then s else postDelivery cut d s

/-- Events their sources kept enter as their shares free, oldest first (R68); `cut` says that the cut-off of R56 has passed as they
enter. -/
def admitHeld (cut : Bool) (s : State) : State :=
  let l := s.evq.held
  postStored cut (drainRoutes cut (s.onEvq (fun q => { q with held := [] }) |>.forEach l fun e s =>
    if shareFull e.src s then s.onEvq fun q => { q with held := q.held ++ [e] } else enqueue e cut s))

/-! ### Effects -/

/-- The state a command about a guest meets: quarantined 51, otherwise 40 (R237). -/
def guestErr (x : Guest) : Nat := if x.state = .quarantined then 51 else 40

/-- A layer of a plan changed: its settings, its exponent in the scale file, and the windows of the rows when they are to be filled
(R182, R183). -/
def applyScale (p : Plan) (i : Nat) (mode : Option SMode) (win hr : Option Nat) (exp : Option Int) (s : State) : State :=
  match p.body.layers[i]?, p.sets[i]? with
  | some ly, some st =>
    let st' := { st with
      mode := mode.getD st.mode, win := win.getD st.win, hr := hr.getD st.hr, exp0 := exp.getD st.exp0
      pendMove := if mode.isSome then false else st.pendMove }
    let s := match exp, expOffset p ly.stake i with
      | some e, some o => { s with ram := s.ram.writeW (stakeBase (p.base + ly.stake) + o) (intF32 e) }
      | _, _ => s
    let s := s.onPlan p.name fun q => { q with sets := q.sets.set i st' }
    if (mode = some .adapt ∧ st.mode ≠ .adapt) ∨ win.isSome ∨ hr.isSome then
      s.forEach ((s.rowsOf p.name Guest.isHeld).map (·.1)) fun g s =>
        s.onGuest g fun x => { x with layers := lmod x.layers i (fillWin st'.hr (baseExp ly st')) }
    else s
  | _, _ => s

/-- Why a map fails at acceptance and at application (R417, R418). -/
def mapFail (s : State) (g : Nat) (ins outs : List Nat) : Option Nat :=
  let x := s.guest g
  let cs := (ins.filter (· != 0)).map (chanOf s false) ++ (outs.filter (· != 0)).map (chanOf s true)
  if ins.length ≠ x.nin ∨ outs.length ≠ x.nout then some 13
  else if cs.any fun c => !c.ok || c.div != x.div then some 13
  else if cs.any fun c => c.phase != (cs.headD ⟨true, 0, 0⟩).phase then some 13
  else if (s.inn.guests.any fun e => e.1 != g && e.2.outs.any fun o => o != 0 && outs.contains o) then some 30
  else if !(outs.filter (· != 0)).Nodup then some 30
  else none

/-- Why a `ldr.put` fails (R302). -/
def putFail (s : State) (g port : Nat) (vals : List W32) : Option Nat :=
  let x := s.guest g
  if s.on 11 = false then some 40
  else if x.state ≠ .staying then some (guestErr x)
  else match (s.plan? x.plan).bind fun p => p.body.ports[port]? with
    | some d => if d.matrix || decide (d.elems < vals.length) then some 13 else none
    | none => some 13

/-- F32 values converted into the format of a port, a WALE port holding F32, with the clips and the NaNs counted (R222, R297). -/
def toPort (d : PortDef) (vals : List Nat) : List Nat × Nat × Nat :=
  let xs := vals.map fun v => f32X (BitVec.ofNat 32 v)
  let f := if d.matrix then d.fmt else 12
  let cs : List Conv :=
    if f = 9 then ((blocks32 (xs.length + 1) xs).map fun b => let (se, c) := g6Block b; c.map fun k => { k with code := k.code + 64 * se }).flatten
    else xs.map (fmtConv f d.zp)
  (cs.map (·.code), (cs.filter (·.clip)).length, (cs.filter (·.nan)).length)

/-- Whether a delivery finds its guest STAYING with such a port (R301). -/
def delivers (g port : Nat) (vals : List Nat) (s : State) : Option PortDef :=
  let x := s.guest g
  if x.state = .staying then ((s.plan? x.plan).bind fun p => p.body.ports[port]?).filter fun d => d.elems == vals.length else none

/-- Whether request (source, sequence) `b` comes later than `a` under R53 and R54. -/
def reqAfter (a b : Src × BitVec 16) : Bool :=
  if srcRank b.1 = srcRank a.1 then seqAfter b.2 a.2 else decide (srcRank a.1 < srcRank b.1)

/-- What an event does at tally `t`, or the code with which it fails. An event that takes effect at a later tally by its own
rule (R255, R259, R419) goes back into the queue for that tally. -/
def applyEffect (e : Event) (t : Nat) (s : State) : Except (Nat × String) State :=
  let requeue (due : Nat) (eff : Effect) (s : State) : State :=
    s.onEvq fun q => { q with entries := q.entries ++ [{ e with due := BitVec.ofNat 64 due, eff := eff }] }
  match e.eff with
  | .checkin g plan prec cls fixed =>
    let x := s.guest g
    let c := match s.plan? plan with | some p => checkinTally s p x t fixed | none => t
    match admission s g plan prec (c % max 1 x.div) with
    | some e => .error e
    | none =>
      if c ≠ t then .ok (requeue c (.checkin g plan prec cls true) s)
      else match s.plan? plan with
        | some p => .ok (doCheckin s g p prec cls c)
        | none => .error (13, "")
  | .checkout g =>
    match (s.guest g).state with
    | .staying => .ok (setStep g .stop .registered s)
    | .away => .ok (dropImage g s)
    | _ => .error (guestErr (s.guest g), "")
  | .away g =>
    if (s.guest g).state ≠ .staying then .error (guestErr (s.guest g), "")
    else if s.mem.valid = false then .error (40, "")
    else .ok (setStep g .stop .away s)
  | .back g =>
    let x := s.guest g
    let c := if x.div ≤ 1 then t else alignUp t x.div ((mapPhase s x).getD x.phase)
    match returnFail s g c with
    | some e => .error e
    | none => if c ≠ t then .ok (requeue c (.back g) s) else .ok (doReturn (s.onGuest g fun x => { x with phase := c % max 1 x.div }) g c)
  | .step g code =>
    let x := s.guest g
    if x.state ≠ .staying then .error (guestErr x, "") else .ok (setStep g code .registered s)
  | .gclass g cls =>
    let x := s.guest g
    if x.state = .staying ∨ x.state = .leaving ∨ x.state = .away then .ok (s.onGuest g fun x => { x with cls := cls })
    else .error (guestErr x, "")
  | .bypass g on =>
    let x := s.guest g
    if x.state = .staying ∨ x.state = .leaving ∨ x.state = .away then .ok (s.onGuest g fun x => { x with bypass := on })
    else .error (guestErr x, "")
  | .scale plan layer mode win hr exp =>
    match s.plan? plan with
    | some p => if p.quar then .error (51, "") else .ok (applyScale p (layer - p.body.first) mode win hr exp s)
    | none => .error (13, "")
  | .hopLate plan hop pol =>
    match s.plan? plan with
    | some p =>
      if p.quar then .error (51, "")
      else .ok (s.onPlan plan fun q => { q with hops := q.hops.map fun h => if h.def_.hop = hop then { h with late := pol } else h })
    | none => .error (13, "")
  | .bind plan ch =>
    match s.plan? plan with
    | some p =>
      if p.quar then .error (51, "")
      else .ok (s.onPlan plan fun q => { q with hearth := ch, hmuted := match ch with | some k => !(s.chan k).ready | none => false })
    | none => .error (13, "")
  | .request _ => .ok s
  | .put g port vals =>
    match putFail s g port vals with
    | some e => .error (e, "")
    | none => .ok (s.onGuest g fun x => { x with
        portsN := tmod x.portsN port [] fun old => vals.map (·.toNat) ++ old.drop vals.length })
  | .deliver g port src seq stamp vals =>
    match delivers g port vals s with
    | none => .ok (s.onLdr fun l => { l with cNorow := satInc l.cNorow })
    | some d =>
      let last := (s.ldr.applied.find? fun a => a.1 == g && a.2.1 == port).map (·.2.2)
      if last.any fun a => decide (stamp.toNat < a.1) then .ok (s.onLdr fun l => { l with cSuper := satInc l.cSuper })
      else if last.any fun a => a.1 == stamp.toNat && reqAfter (src, seq) a.2 then .ok s
      else
        let s := s.onLdr fun l => { l with
          applied := (l.applied.filter fun a => a.1 != g || a.2.1 != port) ++ [(g, port, stamp.toNat, src, seq)] }
        .ok (s.onGuest g fun x => { x with portsN := tset x.portsN port (toPort d vals).1 })
  | .map g ins outs =>
    let x := s.guest g
    if x.state = .free then .error (40, "")
    else if x.state = .quarantined then .error (51, "")
    else match mapFail s g ins outs with
      | some e => .error (e, "")
      | none => .ok (s.onGuest g fun x => { x with ins := ins, outs := outs })
  | .mute g on =>
    let x := s.guest g
    if x.state = .free then .error (40, "")
    else if x.state = .quarantined then .error (51, "")
    else .ok (s.onGuest g fun x => { x with mute := on })
  | .ready ch on =>
    .ok (s.onWeave fun w => { w with plans := w.plans.map fun p => if p.hearth = some ch then { p with hmuted := !on } else p })

/-- One staged event applied; a failure is reported (R97). -/
def applyOne (t : Nat) (e : Event) (s : State) : State :=
  match applyEffect e t s with
  | .ok s' => s'
  | .error (c, _) => deskFail e c s

/-- Whether a delivery of the same round replaces this one: one for a later tally, which is counted (R307), or one whose request
comes later (R300). A delivery that reaches no port replaces none and is replaced by none (R301). -/
def replacedBy (l : List Event) (e : Event) (s : State) : Option Bool :=
  match e.eff with
  | .deliver g port src seq stamp vals =>
    if (delivers g port vals s).isNone then none
    else
    let same (f : Event) : Option (Src × BitVec 16 × Tally) :=
      match f.eff with
      | .deliver g' port' src' seq' stamp' vals' =>
        if g' = g ∧ port' = port ∧ (delivers g' port' vals' s).isSome then some (src', seq', stamp') else none
      | _ => none
    let others := l.filterMap same
    if others.any fun o => decide (stamp < o.2.2) then some true
    else if others.any fun o => o.2.2 == stamp && reqAfter (src, seq) (o.1, o.2.1) then some false
    else none
  | _ => none

/-- The events staged, at most `n` of them on time, and those beyond (R57); an event moved to this tally has its place already. -/
def stageOf (n : Nat) (l : List Event) : List Event × List Event :=
  match l with
  | [] => ([], [])
  | e :: r =>
    if e.late then let (a, b) := stageOf n r; (e :: a, b)
    else match n with
      | 0 => let (a, b) := stageOf 0 r; (a, e :: b)
      | k + 1 => let (a, b) := stageOf k r; (e :: a, b)

/-- The events of tally `t` take effect together, in the order of R53; on-time events beyond 256 are late (R57, R58, R300, R307). -/
def applyTally (t : Nat) (s : State) : State :=
  let due := evSort (s.evq.entries.filter fun e => decide (e.due.toNat ≤ t))
  let s := s.onEvq fun q => { q with entries := q.entries.filter fun e => decide (t < e.due.toNat) }
  let (staged, beyond) := stageOf 256 due
  let s := s.forEach beyond fun e s => handleLate e (t + 1) s
  let s := s.forEach staged fun e s =>
    match replacedBy staged e s with
    | some true => s.onLdr fun l => { l with cSuper := satInc l.cSuper }
    | some false => s
    | none => applyOne t e s
  admitHeld false s

/-! ### Fetch slots given back (R269 to R271) -/

/-- Whether two entries are the same request. -/
def Serve.same (a b : Serve) : Bool := a.src == b.src && a.seq == b.seq && a.stamp == b.stamp && a.req == b.req

/-- A request taken out, its delivery with it. -/
def dropServe (x : Serve) (s : State) : State :=
  s.onLdr fun l => { l with queue := l.queue.filter fun y => !y.same x, serving := l.serving.filter fun y => !y.same x }

/-- A fetch slot given back before its row has come: the deliveries that waited on it miss, and a READ still under way brings its row to
no slot. -/
def releaseSlot (n : Nat) (f : Fetch) (s : State) : State :=
  let gone := s.ldr.serving.filter fun x => x.req.table == f.table && x.wait.contains f.row
  let s := (s.forEach gone dropServe).onLdr fun l => { l with slots := tdel l.slots n, cMiss := satAdd l.cMiss gone.length }
  s.onCch fun c => { c with routes := c.routes.map fun e => (e.1, { e.2 with
    sendq := e.2.sendq.map fun w => if w.larder = some n then { w with larder := some 64 } else w }) }

/-- The fetch slots that a bundle holds given back (R271). -/
def releaseSlots (plan : String) (s : State) : State :=
  s.forEach (s.ldr.slots.filter fun e => e.2.route.isNone && (s.guest e.2.guest).plan == plan) fun e s => releaseSlot e.1 e.2 s

/-! ### Posting an event by command -/

/-- The source and sequence of a command's event (R66, R94, R350). -/
def eventSource (o : Origin) (s : State) : Src × BitVec 16 :=
  match o with
  | .keyword _ seq _ => (.porter, seq)
  | .route r msn => (.route r, msn)
  | _ => (.desk, s.evq.deskSeq)

/-- The Desk's sequence counted on, for a line of a session or of the script (R94). -/
def bumpSeq (o : Origin) (s : State) : State :=
  match o with
  | .keyword .. => s
  | .route .. => s
  | _ => s.onEvq fun q => { q with deskSeq := q.deskSeq + 1 }

/-- The tally a command names (R62, R63, R134); none for `@+n` of a keyword without a tally, which the
line is refused for (log entry 76). -/
def namedTally (c : Ctx) (p : Pfx) (s : State) : Option Nat :=
  match p with
  | .none => some (firstOpen c.cut s)
  | .abs t => some t
  | .plus n => match c.origin with
    | .keyword _ _ t => t.map fun t => t.toNat + n
    | _ => some (s.tly.now.toNat + n)

/-- The place of an error in the check order of Table 3.5, and among the codes of order 8 (R108). -/
def errRank (c : Nat) : Nat :=
  match c with
  | 20 => 50 | 21 => 51 | 14 => 60 | 13 => 70 | 40 => 80 | 41 => 81 | 30 => 82 | 51 => 83
  | 31 => 90 | 32 => 91 | 33 => 92 | 60 => 93 | 61 => 94 | _ => 100

/-- The error that comes first in check order (R108). -/
def firstErr (l : List (Nat × String)) : Option (Nat × String) :=
  l.foldl (fun b e => match b with | none => some e | some x => if errRank e.1 < errRank x.1 then some e else some x) none

/-- An event command accepted: its tally checked (R64, R65), its effect checked against the present state where `check` is set, with
what the command's own chapter finds wrong (`more`), posted, and answered with its tally and sequence (R95). -/
def postChecked (check : Bool) (c : Ctx) (p : Pfx) (eff : Effect) (s : State) (more : List (Nat × String) := []) : Res :=
  let (src, seq) := eventSource c.origin s
  let ev (t : Tally) : Event := { src := src, seq := seq, stamp := t, due := t, late := false, by_ := some c.origin, eff := eff, bare := p == .none }
  let badPlus := match p with | .plus 0 => true | _ => false
  if badPlus then .err 13 "" s
  else if s.on 3 = false then
    if p ≠ .none then .err 40 "" s
    else match firstErr more, applyEffect (ev 0) 0 s with
      | some (e, k), _ => .err e k (bumpSeq c.origin s)
      | none, .ok s' => .ok [kv "t" "none" ++ " " ++ kv "seq" (hexS 4 seq.toNat)] (bumpSeq c.origin s')
      | none, .error (e, k) => .err e k (bumpSeq c.origin s)
  else match namedTally c p s with
    | none => .err 40 "" s
    | some t =>
      let lateNow := !onTime t c.cut s && rejectsLate src s
      let dry := match applyEffect (ev (BitVec.ofNat 64 t)) t s with | .error e => if check then e :: more else more | .ok _ => more
      let full := if (src == .desk) && shareFull src s then [(30, "")] else []
      if s.tly.now.toNat + 2147483647 < t ∨ 2 ^ 64 ≤ t then .err 13 "" s
      else match firstErr (dry ++ (if lateNow then [(40, "")] else []) ++ full) with
        | some (e, k) =>
          if lateNow && e == 40 && dry.isEmpty then .err 40 "" (rejectEv (ev (BitVec.ofNat 64 t)) (bumpSeq c.origin s))
          else .err e k s
        | none =>
          .ok [kv "t" (tallyS t) ++ " " ++ kv "seq" (hexS 4 seq.toNat)]
            (enqueue (ev (BitVec.ofNat 64 t)) c.cut (bumpSeq c.origin s))

/-- An event command whose effect is checked at acceptance. -/
def postEvent (c : Ctx) (p : Pfx) (eff : Effect) (s : State) : Res := postChecked true c p eff s

/-- An event of a source inside the part, for the first tally whose cut-off has not passed. -/
def postInner (src : Src) (seq : BitVec 16) (cut : Bool) (eff : Effect) (s : State) : State :=
  let t : Tally := BitVec.ofNat 64 (firstOpen cut s)
  enqueue { src := src, seq := seq, stamp := t, due := t, late := false, by_ := none, eff := eff } cut s

/-- Whether rounds run: PD10 is on, CORE has its clock and is not stopped (R685, R617). -/
def roundsRun (s : State) : Bool := s.on 10 && s.clk.stat.getLsbD 2 && !s.pwr.coreStop

/-- Where rounds stop between a tally edge and its round, the events of that tally take effect under the Steward (R685). -/
def takeLeft (s : State) : State := if s.on 3 && !roundsRun s then applyTally s.tly.now.toNat s else s

end Sys2Proof.Machine
end

