-- ==== Sys2Proof/Machine/PowerBase.lean ====
section
/-! DEFINITION. DVFS points and their caps (R592 to R597), the voltage target (R599), and Loadcast (R606 to R613). -/

namespace Sys2Proof.Machine

/-! ### Points -/

/-- CORE frequency of a point, MHz (Table 14.5). -/
def pointMHz (p : Nat) : Nat := match p with | 0 => 1500 | 1 => 1400 | 2 => 1300 | 3 => 1200 | 4 => 1000 | _ => 800

/-- V_point, mV (Table 14.5). -/
def pointV (p : Nat) : Nat := match p with | 0 => 780 | 1 => 750 | 2 => 720 | 3 => 700 | 4 => 660 | _ => 620

/-- Forecast current of one active stake, 0.1 A (Table 14.5). -/
def pointI (p : Nat) : Nat := match p with | 0 => 36 | 1 => 32 | 2 => 29 | 3 => 26 | 4 => 20 | _ => 15

/-- The point the part should run at: the lowest of the set point and the caps, and no point above P4 before the first
acknowledged Voltage write (R593, R597). -/
def PwrSt.goalPoint (p : PwrSt) : Nat :=
  let l := max p.set.toNat (max (max p.capA.toNat p.capV.toNat) (max p.capC.toNat p.capT.toNat))
  if p.acked then l else max l 4

/-- The target a change to a point starts from (R599). -/
def PwrSt.startV (p : PwrSt) (pt : Nat) : Nat := pointV pt + (if p.remote then p.offset.toNat else p.guard.toNat)

/-- After a change of the set point, of a cap or of the first acknowledgement: a raise begins by writing its target; one that is
no longer wanted ends, and the target of the present point is written again (R595). -/
def PwrSt.settlePoint (p : PwrSt) : PwrSt :=
  let g := p.goalPoint
  if g < p.eff.toNat then
    if p.raiseTo = some g then p else { p with raiseTo := some g, raiseOk := false, raiseAnn := false, wtgt := p.startV g }
  else if p.raiseTo.isSome then { p with raiseTo := none, raiseOk := false, raiseAnn := false, wtgt := p.startV p.eff.toNat }
  else p

def settlePoint (s : State) : State := s.onPwr PwrSt.settlePoint

/-- The actions on the point at a round start (R594, R595, R609, R619): a lower point takes effect and then its target is
written; a raise takes effect once its voltage stands and its code has been announced; a sensing mode that waits takes over. -/
def roundPoint (s : State) : State :=
  let p := s.pwr
  let g := p.goalPoint
  let s :=
    if p.eff.toNat < g then
      (s.onPwr fun p => { p with
        eff := BitVec.ofNat 3 g, wtgt := p.startV g, raiseTo := none, raiseOk := false, raiseAnn := false }).onClk
        fun c => { c with freq := BitVec.ofNat 16 (pointMHz g) }
    else if p.raiseTo = some g ∧ p.raiseOk ∧ p.raiseAnn then
      (s.onPwr fun p => { p with eff := BitVec.ofNat 3 g, raiseTo := none, raiseOk := false, raiseAnn := false }).onClk
        fun c => { c with freq := BitVec.ofNat 16 (pointMHz g) }
    else s
  match s.pwr.remoteN with
  | some m => s.onPwr fun p =>
      let p := { p with remote := m, remoteN := none }
      { p with wtgt := p.startV p.eff.toNat }
  | none => s

/-! ### Loadcast -/

/-- The code whose bound is the smallest at or above a current in 0.1 A (Table 14.6). -/
def lcCode (a : Nat) : Nat :=
  if a ≤ 150 then 0 else if a ≤ 400 then 1 else if a ≤ 650 then 2 else if a ≤ 900 then 3
  else if a ≤ 1150 then 4 else if a ≤ 1400 then 5 else if a ≤ 1650 then 6 else 7

/-- A code set on LOADCAST; a change is strobed while the pins are driven (R608, R612). -/
def strobe (code fcast : Nat) (s : State) : State :=
  s.onPwr fun p => { p with
    fcast := satOf 16 fcast, lc := BitVec.ofNat 3 code
    cStb := if p.lcen ∧ p.lc ≠ BitVec.ofNat 3 code then satInc p.cStb else p.cStb }

/-- Stakes on which some row holds a row time in round `n` (R207, R607). -/
def activeStakes (n : Nat) (s : State) : Nat :=
  (s.weave.plans.map fun p =>
    if (planRows s p).any fun r => decide (n % max 1 r.1 = r.2) then
      ((List.range p.stakes).filter fun j => !(layersOn p j).isEmpty).length
    else 0).sum

/-- The point counted in a forecast: a raise that is on its way counts already (R609, R610). -/
def PwrSt.fcastPoint (p : PwrSt) : Nat := match p.raiseTo with | some g => min g p.eff.toNat | none => p.eff.toNat

/-- The forecast for round `n` in 0.1 A (R607). -/
def forecast (n : Nat) (s : State) : Nat :=
  (if s.on 10 then 120 else 40) + activeStakes n s * pointI s.pwr.fcastPoint + (if s.pwr.ramping.isSome then 80 else 0)

/-- The forecast for round `n` computed and set (R608). -/
def setForecast (n : Nat) (s : State) : State :=
  let f := forecast n s
  (strobe (lcCode f) f s).onPwr fun p => { p with raiseAnn := p.raiseTo.isSome }

/-- The code of a part that runs no rounds (R612, R613): the forecast while a move between LOBBY and FULL is under way, 0 otherwise. -/
def idleLoadcast (s : State) : State :=
  if s.pwr.house = .full ∨ s.pwr.goal = some .full then setForecast (s.tly.now.toNat + 1) s
  else (strobe 0 0 s).onPwr fun p => { p with fcast := 0 }

end Sys2Proof.Machine
end

