-- ==== Sys2Proof/Machine/Weave.lean ====
section
/-! DEFINITION. The weave engine's rounds: the start of a round (R58, R194, R204 to R210, R254, R663 to R666), its jobs (R195 to
R200), overruns, stake faults (R190), and the records of boundary hops (R393 to R403). -/

namespace Sys2Proof.Machine

/-- Layers of a plan on every chip are numbered from 1; `idxOf` is a layer's place among those this chip carries. -/
def idxOf (p : Plan) (layer : Nat) : Nat := layer - p.body.first

/-- Whether round `n` gives a row a step (R197). -/
def isRowRound (x : Guest) (n : Nat) : Bool := x.inRounds && decide (x.c ≤ n) && (n % max 1 x.div == x.phase)

/-- A guest's plan, when it is loaded. -/
def planOf (s : State) (x : Guest) : Option Plan := s.plan? x.plan

/-- Layers of a guest's plan, over every chip. -/
def layersOf (s : State) (x : Guest) : Nat := match planOf s x with | some p => p.nLayers | none => 0

/-- Whether a guest is muted by an event: `aud.mute`, or its bundle by its Hearth channel (R278, R280, R423). -/
def eventMuted (s : State) (x : Guest) : Bool := x.mute || (match planOf s x with | some p => planMuted s p | none => false)

/-- A result pushed into a guest's output FIFO (R20, R198). -/
def pushResult (g : Nat) (vals : List W32) (mute : Bool) (s : State) : State :=
  let m := eventMuted s (s.guest g)
  s.onGuest g fun x => { x with fifo := x.fifo ++ [⟨2, vals, mute, m⟩] }

/-! ### Boundary records -/

/-- A boundary record (R393). -/
def hopRecord (h : Hop) (row : Nat) (code : StepCode) (mute : Bool) (f : Nat) (v : List Nat × Int) : List Byte :=
  let l := [BitVec.ofNat 8 (codeBits code + if mute then 4 else 0), BitVec.ofNat 8 (toCode 8 v.2), BitVec.ofNat 8 row, 0, 0, 0, 0, 0] ++
    vecBytes f v.1
  l ++ List.replicate (h.def_.size - l.length) 0

/-- The record of one row posted as a WRITE_IMM for round n + 1 (R397). A route that is not OPEN, or has no send entry, takes no
record. -/
def postRecord (p : Plan) (h : Hop) (n row : Nat) (bytes : List Byte) (s : State) : State :=
  match h.route with
  | some r =>
    let x := s.route r
    let w : Waybill := {
      wid := 0, op := 1, flags := 0, aop := 0, rsvd := 0, laddr := 0, len := bytes.length, rkey := h.key.getD 0
      roff := (n + 1) % 2 * p.rows * h.def_.size + row * h.def_.size, imm := BitVec.ofNat 32 (n + 1), tagw := 0, wroute := 0
      wcount := 0, tally := 0, hop := true, data := some bytes }
    if x.state == .opened && postRoom r w s then postWaybill r w s else s
  | none => s

/-- The outgoing hops of a plan from the layer at index `i`. -/
def hopsFrom (p : Plan) (i : Nat) : List Hop := p.hops.filter fun h => h.def_.pchip == p.chip && idxOf p h.def_.src == i

/-- The records of one row's layer for the round, one for each hop that starts there. -/
def postRecords (p : Plan) (i n g : Nat) (code : StepCode) (mute : Bool) (s : State) : State :=
  let x := s.guest g
  match p.body.layers[i]?, x.layers[i]? with
  | some ly, some l => s.forEach (hopsFrom p i) fun h s => postRecord p h n x.row (hopRecord h x.row code mute ly.outfmt l.newest) s
  | _, _ => s

/-- The vector a record carries, with its exponent; a byte below the range of R164 stands for −126 (log entry 77). -/
def recordVec (ly : Layer) (bytes : List Byte) (elems : Nat) : Vec :=
  ⟨bytesVec ly.infmt elems (bytes.drop 8), ly.infmt, ly.inz, max (-126) (sext 8 ((bytes.getD 1 0).toNat))⟩

/-- `!plan.hoplate`, at most once a second for each hop (R401). -/
def noteHop (p : Plan) (h : Hop) (n : Nat) (s : State) : State :=
  let due := match h.noted with | some t => decide (t + s.fs ≤ n) | none => true
  if due then
    (notify "plan" ("hoplate " ++ kn "hop" h.def_.hop) s).onPlan p.name fun q => { q with
      hops := q.hops.map fun k => if k.def_.hop = h.def_.hop then { k with noted := some n } else k }
  else s

/-- The code and the MUTE mark of the step at position `k` of a row. -/
def markStep (g k : Nat) (f : StepRec → StepRec) (s : State) : State := s.onGuest g fun x => { x with steps := lmod x.steps k f }

/-- What the layer at the end of an incoming hop takes for one row in round `n`: its record, or the late policy (R401 to R403). -/
def hopTake (n : Nat) (p : Plan) (h : Hop) (g : Nat) (s : State) : State :=
  let x := s.guest g
  let k := h.def_.dst
  match x.steps[k]? with
  | none => s
  | some _ =>
    let own := p.body.first = 1
    let setPrev (bs : List Byte) (s : State) : State := s.onPlan p.name fun q => { q with
      hops := q.hops.map fun j => if j.def_.hop = h.def_.hop then
        { j with prev := (j.prev.filter fun e => e.1 != x.row) ++ [(x.row, bs)] } else j }
    let follow (c : StepCode) (m : Bool) (s : State) : State := markStep g k (fun e => { e with
        code := if own || e.code != .run then e.code else c, mute := e.mute || m }) s
    let old := (h.prev.find? fun e => e.1 == x.row).map (·.2)
    let head := (old.bind List.head?).getD 0
    match h.recs.find? fun e => e == (n, x.row) with
    | some _ =>
      let bs := h.buf.readN (n % 2 * p.rows * h.def_.size + x.row * h.def_.size) h.def_.size
      let b := (bs.getD 0 0).toNat
      follow (bitsCode b) (b / 4 % 2 == 1) (setPrev bs s)
    | none =>
      let s := noteHop p h n s
      let c := if bitsCode head.toNat == .hold then StepCode.hold else .run
      match h.late with
      | .hold => follow c false s
      | .zero => follow c false (setPrev (head :: List.replicate (h.def_.size - 1) 0) s)
      | .mute => markStep g k (fun e => { e with code := .hold, mute := true }) s

/-! ### The start of a round -/

/-- The overruns of the round that ended recorded (R262). -/
def recordRound (s : State) : State :=
  let a := s.weave.abandoned
  let s := s.onInn fun i => { i with overruns := ((!a.isEmpty) :: i.overruns).take 16, lastAband := if a.isEmpty then i.lastAband else a }
  s.onWeave fun w => { w with abandoned := [] }

/-- A shed by overruns, when one is due (R262, R264, R664). -/
def shedDue (s : State) : State :=
  let i := s.inn
  if i.enable && decide (i.ovrn.toNat ≤ (i.overruns.filter id).length) && !i.lastAband.isEmpty then
    let cands := (i.lastAband.map fun g => (g, s.guest g)).filter fun e => e.2.inRounds
    (shedOne cands false s).onInn fun i => { i with overruns := [] }
  else s

/-- A thermal shed that is due, from all staying guests (R263, R265). -/
def shedHot (s : State) : State :=
  if s.inn.hotShed then
    (shedOne (s.inn.guests.filter fun e => e.2.state == .staying) true s).onInn fun i => { i with hotShed := false }
  else s

/-- The fallback moves that are due (R180). -/
def fallbackMoves (s : State) : State :=
  let due := (s.weave.plans.map fun p => ((List.range p.sets.length).filter fun i =>
    match p.sets[i]? with | some st => st.pendMove | none => false).map fun i => (p, i)).flatten
  s.forEach due fun e s =>
    match e.1.body.layers[e.2]? with
    | some ly =>
      let s := s.onPlan e.1.name fun q => { q with sets := lmod q.sets e.2 fun st => { st with switched := true, pendMove := false } }
      let s := match s.plan? e.1.name with
        | some p => applyScale p e.2 (some .adapt) none none none s
        | none => s
      let slot := ((layersOn e.1 ly.stake).findIdx? fun x => x.1 == e.2).getD 0
      logEv 6 0x0102 0 (e.1.base + ly.stake) slot s
    | none => s

/-- The conditioning halves swapped (R194, R223). -/
def swapHalves (s : State) : State :=
  s.onInn fun i => { i with guests := i.guests.map fun e => if e.2.inRounds then (e.1, { e.2 with ports := e.2.portsN }) else e }

/-- A return whose swap-in has not ended by its second round is late: its steps hold (R254). -/
def lateReturns (n : Nat) (s : State) : State :=
  let late := s.inn.guests.filter fun e => e.2.inRounds && e.2.swapping && decide (e.2.c < n)
  s.forEach (late.map (·.1)) fun g s =>
    let s := if (s.guest g).lates then s else s.onInn fun i => { i with cSwap := satInc i.cSwap }
    s.onGuest g fun x => { x with lates := true, steps := x.steps.map fun r => { r with code := .hold } }

/-- The rows whose END step has passed layer L (R208). -/
def releasePassed (s : State) : State :=
  let l := s.inn.guests.filter fun e => e.2.inRounds &&
    (match e.2.steps[layersOf s e.2]? with | some r => r.code == .stop | none => false)
  s.forEach (l.map (·.1)) releaseRow

/-- The step that enters a row's diagonal in round `n` (R192, R204). -/
def enterStep (n l : Nat) (x : Guest) : Guest :=
  let hold : Bool := x.swapping && decide (x.c < n)
  let code : StepCode := if x.ended || hold then .hold else x.code
  let r : StepRec := ⟨(n - x.c) / max 1 x.div, code, x.ended, List.replicate x.nin 0⟩
  let passed := ((r :: x.steps).drop (l + 2)).filter fun r => r.code != .hold
  { x with
    steps := (r :: x.steps).take (l + 2), hist := (passed.map (·.ins) ++ x.hist).take (l + 1)
    ended := x.ended || code == .stop
    code := if code == .reset then .run else x.code
    layers := x.layers.map fun y => { y with rptr := y.ptr } }

/-- Steps entered for every row the round gives one. -/
def enterSteps (n : Nat) (s : State) : State :=
  let rows := s.inn.guests.filter fun e => isRowRound e.2 n
  s.forEach (rows.map (·.1)) fun g s => s.onGuest g fun x => enterStep n (layersOf s x) x

/-- Every incoming hop's records taken for the round. -/
def takeHops (n : Nat) (s : State) : State :=
  let l := (s.weave.plans.map fun p => (p.hops.filter fun h => h.def_.cchip == p.chip).map fun h => (p, h)).flatten
  let s := s.forEach l fun e s =>
    s.forEach ((s.rowsOf e.1.name Guest.inRounds).filter fun x => isRowRound x.2 n) fun x s => hopTake n e.1 e.2 x.1 s
  let s := s.onCch fun c => { c with sealed := c.sealed.filter fun m => decide (n ≤ m) }
  s.onWeave fun w => { w with plans := w.plans.map fun p => { p with
    hops := p.hops.map fun h => { h with recs := h.recs.filter fun e => decide (n < e.1) } } }

/-- Whether a layer runs a row in this round: the row has reached it, and the step there is not HOLD (R207). -/
def runsRow (x : Guest) (layer : Nat) : Bool := match x.steps[layer]? with | some r => r.code != .hold | none => false

/-- The rows of a plan that the round gives a step, in ascending row index. -/
def roundRows (n : Nat) (p : Plan) (s : State) : List (Nat × Guest) :=
  let l := (s.rowsOf p.name Guest.inRounds).filter fun e => isRowRound e.2 n
  ((List.range p.rows).map fun r => l.filter fun e => e.2.row == r).flatten

/-- The jobs of one plan for the round: stake, slot and row of each. -/
def planJobs (n : Nat) (p : Plan) (s : State) : List (Nat × Nat × Nat) :=
  let rows := roundRows n p s
  ((List.range p.stakes).map fun j =>
    let ls := layersOn p j
    (((List.range ls.length).zip ls).map fun e =>
      (rows.filter fun x => runsRow x.2 (p.body.first + e.2.1)).map fun x => (p.base + j, e.1, x.2.row)).flatten).flatten

/-- What idle rows do in the round: a held row's last output enters its FIFO again (R206), and an idle row at a hop's source
posts its held output with code HOLD, MUTE while the row has not been reached (R397, R666). -/
def idleRow (n : Nat) (p : Plan) (g : Nat) (s : State) : State :=
  let x := s.guest g
  let s := match x.steps[p.nLayers]?, p.body.layers[idxOf p p.nLayers]?, x.layers[idxOf p p.nLayers]? with
    | some r, some ly, some l =>
      if r.code == StepCode.hold then
        let (vals, clips) := outQ23 ly x.nout l.current
        (pushResult g vals r.mute s).onGuest g fun x => { x with clip := satAdd x.clip clips }
      else s
    | _, _, _ => s
  s.forEach (List.range p.body.layers.length) fun i s =>
    match x.steps[p.body.first + i]? with
    | some r => if r.code == StepCode.hold then postRecords p i n g .hold r.mute s else s
    | none => postRecords p i n g .hold true s

/-- The costs of the round on a plan's stakes; a stake without rounds costs nothing (Table 5.11). -/
def noteCosts (n : Nat) (p : Plan) (s : State) : State :=
  s.forEach (List.range p.stakes) fun j s =>
    let c : BitVec 16 := satOf 16 (stakeCost p (planRows s p) j (n % 4) p.body.layers.length)
    s.onStake (p.base + j) fun k => { k with last := c, peak := if k.peak < c then c else k.peak }

/-- Jobs that did not complete are abandoned (R200). -/
def abandonRest (s : State) : State :=
  let l := s.weave.todo
  let s := s.forEach l fun e s =>
    let s := s.onStake e.1 fun k => { k with ovr := satInc k.ovr }
    match (s.planAt e.1).bind fun p => s.guestOfRow p.name e.2.2 with
    | some (g, _) => s.onWeave fun w => { w with abandoned := if w.abandoned.contains g then w.abandoned else w.abandoned ++ [g] }
    | none => s
  s.onWeave fun w => { w with todo := [] }

/-- The start of round `n` (R58, R194, R663). -/
def startRound (n : Nat) (s : State) : State :=
  let s := recordRound (abandonRest (endCheckinZeroing s))
  let s := releasePassed s
  let s := roundPoint s
  let s := takeQuarantines s
  let s := shedHot (shedDue s)
  let s := fallbackMoves s
  let s := applyTally n s
  let s := swapHalves s
  let s := lateReturns n s
  let s := enterSteps n s
  let s := takeHops n s
  let s := s.onInn fun i => { i with round := BitVec.ofNat 32 n }
  let ps := s.weave.plans.filter fun p => !p.quar
  let s := s.onWeave fun w => { w with stakes := w.stakes.map fun e => (e.1, { e.2 with last := 0 }) }
  let s := s.forEach ps fun p s => noteCosts n p s
  let s := s.forEach ps fun p s => s.forEach ((roundRows n p s).map (·.1)) fun g s => idleRow n p g s
  let jobs := (ps.map fun p => planJobs n p s).flatten
  let s := s.onWeave fun w => { w with todo := jobs, undo := [], round := true }
  setForecast (n + 1) (settlePorts s)

/-- ROUND_START. No round starts while none runs (R685, R617). -/
def execRoundStart (s : State) : Host.Outcome State Fault Refusal :=
  .next (if roundsRun s then startRound s.tly.now.toNat s else s)

/-! ### Jobs -/

/-- A Q23 container as F32 (R149, R221). -/
def q23F32 (w : W32) : F32 := roundX (fmtVal 5 0 w.toNat)

/-- The first input vector of a layer in a round: the audio, a boundary record, or the previous layer's current output (R193), with
whether an element of the audio clipped as it was converted, and how many were NaN (R159, R221). -/
def firstInput (p : Plan) (i : Nat) (x : Guest) (ins : List W32) : Vec × Bool × Nat :=
  match p.body.layers[i]? with
  | none => (⟨[], 0, 0, 0⟩, false, 0)
  | some ly =>
    match p.hops.find? fun h => h.def_.cchip == p.chip && idxOf p h.def_.dst == i with
    | some h =>
      let bs := ((h.prev.find? fun e => e.1 == x.row).map (·.2)).getD []
      (recordVec ly bs ly.fromPrev, false, 0)
    | none =>
      if p.body.first + i = 1 then
        if ly.audioMat then
          let (v, clip, nans) := convVec ly.infmt ly.inz p.body.ein (ins.map fun w => fmtVal 5 0 w.toNat)
          (⟨v, ly.infmt, ly.inz, 0⟩, clip, nans)
        else (⟨[], ly.infmt, ly.inz, 0⟩, false, 0)
      else match p.body.layers[i - 1]?, x.layers[i - 1]? with
        | some q, some l => (⟨l.current.1, q.outfmt, q.outz, l.current.2⟩, false, 0)
        | _, _ => (⟨[], ly.infmt, ly.inz, 0⟩, false, 0)

/-- The MATRIX conditioning vectors of a layer (R222). -/
def matConds (p : Plan) (ly : Layer) (x : Guest) : List Vec :=
  ly.matPorts.map fun e => match p.body.ports[e.1]? with
    | some d => ⟨tgetD x.ports e.1 d.dflt, d.fmt, d.zp, 0⟩
    | none => ⟨[], ly.infmt, ly.inz, 0⟩

/-- The WALE conditioning vectors of a layer (R222). -/
def walConds (ly : Layer) (x : Guest) : List (List W32) :=
  ly.walPorts.map fun k => (tgetD x.ports k []).map (BitVec.ofNat 32)

/-- DRIFT raised by the first clipped step of a layer that does not adapt (R179 to R181). -/
def raiseDrift (p : Plan) (i stake slot : Nat) (ly : Layer) (s : State) : State :=
  match p.sets[i]? with
  | some st =>
    if st.mode == .adapt || st.drift then s
    else
      let s := s.onPlan p.name fun q => { q with
        sets := lmod q.sets i fun st => { st with drift := true, pendMove := ly.fallback.isSome } }
      let s := notify "stk" ("drift " ++ kn "k" stake ++ " " ++ kn "slot" slot ++ " " ++ kn "layer" (p.body.first + i) ++ " " ++
        kv "plan" p.name) s
      logEv 6 0x0101 0 stake slot s
  | none => s

/-- What follows a completed job: the result of layer L (R20, R224), the row's records (R397), and its release (R208). -/
def afterJob (p : Plan) (i g : Nat) (r : StepRec) (s : State) : State :=
  let x := s.guest g
  let n := s.inn.round.toNat
  let s := match p.body.layers[i]?, x.layers[i]? with
    | some ly, some l =>
      if p.body.first + i = p.nLayers then
        let (vals, clips) := outQ23 ly x.nout l.newest
        (pushResult g vals r.mute s).onGuest g fun x => { x with clip := satAdd x.clip clips }
      else s
    | _, _ => s
  let s := postRecords p i n g r.code r.mute s
  if p.body.first + i = p.nLayers ∧ r.code = .stop then releaseRow g s else s

/-- One row's job on a stake completes (R195). A step in which an element of its inputs or of its results clips adds one to CLIPSTEP
(R159, R177); DRIFT comes from a result that clips (R179, log entry 77). -/
def completeJob (stake slot row : Nat) (s : State) : State :=
  match s.planAt stake with
  | none => s
  | some p =>
    match (layersOn p (stake - p.base))[slot]?, s.guestOfRow p.name row with
    | some (i, ly), some (g, x) =>
      match x.steps[p.body.first + i]?, x.layers[i]?, p.sets[i]? with
      | some r, some l, some st =>
        let (v, vclip, vnans) := firstInput p i x r.ins
        let o := rowJob ly st x.prec (r.code == .reset) v (matConds p ly x) (walConds ly x) (r.ins.map q23F32) p.body.tables l
        let s := s.onGuest g fun x => { x with layers := x.layers.set i o.row }
        let s := s.onWeave fun w => { w with undo := (stake, slot, g, l) :: w.undo }
        let clips := o.clip || o.inClip || vclip
        let s := s.onStake stake fun k => { k with clip := if clips then satInc k.clip else k.clip, nan := satAdd k.nan (o.nans + vnans) }
        let s := if o.clip then raiseDrift p i stake slot ly s else s
        afterJob p i g r s
      | _, _, _ => s
    | _, _ => s

/-- ROW_JOB_COMPLETE of the row whose job a stake is running: a stake runs its jobs in slot order and the rows of each in ascending row
index (R194). `sec` single-bit errors were corrected in the store (R190, R195). -/
def execRowJobComplete (stake slot row sec : Nat) (s : State) : Host.Outcome State Fault Refusal :=
  .next (if (s.weave.todo.find? fun e => e.1 == stake) = some (stake, slot, row) then
      let s := s.onWeave fun w => { w with todo := w.todo.filter fun e => e != (stake, slot, row) }
      settlePorts (completeJob stake slot row (s.onStake stake fun k => { k with sec := satAdd k.sec sec }))
    else s)

/-- ROW_ABANDON: the rows not complete 180 ns before the next edge (R200). -/
def execRowAbandon (s : State) : Host.Outcome State Fault Refusal := .next (settlePorts (abandonRest s))

/-- A job complete in this round taken back (R190): the layer's record is the one before, and a result of layer L leaves the output FIFO. A
boundary record that it has posted stands (log entry 85). -/
def undoJob (p : Plan) (i g : Nat) (old : LayerRow) (s : State) : State :=
  if (s.guest g).inRounds then
    s.onGuest g fun x => { x with
      layers := x.layers.set i old
      fifo := if p.body.first + i = p.nLayers ∧ (x.fifo.getLast?.any fun r => r.due == 2) then x.fifo.dropLast else x.fifo }
  else s

/-- The rows of a stake's job that are complete in this round taken back. -/
def undoJobs (stake slot : Nat) (p : Plan) (s : State) : State :=
  match (layersOn p (stake - p.base))[slot]? with
  | some (i, _) =>
    let l := s.weave.undo.filter fun e => e.1 == stake && e.2.1 == slot
    s.forEach l fun e s => undoJob p i e.2.2.1 e.2.2.2 s
  | none => s

/-- STAKE_DOUBLE_BIT_ERROR (R190, R271, R272): every row of the job stays unfinished for the round, those it has completed among them; the
bank ports and fetch slots leased to the bundle are released at once, and it is quarantined at the next round start. -/
def execStakeDoubleBitError (stake slot : Nat) (s : State) : Host.Outcome State Fault Refusal :=
  .next (if s.on (12 + stake / 12) && decide (stake < 48) then
      let s := s.onStake stake fun k => { k with fault := true, ded := satInc k.ded }
      let s := s.onWeave fun w => { w with todo := w.todo.filter fun e => !(e.1 == stake && e.2.1 == slot) }
      let s := notify "stk" ("fault " ++ kn "k" stake) s
      let s := logEv 6 0x0201 0 stake 0 s
      match s.planAt stake with
      | some p => settlePorts (releaseSlots p.name (pendBundle p.name 1 (undoJobs stake slot p s)))
      | none => s
    else s)

end Sys2Proof.Machine
end

