-- ==== Sys2Proof/Machine/Audio.lean ====
section
/-! DEFINITION. The frame edge: the tally's advance (R37, R50, R61), the samples that complete and are sent (R408, R414, R420 to
R424), AES67 flows (R425 to R430), and the events of tallies without a round (R685). -/

namespace Sys2Proof.Machine

/-! ### Sources -/

/-- Whether the USB OUT interface carries samples (R424, R438, R439). -/
def usbOutOn (s : State) : Bool :=
  usbAudio s && s.usb.vbus && !s.usb.inReset && s.usb.altOut != 0 && s.usb.state == .configured

/-- Whether a port is locked: a master is while it is enabled (R413, R424; log entry 17). -/
def TdmPort.locked (p : TdmPort) : Bool := p.en && (p.lock || p.master)

/-- Whether a source is lost (R424). -/
def srcLost (s : State) (code : Nat) : Bool :=
  if 0x20 ≤ code ∧ code < 0x30 then !usbOutOn s
  else if 0x40 ≤ code ∧ code < 0x80 then
    !(s.aud.ports.getD (code / 16 % 4) {}).locked
  else if 0x80 ≤ code then (s.aud.rx.getD (code / 16 % 8) {}).state != .run
  else false

/-- Divisor of a flow (Table 10.4). -/
def flowDiv (s : State) (f : Flow) : Nat := s.fs / (if f.rate96 then 96000 else 48000)

/-- Samples per packet, P = PTIME × RATE (Table 10.4). -/
def flowP (f : Flow) : Nat :=
  (if f.rate96 then 2 else 1) * (match f.ptime.toNat with | 0 => 6 | 1 => 12 | _ => 48)

/-- Whether the base rate serves a flow (R425). -/
def flowRateOk (s : State) (f : Flow) : Bool :=
  (s.tly.rate == 1 || s.tly.rate == 3 || s.tly.rate == 5) && (flowDiv s f == 1 || flowDiv s f == 2 || flowDiv s f == 4)

/-- The RTP timestamp of frame `t` (R426). -/
def flowTs (s : State) (f : Flow) (t : Nat) : Nat := wrap (t / max 1 (flowDiv s f) + f.tsoff.toNat) (2 ^ 32)

/-- The samples a running receive flow presents for the frame that edge `e` ends (R428, R429). -/
def flowIns (s : State) (k e : Nat) : List (Nat × W32) :=
  let f := s.aud.rx.getD k {}
  let d := max 1 (flowDiv s f)
  if (f.state == .run || f.state == .lost) && e % d == 0 && decide (d ≤ e) then
    let m := wrap (flowTs s f (e - d) + 2 ^ 32 - f.playout.toNat) (2 ^ 32)
    match f.jitter.find? fun j => j.1 == m with
    | some (_, l) => ((List.range f.ch).zip l).map fun c => (0x80 + 16 * k + c.1, c.2)
    | none => []
  else []

/-- A flow's jitter buffer without the samples that edge `e` has presented. -/
def dropPlayed (s : State) (k e : Nat) (f : Flow) : Flow :=
  let _ := k
  let d := max 1 (flowDiv s f)
  if e % d == 0 && decide (d ≤ e) then
    let m := wrap (flowTs s f (e - d) + 2 ^ 32 - f.playout.toNat) (2 ^ 32)
    { f with jitter := f.jitter.filter fun j => j.1 != m }
  else f

/-- The sample of a source in the frame that ended; a source that is lost or absent reads 0. -/
def sampleOf (s : State) (code : Nat) : W32 :=
  if code = 0 ∨ srcLost s code then 0 else ((s.aud.inNow.find? fun e => e.1 == code).map (·.2)).getD 0

/-! ### The tally -/

/-- An event of a skipped tally is late, and so is a request that waits for its rows (R61). -/
def lateSkipped (n m : Nat) (s : State) : State :=
  let l := evSort (s.evq.entries.filter fun e => decide (n < e.due.toNat) && decide (e.due.toNat < m))
  let s := s.onEvq fun q => { q with entries := q.entries.filter fun e => !(decide (n < e.due.toNat) && decide (e.due.toNat < m)) }
  let s := s.forEach l fun e s => handleLate e (m + 1) s
  let named (x : Serve) : Bool := decide (n < x.stamp.toNat) && decide (x.stamp.toNat < m)
  let gone := (s.ldr.queue ++ s.ldr.serving).filter fun x => named x && rejectsLate x.src s
  let moved := (s.ldr.queue ++ s.ldr.serving).filter fun x => named x && !rejectsLate x.src s
  let keep (l : List Serve) : List Serve := l.filterMap fun x =>
    if named x then (if rejectsLate x.src s then none else some { x with stamp := BitVec.ofNat 64 (m + 1) }) else some x
  let s := s.onLdr fun d => { d with queue := keep d.queue, serving := keep d.serving }
  let s := s.forEach gone fun x s => rejectEv (serveEvent x) s
  s.forEach moved fun x s => countLate (serveEvent x) (m + 1) s

/-- The tally advances by one, or skips (R37, R50); the source's count advances by one with each frame edge (R42). -/
def advanceTally (s : State) : State :=
  let n := s.tly.now.toNat
  let k := s.tly.skipNext
  if k = 0 then s.onTly fun t => { t with now := t.now + 1, target := t.target.map (· + 1) }
  else
    let m := n + 1 + k
    let s := s.onTly fun t => { t with
      target := t.target.map (· + 1), now := BitVec.ofNat 64 m, skip := t.skip + BitVec.ofNat 64 k, skipNext := 0, skipped := t.skipped ++ [(n + 1, n + k)] }
    let s := logAt (BitVec.ofNat 64 n) false 8 0x0101 0 m 0 s
    lateSkipped n m s

/-- Frame edges of the present holdover (R75). -/
def countHoldover (s : State) : State :=
  s.onTly fun t => if t.state == .holdover || (t.state == .ahead && t.lost) then { t with holdEdges := t.holdEdges + 1 } else t

/-! ### Inputs -/

/-- The samples that complete at an edge: those of the ports, of the AES67 flows, and the oldest of the USB FIFO (R414, R428,
R434). -/
def takeInputs (ins : List (Nat × W32)) (s : State) : State :=
  let e := s.tly.now.toNat
  let tdm := ins.filter fun x => decide (0x40 ≤ x.1) && decide (x.1 < 0x80)
  let aes := ((List.range 8).map fun k => flowIns s k e).flatten
  let usbNow := e % usbDiv s == 0
  let usb := if usbNow then (s.usb.fifoIn.headD []) else []
  let us : List (Nat × W32) := ((List.range usb.length).zip usb).map fun c => (0x20 + c.1, c.2)
  let starved := usbNow && s.usb.fifoIn.isEmpty && usbOutOn s
  let s := s.onAud fun a => { a with
    inNow := (tdm ++ aes ++ us).map fun c => (c.1, c.2 &&& 0xFFFFFF00)
    rx := ((List.range 8).zip a.rx).map fun f => dropPlayed s f.1 e f.2 }
  let s := if usbNow then s.onUsb fun u => { u with fifoIn := u.fifoIn.drop 1 } else s
  if starved then
    s.onInn fun i => { i with guests := i.guests.map fun g =>
      let n := (g.2.ins.filter fun c => decide (0x20 ≤ c) && decide (c < 0x30)).length
      if n = 0 then g else (g.1, { g.2 with under := satAdd g.2.under 1 }) }
  else s

/-- The step that entered at the start of the guest's own-rate frame takes the samples of that frame (R192, R198); a HOLD step
discards them (Table 5.4). -/
def fillSteps (s : State) : State :=
  let e := s.tly.now.toNat
  let rows := s.inn.guests.filter fun g => isRowRound g.2 e
  s.forEach (rows.map (·.1)) fun g s => s.onGuest g fun x => { x with
    steps := lmod x.steps 0 fun r => if r.code == StepCode.hold then r else { r with ins := x.ins.map (sampleOf s) } }

/-! ### Outputs -/

/-- The phase of a guest's own rate: that of its stay, and outside a stay that of its map (R17, R418, R419). -/
def ownPhase (s : State) (x : Guest) : Nat := if x.inRounds then x.phase else (mapPhase s x).getD x.phase

/-- Whether edge `e` begins a frame of a guest's own rate. -/
def ownEdge (s : State) (x : Guest) (e : Nat) : Bool := e % max 1 x.div == ownPhase s x

/-- The dry value of output channel `o` (R421). -/
def dryValue (s : State) (x : Guest) (o : Nat) : W32 :=
  if x.thru then sampleOf s (x.ins.getD (min o (x.nin - 1)) 0) else 0

/-- The sample of output channel `o` in the frame that ended (R420, R424). -/
def outSample (s : State) (x : Guest) (o : Nat) : W32 :=
  match x.cur with
  | none => dryValue s x o
  | some l =>
    let r := l.getD o 0
    if x.gain = 0x3F800000 then r
    else
      let y := fAdd (fMul x.gain (q23F32 r)) (fMul (fSub 0x3F800000 x.gain) (q23F32 (dryValue s x o)))
      BitVec.ofNat 32 (fmtConv 5 0 (f32X y)).code

/-- What each mapped destination carried in the frame that ended, for guests whose own-rate frame ended (R17, R420). -/
def guestOuts (s : State) : List (Nat × W32) :=
  let e := s.tly.now.toNat
  let l := s.inn.guests.filter fun g => g.2.state != .free && ownEdge s g.2 e
  (l.map fun g => (((List.range g.2.outs.length).zip g.2.outs).filter fun c => c.2 != 0).map fun c =>
    (c.2, outSample s g.2 c.1)).flatten

/-- The destinations that belong to a guest. -/
def heldDests (s : State) : List Nat :=
  ((s.inn.guests.filter fun g => g.2.state != .free).map fun g => g.2.outs.filter (· != 0)).flatten

/-- The slots of a port's frame that ended: mapped ones as the guests gave them, unmapped ones 0 or high impedance; an unlocked
slave drives 0 (Table 10.2, R414, R420). -/
def portOuts (s : State) (outs : List (Nat × W32)) (p : Nat) : List OutSlot :=
  let x := s.aud.ports.getD p {}
  if x.en && s.tly.now.toNat % divOf x.div == x.phase.toNat % divOf x.div then
    (List.range (x.slots.toNat + 1)).map fun k =>
      let code := 0x40 + 16 * p + k
      if !x.locked then ⟨code, some 0⟩
      else match outs.find? fun o => o.1 == code with
        | some o => ⟨code, some o.2⟩
        | none => if (heldDests s).contains code then ⟨code, some 0⟩ else ⟨code, if x.hiz then none else some 0⟩
  else []

/-- Whether the part is on its way out of FULL, when every staying guest fades (R18). -/
def leavingFull (s : State) : Bool := s.pwr.house == .full && (match s.pwr.goal with | some .full => false | some _ => true | none => false)

/-- The output FIFOs at a frame edge: each result due is sent, and a frame without one carries the dry value, counted when a result
was expected (R20, R198, R402, R422). The gain moves by one frame's part of the fade towards its target (R424). -/
def guestEdge (s : State) (e : Nat) (x : Guest) : Guest :=
  let own := ownEdge s x e
  let lost := (x.ins.filter (· != 0)).any (srcLost s)
  let x := { x with lostSrc := lost, hmute := match planOf s x with | some p => planMuted s p | none => false }
  if !own || x.state == .free then x
  else
    let l := x.fifo.map fun r => { r with due := r.due - 1 }
    let res := l.find? fun r => r.due == 0
    let expected := x.inRounds && (x.steps[layersOf s x + 1]?).isSome
    let soft := match res with | some r => r.soft | none => eventMuted s x
    let muted := soft || lost || x.fading || (leavingFull s && x.inRounds)
    let step : F32 :=
      if x.fade = 0 then 0x3F800000 else roundX (.fin ⟨false, 1000 * max 1 x.div, x.fade * s.fs⟩)
    let g := if muted then (let d := fSub x.gain step; if fLt 0 d then d else 0)
      else (let u := fAdd x.gain step; if fLt u 0x3F800000 then u else 0x3F800000)
    { x with
      fifo := l.filter fun r => r.due != 0
      cur := match res with | some r => if r.mute || !s.on 10 then none else some r.vals | none => none
      under := if res.isNone && expected then satAdd x.under 1 else x.under
      gain := g, muted := muted }

/-! ### AES67 flows -/

/-- A transmit flow takes the samples of its frame that ended; a packet whose last frame ended waits to leave (R427). -/
def flowTake (s : State) (outs : List (Nat × W32)) (k : Nat) (f : Flow) : Flow :=
  let e := s.tly.now.toNat
  let d := max 1 (flowDiv s f)
  if f.state == .run && e % d == 0 && decide (d ≤ e) then
    let i := (e - d) / d
    let one := (List.range f.ch).map fun c => ((outs.find? fun o => o.1 == 0x80 + 16 * k + c).map (·.2)).getD 0
    let acc := if i % flowP f = 0 then [(i, one)] else if f.acc.isEmpty then [] else f.acc ++ [(i, one)]
    if acc.length = flowP f then { f with acc := [], ready := f.ready ++ [(flowTs s f ((acc.headD (0, [])).1 * d), acc.map (·.2))] }
    else { f with acc := acc }
  else f

/-- A waiting flow starts to run at an edge under PTP lock at a rate that serves it (R425). -/
def flowStart (s : State) (f : Flow) : Flow :=
  if f.en && f.state == .wait && s.tly.source == 3 && s.tly.state == .locked && flowRateOk s f then { f with state := .run } else f

/-! ### The cancellation reference -/

/-- The mean of the samples sent to the destinations of POR_REF, before it is resampled to 16 kHz (R475, R476). -/
def refSample (s : State) (outs : List (Nat × W32)) : Option F32 :=
  let codes := ((List.range 4).map fun n => fld s.por.refDst (8 * n) 8).filter (· != 0)
  if codes.isEmpty then none
  else
    let vs := codes.map fun c => q23F32 (((outs.find? fun o => o.1 == c).map (·.2)).getD 0)
    match f32X (vs.foldl fAdd 0) with
    | .fin q => some (roundX (.fin (q.div ⟨false, codes.length, 1⟩)))
    | _ => some 0x7FC00000

/-- One sample of the reference at the base rate, and the 16 kHz sample that is due with it (R476): every third, sixth or twelfth of the
48 kHz family, and one each time the place between two samples passes a whole one for the 44.1 kHz family (log entry 66). -/
def resampleRef (r : F32) (s : State) : State :=
  let ins := (r :: s.por.refIn).take 96
  let n := s.por.refPhase + 16000
  if s.fs ≤ n then
    s.onPor fun p => { p with
      refIn := ins, refPhase := n - s.fs, refMix := (Config.resample s.fs (n - s.fs) ins :: p.refMix).take 671 }
  else s.onPor fun p => { p with refIn := ins, refPhase := n }

/-! ### The edge -/

/-- One frame nearer to the next PEER-CLOSED of each route (R372, log entry 87). -/
def passNaks (s : State) : State :=
  s.onCch fun c => { c with nakWait := (c.nakWait.filter fun e => decide (1 < e.2)).map fun e => (e.1, e.2 - 1) }

/-- What a frame edge does (R37): the tally advances, the frames that ended have taken and sent their samples, the results due
begin their frames, and where no round runs the staged events of the tally take effect (R685). -/
def frameEdge (ins : List (Nat × W32)) (s : State) : State :=
  let s := passNaks (countHoldover (advanceTally s))
  let e := s.tly.now.toNat
  let s := fillSteps (takeInputs ins s)
  let outs := guestOuts s
  let s := s.onAud fun a => { a with
    outNow := ((List.range 4).map fun p => portOuts s outs p).flatten ++
      (outs.filter fun o => !(decide (0x40 ≤ o.1) && decide (o.1 < 0x80))).map fun o => ⟨o.1, some o.2⟩
    tx := ((List.range 8).zip a.tx).map fun f => flowStart s (flowTake s outs f.1 f.2)
    rx := a.rx.map fun f => flowStart s f }
  let s := match refSample s outs with
    | some r => resampleRef r s
    | none => s
  let s := s.onInn fun i => { i with guests := i.guests.map fun g => (g.1, guestEdge s e g.2) }
  if roundsRun s then s else applyTally e s

/-- TALLY_EDGE; `ins` are the samples of the TDM slots that complete at the edge, by source code. While PD3 is off there is no
tally. -/
def execTallyEdge (ins : List (Nat × W32)) (s : State) : Host.Outcome State Fault Refusal :=
  .next (if s.on 3 then frameEdge ins s else s)

end Sys2Proof.Machine
end

