-- ==== Sys2Proof/Machine/Grammar.lean ====
section
/-! DEFINITION. The grammar of a command line (R90, R689 to R691): a line's characters to its prefix, name and arguments. -/

namespace Sys2Proof.Machine

/-- What a line is (R90, R93). -/
inductive Parsed where
  | blank
  | bad (key : String)
  | cmd (p : Pfx) (obj name : String) (a : Args)
  deriving DecidableEq, Repr

def isHexDig (c : Char) : Bool := c.isDigit || ('a' ≤ c && c ≤ 'f') || ('A' ≤ c && c ≤ 'F')
def hexVal (c : Char) : Nat := if c.isDigit then c.toNat - 48 else c.toLower.toNat - 87
def isWordChar (c : Char) : Bool := c.isAlpha || c.isDigit || c == '-' || c == '_'

/-- The value of decimal digits. -/
def decVal (l : List Char) : Nat := l.foldl (fun n c => n * 10 + (c.toNat - 48)) 0

/-- The characters while `f` holds, and the rest. -/
def spanC (f : Char → Bool) (l : List Char) : List Char × List Char := (l.takeWhile f, l.dropWhile f)

/-- The suffixes of R90. -/
def suffixes : List String :=
  ["k", "M", "G", "dB", "%", "ppm", "s", "ms", "us", "ns", "V", "mV", "A", "mA", "Hz", "W", "mW", "mAh"]

/-- A word: a letter, then letters, digits, `-` and `_`. -/
def pWord (l : List Char) : Option (String × List Char) :=
  match l with
  | c :: _ => if c.isAlpha then (let (w, r) := spanC isWordChar l; some (String.ofList w, r)) else none
  | [] => none

/-- Hex digits with underscores, at most 16 digits: their count, their value and the rest. -/
def pHex (l : List Char) : Option (Nat × Nat × List Char) :=
  match l with
  | c :: _ =>
    if isHexDig c then
      let (w, r) := spanC (fun c => isHexDig c || c == '_') l
      let d := w.filter isHexDig
      if d.length ≤ 16 then some (d.length, d.foldl (fun n c => n * 16 + hexVal c) 0, r) else none
    else none
  | [] => none

/-- Groups of digits set apart by dots. -/
def pGroups (fuel : Nat) (l : List Char) : Option (List (List Char) × List Char) :=
  match fuel with
  | 0 => none
  | f + 1 =>
    let (d, r) := spanC Char.isDigit l
    if d.isEmpty then none
    else match r with
      | '.' :: r' => (pGroups f r').map fun p => (d :: p.1, p.2)
      | _ => some ([d], r)

/-- The parts of a dotname after its first word. -/
def pParts (fuel : Nat) (l : List Char) : Option (List String × List Char) :=
  match fuel with
  | 0 => none
  | f + 1 =>
    match l with
    | '.' :: r =>
      let (d, r') := spanC Char.isDigit r
      match pWord r with
      | some (w, r'') => (pParts f r'').map fun p => (w :: p.1, p.2)
      | none => if d.isEmpty then none else (pParts f r').map fun p => (String.ofList d :: p.1, p.2)
    | _ => some ([], l)

/-- A number or an addr4. -/
def pNumber (l : List Char) : Option (Item × List Char) :=
  let (neg, l) := match l with | '-' :: r => (true, r) | _ => (false, l)
  match pGroups 5 l with
  | none => none
  | some (gs, r) =>
    let (u, r') := spanC (fun c => c.isAlpha || c == '%') r
    let u := String.ofList u
    if u != "" && !suffixes.contains u then none
    else match gs with
      | [d] => some (.num neg (decVal d) 0 u, r')
      | [d, f] => some (.num neg (decVal (d ++ f)) f.length u, r')
      | [a, b, c, d] => if neg || u != "" then none else some (.addr4 (decVal a) (decVal b) (decVal c) (decVal d), r')
      | _ => none

/-- One item of a value; its first character decides its kind (R90). -/
def pItem (l : List Char) : Option (Item × List Char) :=
  match l with
  | '0' :: 'x' :: r => (pHex r).map fun p => (.hex p.1 p.2.1, p.2.2)
  | c :: _ =>
    if c.isAlpha then
      match pWord l with
      | some (w, r) => match pParts (r.length + 1) r with
        | some ([], r') => some (.word w, r')
        | some (ps, r') => some (.dot (w :: ps), r')
        | none => none
      | none => none
    else if c.isDigit || c == '-' then pNumber l else none
  | [] => none

/-- Further items of a list. -/
def pItems (fuel : Nat) (l : List Char) : Option (List Item × List Char) :=
  match fuel with
  | 0 => none
  | f + 1 =>
    match l with
    | ',' :: r => match pItem r with
      | some (i, r') => (pItems f r').map fun p => (i :: p.1, p.2)
      | none => none
    | _ => some ([], l)

/-- The characters of a string after its opening quote. -/
def pString (l : List Char) : Option (List Char × List Char) :=
  match l with
  | [] => none
  | '"' :: r => some ([], r)
  | '\\' :: '"' :: r => (pString r).map fun p => ('"' :: p.1, p.2)
  | '\\' :: '\\' :: r => (pString r).map fun p => ('\\' :: p.1, p.2)
  | '\\' :: _ => none
  | c :: r => (pString r).map fun p => (c :: p.1, p.2)

/-- A value. -/
def pVal (l : List Char) : Option (Val × List Char) :=
  match l with
  | '"' :: r => (pString r).map fun p => (.str (String.ofList p.1), p.2)
  | _ => match pItem l with
    | some (i, r) => match pItems (r.length + 1) r with
      | some ([], r') => some (.item i, r')
      | some (is, r') => some (.list (i :: is), r')
      | none => none
    | none => none

/-- One argument. -/
def pArg (l : List Char) : Option (Arg × List Char) :=
  let bare := (pVal l).map fun p => (⟨"", p.1⟩, p.2)
  match pWord l with
  | some (k, '=' :: r) => (pVal r).map fun p => (⟨lowerS k, p.1⟩, p.2)
  | _ => bare

/-- The arguments up to the end of the line or its comment. -/
def pArgs (fuel : Nat) (l : List Char) : Option Args :=
  match fuel with
  | 0 => none
  | f + 1 =>
    match l with
    | [] => some []
    | ' ' :: r =>
      match r.dropWhile (· == ' ') with
      | ';' :: _ => some []
      | [] => none
      | r' => match pArg r' with
        | some (a, r'') => (pArgs f r'').map (a :: ·)
        | none => none
    | _ => none

/-- The first key given twice (R690). -/
def dupKey (a : Args) : Option String :=
  match a with
  | [] => none
  | x :: r => if x.key != "" && r.any (fun y => y.key == x.key) then some x.key else dupKey r

/-- A tag and the rest after its spaces. -/
def pTag (l : List Char) : Option (Nat × List Char) :=
  match l with
  | '#' :: r =>
    let (d, r') := spanC Char.isDigit r
    match r' with
    | ' ' :: _ => if d.isEmpty || decide (65535 < decVal d) then none else some (decVal d, r'.dropWhile (· == ' '))
    | [] => if d.isEmpty || decide (65535 < decVal d) then none else some (decVal d, [])
    | _ => none
  | _ => none

/-- A tally prefix and the rest after its spaces (R62). -/
def pPrefix (l : List Char) : Option (Pfx × List Char) :=
  let after (p : Pfx) (r : List Char) : Option (Pfx × List Char) :=
    match r with | ' ' :: _ => some (p, r.dropWhile (· == ' ')) | _ => none
  match l with
  | '@' :: 't' :: '=' :: '0' :: 'x' :: r => (pHex r).bind fun h => after (.abs h.2.1) h.2.2
  | '@' :: 't' :: '=' :: r => (pHex r).bind fun h => after (.abs h.2.1) h.2.2
  | '@' :: '+' :: r =>
    let (d, r') := spanC Char.isDigit r
    if d.isEmpty then none else after (.plus (decVal d)) r'
  | '@' :: _ => none
  | _ => some (.none, l)

/-- A line without tag and CRC. -/
def pLine (l : List Char) : Parsed :=
  match l.dropWhile (· == ' ') with
  | ';' :: _ => .blank
  | [] => if l.isEmpty then .blank else .bad ""
  | _ =>
    match pPrefix l with
    | none => .bad ""
    | some (p, r) =>
      match pWord r with
      | none => .bad ""
      | some (w, r1) =>
        let (o, v, r2) : String × String × List Char := match r1 with
          | '.' :: r' => match pWord r' with
            | some (w2, r'') => (lowerS w, lowerS w2, r'')
            | none => ("", "", [])
          | _ => ("", lowerS w, r1)
        if v.isEmpty then .bad ""
        else match pArgs (r2.length + 1) r2 with
          | none => .bad ""
          | some a => match dupKey a with
            | some k => .bad k
            | none => .cmd p o v a

/-- Whether a character may stand in a line: printable ASCII. -/
def printable (c : Char) : Bool := decide (0x20 ≤ c.toNat) && decide (c.toNat ≤ 0x7E)

/-- The CRC digits that close a MACHINE line, and what stands before them (R689). -/
def splitCrc (t : List Char) : Option (List Char × BitVec 16) :=
  match t.reverse with
  | d :: c :: b :: a :: '*' :: r =>
    if isHexDig a && isHexDig b && isHexDig c && isHexDig d then
      some (r.reverse, BitVec.ofNat 16 (((hexVal a * 16 + hexVal b) * 16 + hexVal c) * 16 + hexVal d))
    else none
  | _ => none

end Sys2Proof.Machine
end

