-- ==== Sys2Proof/Machine/Tally.lean ====
section
/-! DEFINITION. Clocks and the tally (spec 02): eras, sources, loss and re-lock, the CLK and TLY registers, and the tly and clk
commands. -/

namespace Sys2Proof.Machine

/-! ### Eras and sources -/

/-- The source is FREE, EXT-MCLK, WORDCLOCK or PTP (Table 2.3). -/
def startState (src : BitVec 2) : TState := if src = 0 then .freeRun else .acquire

/-- Every running flow waits again (R425), with its notice. -/
def flowsWait (s : State) : State :=
  let back (tx : Bool) (f : Flow) : Flow := if f.state == .run || f.state == .lost then
      { f with state := .wait, acc := [], ready := [], jitter := [], seq := if tx then f.seq else none, good := 0 } else f
  let ran (l : List Flow) : List Nat := (List.range 8).filter fun k => let f := l.getD k {}; f.state == .run || f.state == .lost
  let rs := ran s.aud.rx
  let ts := ran s.aud.tx
  let s := s.onAud fun a => { a with rx := a.rx.map (back false), tx := a.tx.map (back true) }
  let s := s.forEach rs fun k s => notify "aud" ("flow " ++ kv "flow" ("rx" ++ natS k) ++ " state=wait") s
  s.forEach ts fun k s => notify "aud" ("flow " ++ kv "flow" ("tx" ++ natS k) ++ " state=wait") s

/-- Bit of a clock in CLK_STAT and CLK_FAULT (Table 2.5). -/
def clkBit (k : Clk) : Nat :=
  match k with
  | .refclk => 0 | .netref => 1 | .core => 2 | .mesh => 3 | .mem => 4 | .desk => 5 | .usb => 6 | .net => 7 | .aud => 8
  | .deskrc => 9 | .hearth => 10 | .xtal32 => 11

/-- A bit of a word set or cleared. -/
def setBit {w : Nat} (v : BitVec w) (k : Nat) (b : Bool) : BitVec w :=
  if b then v ||| BitVec.ofNat w (2 ^ k) else v &&& ~~~(BitVec.ofNat w (2 ^ k))

/-- CLK_STAT.AUD follows whether the AUD clock is locked to its source (R69): always for FREE, and in LOCKED and AHEAD while the source
is there. A change of source or of era is no loss of a clock (log entry 69). -/
def settleAud (s : State) : State :=
  let locked := s.on 3 && !s.tly.lost && (s.tly.state == .freeRun || s.tly.state == .locked || s.tly.state == .ahead)
  s.onClk fun c => { c with stat := setBit c.stat 8 locked }

/-- The Hearth channels whose READY events an era start discards: READY is a level, so they are posted again as they now stand (corner of
chapter 13, log entry 86). -/
def readyDropped (s : State) : List Nat :=
  ((s.evq.entries ++ s.evq.held).filterMap fun e => match e.eff with | .ready ch _ => some ch | _ => none).eraseDups

/-- Such events posted for the first tally of the new era. -/
def repostReady (chs : List Nat) (s : State) : State :=
  s.forEach chs fun ch s =>
    let q := s.evq.hearthSeq
    postInner .hearth q false (.ready ch (s.chan ch).ready) (s.onEvq fun e => { e with hearthSeq := q + 1 })

/-- A new era (R38, R39, R79): the tally restarts at 0, the era count rises modulo 65 536 with an entry at its wrap, and every
pending event is discarded and counted. The frames of a guest that is LEAVING are counted from the new tallies (log entry 11). -/
def eraStart (s : State) : State :=
  let n := s.evq.entries.length + s.evq.held.length + s.ldr.queue.length + s.ldr.serving.length + s.ldr.store.length +
    s.por.held.length + (s.cch.routes.map fun e => (e.2.pending.map List.length).sum).sum
  let chs := readyDropped s
  let s := s.onEvq fun q => { q with entries := [], held := [] }
  let s := s.onLdr fun l => { l with queue := [], serving := [], store := [], applied := [] }
  let s := s.onPor fun p => { p with held := [] }
  let s := drainRoutes false (s.onCch fun c => { c with routes := c.routes.map fun e =>
    (e.1, { e.2 with pending := e.2.pending.map fun _ => [] }) })
  let s := s.onTly fun t => { t with
    now := 0, skip := 0, skipNext := 0, skipped := [], aligned := false, slewNs := 0, target := none, holdEdges := 0
    cDropped := satAdd t.cDropped n, state := startState t.source }
  let s := settleAud (s.onInn fun i => { i with guests := i.guests.map fun e => (e.1, { e.2 with c := if e.2.inRounds then e.2.phase else e.2.c }) })
  let s := s.onLdg fun d => { d with era := d.era + 1 }
  let s := if s.ldg.era = 0 then logAt 0 false 8 0x0102 0 0 0 s else s
  notify "tly" "era" (repostReady chs s)

/-- A source selected anew (R683): no era, the tally counts on, and the state is FREE-RUN or ACQUIRE. -/
def reSource (src : BitVec 2) (port : Bool) (s : State) : State :=
  let t := s.tly
  if src = t.source ∧ (port = t.ptpport ∨ src ≠ 3) then s.onTly fun t => { t with ptpport := port }
  else settleAud (flowsWait (s.onTly fun t => { t with
    source := src, ptpport := port, state := startState src, lost := false, holdEdges := 0, skipNext := 0, slewNs := 0
    target := none }))

/-- A new base rate: a new era, and the flows that ran wait (R38, R425). -/
def reRate (r : BitVec 3) (s : State) : State := eraStart (flowsWait (s.onTly fun t => { t with rate := r }))

/-- ERA_START. -/
def execEraStart (s : State) : Host.Outcome State Fault Refusal := .next (if s.on 3 then eraStart s else s)

/-- The settings the Steward keeps written into the TLY registers at PD3's power-on (R654). -/
def pd3Registers (s : State) : State :=
  let k := s.tly.kept
  s.onTly fun _ => {
    slew := k.slew.getD 0x14, ptpport := k.port.getD false, relock := k.relock.getD false, rate := k.rate.getD 1
    source := k.source.getD 0, slo := ((k.epoch.map fun e => e.1.extractLsb' 0 32).getD 0)
    shi := ((k.epoch.map fun e => e.1.extractLsb' 32 16).getD 0), ns := ((k.epoch.map (·.2)).getD 0)
    epSec := ((k.epoch.map (·.1)).getD 0), epNs := ((k.epoch.map (·.2)).getD 0), late := k.late.getD 0, kept := k }

/-! ### Clocks -/

/-- A clock's present state; its loss sets the sticky bit (R69). -/
def setClk (k : Clk) (on : Bool) (s : State) : State :=
  s.onClk fun c => { c with
    stat := setBit c.stat (clkBit k) on
    fault := if !on && c.stat.getLsbD (clkBit k) then setBit c.fault (clkBit k) true else c.fault
    freq := if k == .core then (if on then BitVec.ofNat 16 (pointMHz s.pwr.eff.toNat) else 0) else c.freq }

/-- The present CORE frequency in MHz (R70): none while TRIP stops the clock (R617), half while every second cycle is removed (R601). -/
def State.coreMHz (s : State) : Nat :=
  if s.pwr.coreStop then 0 else if s.pwr.half then s.clk.freq.toNat / 2 else s.clk.freq.toNat

/-- The order of the house states. -/
def houseNum (h : House) : Nat := match h with | .vault => 0 | .hush => 1 | .lobby => 2 | .full => 3

/-- REFCLK_LOSS (R36): the DESK domain moves to the fallback oscillator, the PLLs on REFCLK lose their lock, and the part starts its
move to HUSH. -/
def execRefclkLoss (s : State) : Host.Outcome State Fault Refusal :=
  .next (if s.on 2 then
      let s := setClk .refclk false s
      let s := s.onClk fun c => { c with fault := setBit c.fault 0 true, stat := setBit c.stat 9 true }
      let s := setClk .desk false (setClk .core false (setClk .mesh false (setClk .mem false (setClk .usb false s))))
      if houseNum s.pwr.house ≤ 1 then moveEnds (s.onPwr fun p => { p with goal := none })
      else s.onPwr fun p => { p with goal := some .hush }
    else s)

/-- REFCLK_RETURN (R681): the DESK domain returns to its PLL. -/
def execRefclkReturn (s : State) : Host.Outcome State Fault Refusal :=
  .next (if s.on 2 then
      (setClk .desk true (setClk .refclk true s)).onClk fun c => { c with stat := setBit c.stat 9 false }
    else s)

/-! ### Loss and re-lock -/

/-- The tally source is lost (R44). -/
def sourceLost (s : State) : State :=
  if !s.on 3 || s.tly.state == .freeRun || s.tly.lost then s
  else
    let s := s.onTly fun t => { t with
      lost := true, holdEdges := if t.state == .holdover then t.holdEdges else 0
      state := if t.state == .locked then .holdover else t.state }
    let s := s.onClk fun c => { c with fault := setBit c.fault 8 true, stat := setBit c.stat 8 false }
    notify "tly" "lost" s

/-- FREQUENCY_WINDOW: the frequency of EXT-MCLK or WORDCLOCK over the last 1 ms was `ppm` off (R682). -/
def execFrequencyWindow (ppm : Nat) (s : State) : Host.Outcome State Fault Refusal :=
  .next (if 1000 < ppm ∧ (s.tly.source = 1 ∨ s.tly.source = 2) then sourceLost s else s)

/-- TALLY_SOURCE_LOST (R44, Table 2.3). -/
def execTallySourceLost (s : State) : Host.Outcome State Fault Refusal := .next (sourceLost s)

/-- TALLY_SOURCE_RETURN (R44, R75): LOST clears when the source is present again, and the holdover of an AHEAD ends with it. -/
def execTallySourceReturn (s : State) : Host.Outcome State Fault Refusal :=
  .next (settleAud (s.onTly fun t => { t with lost := false, holdEdges := if t.state == .ahead then 0 else t.holdEdges }))

/-- PTP_SYNC (R41, R42, R389, R391): a message of the port's domain, with its grandmaster's priority1. The port follows it unless
its own priority1 is the better (lower) one, and it is master then; on a tie it follows (log entry 88). A message it follows updates its
servo, and the target tally when it is the source, whose loss a servo offset above 1 µs declares (Table 2.3). -/
def execPtpSync (m : PtpFrom) (sec ns : Nat) (offsetNs : Int) (s : State) : Host.Outcome State Fault Refusal :=
  .next (if s.on (portDom m.port) && (s.net m.port).link && (s.net m.port).domain == m.domain then
      let lead : Bool := decide ((s.net m.port).prio1 < m.gmPrio)
      let s := s.onNet m.port fun n => { n with master := lead, synced := n.synced || !lead }
      if lead then s
      else if s.on 3 && s.tly.source == 3 && s.tly.ptpport == (m.port == 1) then
        let t : Int := ((sec : Int) - s.tly.epSec.toNat) * 10 ^ 9 + ((ns : Int) - s.tly.epNs.toNat)
        let v : Int := t * s.fs / 10 ^ 9
        let s := s.onTly fun t => { t with servoNs := offsetNs, target := some (BitVec.ofInt 64 (if v < 0 then 0 else v)) }
        if 1000 < offsetNs.natAbs then sourceLost s else s
      else s
    else s)

/-- The error of the tally against its source, in 10^-9 frames: `d` whole frames and `phaseNs` at a base rate of `fs`. -/
def alignError (d phaseNs : Int) (fs : Nat) : Int := d * 10 ^ 9 + phaseNs * fs

/-- TALLY_ALIGN (R46 to R49, R684): on lock or re-lock the tally is compared with its source. Under PTP `phaseNs` is the part of the
error beyond the difference of the two whole counts; under WORDCLOCK it is the phase error. A skip takes the error rounded to the
nearest frame, half a frame up, and slewing removes the rest. -/
def execTallyAlign (phaseNs : Int) (s : State) : Host.Outcome State Fault Refusal :=
  let t := s.tly
  .next (if !s.on 3 || t.lost || t.state == .freeRun || t.state == .ahead then s
    else match t.source.toNat with
      | 1 => s.onTly fun t => { t with slewNs := 0, aligned := true }
      | 2 => s.onTly fun t => { t with slewNs := phaseNs, aligned := true }
      | _ =>
        match t.target with
        | none => s
        | some v =>
          let err := alignError ((v.toNat : Int) - t.now.toNat) phaseNs s.fs
          let unit : Int := 10 ^ 9
          if 0 ≤ err then
            if t.aligned = false ∨ 4096 * unit < err ∨ t.relock then
              let k := (2 * err + unit) / (2 * unit)
              s.onTly fun t => { t with skipNext := k.toNat, slewNs := (err - k * unit) / s.fs, aligned := true }
            else s.onTly fun t => { t with slewNs := err / s.fs }
          else if err < -4096 * unit then
            settleAud (notify "tly" "ahead" (s.onTly fun t => { t with state := .ahead, slewNs := 0, aligned := true, holdEdges := 0 }))
          else s.onTly fun t => { t with slewNs := err / s.fs, aligned := true })

/-- TALLY_LOCKED (R51). -/
def execTallyLocked (s : State) : Host.Outcome State Fault Refusal :=
  .next (if s.on 3 && !s.tly.lost && (s.tly.state == .acquire || s.tly.state == .holdover) then
      let s := s.onTly fun t => { t with state := .locked, slewNs := 0, holdEdges := 0 }
      notify "tly" "locked" (settleAud s)
    else s)

/-- EVENT_ENQUEUE: an event of a source reaches the queue (R55 to R61, R68). Without a tally there is no queue. -/
def execEventEnqueue (src : Src) (seq : BitVec 16) (stamp : Tally) (cut : Bool) (eff : Effect) (s : State) :
    Host.Outcome State Fault Refusal :=
  .next (if s.on 3 then
      enqueue { src := src, seq := seq, stamp := stamp, due := stamp, late := false, by_ := none, eff := eff } cut s
    else s)

/-! ### Registers -/

/-- A write to TLY_CTL (R73, R74, R683). -/
def writeTlyCtl (v : W32) (s : State) : State :=
  let sl := fld v 16 8
  let s := s.onTly fun t => { t with
    slew := if 1 ≤ sl ∧ sl ≤ 100 then BitVec.ofNat 8 sl else t.slew, relock := v.getLsbD 8 }
  let s := reSource (BitVec.ofNat 2 (fld v 0 2)) (v.getLsbD 9) s
  let r := fld v 4 3
  if s.anyStaying then s.onTly fun t => { t with refused := true }
  else if r = s.tly.rate.toNat ∨ 5 < r then s
  else reRate (BitVec.ofNat 3 r) s

/-- TLY_EPOCH_NS written (R76). -/
def writeEpochNs (v : W32) (s : State) : State :=
  let n := fld v 0 30
  if v.toNat < 2 ^ 30 ∧ n < 10 ^ 9 then
    s.onTly fun t => { t with ns := BitVec.ofNat 30 n, epNs := BitVec.ofNat 30 n, epSec := t.shi ++ t.slo }
  else s

/-- TLY_STAT (Table 2.8). -/
def tlyStat (s : State) : W32 :=
  let t := s.tly
  let code : Nat := match t.state with | .freeRun => 0 | .acquire => 1 | .locked => 2 | .holdover => 3 | .ahead => 4
  put 16 s.ldg.era.toNat + put 8 (min 255 (t.holdEdges / s.fs)) + put 4 (b2n t.refused) + put 3 (b2n t.lost) + put 0 code

/-- Free entries of a share (R80). -/
def freeShare (x : Src) (s : State) : Nat := shareOf x - shareUsed x s

/-- A read in the TLY block (R72 to R80). -/
def tlyRead (off : Nat) (s : State) : W32 × State :=
  let t := s.tly
  match off with
  | 0x00 => (t.now.extractLsb' 0 32, s.onTly fun t => { t with nowHi := t.now.extractLsb' 32 32 })
  | 0x04 => (t.nowHi, s)
  | 0x08 => (put 16 t.slew.toNat + put 9 (b2n t.ptpport) + put 8 (b2n t.relock) + put 4 t.rate.toNat + put 0 t.source.toNat, s)
  | 0x0C => (tlyStat s, s)
  | 0x10 => (t.slo, s)
  | 0x14 => (put 0 t.shi.toNat, s)
  | 0x18 => (put 0 t.ns.toNat, s)
  | 0x1C => (put 0 t.late.toNat, s)
  | 0x20 => (put 24 t.cDropped.toNat + put 16 t.cDup.toNat + put 8 t.cReject.toNat + put 0 t.cLate.toNat,
      s.onTly fun t => { t with cDropped := 0, cDup := 0, cReject := 0, cLate := 0 })
  | 0x24 => (t.skip.extractLsb' 0 32, s.onTly fun t => { t with skipHi := t.skip.extractLsb' 32 32, skip := 0 })
  | 0x28 => (put 21 (freeShare .larder s) + put 10 (freeShare (.route 0) s) + put 0 (freeShare .desk s), s)
  | 0x2C => (put 8 (freeShare .hearth s) + put 0 (freeShare .porter s), s)
  | 0x30 => (t.skipHi, s)
  | _ => (0, s)

/-- A write in the TLY block. -/
def tlyWrite (off : Nat) (v : W32) (s : State) : State :=
  match off with
  | 0x08 => writeTlyCtl v s
  | 0x0C => if v.getLsbD 4 then s.onTly fun t => { t with refused := false } else s
  | 0x10 => s.onTly fun t => { t with slo := v }
  | 0x14 => s.onTly fun t => { t with shi := BitVec.ofNat 16 (fld v 0 16) }
  | 0x18 => writeEpochNs v s
  | 0x1C => s.onTly fun t => { t with late := BitVec.ofNat 4 (fld v 0 4) }
  | _ => s

/-- A read in the CLK block (R69 to R71). -/
def clkRead (off : Nat) (s : State) : W32 × State :=
  match off with
  | 0x00 => (put 0 s.clk.stat.toNat, s)
  | 0x04 => (put 0 s.clk.fault.toNat, s)
  | 0x08 => (put 0 s.coreMHz, s)
  | 0x0C => (put 4 s.clk.mdiv.toNat + put 1 (b2n s.clk.wclken) + put 0 (b2n s.clk.mclken), s)
  | _ => (0, s)

/-- A write in the CLK block. -/
def clkWrite (off : Nat) (v : W32) (s : State) : State :=
  match off with
  | 0x04 => s.onClk fun c => { c with fault := c.fault &&& ~~~(v.extractLsb' 0 12) }
  | 0x0C => s.onClk fun c => { c with mdiv := BitVec.ofNat 2 (fld v 4 2), wclken := v.getLsbD 1, mclken := v.getLsbD 0 }
  | _ => s

/-- A register read of the environment: its word is kept in `readData` (R72, R79). -/
def readInto (r : W32 × State) : State := r.2.onSys fun y => { y with readData := [r.1] }

/-- TLY_NOW_LO_READ (R72). -/
def execTlyNowLoRead (s : State) : Host.Outcome State Fault Refusal := .next (if s.on 3 then readInto (tlyRead 0x00 s) else s)

/-- TLY_CNT_SKIP_LO_READ (R79). -/
def execTlyCntSkipLoRead (s : State) : Host.Outcome State Fault Refusal := .next (if s.on 3 then readInto (tlyRead 0x24 s) else s)

/-- TLY_SOURCE_WRITE: a write of TLY_CTL that selects a source or PTP port (R683). -/
def execTlySourceWrite (v : W32) (s : State) : Host.Outcome State Fault Refusal := .next (if s.on 3 then writeTlyCtl v s else s)

/-- TLY_RATE_WRITE: a write of TLY_CTL that changes the base rate (R74). -/
def execTlyRateWrite (v : W32) (s : State) : Host.Outcome State Fault Refusal := .next (if s.on 3 then writeTlyCtl v s else s)

/-- TLY_EPOCH_NS_WRITE (R76). -/
def execTlyEpochNsWrite (v : W32) (s : State) : Host.Outcome State Fault Refusal := .next (if s.on 3 then writeEpochNs v s else s)

/-! ### Commands -/

def rates : List Int := [44100, 48000, 88200, 96000, 176400, 192000]
def rateCode (hz : Nat) : BitVec 3 :=
  match hz with | 44100 => 0 | 48000 => 1 | 88200 => 2 | 96000 => 3 | 176400 => 4 | _ => 5
def rateS (r : BitVec 3) : String := decS 3 (rateHz r) ++ "k"
def sourceNames : List String := ["free", "ext-mclk", "wordclock", "ptp"]
def sourceS (n : Nat) : String := match n with | 0 => "FREE" | 1 => "EXT-MCLK" | 2 => "WORDCLOCK" | _ => "PTP"
def tstateS (t : TState) : String :=
  match t with | .freeRun => "FREE-RUN" | .acquire => "ACQUIRE" | .locked => "LOCKED" | .holdover => "HOLDOVER" | .ahead => "AHEAD"

/-- `tly.set` (R686). -/
def tlySetV : Verb := {
  obj := "tly", name := "set", level := .keeper
  keys := [kEnum "src" sourceNames, kEnum "port" ["neta", "netb"], { name := "rate", ty := .oneOf "Hz" rates },
    kEnum "relock" ["slew", "skip"], { name := "slew", ty := .int "ppm" 1 100 },
    { name := "epoch", ty := .secs ((2 ^ 48 - 1) * 10 ^ 9) }] }

def tlySetBody (_c : Ctx) (_p : Pfx) (e : Env) (s : State) : Res :=
  let src : Option (BitVec 2) := (e.word? "src").map fun w => BitVec.ofNat 2 (sourceNames.idxOf w)
  let port : Option Bool := (e.word? "port").map (· == "netb")
  let rate : Option (BitVec 3) := (e.nat? "rate").map rateCode
  let relock : Option Bool := (e.word? "relock").map (· == "skip")
  let slew : Option (BitVec 8) := (e.nat? "slew").map (BitVec.ofNat 8)
  let epoch : Option (BitVec 48 × BitVec 30) := (e.nat? "epoch").map fun n => (BitVec.ofNat 48 (n / 10 ^ 9), BitVec.ofNat 30 (n % 10 ^ 9))
  if rate.isSome ∧ rate ≠ some s.tly.rate ∧ s.anyStaying then .err 30 "" s
  else
    let s := s.onTly fun t => { t with kept := { t.kept with
      source := src.orElse fun _ => t.kept.source, port := port.orElse fun _ => t.kept.port
      rate := rate.orElse fun _ => t.kept.rate, relock := relock.orElse fun _ => t.kept.relock
      slew := slew.orElse fun _ => t.kept.slew, epoch := epoch.orElse fun _ => t.kept.epoch } }
    if s.on 3 then
      let s := s.onTly fun t => { t with relock := relock.getD t.relock, slew := slew.getD t.slew }
      let s := match epoch with
        | some (q, n) => s.onTly fun t => { t with
            slo := q.extractLsb' 0 32, shi := q.extractLsb' 32 16, ns := n, epSec := q, epNs := n }
        | none => s
      let s := reSource (src.getD s.tly.source) (port.getD s.tly.ptpport) s
      let s := match rate with
        | some r => if r = s.tly.rate then s else reRate r s
        | none => s
      .ok [] s
    else .ok [] s

def execTlySet (c : Ctx) (p : Pfx) (a : Args) (s : State) : Host.Outcome State Fault Refusal := ulc tlySetV tlySetBody c p a s

/-- The sources of TLY_LATE, in bit order (R77). -/
def lateNames : List String := ["desk", "porter", "larder", "hearth"]

/-- `tly.late` (R77, R686). -/
def tlyLateV : Verb := {
  obj := "tly", name := "late", level := .keeper
  keys := [kEnum "src" lateNames true, kEnum "policy" ["apply-late", "reject-late"] true] }

def tlyLateBody (_c : Ctx) (_p : Pfx) (e : Env) (s : State) : Res :=
  let base := if s.on 3 then s.tly.late else s.tly.kept.late.getD 0
  let v := setBit base (lateNames.idxOf (e.word "src")) (e.word "policy" == "reject-late")
  let s := s.onTly fun t => { t with kept := { t.kept with late := some v } }
  .ok [] (if s.on 3 then s.onTly fun t => { t with late := v } else s)

def execTlyLate (c : Ctx) (p : Pfx) (a : Args) (s : State) : Host.Outcome State Fault Refusal := ulc tlyLateV tlyLateBody c p a s

/-- `tly.show` (R687). -/
def tlyShowV : Verb := { obj := "tly", name := "show", changes := false }

/-- The late policies as `tly.show` gives them; the spec names no field for them (log entry 17). -/
def lateS (v : BitVec 4) : String :=
  spaced ((List.range 4).map fun k => kv ("late." ++ lateNames.getD k "") (if v.getLsbD k then "REJECT-LATE" else "APPLY-LATE"))

def tlyShowBody (_c : Ctx) (_p : Pfx) (_e : Env) (s : State) : Res :=
  let t := s.tly
  if s.on 3 then
    .ok [spaced [kv "t" (tallyS t.now.toNat), kv "era" (hexS 4 s.ldg.era.toNat), kv "src" (sourceS t.source.toNat),
        kv "state" (tstateS t.state), kv "rate" (rateS t.rate), kv "relock" (if t.relock then "SKIP" else "SLEW"),
        kv "slew" (natS t.slew.toNat ++ "ppm")],
      spaced [kn "late" t.cLate.toNat, kn "reject" t.cReject.toNat, kn "dup" t.cDup.toNat, kn "dropped" t.cDropped.toNat,
        kv "skipped" (tallyS t.skip.toNat)]] s
  else
    let k := t.kept
    let ep := (k.epoch.map fun e => e.1.toNat * 10 ^ 9 + e.2.toNat).getD 0
    .ok [spaced ["t=none", "era=none", "state=none", kv "src" (sourceS (k.source.getD 0).toNat), kv "rate" (rateS (k.rate.getD 1)),
      kv "relock" (if k.relock.getD false then "SKIP" else "SLEW"), kv "slew" (natS (k.slew.getD 0x14).toNat ++ "ppm"),
      kv "epoch" (decS 9 ep), lateS (k.late.getD 0)]] s

def execTlyShow (c : Ctx) (p : Pfx) (a : Args) (s : State) : Host.Outcome State Fault Refusal := ulc tlyShowV tlyShowBody c p a s

/-- `clk.show` (R69, R70). -/
def clkShowV : Verb := { obj := "clk", name := "show", changes := false }

def clkShowBody (_c : Ctx) (_p : Pfx) (_e : Env) (s : State) : Res :=
  let b (k : Nat) : Bool := s.clk.stat.getLsbD k
  let ok (n : String) (k : Nat) : String := kv n (if b k then "ok" else "lost")
  let lk (n : String) (k : Nat) : String := kv n (if b k then "lock" else "unlock")
  .ok [spaced [ok "refclk" 0, ok "netref" 1, kv "core" (if b 2 then natS s.coreMHz ++ "MHz" else "unlock"), lk "mesh" 3,
    lk "mem" 4, kv "desk" (if b 9 then "rc" else if b 5 then "pll" else "unlock"), lk "usb" 6, lk "net" 7, lk "aud" 8,
    ok "xtal32" 11]] s

def execClkShow (c : Ctx) (p : Pfx) (a : Args) (s : State) : Host.Outcome State Fault Refusal := ulc clkShowV clkShowBody c p a s

/-- The verbs of this file. -/
def tallyVerbs : List (Verb × (Ctx → Pfx → Env → State → Res)) :=
  [(tlySetV, tlySetBody), (tlyLateV, tlyLateBody), (tlyShowV, tlyShowBody), (clkShowV, clkShowBody)]

end Sys2Proof.Machine
end

