-- ==== Sys2Proof/Machine/Power.lean ====
section
/-! DEFINITION. Power delivery without the switching of domains (spec 14): sensing and AVSBus (R598 to R605), the raise of a point
(R595), crack detection (R614 to R616), the thermal governor (R617), the PWR registers (R618, R619), and their commands. -/

namespace Sys2Proof.Machine

/-! ### Sensing and AVSBus -/

/-- Half of an error in mV, rounded to 1 mV with half a millivolt away from zero. -/
def halfRound (e : Int) : Int := if 0 ≤ e then (e + 1) / 2 else -((-e + 1) / 2)

/-- SENTINEL_READ: the lowest sample of each sentinel in mV; `stood1ms` says that the target has stood at 0.85 V with e above 0 for
1 ms (R598 to R600). -/
def execSentinelRead (lows : List Nat) (stood1ms : Bool) (s : State) : Host.Outcome State Fault Refusal :=
  .next (if s.on 2 then
      let vmin := lows.foldl min (lows.headD 0)
      let s := s.onPwr fun p => { p with vmin := satOf 16 vmin }
      let p := s.pwr
      if p.remote || p.avsfail then s
      else
        let pt := p.raiseTo.getD p.eff.toNat
        let e : Int := (pointV pt : Int) - vmin
        let c : Int := max (-5) (min 10 (halfRound e))
        let w : Int := max (pointV pt) (min 850 ((p.wtgt : Int) + c))
        let s := s.onPwr fun p => { p with wtgt := w.toNat }
        if stood1ms && p.wtgt == 850 && decide (0 < e) then
          let s := s.onPwr fun p => { p with vmax := true, capV := BitVec.ofNat 3 (min 5 (p.eff.toNat + 1)) }
          notify "pwr" "vmax" (settlePoint s)
        else s
    else s)

/-- DROOP: a sentinel reads below V_point − 50 mV, or the full clock is restored (R601). -/
def execDroop (on : Bool) (s : State) : Host.Outcome State Fault Refusal :=
  .next (if s.on 2 then
      s.onPwr fun p => { p with half := on, cDroop := if on && !p.half then satInc p.cDroop else p.cDroop }
    else s)

/-- The highest point whose V_point does not exceed a voltage (R605). -/
def pointFor (mv : Nat) : Nat := ((List.range 6).find? fun p => decide (pointV p ≤ mv)).getD 5

/-- AVSBUS_FRAME: one AVSBus frame ends, acknowledged or failed (R597, R602, R605). -/
def execAvsbusFrame (ok isWrite isStatus : Bool) (s : State) : Host.Outcome State Fault Refusal :=
  .next (if s.on 2 then
      if ok then
        let s := s.onPwr fun p => { p with avsBad := 0 }
        let s := if isWrite then
            settlePoint (s.onPwr fun p => { p with vtgt := satOf 16 p.wtgt, acked := true })
          else s
        if isStatus && s.pwr.avsRetry then
          settlePoint (s.onPwr fun p => { p with avsRetry := false, avsfail := false, capA := 0 })
        else s
      else
        let s := s.onPwr fun p => { p with avsBad := p.avsBad + 1, cAvs := satInc p.cAvs }
        if 3 ≤ s.pwr.avsBad then
          let s := s.onPwr fun p => { p with avsBad := 0 }
          if s.pwr.avsfail then s
          else
            let s := s.onPwr fun p => { p with avsfail := true, capA := BitVec.ofNat 3 (pointFor p.vtgt.toNat) }
            notify "pwr" "avs err" (settlePoint s)
        else s
    else s)

/-- POINT_RAISE: the lowest sentinel reads at least V_point of the new point, or 100 µs have passed (R595). -/
def execPointRaise (s : State) : Host.Outcome State Fault Refusal :=
  .next (s.onPwr fun p => { p with raiseOk := p.raiseTo.isSome })

/-! ### Cracks -/

/-- One zone's sample in 0.1 mV (R614 to R616). -/
def zoneOne (z : Nat) (v m : Nat) (s : State) : State :=
  let old := s.pwr.zones.getD z {}
  let drop : Int := (v : Int) - m - old.zbase
  let n := if 250 < drop then old.lightN + 1 else 0
  let s := s.onPwr fun p => { p with zones := lmod p.zones z fun x => { x with drop := drop, lightN := n } }
  if 100 ≤ n && !old.raised then
    let s := s.onPwr fun p => { p with
      capC := BitVec.ofNat 3 (min 5 (if p.zones.any (·.raised) then p.capC.toNat + 1 else p.eff.toNat + 1))
      zones := lmod p.zones z fun x => { x with raised := true } }
    let mv := drop.toNat / 10
    let s := notify "pwr" ("crack " ++ kn "zone" z ++ " " ++ kn "drop" mv) (settlePoint s)
    logEv 7 0x0101 0 z mv s
  else s

/-- ZONE_SAMPLE: ZONE_SNS and the mean of the four sentinels of each zone in 0.1 mV; samples at a code above 0b001 are not taken
(R614, R615). -/
def execZoneSample (volts means : List Nat) (s : State) : Host.Outcome State Fault Refusal :=
  .next (if s.on 2 && decide (s.pwr.lc.toNat ≤ 1) then
      s.forEach (List.range 8) fun z s => zoneOne z (volts.getD z 0) (means.getD z 0) s
    else s)

/-! ### The thermal governor -/

def thermNum (t : Therm) : Nat := match t with | .none => 0 | .warn => 1 | .derate => 2 | .emergency => 3 | .trip => 4
def thermS (t : Therm) : String :=
  match t with | .none => "NONE" | .warn => "WARN" | .derate => "DERATE" | .emergency => "EMERGENCY" | .trip => "TRIP"

/-- Tj_max in °C (Table 0.2). -/
def State.tjMax (s : State) : Int := if s.sys.grade = 2 then 105 else 100

/-- The level a temperature enters (Table 14.8). -/
def thermEnter (m tj : Int) : Therm :=
  if m + 10 ≤ tj then .trip else if m ≤ tj then .emergency else if m - 5 ≤ tj then .derate
  else if m - 10 ≤ tj then .warn else .none

/-- The level after a sample: a higher level is entered at once; a level is left downwards by its own rule (Table 14.8). -/
def thermNext (m tj : Int) (below100 : Bool) (t : Therm) : Therm :=
  let e := thermEnter m tj
  if thermNum t < thermNum e then e
  else
    let t := if t == .emergency && decide (tj < m - 2) then .derate else t
    let t := if t == .derate && below100 && decide (tj < m - 8) then .warn else t
    if t == .warn && decide (tj < m - 12) then .none else t

/-- A change of level: notice, entry, and the shedding flag (R617). -/
def setTherm (t : Therm) (s : State) : State :=
  if t = s.pwr.therm then s
  else
    let s := s.onPwr fun p => { p with therm := t }
    let s := s.onInn fun i => { i with thermal := t == .emergency, hotShed := i.hotShed && t == .emergency }
    let s := notify "pwr" ("therm " ++ kv "level" (thermS t)) s
    logEv 7 0x0201 0 (thermNum t) (BitVec.ofInt 16 s.pwr.tj).toNat s

/-- Every output carries its dry value at once, counted as underruns where a result was due (R591, R617). -/
def dryOutputs (count : Bool) (s : State) : State :=
  s.onInn fun i => { i with guests := i.guests.map fun e => (e.1, { e.2 with
    under := if count && e.2.cur.isSome then satInc e.2.under else e.2.under, fifo := [], cur := none }) }

/-- The guests that stay start to fade before their check-out (R18). -/
def startFades (s : State) : State :=
  s.onInn fun i => { i with guests := i.guests.map fun e => if e.2.inRounds then (e.1, { e.2 with fading := true }) else e }

/-- THERMAL_SAMPLE: the highest sensor reading; `below100` says that Tj has stayed below Tj_max − 8 °C for 100 ms (R617). -/
def execThermalSample (tj : Int) (below100 : Bool) (s : State) : Host.Outcome State Fault Refusal :=
  .next (if s.on 2 then
      let s := s.onPwr fun p => { p with tj := tj }
      let old := s.pwr.therm
      let s := setTherm (thermNext s.tjMax tj below100 old) s
      if s.pwr.therm = .trip ∧ old ≠ .trip then
        let s := takeLeft (dryOutputs false (s.onPwr fun p => { p with coreStop := true }))
        if s.pwr.house = .full then (startFades s).onPwr fun p => { p with goal := match p.goal with
          | some .hush => some .hush
          | some .vault => some .vault
          | _ => some .lobby }
        else if s.pwr.goal = some .full then
          moveEnds (s.onPwr fun p => { p with goal := if p.house = .lobby ∧ !p.rising then none else some .lobby })
        else s
      else s
    else s)

/-- THERMAL_CAP_STEP: the cap moves one point down while Tj stays at DERATE or above, and up once DERATE has been left (R617). -/
def execThermalCapStep (s : State) : Host.Outcome State Fault Refusal :=
  .next (if s.on 2 then
      settlePoint (s.onPwr fun p => { p with
        capT := if s.tjMax - 5 ≤ p.tj then BitVec.ofNat 3 (min 5 (p.capT.toNat + 1))
          else if thermNum p.therm < 2 then p.capT - (if p.capT = 0 then 0 else 1) else p.capT })
    else s)

/-- THERMAL_SHED: every 1 ms of an emergency one guest is to be shed at the next round start (R263, R265). -/
def execThermalShed (s : State) : Host.Outcome State Fault Refusal :=
  .next (if s.inn.thermal then s.onInn fun i => { i with hotShed := true } else s)

/-! ### Registers -/

/-- PWR_STAT (Table 14.9). -/
def pwrStat (p : PwrSt) : W32 :=
  put 24 (((List.range 8).zip p.zones).foldl (fun n e => n + b2n e.2.raised * 2 ^ e.1) 0) + put 16 (thermNum p.therm) +
    put 7 (b2n p.pfail) + put 6 (b2n p.avsfail) + put 5 (b2n p.vmax) + put 4 (b2n p.goal.isSome) + put 0 (houseNum p.house)

/-- A read in the PWR block (R618). -/
def pwrRead (off : Nat) (s : State) : W32 × State :=
  let p := s.pwr
  match off with
  | 0x00 => (pwrStat p, s)
  | 0x04 => (put 24 p.guard.toNat + put 16 p.offset.toNat + put 4 p.avsclk.toNat + put 3 (b2n p.lcen) + put 0 p.set.toNat, s)
  | 0x08 => (put 0 (b2n (p.remoteN.getD p.remote)), s)
  | 0x0C => (put 4 p.cfg.toNat, s)
  | 0x10 => (put 0 p.dom.toNat, s)
  | 0x14 => (put 16 p.eff.toNat + put 12 p.capA.toNat + put 8 p.capV.toNat + put 4 p.capC.toNat + put 0 p.capT.toNat, s)
  | 0x18 => (put 16 p.vmin.toNat + put 0 p.vtgt.toNat, s)
  | 0x1C => (put 16 p.lc.toNat + put 0 p.fcast.toNat, s)
  | 0x20 => (put 0 (BitVec.ofInt 8 p.tj).toNat, s)
  | 0x24 => (put 0 p.rail.toNat, s)
  | 0x28 => (put 0 p.zsel.toNat, s)
  | 0x2C => (let z := p.zones.getD p.zsel.toNat {}; put 16 (BitVec.ofInt 16 z.drop).toNat + put 0 (z.zbase % 65536), s)
  | 0x30 => (put 16 p.cDroop.toNat + put 8 p.cAvs.toNat + put 0 p.cStb.toNat,
      s.onPwr fun p => { p with cDroop := 0, cAvs := 0, cStb := 0 })
  | _ => (0, s)

/-- A sensing mode written: at the next round start while rounds run, at once otherwise (R619). -/
def writeSense (m : Bool) (s : State) : State :=
  if roundsRun s then s.onPwr fun p => { p with remoteN := some m }
  else s.onPwr fun p => (let p := { p with remote := m, remoteN := none }; { p with wtgt := p.startV p.eff.toNat })

/-- Whether any stake domain is on. -/
def stakesOn (s : State) : Bool := s.on 12 || s.on 13 || s.on 14 || s.on 15

/-- A write in the PWR block but for PWR_DOMCFG (R618, R619). -/
def pwrWrite (off : Nat) (v : W32) (s : State) : State :=
  match off with
  | 0x04 => settlePoint (s.onPwr fun p => { p with
      guard := BitVec.ofNat 8 (fld v 24 8), offset := BitVec.ofNat 8 (fld v 16 8)
      avsclk := if fld v 4 2 = 3 then p.avsclk else BitVec.ofNat 2 (fld v 4 2), lcen := v.getLsbD 3
      set := if fld v 0 3 < 6 then BitVec.ofNat 3 (fld v 0 3) else p.set })
  | 0x08 => writeSense (v.getLsbD 0) s
  | 0x24 => if stakesOn s then s else s.onPwr fun p => { p with rail := BitVec.ofNat 4 (fld v 0 4) }
  | 0x28 => s.onPwr fun p => { p with zsel := BitVec.ofNat 3 (fld v 0 3) }
  | _ => s

/-- PWR_SENSE_WRITE (R619). -/
def execPwrSenseWrite (v : W32) (s : State) : Host.Outcome State Fault Refusal := .next (if s.on 2 then pwrWrite 0x08 v s else s)

/-! ### Commands -/

def pointS (n : Nat) : String := "P" ++ natS n
def houseS (h : House) : String := match h with | .vault => "VAULT" | .hush => "HUSH" | .lobby => "LOBBY" | .full => "FULL"

/-- Volts of a number of mV. -/
def voltS (mv : Nat) : String := decS 3 mv ++ "V"

/-- The caps in force. -/
def capsS (p : PwrSt) : String :=
  commas (([("therm", p.capT), ("crack", p.capC), ("vmax", p.capV), ("avs", p.capA)].filter fun c => c.2 != 0).map
    fun c => c.1 ++ ":" ++ pointS c.2.toNat)

def lcS (c : BitVec 3) : String := "0b" ++ natS (b2n (c.getLsbD 2)) ++ natS (b2n (c.getLsbD 1)) ++ natS (b2n (c.getLsbD 0))

/-- `pwr.show` (R618), and `pwr.show rails` with the regulator's reads, which no rule computes (R602). -/
def pwrShowV : Verb := {
  obj := "pwr", name := "show", changes := false, keys := [{ name := "what", ty := .enum ["rails"], pos := true }] }

def pwrShowBody (_c : Ctx) (_p : Pfx) (e : Env) (s : State) : Res :=
  let p := s.pwr
  if e.has "what" then
    let (i, s) := s.draw
    let (t, s) := s.draw
    .ok [spaced [kv "vcore.tgt" (voltS p.vtgt.toNat), kv "vcore.i" (decS 1 i.toNat ++ "A"), kv "reg.temp" (natS t.toNat ++ "C"),
      kv "vmin" (voltS p.vmin.toNat), kv "tj" (intS p.tj ++ "C"), kv "lc" (lcS p.lc)]] s
  else
    .ok [spaced [kv "point" (pointS p.set.toNat), kv "eff" (pointS p.eff.toNat), kv "core" (natS s.coreMHz ++ "MHz"),
      kv "sense" (if p.remote then "REMOTE" else "DIE-MIN"), kv "vtgt" (voltS p.vtgt.toNat), kv "vmin" (voltS p.vmin.toNat),
      kv "caps" (capsS p), kv "tj" (intS p.tj ++ "C"), kv "therm" (thermS p.therm), kv "lc" (lcS p.lc)]] s

def execPwrShow (c : Ctx) (p : Pfx) (a : Args) (s : State) : Host.Outcome State Fault Refusal := ulc pwrShowV pwrShowBody c p a s

/-- `pwr.crack clear` (R616). -/
def pwrCrackV : Verb := {
  obj := "pwr", name := "crack", level := .owner, keys := [{ name := "clear", ty := .enum ["clear"], pos := true, req := true }] }

def pwrCrackBody (_c : Ctx) (_p : Pfx) (_e : Env) (s : State) : Res :=
  .ok [] (settlePoint (s.onPwr fun p => { p with
    capC := 0, zones := p.zones.map fun z => { z with raised := false, lightN := 0 } }))

def execPwrCrackClear (c : Ctx) (p : Pfx) (a : Args) (s : State) : Host.Outcome State Fault Refusal := ulc pwrCrackV pwrCrackBody c p a s

end Sys2Proof.Machine
end

