-- ==== Sys2Proof/Machine/Guests.lean ====
section
/-! DEFINITION. Guests, rooms, bundles and the Innkeeper (spec 06): registration, the event commands of Table 6.2, what rooms and
the cellar do on their own, and the INN registers. -/

namespace Sys2Proof.Machine

/-! ### Rooms and the cellar -/

/-- ROOM_ZEROED (R242 to R246, R250): a bank's engine has cleared the room it was zeroing. -/
def execRoomZeroed (room : Nat) (s : State) : Host.Outcome State Fault Refusal :=
  .next (if s.on 10 ∧ (zeroNow (room / 4) s).map (·.room) = some room then roomZeroed room s else s)

/-- One channel of a guest, the lowest it holds, released. -/
def freeOneChan (g : Nat) (s : State) : State :=
  match s.inn.chans.find? fun e => e.2 == g with
  | some (c, _) => s.onInn fun i => { i with chans := tdel i.chans c }
  | none => s

/-- A room copied from one place of memory to another (R247). -/
def copyRoom (src dst : Nat) (s : State) : State := { s with ram := s.ram.copy src dst 0x10000 }

/-- Where room `k` of a guest's run stands in its cellar slot (R247). -/
def slotRoom (s : State) (g k : Nat) : Nat := cellarSlot s g + k * 0x10000

/-- CELLAR_WRITEBACK_DONE: the channel of a guest has written its next room to the cellar, and the room is then zeroed (R247, R250). -/
def execCellarWritebackDone (g : Nat) (s : State) : Host.Outcome State Fault Refusal :=
  .next (if s.on 10 && s.inn.chans.any (fun e => e.2 == g) then
      match roomsToWrite s (s.guest g) with
      | r :: _ =>
        let s := copyRoom (roomBase r) (slotRoom s g (r - (s.guest g).room)) s
        assignChans (freeOneChan g (askZero false [r] s))
      | [] => s
    else s)

/-- The MEM block counts an error of a read (R322). -/
def countEcc (e : Ecc) (s : State) : State :=
  match e with
  | .ok => s
  | .sec => s.onMem fun m => { m with sec := satInc m.sec }
  | .ded a => s.onMem fun m => { m with ded := satInc m.ded, erra := BitVec.ofNat 48 a }

/-- A swap-in that is complete: the row resumes from what its rooms hold (R252). -/
def resumeRow (g : Nat) (s : State) : State :=
  let s := s.onGuest g fun x => { x with swapping := false, lates := false, filled := 0, image := [] }
  match s.plan? (s.guest g).plan with
  | some p => s.onGuest g fun x =>
      let bs := s.ram.readN (roomBase x.room) (rowImage p x).length
      { x with layers := rowLayers p bs x, hist := readHist p bs }
  | none => s

/-- SWAP_IN_DONE: a channel has filled one room of a returning guest from its slot (R247, R252, R254); a poisoned room quarantines the
guest at the next round start (R322). -/
def execSwapInDone (g : Nat) (ecc : Ecc) (s : State) : Host.Outcome State Fault Refusal :=
  .next (if s.on 10 && (s.guest g).swapping && s.inn.chans.any (fun e => e.2 == g) then
      let s := freeOneChan g (countEcc ecc s)
      let x := s.guest g
      let s := copyRoom (slotRoom s g x.filled) (roomBase (x.room + x.filled)) s
      let s := s.onGuest g fun x => { x with filled := x.filled + 1 }
      let s := match ecc with
        | .ded _ => s.onInn fun i => { i with quarG := i.quarG ++ [(g, 5)] }
        | _ => s
      assignChans (if (s.guest g).join ≤ (s.guest g).filled then resumeRow g s else s)
    else s)

/-! ### Registers -/

/-- Guests in one of some states. -/
def countGuests (f : GState → Bool) (s : State) : Nat := (s.inn.guests.filter fun e => f e.2.state).length

def gstateNum (g : GState) : Nat :=
  match g with | .free => 0 | .registered => 1 | .staying => 2 | .leaving => 3 | .away => 4 | .quarantined => 5

/-- Rooms free under R242. -/
def freeRoomList (s : State) : List Nat := (List.range 32).filter (roomFree s)

/-- A bit for each room of a table. -/
def roomBits {α : Type} (t : Tab α) : W32 := BitVec.ofNat 32 (t.map fun e => 2 ^ e.1).sum

/-- INN_GINFO (Table 6.8). -/
def innGinfo (x : Guest) : W32 :=
  put 29 (gstateNum x.state) + put 27 (classNum x.cls) + put 25 (match x.div with | 2 => 1 | 4 => 2 | _ => 0) +
    (if x.state.isHeld then put 20 x.room + put 18 (match x.join with | 2 => 1 | 4 => 2 | _ => 0) + put 14 x.row else 0) +
    put 12 (x.phase % max 1 x.div) + put 11 (b2n x.shed)

/-- A read in the INN block (R281 to R287). -/
def innRead (off : Nat) (s : State) : W32 × State :=
  let i := s.inn
  match off with
  | 0x00 => (put 16 (countGuests (· == .away) s) + put 10 (countGuests GState.inRounds s % 64) + put 4 (freeRoomList s).length +
      put 2 (b2n i.thermal) + put 1 (b2n i.overload), s)
  | 0x04 => (i.round, s)
  | 0x08 => (roomBits i.rooms, s)
  | 0x0C => (roomBits i.inUse, s)
  | 0x10 => (put 20 i.cellarLo.toNat, s)
  | 0x14 => (put 0 i.cellarHi.toNat, s)
  | 0x18 => (put 8 (b2n i.enable) + put 0 i.ovrn.toNat, s)
  | 0x1C => (put 24 i.cRevoke.toNat + put 16 i.cQuar.toNat + put 8 i.cSwap.toNat + put 0 i.cShed.toNat,
      s.onInn fun i => { i with cShed := 0, cSwap := 0, cQuar := 0, cRevoke := 0 })
  | 0x20 => (put 0 i.gsel.toNat, s)
  | 0x24 => (innGinfo (s.guest i.gsel.toNat), s)
  | _ => (0, s)

/-- Whether the cellar may not move: a guest is AWAY, LEAVING or returning (R284). -/
def cellarFixed (s : State) : Bool :=
  s.inn.guests.any fun e => e.2.state == .away || e.2.state == .leaving || e.2.swapping

/-- A write to INN_CELLAR_LO or INN_CELLAR_HI (R283, R284). -/
def writeCellar (hi : Bool) (v : W32) (s : State) : State :=
  if cellarFixed s then s
  else s.onInn fun i => if hi then { i with cellarHi := BitVec.ofNat 16 (fld v 0 16) } else { i with cellarLo := BitVec.ofNat 12 (fld v 20 12) }

/-- A write in the INN block. -/
def innWrite (off : Nat) (v : W32) (s : State) : State :=
  match off with
  | 0x00 => if v.getLsbD 1 then s.onInn fun i => { i with overload := false, overSent := false } else s
  | 0x10 => writeCellar false v s
  | 0x14 => writeCellar true v s
  | 0x18 => s.onInn fun i => { i with
      ovrn := if 1 ≤ fld v 0 5 ∧ fld v 0 5 ≤ 16 then BitVec.ofNat 5 (fld v 0 5) else i.ovrn, enable := v.getLsbD 8 }
  | 0x20 => s.onInn fun i => { i with gsel := BitVec.ofNat 9 (fld v 0 9) }
  | _ => s

/-- INN_CELLAR_WRITE (R284). -/
def execInnCellarWrite (hi : Bool) (v : W32) (s : State) : Host.Outcome State Fault Refusal :=
  .next (if s.on 10 then writeCellar hi v s else s)

/-! ### Guest commands -/

def classNames : List String := ["keep", "main", "side", "spare"]
def classOf (w : String) : GClass := match w with | "keep" => .keep | "side" => .side | "spare" => .spare | _ => .main
def kGuest (n : String) : KeySpec := kInt n 0 511 true

/-- `guest.register` (R234, R235): a replaced registration keeps its map while the channel counts and D stay. -/
def guestRegisterV : Verb := {
  obj := "guest", name := "register", level := .keeper
  keys := [kGuest "id", kEnum "class" classNames, { name := "div", ty := .oneOf "" [1, 2, 4] }, kInt "in" 1 4, kInt "out" 1 4] }

def guestRegisterBody (_c : Ctx) (_p : Pfx) (e : Env) (s : State) : Res :=
  let g := e.nat "id"
  let x := s.guest g
  if x.state ≠ .free ∧ x.state ≠ .registered then .err (guestErr x) "" s
  else
    let d := (e.nat? "div").getD 1
    let i := (e.nat? "in").getD 1
    let o := (e.nat? "out").getD 1
    let same := decide (d = x.div ∧ i = x.nin ∧ o = x.nout)
    .ok [] (s.onGuest g fun x => { x with
      state := .registered, cls := ((e.word? "class").map classOf).getD .main, div := d, nin := i, nout := o
      ins := if same then x.ins else [], outs := if same then x.outs else [] })

def execGuestRegister (c : Ctx) (p : Pfx) (a : Args) (s : State) : Host.Outcome State Fault Refusal :=
  ulc guestRegisterV guestRegisterBody c p a s

/-- `guest.register … drop` (Table 6.2). -/
def guestDropV : Verb := {
  obj := "guest", name := "register", level := .keeper
  keys := [{ name := "drop", ty := .enum ["drop"], pos := true, req := true }, kGuest "id"] }

def guestDropBody (_c : Ctx) (_p : Pfx) (e : Env) (s : State) : Res :=
  let g := e.nat "id"
  let x := s.guest g
  if x.state ≠ .registered then .err (guestErr x) "" s
  else .ok [] (s.onInn fun i => { i with guests := tdel i.guests g })

def execGuestRegisterDrop (c : Ctx) (p : Pfx) (a : Args) (s : State) : Host.Outcome State Fault Refusal :=
  ulc guestDropV guestDropBody c p a s

/-- `guest.checkin` (R257 to R261): without `prec=`, the precision of the bundle, and WIDE for its first row. -/
def guestCheckinV : Verb := {
  obj := "guest", name := "checkin", event := true, level := .keeper
  keys := [kGuest "id", kName "plan" true, kEnum "prec" ["wide", "match"], kEnum "class" classNames, kEnum "phase" ["auto", "fixed"]] }

def guestCheckinBody (c : Ctx) (p : Pfx) (e : Env) (s : State) : Res :=
  let plan := e.plan "plan"
  let held := match s.plan? plan with
    | some q => if s.rowsOf plan Guest.isHeld = [] then Prec.wide else q.prec.getD .wide
    | none => .wide
  let prec := match e.word? "prec" with | some w => if w == "match" then Prec.match_ else .wide | none => held
  postEvent c p (.checkin (e.nat "id") plan prec ((e.word? "class").map classOf) (e.word "phase" == "fixed")) s

def execGuestCheckin (c : Ctx) (p : Pfx) (a : Args) (s : State) : Host.Outcome State Fault Refusal :=
  ulc guestCheckinV guestCheckinBody c p a s

/-- `guest.checkout` (Table 6.2). -/
def guestCheckoutV : Verb := { obj := "guest", name := "checkout", event := true, level := .keeper, keys := [kGuest "id"] }
def guestCheckoutBody (c : Ctx) (p : Pfx) (e : Env) (s : State) : Res := postEvent c p (.checkout (e.nat "id")) s
def execGuestCheckout (c : Ctx) (p : Pfx) (a : Args) (s : State) : Host.Outcome State Fault Refusal :=
  ulc guestCheckoutV guestCheckoutBody c p a s

/-- `guest.set place=away` (R250). -/
def guestAwayV : Verb := { obj := "guest", name := "set", event := true, level := .keeper, keys := [kGuest "id", kEnum "place" ["away"] true] }
def guestAwayBody (c : Ctx) (p : Pfx) (e : Env) (s : State) : Res := postEvent c p (.away (e.nat "id")) s
def execGuestAway (c : Ctx) (p : Pfx) (a : Args) (s : State) : Host.Outcome State Fault Refusal := ulc guestAwayV guestAwayBody c p a s

/-- `guest.set place=room` (R252). -/
def guestReturnV : Verb := { obj := "guest", name := "set", event := true, level := .keeper, keys := [kGuest "id", kEnum "place" ["room"] true] }
def guestReturnBody (c : Ctx) (p : Pfx) (e : Env) (s : State) : Res := postEvent c p (.back (e.nat "id")) s
def execGuestReturn (c : Ctx) (p : Pfx) (a : Args) (s : State) : Host.Outcome State Fault Refusal := ulc guestReturnV guestReturnBody c p a s

/-- `guest.set step=` (R204): a code for a row whose END has been applied is accepted and reported when it is applied (R210). -/
def guestStepV : Verb := {
  obj := "guest", name := "set", event := true, level := .keeper
  keys := [kGuest "id", kEnum "step" ["run", "reset", "hold", "end"] true] }
def stepOf (w : String) : StepCode := match w with | "reset" => .reset | "hold" => .hold | "end" => .stop | _ => .run
def guestStepBody (c : Ctx) (p : Pfx) (e : Env) (s : State) : Res :=
  let x := s.guest (e.nat "id")
  postChecked (x.state != .leaving) c p (.step (e.nat "id") (stepOf (e.word "step"))) s
def execGuestSetStep (c : Ctx) (p : Pfx) (a : Args) (s : State) : Host.Outcome State Fault Refusal := ulc guestStepV guestStepBody c p a s

/-- `guest.set class=` (R261). -/
def guestClassV : Verb := {
  obj := "guest", name := "set", event := true, level := .keeper, keys := [kGuest "id", kEnum "class" classNames true] }
def guestClassBody (c : Ctx) (p : Pfx) (e : Env) (s : State) : Res := postEvent c p (.gclass (e.nat "id") (classOf (e.word "class"))) s
def execGuestSetClass (c : Ctx) (p : Pfx) (a : Args) (s : State) : Host.Outcome State Fault Refusal := ulc guestClassV guestClassBody c p a s

/-- `guest.set bypass=` (the keyword macro of spec 03). -/
def guestBypassV : Verb := {
  obj := "guest", name := "set", event := true, level := .keeper, keys := [kGuest "id", { name := "bypass", ty := onOffTy, req := true }] }
def guestBypassBody (c : Ctx) (p : Pfx) (e : Env) (s : State) : Res :=
  postEvent c p (.bypass (e.nat "id") ((e.flag? "bypass").getD false)) s

/-- `guest.reopen` (R275): the last reopened row of a bundle ends its quarantine unless a stake of it has FAULT. -/
def guestReopenV : Verb := { obj := "guest", name := "reopen", level := .keeper, keys := [kGuest "id"] }

/-- Whether a stake of a plan has STK_STAT.FAULT. -/
def planFault (p : Plan) (s : State) : Bool := (List.range p.stakes).any fun j => (s.stake (p.base + j)).fault

def guestReopenBody (_c : Ctx) (_p : Pfx) (e : Env) (s : State) : Res :=
  let g := e.nat "id"
  let x := s.guest g
  if x.state ≠ .quarantined then .err 40 "" s
  else
    let s := toRegistered g s
    match s.plan? x.plan with
    | some p => .ok [] (if s.rowsOf p.name (fun x => x.state == .quarantined) = [] ∧ planFault p s = false then
        s.onPlan p.name fun q => { q with quar := false } else s)
    | none => .ok [] s

def execGuestReopen (c : Ctx) (p : Pfx) (a : Args) (s : State) : Host.Outcome State Fault Refusal := ulc guestReopenV guestReopenBody c p a s

def gstateS (g : GState) : String :=
  match g with
  | .free => "FREE" | .registered => "REGISTERED" | .staying => "STAYING" | .leaving => "LEAVING" | .away => "AWAY"
  | .quarantined => "QUARANTINED"
def precS (p : Prec) : String := match p with | .wide => "WIDE" | .match_ => "MATCH"

/-- `guest.show`; a field without a value in the guest's state reads `none`. -/
def guestShowV : Verb := { obj := "guest", name := "show", changes := false, keys := [kGuest "id"] }
def guestShowBody (_c : Ctx) (_p : Pfx) (e : Env) (s : State) : Res :=
  let x := s.guest (e.nat "id")
  let held := x.state.isHeld
  let named := held || x.state == .away
  let opt (b : Bool) (v : String) : String := if b then v else "none"
  .ok [spaced [kv "state" (gstateS x.state), kv "class" (classS x.cls), kv "plan" (opt named x.plan), kv "row" (opt held (natS x.row)),
    kv "rooms" (opt held (natS x.room)), kv "join" (opt named (natS x.join)), kn "div" x.div, kn "phase" (x.phase % max 1 x.div),
    kv "prec" (opt named (precS x.prec))]] s
def execGuestShow (c : Ctx) (p : Pfx) (a : Args) (s : State) : Host.Outcome State Fault Refusal := ulc guestShowV guestShowBody c p a s

/-! ### Rooms, the Innkeeper, bundles -/

/-- `room.show`. -/
def roomShowV : Verb := { obj := "room", name := "show", changes := false }
def roomShowBody (_c : Ctx) (_p : Pfx) (_e : Env) (s : State) : Res :=
  if s.on 10 then
    .ok [spaced [kv "held" (rangesS "" (s.inn.rooms.map (·.1))), kv "zeroing" (rangesS "" (s.inn.inUse.map (·.1))),
      kv "free" (rangesS "" (freeRoomList s))]] s
  else .err 40 "" s
def execRoomShow (c : Ctx) (p : Pfx) (a : Args) (s : State) : Host.Outcome State Fault Refusal := ulc roomShowV roomShowBody c p a s

/-- `inn.show`. -/
def innShowV : Verb := { obj := "inn", name := "show", changes := false }
def innShowBody (_c : Ctx) (_p : Pfx) (_e : Env) (s : State) : Res :=
  if s.on 10 then
    let i := s.inn
    .ok [spaced [kn "staying" (countGuests GState.inRounds s), kn "away" (countGuests (· == .away) s), kn "free" (freeRoomList s).length,
      kn "ovrn" i.ovrn.toNat, kv "shed" (onoff i.enable), kn "overload" (b2n i.overload), kn "swaplate" i.cSwap.toNat,
      kn "revoke" i.cRevoke.toNat, kn "quar" i.cQuar.toNat]] s
  else .err 40 "" s
def execInnShow (c : Ctx) (p : Pfx) (a : Args) (s : State) : Host.Outcome State Fault Refusal := ulc innShowV innShowBody c p a s

/-- `inn.set` (R285). -/
def innSetV : Verb := { obj := "inn", name := "set", level := .keeper, keys := [kInt "ovrn" 1 16, kOnOff "shed"] }
def innSetBody (_c : Ctx) (_p : Pfx) (e : Env) (s : State) : Res :=
  if s.on 10 then
    .ok [] (s.onInn fun i => { i with
      ovrn := ((e.nat? "ovrn").map (BitVec.ofNat 5)).getD i.ovrn, enable := (e.flag? "shed").getD i.enable })
  else .err 40 "" s
def execInnSet (c : Ctx) (p : Pfx) (a : Args) (s : State) : Host.Outcome State Fault Refusal := ulc innSetV innSetBody c p a s

/-- A channel number of the Hearth, or `none`. -/
def hearthVal (v : Val) : Option (Option Nat) :=
  match v with
  | .item (.word w) => if lowerS w == "none" then some none else none
  | .item i => (itemScaled "" 1 i).bind fun n => if 0 ≤ n ∧ n ≤ 7 then some (some n.toNat) else none
  | _ => none

/-- `bundle.set` (R277, R668). -/
def bundleSetV : Verb := {
  obj := "bundle", name := "set", event := true, level := .keeper, keys := [kName "plan" true, { name := "hearth", ty := .any, req := true }] }
def bundleSetBody (c : Ctx) (p : Pfx) (e : Env) (s : State) : Res :=
  match (e.raw? "hearth").bind hearthVal with
  | none => .err 13 "hearth" s
  | some ch => postEvent c p (.bind (e.plan "plan") ch) s
def execBundleSet (c : Ctx) (p : Pfx) (a : Args) (s : State) : Host.Outcome State Fault Refusal := ulc bundleSetV bundleSetBody c p a s

/-- `bundle.reopen` (R275). -/
def bundleReopenV : Verb := { obj := "bundle", name := "reopen", level := .keeper, keys := [kName "plan" true] }
def bundleReopenBody (_c : Ctx) (_p : Pfx) (e : Env) (s : State) : Res :=
  match s.plan? (e.plan "plan") with
  | none => .err 13 "plan" s
  | some p => if planFault p s then .err 50 "" s else .ok [] (reopenBundle p.name s)
def execBundleReopen (c : Ctx) (p : Pfx) (a : Args) (s : State) : Host.Outcome State Fault Refusal :=
  ulc bundleReopenV bundleReopenBody c p a s

/-- `bundle.show`: one line for each bundle, or the one named. -/
def bundleShowV : Verb := { obj := "bundle", name := "show", changes := false, keys := [kName "plan"] }
def bundleLine (s : State) (p : Plan) : String :=
  let rows := s.rowsOf p.name Guest.isHeld
  spaced [kv "plan" p.name, kn "rows" rows.length, kv "prec" (if rows.isEmpty then "none" else precS (p.prec.getD .wide)),
    kv "hearth" (match p.hearth with | some k => natS k | none => "none"), kn "muted" (b2n (planMuted s p)), kn "quar" (b2n p.quar),
    kv "guests" (commas (rows.map fun e => natS e.1))]
def bundleShowBody (_c : Ctx) (_p : Pfx) (e : Env) (s : State) : Res :=
  if e.has "plan" then
    match s.plan? (e.plan "plan") with
    | some p => .ok [bundleLine s p] s
    | none => .err 13 "plan" s
  else .ok (if s.weave.plans.isEmpty then ["bundles=none"] else s.weave.plans.map (bundleLine s)) s
def execBundleShow (c : Ctx) (p : Pfx) (a : Args) (s : State) : Host.Outcome State Fault Refusal := ulc bundleShowV bundleShowBody c p a s

/-- The verbs of this file; a verb with several forms stands once for each. -/
def guestVerbs : List (Verb × (Ctx → Pfx → Env → State → Res)) :=
  [(guestShowV, guestShowBody), (guestRegisterV, guestRegisterBody), (guestDropV, guestDropBody), (guestCheckinV, guestCheckinBody),
    (guestCheckoutV, guestCheckoutBody), (guestAwayV, guestAwayBody), (guestReturnV, guestReturnBody), (guestStepV, guestStepBody),
    (guestClassV, guestClassBody), (guestBypassV, guestBypassBody), (guestReopenV, guestReopenBody), (roomShowV, roomShowBody),
    (innShowV, innShowBody), (innSetV, innSetBody), (bundleShowV, bundleShowBody), (bundleSetV, bundleSetBody),
    (bundleReopenV, bundleReopenBody)]

end Sys2Proof.Machine
end

