-- ==== Sys2Proof/Machine/Plans.lean ====
section
/-! DEFINITION. Number formats on the console (R147, R697), weave plans (R225 to R230), boundary hops (R392 to R396), scale settings
(R182), and the stake registers (R184, R185, R231 to R233). -/

namespace Sys2Proof.Machine

/-! ### Formats -/

def upperS (t : String) : String := String.ofList (t.toList.map Char.toUpper)

/-- Hex digits of one element of a format as a register or reply writes it. -/
def fmtDigits (c : Nat) : Nat := (fmtBits c + 3) / 4

/-- A line of `fmt.show` (Table 4.1). -/
def fmtLine (c : Nat) : String :=
  let nan := match fmtKind c with | .flt f => hexS (fmtDigits c) f.nan | _ => "none"
  spaced [kv "fmt" (upperS (fmtNames.getD c "")), kv "code" (hexS 1 c), kn "bits" (if c = 5 then 24 else fmtBits c),
    kv "max" (if c = 9 then X.dec (g6Val 254 31) else X.dec (.fin (qmax c 0))), kv "nan" nan]

/-- `fmt.show`: Table 4.1, or one format. -/
def fmtShowV : Verb := { obj := "fmt", name := "show", changes := false, keys := [kEnum "fmt" fmtNames] }
def fmtShowBody (_c : Ctx) (_p : Pfx) (e : Env) (s : State) : Res :=
  match e.word? "fmt" with
  | some w => .ok [fmtLine (fmtNames.idxOf w)] s
  | none => .ok ((List.range 13).map fmtLine) s
def execFmtShow (c : Ctx) (p : Pfx) (a : Args) (s : State) : Host.Outcome State Fault Refusal := ulc fmtShowV fmtShowBody c p a s

/-- A decimal value of the line; a decimal zero has no sign (R697). -/
def decItem (i : Item) : Option X :=
  match i with
  | .num neg mant frac u =>
    let m : Option Nat := if u = "" then some 1 else multOf u
    m.map fun m => .fin ⟨neg && decide (0 < mant), mant * m, 10 ^ frac⟩
  | _ => none

/-- One source value of `fmt.conv` (R697): a code of G6 under exponent `e`, a bit pattern, or a decimal rounded into the source
format; none where it is refused. -/
def convSource (c z e : Nat) (i : Item) : Option X :=
  if c = 9 then
    (itemScaled "" 1 i).bind fun n => if -32 ≤ n ∧ n ≤ 31 then some (g6Val e (toCode 6 n)) else none
  else match i with
    | .hex _ v =>
      let bits := if c = 5 then 24 else fmtBits c
      if v < 2 ^ bits then some (fmtVal c z (if c = 5 then v * 256 else v)) else none
    | _ => (decItem i).bind fun x =>
      let r := fmtConv c z x
      if r.clip then none else some (fmtVal c z r.code)

/-- `fmt.conv` (R697). -/
def fmtConvV : Verb := {
  obj := "fmt", name := "conv", changes := false
  keys := [kEnum "from" fmtNames true, kEnum "to" fmtNames true, { name := "value", ty := .any, req := true }, kInt "e" 0 255,
    kInt "z" 0 255, kInt "sexp" (-126) 127] }

def fmtConvBody (_c : Ctx) (_p : Pfx) (e : Env) (s : State) : Res :=
  let src := fmtNames.idxOf (e.word "from")
  let dst := fmtNames.idxOf (e.word "to")
  let items := ((e.raw? "value").map valItems).getD []
  let z := e.nat "z"
  if items.isEmpty ∨ 32 < items.length ∨ (items.length ≠ 1 ∧ src ≠ 9 ∧ dst ≠ 9) then .err 13 "value" s
  else match allSome (items.map (convSource src z (e.nat "e"))) with
    | none => .err 13 "value" s
    | some xs =>
      let xs := xs.map fun x => x.shift (-(e.int "sexp"))
      let back (x : X) : X := x.shift (e.int "sexp")
      let counts (cs : List Conv) : List String := [kn "clip" (cs.filter (·.clip)).length, kn "nan" (cs.filter (·.nan)).length]
      if dst = 9 then
        let (se, cs) := g6Block xs
        .ok [spaced ([kv "e" (hexS 2 se), kv "codes" (commas (cs.map fun c => intS (sext 6 c.code))),
          kv "values" (commas (cs.map fun c => (back (g6Val se c.code)).dec))] ++ counts cs)] s
      else
        let cs := xs.map (fmtConv dst z)
        let code (c : Conv) : String := hexS (fmtDigits dst) c.code
        let val (c : Conv) : String := (back (fmtVal dst z c.code)).dec
        match cs with
        | [c] => .ok [spaced ([kv "code" (code c), kv "value" (val c)] ++ counts cs)] s
        | _ => .ok [spaced ([kv "codes" (commas (cs.map code)), kv "values" (commas (cs.map val))] ++ counts cs)] s

def execFmtConv (c : Ctx) (p : Pfx) (a : Args) (s : State) : Host.Outcome State Fault Refusal := ulc fmtConvV fmtConvBody c p a s

/-! ### Plan images (R225 to R227) -/

/-- An image as the part reads it: its bytes from offset 0, the offset of its trailer, and its section contents (log entry 4). -/
structure Image where
  rd      : Nat → Byte
  trailer : Nat
  body    : Option PlanBody

/-- A little-endian field of an image. -/
def Image.le (x : Image) (off n : Nat) : Nat := leNat ((List.range n).map fun k => x.rd (off + k))

/-- The end of the last section an image's directory names (R225). -/
def sectionsEnd (rd : Nat → Byte) : Nat :=
  let x : Image := ⟨rd, 0, none⟩
  let n := x.le 0x0E 2
  (List.range n).foldl (fun m i => max m (x.le (0x24 + 12 * i) 4 + x.le (0x28 + 12 * i) 4)) (0x20 + 12 * n)

/-- An image in LPDDR5X. -/
def imageAt (a : Nat) (s : State) : Image :=
  let rd (k : Nat) : Byte := s.ram.read (a + k)
  ⟨rd, sectionsEnd rd, tget s.mem.bodies a⟩

/-- A byte of the boot flash; one that its contents do not list reads as erased. -/
def flashByte (f : Flash) (a : Nat) : Byte := ((f.bytes.find? fun e => e.1 == a).map (·.2)).getD 0xFF

/-- The first entry of the directory in use of a type and name (R636). -/
def dirEntry (type : Nat) (name : String) (s : State) : Option DirEntry :=
  match s.sys.dirOf with
  | some (_, es) => es.find? fun e => e.type == type && sameWord e.name name
  | none => none

/-- An image of the image store. -/
def imageFlash (e : DirEntry) (f : Flash) : Image := ⟨fun k => flashByte f (e.offset + k), e.length - 68, tget f.bodies e.offset⟩

/-- The key slot field of an image's trailer. -/
def Image.slot (x : Image) : Nat := x.le x.trailer 4

/-- Whether an image's signature verifies (R638): the slot is named by bits 1:0 alone, programmed and not revoked. -/
def sigVerifies (slot : Nat) (ok : Bool) (s : State) : Bool :=
  decide (slot < 4) && s.sys.keyprog.getLsbD slot && !s.sys.keyrev.getLsbD slot && ok

/-! ### The fit of a plan (R226) -/

/-- Whether a format is one of the six operand formats (R153). -/
def operandFmt (c : Nat) : Bool := [0, 1, 2, 7, 8, 9].contains c

/-- The source fields a micro-op reads. -/
def opReads (op : Nat) (a b c : Nat) : List Nat :=
  match op with
  | 0x01 => [a, b] | 0x02 => [a, b] | 0x03 => [a, b, c] | 0x09 => [a, b, c]
  | 0x00 => [] | _ => [a]

/-- Whether a source code is defined (Table 5.7). -/
def srcOk (x : Nat) : Bool := decide (x ≤ 0x25) || x == 0x3F

/-- A CUSTOM recipe checked from its first op on, `wr` the lane registers written and `n` the WOUTs seen (R220). -/
def opsOk (tables : Nat) (wr : List Nat) (n : Nat) (l : List W32) : Bool :=
  match l with
  | [] => n == 1
  | w :: r =>
    let op := fld w 26 6
    let reads := opReads op (fld w 17 6) (fld w 11 6) (fld w 5 6)
    decide (op ≤ 0x0D) && reads.all srcOk && reads.all (fun x => decide (8 ≤ x) || wr.contains x) &&
      (op != 0x0A || decide (fld w 0 5 < tables)) &&
      opsOk tables (if 1 ≤ op ∧ op ≤ 0x0A then fld w 23 3 :: wr else wr) (if op = 0x0D then n + 1 else n) r

/-- One layer's own limits (R150, R153, R160, R164, R170, R216, R220, R222, Table 5.12). -/
def layerFits (b : PlanBody) (ly : Layer) : Bool :=
  let mats := ly.matPorts.filterMap fun p => b.ports[p.1]?
  let g6 := ly.wfmt == 9 || ly.infmt == 9 || mats.any fun p => p.fmt == 9
  let expOk (e : Int) : Bool := decide (-126 ≤ e ∧ e ≤ 127)
  decide (1 ≤ ly.h ∧ ly.h ≤ 4095) && operandFmt ly.wfmt && operandFmt ly.infmt && mats.all (fun p => operandFmt p.fmt) &&
    (ly.glen == 32 || (!g6 && (ly.glen == 64 || ly.glen == 128))) && decide (ly.outfmt ≤ 12) &&
    decide (ly.wz ≤ 255 ∧ ly.inz ≤ 255 ∧ ly.outz ≤ 255) && expOk ly.exp0 && ly.fallback.all expOk &&
    decide (1 ≤ ly.win ∧ ly.win ≤ 8) && decide (ly.hr ≤ 3) && decide (-126 ≤ ly.emin ∧ ly.emin ≤ ly.emax ∧ ly.emax ≤ 127) &&
    decide (ly.matPorts.length + ly.walPorts.length ≤ 4) && decide (1 ≤ ly.blocks ∧ ly.blocks ≤ 4) &&
    decide (1 ≤ ly.ops.length ∧ ly.ops.length ≤ 16) && (ly.recipe != 4 || opsOk b.tables.length [] 0 ly.ops) &&
    ly.ops.all (fun w => fld w 26 6 != 0x0A || decide (fld w 0 5 < b.tables.length)) && decide (ly.recipe ≤ 4)

/-- Bytes of conditioning a row takes on a stake (R222): every port that feeds a layer there. -/
def condBytes (b : PlanBody) (ls : List Layer) : Nat := ((stakePorts b ls).map fun k => ((b.ports[k]?).map portBytes).getD 0).sum

/-- Whether a plan fits the part (R226 step 3: R11, R153, R162, R163, R220, R292 and the areas of Table 5.1, with the ranges of
Table 5.9). DESIGN CHOICE (log entry 78): the room demand R11 speaks of is ROWS times the rooms of one row at the precision that needs
fewer, and must not pass the 32 rooms of the store. -/
def planFits (p : Plan) : Bool :=
  let b := p.body
  let rooms := [Prec.wide, Prec.match_].filterMap (roomsNeeded p)
  decide (1 ≤ p.nLayers ∧ p.nLayers ≤ 384) && decide (1 ≤ p.stakes ∧ p.stakes ≤ 48) && decide (1 ≤ p.rows ∧ p.rows ≤ 16) &&
    decide (p.chip < p.chips ∧ p.chips ≤ 8) && decide (1 ≤ b.first ∧ b.first + b.layers.length ≤ p.nLayers + 1) &&
    decide (1 ≤ b.nin ∧ b.nin ≤ 4 ∧ 1 ≤ b.nout ∧ b.nout ≤ 4) && decide (b.ports.length ≤ 16) &&
    b.ports.all (fun d => decide (d.zp ≤ 255)) && b.layers.all (layerFits b) &&
    b.store.all (fun e => decide (e.1 < p.stakes ∧ e.2.1 < 0x200000)) &&
    b.layers.all (fun ly => decide (ly.stake < p.stakes)) &&
    (List.range p.stakes).all (fun j =>
      let ls := (layersOn p j).map (·.2)
      decide (ls.length ≤ 8) && decide ((ls.map scaleEntries).sum ≤ 4096) && decide ((ls.map (sumEntries b)).sum ≤ 32768) &&
        decide ((ls.map fun ly => matrixBytes ly + vectorBytes ly).sum ≤ 1768 * 1024) &&
        decide ((stakeTables b ls).length ≤ 16) && decide (condBytes b ls ≤ 2048)) &&
    rooms.any (fun n => decide (p.rows * n ≤ 32))

/-- A plan built from an image, before it is placed; its recipes are those of R219. -/
def planOfImage (name : String) (src : String) (x : Image) (b : PlanBody) : Plan :=
  let b := { b with layers := b.layers.map withRecipe }
  { name := name, src := src, nLayers := x.le 0x06 2, stakes := x.le 0x08 1, rows := x.le 0x09 1, rates := x.rd 0x0A, chip := x.le 0x0B 1
    chips := x.le 0x0C 1, base := 0, key := x.slot, member := x.le 0x0D 1, label := (List.range 16).map fun k => x.rd (0x10 + k), body := b
    sets := b.layers.map fun ly => { mode := ly.smode, win := ly.win, hr := ly.hr, exp0 := ly.exp0 }
    hops := b.hops.map fun h => { def_ := h, late := h.late } }

/-! ### Loading and unloading -/

/-- Whether a stake belongs to a loaded plan. -/
def stakeUsed (k : Nat) (s : State) : Bool := (s.planAt k).isSome

/-- The lowest base with `n` consecutive free stakes (R228). -/
def findBase (n : Nat) (s : State) : Option Nat :=
  (List.range 48).find? fun b => decide (b + n ≤ 48) && (List.range n).all fun j => !stakeUsed (b + j) s

/-- The stores of a plan's stakes filled (Table 5.1): the bytes its image gives, its job lists among them, and over them the areas whose
contents the part reads. -/
def fillStores (p : Plan) (s : State) : State :=
  let s := s.forEach (List.range p.stakes) fun j s => { s with ram := s.ram.zero (stakeBase (p.base + j)) 0x200000 }
  let s := s.forEach p.body.store fun e s => { s with ram := s.ram.write (stakeBase (p.base + e.1) + e.2.1) e.2.2 }
  s.forEach (List.range p.stakes) fun j s => s.forEach (stakeAreas p j) fun a s =>
    { s with ram := s.ram.writeN (stakeBase (p.base + j) + a.1) a.2 }

/-- A plan placed on its stakes, with a window opened for each incoming hop (R394). -/
def placePlan (p : Plan) (s : State) : State :=
  let s := fillStores p s
  let s := s.onWeave fun w => { w with plans := w.plans ++ [p] }
  s.forEach (p.hops.filter fun h => h.def_.cchip == p.chip) fun h s =>
    match (if s.on 8 then hopWindow s else none) with
    | some w =>
      let s := openWindow w { len := 2 * p.rows * h.def_.size, wr := true, route := some 512, hop := some (p.name, h.def_.hop) } s
      s.onPlan p.name fun q => { q with hops := q.hops.map fun x => if x.def_.hop = h.def_.hop then { x with win := some w } else x }
    | none => s

/-- The base rates a plan allows. -/
def ratesS (r : BitVec 8) : String := commas (((List.range 6).filter (r.getLsbD ·)).map fun i => rateS (BitVec.ofNat 3 i))

/-- The line that reports a plan. -/
def planLine (p : Plan) : String :=
  let room (x : Prec) : String := match roomsNeeded p x with | some n => natS n | none => "none"
  spaced [kv "name" p.name, kv "stakes" (if p.stakes = 1 then natS p.base else natS p.base ++ "-" ++ natS (p.base + p.stakes - 1)),
    kn "layers" p.nLayers, kn "rows" p.rows, kv "rates" (ratesS p.rates), kv "rooms.wide" (room .wide), kv "rooms.match" (room .match_),
    kn "key" p.key]

/-- `plan.load` (R226 to R229, R636). -/
def planLoadV : Verb := {
  obj := "plan", name := "load", level := .keeper, keys := [kName "name" true, kName "as", kInt "base" 0 47, kHex "addr" 48] }

/-- The image a `plan.load` names, or the error it meets. -/
def loadImage (e : Env) (s : State) : Except (Nat × String) Image :=
  match e.nat? "addr" with
  | some a =>
    if s.mem.valid = false then .error (40, "addr") else if inUsable a 0x20 s = false then .error (13, "addr") else .ok (imageAt a s)
  | none =>
    match s.sys.flash, dirEntry 2 (e.word "name") s with
    | some f, some d => .ok (imageFlash d f)
    | _, _ => .error (13, "name")

/-- The checks of an image after its magic (R226 steps 2 and 3): the plan, and whether it loads unsigned. -/
def checkImage (name src : String) (x : Image) (s : State) : Except (Nat × String) (Plan × Bool) :=
  let ok := sigVerifies x.slot ((x.body.map (·.sigOk)).getD false) s
  if !ok ∧ s.sys.sigenf then .error (60, "")
  else match x.body with
    | none => .error (61, "")
    | some b =>
      let p := planOfImage name src x b
      if planFits p then .ok (p, !ok) else .error (61, "")

/-- The base of a placement (R228), where there is one. -/
def placeBase (e : Env) (n : Nat) (s : State) : Option Nat := (e.nat? "base").or (findBase n s)

/-- Whether an image begins with the magic and version of Table 5.9. -/
def Image.magicOk (x : Image) : Bool := x.le 0 4 == 0x50575641 && x.le 4 2 == 0x0100

/-- What a load lacks before its image is checked (R108, R228, R229): a base past stake 47, the domain of a stake that takes a layer,
a name or a stake in use. An image without its magic places nothing. -/
def placeFail (e : Env) (name : String) (x : Image) (s : State) : Option (Nat × String) :=
  let n := if x.magicOk then x.le 0x08 1 else 0
  let layers := ((x.body.map (·.layers)).getD []).map (·.stake)
  let onOff (b : Nat) : Bool := (List.range n).any fun j => layers.contains j && !s.on (12 + (b + j) / 12)
  if (e.nat? "base").any fun b => decide (48 < b + n) then some (13, "base")
  else if (placeBase e n s).any onOff then some (40, "")
  else if (s.plan? name).isSome then some (30, if e.has "as" then "as" else "name")
  else if (e.nat? "base").any fun b => (List.range n).any fun j => stakeUsed (b + j) s then some (30, "base")
  else none

def planLoadBody (_c : Ctx) (_p : Pfx) (e : Env) (s : State) : Res :=
  let name := if e.has "as" then e.plan "as" else e.plan "name"
  match loadImage e s with
  | .error (n, k) => .err n k s
  | .ok x =>
    match placeFail e name x s with
    | some (n, k) => .err n k s
    | none =>
      if !x.magicOk then .err 61 "" s
      else match checkImage name (e.plan "name") x s with
        | .error (n, k) => .err n k s
        | .ok (p, unsigned) =>
          match placeBase e p.stakes s with
          | none => .err 32 "" s
          | some b =>
            let p := { p with base := b }
            let s := placePlan p s
            let s := if unsigned then
                logEv 0 0x0201 0 (leNat (p.label.take 8)) p.key (notify "plan" ("unsigned " ++ kv "name" p.name ++ " " ++ kn "slot" p.key) s)
              else s
            .ok [planLine p] s

def execPlanLoad (c : Ctx) (p : Pfx) (a : Args) (s : State) : Host.Outcome State Fault Refusal := ulc planLoadV planLoadBody c p a s

/-- A plan taken from its stakes: their FAULT is cleared, and the windows of its hops close. -/
def dropPlan (p : Plan) (s : State) : State :=
  let s := s.forEach (List.range p.stakes) fun j s => s.onStake (p.base + j) fun k => { k with fault := false }
  let s := s.forEach (p.hops.filterMap (·.win)) closeWindow
  s.onWeave fun w => { w with plans := w.plans.filter fun q => q.name != p.name, todo := w.todo.filter fun t =>
    !(decide (p.base ≤ t.1) && decide (t.1 < p.base + p.stakes)) }

/-- `plan.unload` (R230, R276). -/
def planUnloadV : Verb := { obj := "plan", name := "unload", level := .keeper, keys := [kName "name" true] }
def planUnloadBody (_c : Ctx) (_p : Pfx) (e : Env) (s : State) : Res :=
  match s.plan? (e.plan "name") with
  | none => .err 13 "name" s
  | some p =>
    if s.rowsOf p.name Guest.inRounds ≠ [] ∨ (p.quar = false ∧ s.rowsOf p.name (fun x => x.state == .away) ≠ []) then .err 30 "" s
    else .ok [] (dropPlan p (reopenBundle p.name s))
def execPlanUnload (c : Ctx) (p : Pfx) (a : Args) (s : State) : Host.Outcome State Fault Refusal := ulc planUnloadV planUnloadBody c p a s

/-- `plan.show`. -/
def planShowV : Verb := { obj := "plan", name := "show", changes := false, keys := [kName "name"] }
def planShowBody (_c : Ctx) (_p : Pfx) (e : Env) (s : State) : Res :=
  if e.has "name" then
    match s.plan? (e.plan "name") with
    | some p => .ok [planLine p] s
    | none => .err 13 "name" s
  else .ok (if s.weave.plans.isEmpty then ["plans=none"] else s.weave.plans.map planLine) s
def execPlanShow (c : Ctx) (p : Pfx) (a : Args) (s : State) : Host.Outcome State Fault Refusal := ulc planShowV planShowBody c p a s

/-! ### Hops -/

/-- What an outgoing hop of a full bundle takes of its port and stake (R404): wire bytes a round, drain time and B_hop. -/
def hopBudget (p : Plan) (h : Hop) (r : Nat) (s : State) : List String :=
  let wb := wireBytes s r h.def_.size
  let tw := wb * 8 * 10 ^ 6 / lineMbps s (s.route r).port
  let tr := match p.body.layers[h.def_.src - p.body.first]? with
    | some ly => if s.clk.freq.toNat = 0 then 0 else cRow ly * 10 ^ 6 / s.clk.freq.toNat
    | none => 0
  let drain := p.rows * tw - (p.rows - 1) * min tr tw
  [kn "wire" (p.rows * wb), kv "drain" (decS 3 ((drain + 500) / 1000) ++ "us"), kn "bhop" (budgetAt s.clk.freq.toNat s.fs 2500)]

/-- `plan.hop` (R395, R396). -/
def planHopV : Verb := {
  obj := "plan", name := "hop", level := .keeper
  keys := [kName "name" true, kInt "hop" 0 65535 true, kInt "route" 0 511 true, kHex "key" 32] }
def planHopBody (_c : Ctx) (_p : Pfx) (e : Env) (s : State) : Res :=
  match s.plan? (e.plan "name") with
  | none => .err 13 "name" s
  | some p =>
    let r := e.nat "route"
    match p.hops.find? fun h => h.def_.hop == e.nat "hop" with
    | none => .err 13 "hop" s
    | some h =>
      let out := h.def_.pchip == p.chip
      let bindTo (f : Hop → Hop) (s : State) : State :=
        s.onPlan p.name fun q => { q with hops := q.hops.map fun x => if x.def_.hop = h.def_.hop then f x else x }
      if (s.route r).state ≠ .opened then .err 40 "route" s
      else if (s.route r).bind ≠ .none ∨ s.rowsOf p.name Guest.isHeld ≠ [] then .err 30 "" s
      else if out then
        .ok [spaced ([kn "hop" h.def_.hop, kv "dir" "out", kn "rec" h.def_.size] ++ hopBudget p h r s)]
          (bindTo (fun x => { x with route := some r, key := some (BitVec.ofNat 32 (e.nat "key")) }) s)
      else match h.win with
        | none => .err 40 "" s
        | some w =>
          let s := s.onWin w fun x => { x with route := some r }
          .ok [spaced [kn "hop" h.def_.hop, kv "dir" "in", kn "rec" h.def_.size, kv "key" (hexS 8 (winKey w s).toNat)]]
            (bindTo (fun x => { x with route := some r }) s)
def execPlanHop (c : Ctx) (p : Pfx) (a : Args) (s : State) : Host.Outcome State Fault Refusal := ulc planHopV planHopBody c p a s

/-- `plan.set … hop= late=` (R401, R403). -/
def planSetHopV : Verb := {
  obj := "plan", name := "set", event := true, level := .keeper
  keys := [kName "name" true, kInt "hop" 0 65535 true, kEnum "late" ["hold", "zero", "mute"] true] }
def lateOf (w : String) : HopLate := match w with | "zero" => .zero | "mute" => .mute | _ => .hold
def planSetHopBody (c : Ctx) (p : Pfx) (e : Env) (s : State) : Res :=
  match s.plan? (e.plan "name") with
  | none => .err 13 "name" s
  | some q =>
    if q.hops.any fun h => h.def_.hop == e.nat "hop" then postEvent c p (.hopLate q.name (e.nat "hop") (lateOf (e.word "late"))) s
    else .err 13 "hop" s
def execPlanSetHop (c : Ctx) (p : Pfx) (a : Args) (s : State) : Host.Outcome State Fault Refusal := ulc planSetHopV planSetHopBody c p a s

/-! ### Scale settings -/

def smodeNames : List String := ["folded", "table", "table-adapt"]
def smodeOf (w : String) : SMode := match w with | "folded" => .folded | "table" => .table | _ => .adapt
def smodeNum (m : SMode) : Nat := match m with | .folded => 0 | .table => 1 | .adapt => 2
def smodeS (m : SMode) : String := upperS (smodeNames.getD (smodeNum m) "")

/-- Whether `plan.set` may set a layer's mode (R182); the mode it was compiled in is no change. -/
def modeAllowed (ly : Layer) (m : SMode) : Bool := m == ly.smode || (m != .folded && (ly.smode == .table || ly.fallback.isSome))

/-- `plan.set` of a layer (R182). -/
def planSetV : Verb := {
  obj := "plan", name := "set", event := true, level := .keeper
  keys := [kName "name" true, kInt "layer" 1 384 true, kEnum "smode" smodeNames, kInt "win" 1 8, kInt "hr" 0 3, kInt "exp" (-126) 127] }
def planSetBody (c : Ctx) (p : Pfx) (e : Env) (s : State) : Res :=
  match s.plan? (e.plan "name") with
  | none => .err 13 "name" s
  | some q =>
    let k := e.nat "layer"
    let mode := (e.word? "smode").map smodeOf
    match (if k < q.body.first then none else q.body.layers[idxOf q k]?) with
    | none => .err 13 "layer" s
    | some ly =>
      if mode.any fun m => !modeAllowed ly m then .err 13 "smode" s
      else postEvent c p (.scale q.name k mode (e.nat? "win") (e.nat? "hr") (e.int? "exp")) s
def execPlanSet (c : Ctx) (p : Pfx) (a : Args) (s : State) : Host.Outcome State Fault Refusal := ulc planSetV planSetBody c p a s

/-! ### Stakes -/

/-- The layer of a slot of a stake, with its plan, its index and its settings (R184). -/
def slotLayer (k j : Nat) (s : State) : Option (Plan × Nat × Layer × LayerSet) :=
  match s.planAt k with
  | none => none
  | some p => match (layersOn p (k - p.base))[j]? with
    | some (i, ly) => (p.sets[i]?).map fun st => (p, i, ly, st)
    | none => none

def recipeS (n : Nat) : String := match n with | 0 => "GRU" | 1 => "LSTM" | 2 => "MGU" | 3 => "PLAIN" | _ => "CUSTOM"

/-- STK_SCL_LAYERj (Table 4.7). -/
def sclLayer (k j : Nat) (s : State) : W32 :=
  match slotLayer k j s with
  | none => 0
  | some (_, _, ly, st) =>
    put 24 (BitVec.ofInt 8 ly.emin).toNat + put 16 (BitVec.ofInt 8 ly.emax).toNat + put 11 st.hr + put 8 (st.win - 1) +
      put 4 (b2n st.switched) + put 3 (b2n st.drift) + put 2 (b2n ly.fallback.isSome) + put 0 (smodeNum st.mode)

/-- WALE_SLOTj (Table 5.12). -/
def waleSlot (k j : Nat) (s : State) : W32 :=
  match slotLayer k j s with
  | none => 0
  | some (p, _, ly, _) =>
    let split := ((List.range 4).map fun b => if ly.split.getD b false then 2 ^ b else 0).sum
    let prec := if s.rowsOf p.name Guest.isHeld = [] then 0 else b2n (p.prec == some .match_)
    put 20 ly.h + put 16 split + put 12 (ly.blocks - 1) + put 8 (ly.ops.length - 1) + put 4 prec + put 0 ly.recipe

/-- STK_STAT (Table 5.10). -/
def stkStat (k : Nat) (s : State) : W32 :=
  match s.planAt k with
  | none => put 2 (b2n (s.stake k).fault)
  | some p => put 8 (k - p.base) + put 4 (layersOn p (k - p.base)).length + put 2 (b2n (s.stake k).fault) +
      put 1 (b2n !(s.rowsOf p.name Guest.inRounds).isEmpty) + 1

/-- A read in the block of stake `k` (R184, R185, R231 to R233). -/
def stkRead (k off : Nat) (s : State) : W32 × State :=
  let x := s.stake k
  if 0x100 ≤ off ∧ off < 0x120 then (if off % 4 = 0 then sclLayer k ((off - 0x100) / 4) s else 0, s)
  else if 0x800 ≤ off ∧ off < 0x820 then (if off % 4 = 0 then waleSlot k ((off - 0x800) / 4) s else 0, s)
  else match off with
    | 0x00 => (stkStat k s, s)
    | 0x08 => (put 16 x.peak.toNat + put 0 x.last.toNat, s.onStake k fun x => { x with peak := 0 })
    | 0x0C => (put 0 (min s.budget 65535), s)
    | 0x10 => (x.ovr, s.onStake k fun x => { x with ovr := 0 })
    | 0x14 => (put 16 x.ded.toNat + put 0 x.sec.toNat, s.onStake k fun x => { x with ded := 0, sec := 0 })
    | 0x120 => (put 16 x.nan.toNat + put 0 x.clip.toNat, s.onStake k fun x => { x with nan := 0, clip := 0 })
    | _ => (0, s)

/-- DRIFT of a layer cleared. -/
def clearDrift (p : Plan) (i : Nat) (s : State) : State :=
  s.onPlan p.name fun q => { q with sets := lmod q.sets i fun st => { st with drift := false } }

/-- A write in the block of stake `k`: FAULT and DRIFT are W1C. -/
def stkWrite (k off : Nat) (v : W32) (s : State) : State :=
  if off = 0 then (if v.getLsbD 2 then s.onStake k fun x => { x with fault := false } else s)
  else if 0x100 ≤ off ∧ off < 0x120 ∧ off % 4 = 0 ∧ v.getLsbD 3 then
    match slotLayer k ((off - 0x100) / 4) s with
    | some (p, i, _, _) => clearDrift p i s
    | none => s
  else s

/-- `stk.show` (R184, R232). -/
def stkShowV : Verb := {
  obj := "stk", name := "show", changes := false
  keys := [{ name := "view", ty := .enum ["jobs", "scale"], pos := true }, kInt "k" 0 47 true] }

/-- The lines of `stk.show … jobs`. -/
def stkJobs (k : Nat) (s : State) : List String :=
  let x := s.stake k
  let ls := (List.range 8).filterMap fun j => (slotLayer k j s).map fun e => (j, e)
  let n := match s.planAt k with | some p => (planRows s p).length | none => 0
  (ls.map fun e =>
    let (j, p, i, ly, _) := e
    spaced [kn "slot" j, kn "layer" (p.body.first + i), kv "recipe" (recipeS ly.recipe), kn "rows" n, kn "mat" (cMat ly), kn "wale" (cWale ly),
      kn "job" (n * cRow ly)]) ++
    [spaced [kn "budget" s.budget, kn "used" x.last.toNat, kn "peak" x.peak.toNat, kn "ovr" x.ovr.toNat, kn "sec" x.sec.toNat,
      kn "fault" (b2n x.fault)]]

/-- The lines of `stk.show … scale`. -/
def stkScale (k : Nat) (s : State) : List String :=
  let x := s.stake k
  let ls := (List.range 8).filterMap fun j => (slotLayer k j s).map fun e => (j, e)
  (ls.map fun e =>
    let (j, p, i, ly, st) := e
    let rows := ((List.range p.rows).filterMap fun r => s.guestOfRow p.name r).map (·.2)
    let exp (g : Guest) : Int := match st.mode with
      | .folded => 0
      | .table => if ly.outfmt = 9 then 0 else st.exp0
      | .adapt => if ly.outfmt = 9 then 0 else ((g.layers[i]?).map (·.exp)).getD 0
    [spaced [kn "layer" (p.body.first + i), kn "slot" j, kv "mode" (smodeS st.mode), kn "win" st.win, kn "hr" st.hr, kv "emin" (intS ly.emin),
      kv "emax" (intS ly.emax), kv "fallback" (yesno ly.fallback.isSome), kn "drift" (b2n st.drift)],
     spaced [kn "rows" rows.length, kv "exp" (commas (rows.map fun g => intS (exp g))), kn "clipstep" x.clip.toNat, kn "nan" x.nan.toNat]]).flatten

def stkShowBody (_c : Ctx) (_p : Pfx) (e : Env) (s : State) : Res :=
  let k := e.nat "k"
  if s.on (12 + k / 12) = false then .err 40 "k" s
  else match e.word? "view" with
    | some "jobs" => .ok (stkJobs k s) s
    | some _ => .ok (let l := stkScale k s; if l.isEmpty then ["slots=0"] else l) s
    | none =>
      let name := match s.planAt k with | some p => p.name | none => "none"
      let v := stkStat k s
      .ok [spaced [kn "k" k, kn "loaded" (fld v 0 1), kv "plan" name, kn "logical" (fld v 8 8), kn "slots" (fld v 4 4),
        kn "running" (fld v 1 1), kn "fault" (fld v 2 1)]] s
def execStkShow (c : Ctx) (p : Pfx) (a : Args) (s : State) : Host.Outcome State Fault Refusal := ulc stkShowV stkShowBody c p a s

/-- `stk.set … drift=clear` (R184). -/
def stkSetV : Verb := {
  obj := "stk", name := "set", level := .keeper, keys := [kInt "k" 0 47 true, kInt "layer" 1 384 true, kEnum "drift" ["clear"] true] }
def stkSetBody (_c : Ctx) (_p : Pfx) (e : Env) (s : State) : Res :=
  let k := e.nat "k"
  let slot := ((List.range 8).filterMap fun j => slotLayer k j s).find? fun x => x.1.body.first + x.2.1 == e.nat "layer"
  match slot with
  | none => .err 13 "layer" s
  | some (p, i, _, _) => if s.on (12 + k / 12) = false then .err 40 "k" s else .ok [] (clearDrift p i s)
def execStkSet (c : Ctx) (p : Pfx) (a : Args) (s : State) : Host.Outcome State Fault Refusal := ulc stkSetV stkSetBody c p a s

/-- The verbs of this file. -/
def planVerbs : List (Verb × (Ctx → Pfx → Env → State → Res)) :=
  [(fmtShowV, fmtShowBody), (fmtConvV, fmtConvBody), (planShowV, planShowBody), (planLoadV, planLoadBody), (planUnloadV, planUnloadBody),
    (planSetV, planSetBody), (planSetHopV, planSetHopBody), (planHopV, planHopBody), (stkShowV, stkShowBody), (stkSetV, stkSetBody)]

end Sys2Proof.Machine
end

