-- ==== Sys2Proof/Machine/Larder.lean ====
section
/-! DEFINITION. The Larder and external memory (spec 07): table descriptors, the row cache, requests and their service, deliveries,
the leases the Innkeeper revokes (R269 to R272), memory training, and the LDR and MEM registers. -/

namespace Sys2Proof.Machine

/-! ### Tables and the row cache (R288 to R291, R311 to R316) -/

/-- Bytes of a table. -/
def TableD.bytes (d : TableD) : Nat := d.rows * d.size

/-- The set of a line of table `t` (R311): line number plus 256 t, modulo 8192. -/
def lineSet (t off : Nat) : Nat := (off + t * 256) % 8192

/-- Lines of a pinned table in set `n` (R311, R313). -/
def pinnedIn (t : Nat) (d : TableD) (n : Nat) : Nat :=
  if d.pin then
    let lines := d.bytes / 64
    lines / 8192 + b2n (decide ((n + 8192 - t * 256 % 8192) % 8192 < lines % 8192))
  else 0

/-- Pinned ways of a set under the descriptors `ts`. -/
def pinWays (ts : Tab TableD) (n : Nat) : Nat := (ts.map fun e => pinnedIn e.1 e.2 n).sum

/-- The largest count of pinned ways in any set: it rises only at the first line of a pinned table. -/
def maxPin (ts : Tab TableD) : Nat := (ts.map fun e => pinWays ts (e.1 * 256 % 8192)).foldl max 0

/-- Ways of a table in the fullest set. -/
def tableWays (d : TableD) : Nat := if d.pin then (d.bytes / 64 + 8191) / 8192 else 0

/-- The lines of a row, as line numbers of the table. -/
def rowLines (d : TableD) (r : Nat) : List Nat := (List.range (d.size / 64)).map (r * (d.size / 64) + ·)

/-- The cached line of a table, if any. -/
def cachedLine (s : State) (t off : Nat) : Option Line := s.ldr.cache.find? fun l => l.table == t && l.off == off

/-- Whether a row is in the cache: a LOCAL table is there whole from its pinning on (R313), until its lines are discarded (R316). -/
def rowCached (s : State) (t : Nat) (d : TableD) (r : Nat) : Bool :=
  s.ldr.whole.contains t || (rowLines d r).all fun o => (cachedLine s t o).isSome

/-- The bytes of a LOCAL row (R289). -/
def localRow (s : State) (d : TableD) (r : Nat) : List Byte := s.ram.readN (d.addr + r * d.size) d.size

/-- The bytes of a cached row: a LOCAL line equals the memory it covers (R315). -/
def cachedRow (s : State) (t : Nat) (d : TableD) (r : Nat) : List Byte :=
  if d.local_ then localRow s d r else ((rowLines d r).map fun o => ((cachedLine s t o).map (·.data)).getD []).flatten

/-- The last unpinned line of a set taken out. -/
def evictLast (n : Nat) (l : List Line) : List Line :=
  match l with
  | [] => []
  | x :: r => if x.set = n && !x.pin && !(r.any fun y => y.set == n && !y.pin) then r else x :: evictLast n r

/-- A line put into the cache in the most- or least-recently-used position; the least recently used unpinned line of a full set is
replaced (R311, R312). -/
def putLine (mru : Bool) (x : Line) (s : State) : State :=
  s.onLdr fun l =>
    let c := l.cache.filter fun y => !(y.table == x.table && y.off == x.off)
    let used := (c.filter fun y => y.set == x.set && !y.pin).length
    let room := 16 - pinWays l.tables x.set
    let c := if !x.pin && decide (room ≤ used) then evictLast x.set c else c
    if !x.pin && decide (room = 0) then { l with cache := c } else { l with cache := if mru then x :: c else c ++ [x] }

/-- A row put into the cache; a table that is there whole already has it. -/
def putRow (mru : Bool) (t : Nat) (d : TableD) (r : Nat) (bs : List Byte) (s : State) : State :=
  if s.ldr.whole.contains t then s
  else s.forEach (rowLines d r) fun o s =>
    let k := o % (d.size / 64)
    putLine mru ⟨lineSet t o, t, o, d.pin, if d.local_ then [] else (bs.drop (64 * k)).take 64⟩ s

/-- Unpinned lines beyond the unpinned ways of their set dropped, the least recently used first (R313, R314). -/
def trimCache (ts : Tab TableD) (l : List Line) : List Line :=
  l.foldl (fun kept x =>
    if x.pin || decide ((kept.filter fun y => y.set == x.set && !y.pin).length < 16 - pinWays ts x.set) then kept ++ [x] else kept) []

/-! ### Slots -/

/-- Free fetch slots (R308). -/
def freeSlots (s : State) : Nat := 64 - s.ldr.slots.length

/-- The lowest free slot. -/
def freeSlot (s : State) : Option Nat := (List.range 64).find? fun n => (tget s.ldr.slots n).isNone

/-- The slot that fetches a row. -/
def slotOf (s : State) (t r : Nat) : Option Nat := (s.ldr.slots.find? fun e => e.2.table == t && e.2.row == r).map (·.1)

/-- A row fetch started: a slot is taken, and a REMOTE row is read over its table's route (R308, R309), which carries a READ only while
it is OPEN (R340). Without a slot, or a place for the READ, it waits. -/
def startFetch (g t r : Nat) (d : TableD) (prefetch : Bool) (s : State) : State :=
  match freeSlot s with
  | none => s
  | some n =>
    let f : Fetch := { table := t, row := r, prefetch := prefetch, route := if d.local_ then none else some d.route, guest := g }
    if d.local_ then s.onLdr fun l => { l with slots := tset l.slots n f }
    else
      let w : Waybill := {
        wid := 0, op := 2, flags := 1, aop := 0, rsvd := 0, laddr := 0, len := d.size, rkey := d.key, roff := d.offset + r * d.size
        imm := 0, tagw := 0, wroute := 0, wcount := 0, tally := 0, larder := some n }
      if (s.route d.route).state == .opened && postRoom d.route w s then postWaybill d.route w (s.onLdr fun l => { l with slots := tset l.slots n f }) else s

/-! ### Requests -/

/-- The port a request fills, when its guest has a plan. -/
def reqPort (s : State) (r : LdrReq) : Option PortDef := (s.plan? (s.guest r.guest).plan).bind fun p => p.body.ports[r.port]?

/-- Whether a request is malformed (R298), the reserved fields apart. Without a plan the port cannot be judged, and R301 decides. -/
def badRequest (s : State) (r : LdrReq) : Bool :=
  match tget s.ldr.tables r.table with
  | none => true
  | some d =>
    r.idx.any (fun i => decide (d.rows ≤ i)) ||
      (match r.op with | .lerp => r.idx.length != 2 | _ => r.idx.isEmpty || decide (8 < r.idx.length)) ||
      (r.op == .lerp && (fIsNan r.w || fLt r.w 0 || fLt 0x3F800000 r.w)) ||
      (match reqPort s r with | some p => p.elems != d.elems | none => false)

/-- The elements of a row converted into F32 (R157, R289, R296). -/
def rowConv (d : TableD) (bs : List Byte) : List Conv := (bytesVec d.fmt d.elems bs).map fun c => fmtConv 12 0 (elemVal d.fmt d.zp c)

/-- The elements of a row as F32. -/
def rowF32 (d : TableD) (bs : List Byte) : List W32 := (rowConv d bs).map fun c => BitVec.ofNat 32 c.code

/-- An F32 divided by a count, rounded once (R155). -/
def fDivN (a : W32) (n : Nat) : W32 := match f32X a with | .fin q => roundX (.fin (q.div (Q.ofInt n))) | x => roundX x

/-- The bag operations of Table 7.3. -/
def bagOf (op : BagOp) (w : W32) (rows : List (List W32)) : List W32 :=
  let sum := match rows with
    | [] => []
    | x :: r => r.foldl (fun acc y => (acc.zip y).map fun p => fAdd p.1 p.2) x
  match op with
  | .sum => sum
  | .mean => sum.map fun a => fDivN a rows.length
  | .lerp => match rows with
    | a :: b :: _ => (a.zip b).map fun p => fFma w (fSub p.2 p.1) p.1
    | _ => sum

/-- Bytes of the delivery store in use, results being held as F32 (R305). -/
def storeUsed (s : State) : Nat := (s.ldr.store.map fun d => 4 * d.vals.length).sum

/-- The order in which requests are served (R308): by tally, then under R53 and R54. -/
def serveBefore (a b : Serve) : Bool :=
  if a.stamp = b.stamp then
    (if srcRank a.src = srcRank b.src then seqAfter b.seq a.seq else decide (srcRank a.src < srcRank b.src))
  else decide (a.stamp < b.stamp)

def serveInsert (x : Serve) (l : List Serve) : List Serve :=
  match l with
  | [] => [x]
  | y :: r => if serveBefore x y then x :: y :: r else y :: serveInsert x r

/-- Requests whose rows are all in: the bag is computed, the clips and NaNs of its conversions counted (R296, R297, R159), and the result
enters the delivery store while that has room (R305). -/
def completeServed (s : State) : State :=
  s.forEach (s.ldr.serving.filter fun x => x.wait.isEmpty) fun x s =>
    match tget s.ldr.tables x.req.table with
    | none => dropServe x s
    | some d =>
      if 524288 < storeUsed s + 4 * d.elems then s
      else
        let got := x.req.idx.map fun i => ((x.rows.find? fun e => e.1 == i).map (·.2)).getD []
        let ins := (got.map (rowConv d)).flatten
        let vals := (bagOf x.req.op x.req.w (got.map (rowF32 d))).map (·.toNat)
        let (_, cl, na) := match reqPort s x.req with | some p => toPort p vals | none => ([], 0, 0)
        (dropServe x s).onLdr fun l => { l with
          store := l.store ++ [{ guest := x.req.guest, port := x.req.port, src := x.src, seq := x.seq, stamp := x.stamp, named := x.named
                                 req := x.req, vals := vals }]
          cClip := satAdd l.cClip (cl + (ins.filter (·.clip)).length), cNan := satAdd l.cNan (na + (ins.filter (·.nan)).length) }

/-- A request on a table whose route is not open, discarded and counted (R309). -/
def dropRouted (x : Serve) (s : State) : State := (dropServe x s).onLdr fun l => { l with cRoute := satInc l.cRoute }

/-- Whether a table's rows cannot be had: it is REMOTE, and its route is not OPEN. -/
def noRoute (d : TableD) (s : State) : Bool := !d.local_ && (s.route d.route).state != .opened

/-- The fetches a request still needs started, as far as slots are free; it is discarded when its route has left OPEN meanwhile (R309). -/
def startWaits (x : Serve) (s : State) : State :=
  match tget s.ldr.tables x.req.table with
  | none => s
  | some d => if noRoute d s && !x.wait.isEmpty then dropRouted x s else s.forEach x.wait fun r s =>
    match slotOf s x.req.table r with
    | some n => s.onLdr fun l => { l with slots := tmod l.slots n ⟨0, 0, false, none, 0, [], false, false⟩ fun f => { f with prefetch := false } }
    | none => startFetch x.req.guest x.req.table r d false s

/-- Trajectory prefetch (R317, R308): the step from the last first index of the guest and port. -/
def prefetchRows (x : Serve) (d : TableD) (s : State) : State :=
  if d.pf then
    let i := x.req.idx.headD 0
    let last := tget (s.guest x.req.guest).pf x.req.port
    let s := s.onGuest x.req.guest fun g => { g with pf := tset g.pf x.req.port i }
    match last with
    | none => s
    | some j =>
      let v : Int := (i : Int) - j
      if s.ldr.pfen ∧ v ≠ 0 ∧ -64 ≤ v ∧ v ≤ 64 then
        s.forEach [(i : Int) + v, i + 2 * v] fun r s =>
          if 0 ≤ r ∧ r < d.rows ∧ rowCached s x.req.table d r.toNat = false ∧ (slotOf s x.req.table r.toNat).isNone ∧ 8 < freeSlots s then
            startFetch x.req.guest x.req.table r.toNat d true s
          else s
      else s
  else s

/-- A queued request taken into service: a malformed one and one on a route that is not open are discarded and counted (R298, R309);
rows found in the cache are read at once and moved to the most-recently-used position (R312), and the others are fetched. -/
def takeServe (x : Serve) (s : State) : State :=
  if badRequest s x.req then
    (dropServe x s).onLdr fun l => { l with cBad := match x.src with | .route _ => satInc l.cBad | _ => l.cBad }
  else match tget s.ldr.tables x.req.table with
  | none => s
  | some d =>
    if noRoute d s then dropRouted x s
    else
      let t := x.req.table
      let hits := x.req.idx.filter (rowCached s t d)
      let rows := hits.map fun i => (i, cachedRow s t d i)
      let x' := { x with rows := rows, wait := (x.req.idx.filter fun i => !hits.contains i).eraseDups }
      let s := (dropServe x s).onLdr fun l => { l with cHit := satAdd l.cHit hits.length, serving := l.serving ++ [x'] }
      let s := s.forEach rows fun e s => putRow true t d e.1 e.2 s
      prefetchRows x d (startWaits x' s)

/-- Whether a request can be taken on: it needs no slot, or one is free (R308). -/
def canServe (s : State) (x : Serve) : Bool :=
  decide (0 < freeSlots s) || badRequest s x.req || (match tget s.ldr.tables x.req.table with
    | none => true
    | some d => (if x.wait.isEmpty then x.req.idx else x.wait).all fun i =>
        rowCached s x.req.table d i || (slotOf s x.req.table i).isSome)

/-- Whether a request in service still has a row whose fetch has not started. -/
def needsSlot (s : State) (x : Serve) : Bool := x.wait.any fun r => (slotOf s x.req.table r).isNone

/-- The next row of a pinned REMOTE table fetched, while more than 8 slots are free (R313, log entry 52). -/
def loadPinned (s : State) : State :=
  match s.ldr.pinNext.head? with
  | none => s
  | some (t, r) =>
    match tget s.ldr.tables t with
    | none => s.onLdr fun l => { l with pinNext := tdel l.pinNext t }
    | some d =>
      if d.rows ≤ r then s.onLdr fun l => { l with pinNext := tdel l.pinNext t }
      else if rowCached s t d r || (slotOf s t r).isSome then s.onLdr fun l => { l with pinNext := tset l.pinNext t (r + 1) }
      else
        let s' := if 8 < freeSlots s then startFetch 512 t r d false s else s
        if (slotOf s' t r).isSome then s'.onLdr fun l => { l with pinNext := tset l.pinNext t (r + 1) } else s

/-- LARDER_SERVE (R304, R308, R309): the first request in order that waits for service or for a slot is taken on; with none, a pinned
table loads its next row (R313). -/
def execLarderServe (s : State) : Host.Outcome State Fault Refusal :=
  .next (if s.on 11 then
      let l := (s.ldr.serving.filter (needsSlot s) ++ s.ldr.queue).foldl (fun t x => serveInsert x t) []
      match l.find? (canServe s) with
      | none => admitHeld false (completeServed (loadPinned s))
      | some x =>
        let s := if s.ldr.queue.any x.same then takeServe x s else startWaits x s
        admitHeld false (completeServed s)
    else s)

/-- ROW_FETCH_DONE (R308, R310, R312): the row enters the cache and reaches every request that waits for it; the slot is free. A row
that met an uncorrectable error discards those deliveries. A READ's slot acts once its bytes are there. -/
def execRowFetchDone (slot : Nat) (ecc : Ecc) (s : State) : Host.Outcome State Fault Refusal :=
  .next (match tget s.ldr.slots slot with
    | none => s
    | some f =>
      if !s.on 11 || (match f.route with | some _ => !f.full | none => !s.mem.valid) then s
      else
        let s := match f.route with | some _ => s | none => countEcc ecc s
        let bad := f.poison || (match f.route, ecc with | none, .ded _ => true | _, _ => false)
        let s := s.onLdr fun l => { l with slots := tdel l.slots slot }
        let waits (x : Serve) : Bool := x.req.table == f.table && x.wait.contains f.row
        if bad then
          let gone := s.ldr.serving.filter waits
          admitHeld false ((s.forEach gone dropServe).onLdr fun l => { l with cEcc := satAdd l.cEcc gone.length })
        else match tget s.ldr.tables f.table with
          | none => s
          | some d =>
            let bs := match f.route with | some _ => f.data | none => localRow s d f.row
            let s := putRow (!f.prefetch) f.table d f.row bs s
            let got (x : Serve) : Serve :=
              if waits x then { x with rows := x.rows ++ [(f.row, bs)], wait := x.wait.filter (· != f.row) } else x
            admitHeld false (completeServed (s.onLdr fun l => { l with serving := l.serving.map got })))

/-- The delivery of a guest and port not yet posted that comes first in order. -/
def firstDelivery (s : State) (g port : Nat) : Option Delivery :=
  (s.ldr.store.filter fun d => d.guest == g && d.port == port && !d.posted).foldl (fun m d =>
    let key (d : Delivery) : Serve := ⟨d.src, d.seq, d.stamp, d.named, d.req, [], []⟩
    match m with
    | none => some d
    | some x => if serveBefore (key d) (key x) then some d else some x) none

/-- DELIVERY_WRITE (R299, R305, R306): a result is written to the next conditioning half, no earlier than the round before its tally,
and queued as a Larder event of that tally; while the Larder's share is full it stays in the store and its request keeps its entry (R299). -/
def execDeliveryWrite (g port : Nat) (cut : Bool) (s : State) : Host.Outcome State Fault Refusal :=
  .next (match firstDelivery s g port with
    | none => s
    | some d =>
      if s.on 11 = false ∨ s.on 3 = false ∨ s.tly.now.toNat + 1 < d.stamp.toNat then s
      else
        let waits (x : Delivery) : Delivery := if x = d then { x with posted := true } else x
        let s := if shareFull .larder s then s.onLdr fun l => { l with store := l.store.map waits } else postDelivery cut d s
        admitHeld cut (completeServed s))

/-! ### Leases (R268 to R271) -/

/-- A lease revoked: counted, logged and announced (R270, Table 12.7). -/
def revokeNote (res : String) (kind idx : Nat) (owner id : String) (okind oid : Nat) (s : State) : State :=
  let s := s.onInn fun i => { i with cRevoke := satInc i.cRevoke }
  let s := logEv 5 0x0103 0 (kind + 256 * idx) (okind * 2 ^ 14 + oid) s
  notify "inn" ("revoke " ++ kv "res" res ++ " " ++ kn "idx" idx ++ " " ++ kv "owner" owner ++ " " ++ kv "id" id) s

/-- The guest in row 0 of a bundle. -/
def rowZero (s : State) (n : String) : Nat := ((s.guestOfRow n 0).map (·.1)).getD 0

/-- LEASE_REVOKE (R269 to R272, Table 6.6): the resource is zeroed and returned; a bundle or guest that owned it is quarantined at the
next round start, and deliveries that waited on a slot miss. A resource that is not leased is not revoked. -/
def execLeaseRevoke (l : Lease) (s : State) : Host.Outcome State Fault Refusal :=
  .next (if s.on 10 then match l with
    | .port bank p =>
      match tget s.inn.ports (4 * bank + p) with
      | none => s
      | some (_, plan) =>
        revokeNote "port" 1 (4 * bank + p) "bundle" plan 0 (rowZero s plan) (settlePorts (pendBundle plan 2 s))
    | .cellar ch =>
      match tget s.inn.chans ch with
      | none => s
      | some g =>
        let s := s.onInn fun i => { i with chans := i.chans.filter fun e => e.2 != g, quarG := i.quarG ++ [(g, 4)] }
        revokeNote "cellar" 2 ch "guest" (natS g) 1 g (assignChans s)
    | .slot n =>
      match tget s.ldr.slots n with
      | none => s
      | some f =>
        let s := releaseSlot n f s
        match f.route with
        | some r => admitHeld false (revokeNote "slot" 3 n "route" (natS r) 2 r s)
        | none =>
          let plan := (s.guest f.guest).plan
          admitHeld false (revokeNote "slot" 3 n "bundle" plan 0 (rowZero s plan) (settlePorts (pendBundle plan 3 s)))
    else s)

/-! ### The memory block (R319 to R323) -/

/-- MR4_POLL (R323). -/
def execMr4Poll (hot : Bool) (s : State) : Host.Outcome State Fault Refusal :=
  .next (if s.on 9 && s.mem.trained then
      let s' := s.onMem fun m => { m with hot := hot }
      if hot && !s.mem.hot then notify "mem" "hot" s' else s'
    else s)

/-! ### Commands of ldr -/

/-- `ldr.set` (R288 to R291, R313, R314). -/
def ldrSetV : Verb := {
  obj := "ldr", name := "set", level := .keeper
  keys := [kInt "table" 0 63 true, kName "name", kEnum "place" ["local", "remote"], kHex "addr" 48, kInt "route" 0 511, kHex "key" 32,
           kInt "offset" 0 (2 ^ 48), kInt "rows" 1 (2 ^ 29), kInt "size" 64 2048, kEnum "fmt" fmtNames, kInt "elems" 1 8191,
           kInt "zp" 0 255, kOnOff "pin", kOnOff "pf"] }

/-- The descriptor a line describes, over the one that stands. -/
def ldrDescr (e : Env) (old : TableD) : TableD := {
  name := (e.word? "name").getD old.name
  local_ := match e.word? "place" with | some w => w == "local" | none => old.local_
  addr := (e.nat? "addr").getD old.addr
  route := (e.nat? "route").getD old.route
  key := match e.nat? "key" with | some k => BitVec.ofNat 32 k | none => old.key
  offset := (e.nat? "offset").getD old.offset
  rows := (e.nat? "rows").getD old.rows
  size := (e.nat? "size").getD old.size
  fmt := match e.word? "fmt" with | some w => fmtNames.idxOf w | none => old.fmt
  elems := (e.nat? "elems").getD old.elems
  zp := (e.nat? "zp").getD old.zp
  pin := (e.flag? "pin").getD old.pin
  pf := (e.flag? "pf").getD old.pf }

/-- What makes a descriptor's own fields bad (Table 7.1, R289): the key at fault. -/
def ldrBad (e : Env) (d : TableD) : Option String :=
  if 16 < d.name.length then some "name"
  else if d.size % 64 ≠ 0 then some "size"
  else if d.local_ && d.addr % 64 != 0 then some "addr"
  else if d.size < fmtBytes d.fmt d.elems ∨ (d.fmt = 9 ∧ d.elems % 32 ≠ 0) then some "elems"
  else if d.zp ≠ 0 ∧ d.fmt ≠ 2 then some "zp"
  else if d.local_ then ["route", "key", "offset"].find? e.has
  else ["addr"].find? e.has

/-- Whether a request waits on a table. -/
def tableBusy (s : State) (t : Nat) : Bool := s.ldr.queue.any (fun x => x.req.table == t) || s.ldr.serving.any (fun x => x.req.table == t)

/-- Why a LOCAL table may not lie where it does (R290). -/
def localOverlap (s : State) (d : TableD) (others : Tab TableD) : Bool :=
  !inUsable d.addr d.bytes s || inCellar d.addr d.bytes s ||
    others.any fun e => e.2.local_ && decide (e.2.addr < d.addr + d.bytes) && decide (d.addr < e.2.addr + e.2.bytes)

/-- A pinned table loaded into the cache (R313): a LOCAL one at once, a REMOTE one row by row. -/
def pinTable (t : Nat) (d : TableD) (s : State) : State :=
  s.onLdr fun l => { l with
    whole := if d.pin && d.local_ then t :: l.whole.filter (· != t) else l.whole.filter (· != t)
    pinNext := if d.pin && !d.local_ then tset l.pinNext t 0 else tdel l.pinNext t }

/-- A descriptor put in force: the table's cached lines go, pinned ways displace unpinned lines, and a pinned table is loaded. -/
def putTable (t : Nat) (d : TableD) (s : State) : State :=
  pinTable t d (s.onLdr fun l =>
    let ts := tset l.tables t d
    { l with tables := ts, cache := trimCache ts (l.cache.filter fun x => x.table != t) })

def ldrSetBody (_c : Ctx) (_p : Pfx) (e : Env) (s : State) : Res :=
  let t := e.nat "table"
  let d := ldrDescr e ((tget s.ldr.tables t).getD ⟨"", true, 0, 0, 0, 0, 1, 64, 12, 1, 0, false, false⟩)
  let others := tdel s.ldr.tables t
  match ldrBad e d with
  | some k => .err 13 k s
  | none =>
    if s.on 11 = false ∨ (d.local_ ∧ s.mem.valid = false) then .err 40 "" s
    else if d.local_ ∧ localOverlap s d others then .err 13 "addr" s
    else if tableBusy s t then .err 30 "table" s
    else if d.local_ ∧ 24 * 2 ^ 30 < (others.map fun x => if x.2.local_ then x.2.bytes else 0).sum + d.bytes then .err 33 "" s
    else if d.pin ∧ 8 < maxPin (tset others t d) then .err 33 "pin" s
    else .ok [] (putTable t d s)

def execLdrSet (c : Ctx) (p : Pfx) (a : Args) (s : State) : Host.Outcome State Fault Refusal := ulc ldrSetV ldrSetBody c p a s

/-- `ldr.load` (R315, R636): ROWS × SIZE bytes of the image are written to the table. -/
def ldrLoadV : Verb := { obj := "ldr", name := "load", level := .keeper, keys := [kInt "table" 0 63 true, kHex "addr" 48] }
def ldrLoadBody (_c : Ctx) (_p : Pfx) (e : Env) (s : State) : Res :=
  let t := e.nat "table"
  match tget s.ldr.tables t with
  | none => .err 13 "table" s
  | some d =>
    let load (bs : List Byte) : Res :=
      .ok [spaced [kn "table" t, kn "bytes" d.bytes, kn "pinned" (tableWays d)]] { s with ram := s.ram.writeN d.addr bs }
    if d.local_ = false then .err 13 "table" s
    else if s.on 11 = false ∨ s.mem.valid = false then .err 40 "" s
    else if tableBusy s t then .err 30 "" s
    else match e.nat? "addr" with
      | some a => if inUsable a d.bytes s then load (s.ram.readN a d.bytes) else .err 13 "addr" s
      | none =>
        match s.sys.flash, dirEntry 3 d.name s with
        | some f, some x => if x.length < d.bytes then .err 61 "" s else load ((List.range d.bytes).map fun k => flashByte f (x.offset + k))
        | _, _ => .err 13 "table" s
def execLdrLoad (c : Ctx) (p : Pfx) (a : Args) (s : State) : Host.Outcome State Fault Refusal := ulc ldrLoadV ldrLoadBody c p a s

/-- Routes bound to the Larder. -/
def boundRoutes (s : State) : List Nat := (s.cch.routes.filter fun e => e.2.state != .closed && e.2.bind == .larder).map (·.1)

/-- `ldr.bind` (R294, R354). -/
def ldrBindV : Verb := { obj := "ldr", name := "bind", level := .keeper, keys := [kInt "route" 0 511 true] }
def ldrBindBody (_c : Ctx) (_p : Pfx) (e : Env) (s : State) : Res :=
  let r := e.nat "route"
  let x := s.route r
  if s.on 8 = false ∨ s.on 11 = false ∨ x.state ≠ .opened then .err 40 "" s
  else match x.bind with
    | .desk => .err 30 "route" s
    | .larder => .ok [] s
    | .none =>
      if 16 ≤ (boundRoutes s).length ∨ s.cch.poolFree < x.rq then .err 33 "" s
      else
        let s := s.onRoute r fun x => { x with bind := .larder, pool := x.rq }
        let s := s.onCch fun c => { c with poolFree := c.poolFree - x.rq }
        .ok [] (s.onLdr fun l => { l with lastB := BitVec.ofNat 9 r })
def execLdrBind (c : Ctx) (p : Pfx) (a : Args) (s : State) : Host.Outcome State Fault Refusal := ulc ldrBindV ldrBindBody c p a s

/-- `ldr.bind … off` (R294): the route returns to NONE once every record it has received is posted. -/
def ldrUnbindV : Verb := {
  obj := "ldr", name := "bind", level := .keeper
  keys := [kInt "route" 0 511 true, { name := "off", ty := .enum ["off"], req := true, pos := true }] }
def ldrUnbindBody (c : Ctx) (_p : Pfx) (e : Env) (s : State) : Res :=
  let r := e.nat "route"
  if s.on 8 = false ∨ s.on 11 = false ∨ (s.route r).bind ≠ .larder then .err 40 "" s
  else .ok [] (drainRoute (2 + ((s.route r).pending.map fun l => l.length + 1).sum) r c.cut (s.onLdr fun l => { l with unbind := l.unbind ++ [r] }))
def execLdrUnbind (c : Ctx) (p : Pfx) (a : Args) (s : State) : Host.Outcome State Fault Refusal := ulc ldrUnbindV ldrUnbindBody c p a s

def bagNames : List String := ["sum", "mean", "lerp"]
def bagOfName (w : String) : BagOp := match w with | "sum" => .sum | "mean" => .mean | _ => .lerp

/-- One value as F32. -/
def itemF32 (i : Item) : Option W32 := (decItem i).map roundX

/-- `ldr.req` (R295, R298, R303, R320). -/
def ldrReqV : Verb := {
  obj := "ldr", name := "req", event := true, level := .keeper
  keys := [kInt "guest" 0 511 true, kInt "port" 0 15 true, kInt "table" 0 63 true, kEnum "op" bagNames true,
           { name := "idx", ty := .ints 0 4294967295 8, req := true }, { name := "w", ty := .any }] }
def ldrReqBody (c : Ctx) (p : Pfx) (e : Env) (s : State) : Res :=
  let op := bagOfName (e.word "op")
  let w : Option W32 := (e.raw? "w").bind fun v => match v with | .item i => itemF32 i | _ => none
  if e.has "w" ∧ (op ≠ .lerp ∨ w = none) then .err 13 "w" s
  else
    let r : LdrReq := ⟨e.nat "guest", e.nat "port", e.nat "table", op, w.getD 0, e.nums "idx"⟩
    if badRequest s r then .err 13 "" s
    else
      let loc := (tget s.ldr.tables r.table).any fun d => d.local_
      postChecked false c p (.request r) s (if s.on 11 = false ∨ (loc = true ∧ s.mem.valid = false) then [(40, "")] else [])
def execLdrReq (c : Ctx) (p : Pfx) (a : Args) (s : State) : Host.Outcome State Fault Refusal := ulc ldrReqV ldrReqBody c p a s

/-- `ldr.put` (R302, R303). -/
def ldrPutV : Verb := {
  obj := "ldr", name := "put", event := true, level := .keeper
  keys := [kInt "guest" 0 511 true, kInt "port" 0 15 true, { name := "val", ty := .any, req := true }] }
def ldrPutBody (c : Ctx) (p : Pfx) (e : Env) (s : State) : Res :=
  let vals := match e.raw? "val" with | some v => allSome ((valItems v).map itemF32) | none => none
  match vals with
  | none => .err 13 "val" s
  | some l =>
    let pd := (s.plan? (s.guest (e.nat "guest")).plan).map fun q => q.body.ports[e.nat "port"]?
    let badPort := match pd with
      | none => false
      | some none => true
      | some (some d) => d.matrix || decide (d.elems < l.length)
    if l.isEmpty ∨ 8 < l.length then .err 13 "val" s
    else if badPort then .err 13 "port" s
    else postChecked false c p (.put (e.nat "guest") (e.nat "port") l) s (if s.on 11 then [] else [(40, "")])
def execLdrPut (c : Ctx) (p : Pfx) (a : Args) (s : State) : Host.Outcome State Fault Refusal := ulc ldrPutV ldrPutBody c p a s

/-- `ldr.inval` (R316): every cached line of the table is discarded; those of a pinned table come back as their rows are fetched. -/
def ldrInvalV : Verb := { obj := "ldr", name := "inval", level := .keeper, keys := [kInt "table" 0 63 true] }
def ldrInvalBody (_c : Ctx) (_p : Pfx) (e : Env) (s : State) : Res :=
  let t := e.nat "table"
  match tget s.ldr.tables t with
  | none => .err 13 "table" s
  | some _ =>
    if s.on 11 = false then .err 40 "" s
    else .ok [] (s.onLdr fun l => { l with cache := l.cache.filter fun x => x.table != t, whole := l.whole.filter (· != t) })
def execLdrInval (c : Ctx) (p : Pfx) (a : Args) (s : State) : Host.Outcome State Fault Refusal := ulc ldrInvalV ldrInvalBody c p a s

/-- The descriptor fields under the keys of `ldr.set` (R699). -/
def tableLine (d : TableD) : String :=
  spaced ([kv "state" "defined", kv "name" d.name, kv "place" (if d.local_ then "LOCAL" else "REMOTE")] ++
    (if d.local_ then [kv "addr" (hexS 12 d.addr)] else [kn "route" d.route, kv "key" (hexS 8 d.key.toNat), kn "offset" d.offset]) ++
    [kn "rows" d.rows, kn "size" d.size, kv "fmt" (upperS (fmtNames.getD d.fmt "")), kn "elems" d.elems, kn "zp" d.zp,
     kv "pin" (onoff d.pin), kv "pf" (onoff d.pf)])

/-- `ldr.show` (R699). -/
def ldrShowV : Verb := { obj := "ldr", name := "show", changes := false, keys := [kInt "table" 0 63] }
def ldrShowBody (_c : Ctx) (_p : Pfx) (e : Env) (s : State) : Res :=
  let l := s.ldr
  if s.on 11 = false then .err 40 "" s
  else match e.nat? "table" with
    | some t => .ok [match tget l.tables t with | some d => tableLine d | none => kv "state" "undefined"] s
    | none => .ok [
        spaced [kn "tables" l.tables.length, kv "bound" (commas ((boundRoutes s).map natS)), kn "slots" (freeSlots s),
                kn "pinways" (maxPin l.tables), kv "pf" (onoff l.pfen)],
        spaced [kn "hit" l.cHit.toNat, kn "miss" l.cMiss.toNat, kn "late" l.cLate.toNat, kn "super" l.cSuper.toNat,
                kn "norow" l.cNorow.toNat, kn "badreq" l.cBad.toNat, kn "ecc" l.cEcc.toNat, kn "route" l.cRoute.toNat,
                kn "clip" l.cClip.toNat, kn "nan" l.cNan.toNat]] s
def execLdrShow (c : Ctx) (p : Pfx) (a : Args) (s : State) : Host.Outcome State Fault Refusal := ulc ldrShowV ldrShowBody c p a s

/-! ### Commands of mem -/

/-- The rates of Table 7.6, in code order. -/
def memRates : List Int := [6400, 7500, 8533]
def memRate (r : BitVec 2) : Nat := match r.toNat with | 0 => 6400 | 1 => 7500 | _ => 8533

/-- An amount of memory from units of 256 MiB. -/
def gibS (n : Nat) : String := if n % 4 = 0 then natS (n / 4) ++ "GiB" else natS (n * 256) ++ "MiB"

/-- `mem.show` (R326). -/
def memShowV : Verb := { obj := "mem", name := "show", changes := false }
def memShowBody (_c : Ctx) (_p : Pfx) (_e : Env) (s : State) : Res :=
  let m := s.mem
  if s.on 9 = false then .err 40 "" s
  else .ok [spaced [kn "trained" (b2n m.trained), kn "rate" (memRate m.rate), kv "ecc" (onoff m.eccOn), kv "installed" (gibS m.installed.toNat),
      kv "usable" (gibS m.usable.toNat), kn "sec" m.sec.toNat, kn "ded" m.ded.toNat, kn "hot" (b2n m.hot)]] s
def execMemShow (c : Ctx) (p : Pfx) (a : Args) (s : State) : Host.Outcome State Fault Refusal := ulc memShowV memShowBody c p a s

/-- `mem.set` (R321, R326): the rate and the ECC of the next training. -/
def memSetV : Verb := { obj := "mem", name := "set", level := .keeper, keys := [{ name := "rate", ty := .oneOf "" memRates }, kOnOff "ecc"] }
def memSetBody (_c : Ctx) (_p : Pfx) (e : Env) (s : State) : Res :=
  if s.on 9 = false then .err 40 "" s
  else .ok [] (s.onMem fun m => { m with
    ctlRate := match e.nat? "rate" with | some 6400 => 0 | some 7500 => 1 | some _ => 2 | none => m.ctlRate
    ctlEcc := (e.flag? "ecc").getD m.ctlEcc })
def execMemSet (c : Ctx) (p : Pfx) (a : Args) (s : State) : Host.Outcome State Fault Refusal := ulc memSetV memSetBody c p a s

/-! ### Registers (R325, R326) -/

/-- LDR_TINFO of a table. -/
def ldrTinfo (s : State) (t : Nat) : W32 :=
  match tget s.ldr.tables t with
  | none => 0
  | some d => put 31 1 + put 30 (b2n (!d.local_)) + put 29 (b2n d.pin) + put 28 (b2n d.pf) + put 24 d.fmt + put 16 (d.size / 64 - 1) + put 0 d.elems

/-- A read in the LDR block. -/
def ldrRead (off : Nat) (s : State) : W32 × State :=
  let l := s.ldr
  match off with
  | 0x00 => (put 0 (b2n l.pfen), s)
  | 0x04 => (put 28 (maxPin l.tables) + put 13 l.tables.length + put 0 (freeSlots s), s)
  | 0x08 => (l.cHit, s.onLdr fun l => { l with cHit := 0 })
  | 0x0C => (l.cMiss, s.onLdr fun l => { l with cMiss := 0 })
  | 0x10 => (put 24 l.cBad.toNat + put 16 l.cNorow.toNat + put 8 l.cSuper.toNat + put 0 l.cLate.toNat,
             s.onLdr fun l => { l with cBad := 0, cNorow := 0, cSuper := 0, cLate := 0 })
  | 0x14 => (put 8 l.cEcc.toNat + put 0 l.cRoute.toNat, s.onLdr fun l => { l with cEcc := 0, cRoute := 0 })
  | 0x18 => (put 16 l.cNan.toNat + put 0 l.cClip.toNat, s.onLdr fun l => { l with cNan := 0, cClip := 0 })
  | 0x1C => (put 16 l.lastB.toNat + put 0 (boundRoutes s).length, s)
  | 0x20 => (put 0 l.tsel.toNat, s)
  | 0x24 => (ldrTinfo s l.tsel.toNat, s)
  | _ => (0, s)

/-- A write in the LDR block. -/
def ldrWrite (off : Nat) (v : W32) (s : State) : State :=
  match off with
  | 0x00 => s.onLdr fun l => { l with pfen := v.getLsbD 0 }
  | 0x20 => s.onLdr fun l => { l with tsel := BitVec.ofNat 6 (fld v 0 6) }
  | _ => s

/-- A read in the MEM block. -/
def memRead (off : Nat) (s : State) : W32 × State :=
  let m := s.mem
  match off with
  | 0x00 => (put 4 m.rate.toNat + put 3 (b2n m.eccOn) + put 2 (b2n m.hot) + put 1 (b2n m.fail) + put 0 (b2n m.trained), s)
  | 0x04 => (put 4 m.ctlRate.toNat + put 0 (b2n m.ctlEcc), s)
  | 0x08 => (put 16 m.ded.toNat + put 0 m.sec.toNat, s.onMem fun m => { m with ded := 0, sec := 0 })
  | 0x0C => (m.erra.extractLsb' 0 32, s)
  | 0x10 => (put 0 (m.erra.toNat / 2 ^ 32), s)
  | _ => (0, s)

/-- A write in the MEM block. -/
def memWrite (off : Nat) (v : W32) (s : State) : State :=
  match off with
  | 0x04 => s.onMem fun m => { m with ctlRate := BitVec.ofNat 2 (fld v 4 2), ctlEcc := v.getLsbD 0 }
  | _ => s

/-- The verbs of this file. -/
def larderVerbs : List (Verb × (Ctx → Pfx → Env → State → Res)) :=
  [(ldrSetV, ldrSetBody), (ldrLoadV, ldrLoadBody), (ldrBindV, ldrBindBody), (ldrUnbindV, ldrUnbindBody), (ldrReqV, ldrReqBody),
   (ldrPutV, ldrPutBody), (ldrInvalV, ldrInvalBody), (ldrShowV, ldrShowBody), (memShowV, memShowBody), (memSetV, memSetBody)]

end Sys2Proof.Machine
end

