-- ==== Sys2Proof/Machine/Coach.lean ====
section
/-! DEFINITION. Coach's commands (spec 08): routes, windows, posting and issuing of waybills, receipt rings, and the CCH registers. -/

namespace Sys2Proof.Machine

/-! ### Routes (R327 to R332) -/

/-- The keys of a route's context (Table 8.1). -/
def routeKeys : List KeySpec :=
  [kInt "r" 0 511 true, kEnum "port" ["neta", "netb"], { name := "peer", ty := .ip }, kInt "peerport" 0 65535, kInt "peerroute" 0 65535,
   { name := "vlan", ty := .any }, kInt "dscp" 0 63, kEnum "rel" ["lossless", "lossy"], { name := "sq", ty := .oneOf "" [4, 8, 16, 32, 64, 128, 256] },
   kInt "rq" 0 256, kInt "sring" 0 55, kInt "rring" 0 55, kEnum "bind" ["none", "larder", "desk"], kEnum "level" ["visitor", "keeper"],
   kOnOff "reply", kEnum "late" ["apply-late", "reject-late"]]

/-- The value of `vlan=`: an identifier of 12 bits, or `none`. -/
def vlanOf (e : Env) : Option (Option Nat) :=
  match e.raw? "vlan" with
  | some (.item (.word w)) => if sameWord w "none" then some none else none
  | some (.item i) => (itemScaled "" 1 i).bind fun n => if 0 ≤ n ∧ n < 4096 then some (some n.toNat) else none
  | _ => none

def bindOf (w : String) : Bind := match w with | "larder" => .larder | "desk" => .desk | _ => .none

/-- A context with the fields a line gives. -/
def routeWith (e : Env) (x : Route) : Route := { x with
  port := match e.word? "port" with | some w => if w = "netb" then 1 else 0 | none => x.port
  peer := (e.word? "peer").getD x.peer
  peerPort := (e.nat? "peerport").getD x.peerPort
  peerRoute := (e.nat? "peerroute").or x.peerRoute
  vlan := (vlanOf e).getD x.vlan
  dscp := (e.nat? "dscp").getD x.dscp
  lossless := match e.word? "rel" with | some w => w == "lossless" | none => x.lossless
  sq := (e.nat? "sq").getD x.sq
  rq := (e.nat? "rq").getD x.rq
  sring := (e.nat? "sring").getD x.sring
  rring := (e.nat? "rring").getD x.rring
  bind := match e.word? "bind" with | some w => bindOf w | none => x.bind
  level := match e.word? "level" with | some w => if w = "keeper" then .keeper else .visitor | none => x.level
  reply := (e.flag? "reply").getD x.reply
  rejLate := match e.word? "late" with | some w => w == "reject-late" | none => x.rejLate }

/-- Queue depths of every open route (R328). -/
def depthSum (s : State) : Nat := (s.cch.routes.map fun e => if e.2.state = .closed then 0 else e.2.sq + e.2.rq).sum

def rstateS (x : RState) : String := match x with | .closed => "CLOSED" | .opened => "OPEN" | .error => "ERROR" | .closing => "CLOSING"
def bindS (b : Bind) : String := match b with | .none => "NONE" | .larder => "LARDER" | .desk => "DESK"
def netS (p : Nat) : String := if p = 0 then "NETA" else "NETB"
def levelS (l : Level) : String := match l with | .visitor => "VISITOR" | .keeper => "KEEPER" | .owner => "OWNER"

/-- The context `route.open` starts from: the one `route.set` has changed while the route was CLOSED, PEERPORT at CCH_CTL.UDPPORT
where none has been set. -/
def closedContext (r : Nat) (s : State) : Route :=
  match tget s.cch.routes r with
  | some x => x
  | none => { peerPort := s.cch.udp.toNat }

/-- `route.open` (R327 to R331, R354). -/
def routeOpenV : Verb := { obj := "route", name := "open", level := .keeper, keys := routeKeys }
def routeOpenBody (_c : Ctx) (_p : Pfx) (e : Env) (s : State) : Res :=
  let r := e.nat "r"
  let x := routeWith e (closedContext r s)
  let taken := b2n (x.bind != .none) * x.rq
  if e.has "vlan" ∧ vlanOf e = none then .err 13 "vlan" s
  else if s.on 8 = false then .err 40 "" s
  else if (s.route r).state ≠ .closed then .err 30 "r" s
  else if 32768 < depthSum s + x.sq + x.rq ∨ 1024 < ringUsed x.rring (s.onRoute r fun _ => { x with state := .opened }) then .err 33 "" s
  else if s.cch.poolFree < taken ∨ (x.bind = .larder ∧ 16 ≤ (boundRoutes s).length) then .err 33 "" s
  else
    let s := s.onRoute r fun _ => { x with state := .opened, rate := lineRate, pool := taken }
    let s := s.onCch fun c => { c with poolFree := c.poolFree - taken }
    let s := if x.bind = .larder then s.onLdr fun l => { l with lastB := BitVec.ofNat 9 r } else s
    .ok [kn "r" r ++ " " ++ kv "state" "OPEN"] s
def execRouteOpen (c : Ctx) (p : Pfx) (a : Args) (s : State) : Host.Outcome State Fault Refusal := ulc routeOpenV routeOpenBody c p a s

/-- `route.close` (Table 8.2): WAITs that watch the route fail (R359). -/
def routeCloseV : Verb := { obj := "route", name := "close", level := .keeper, keys := [kInt "r" 0 511 true] }
def routeCloseBody (_c : Ctx) (_p : Pfx) (e : Env) (s : State) : Res :=
  let r := e.nat "r"
  let close (s : State) : State := s.onRoute r fun x => { x with state := .closing }
  let reply : List String := [kn "r" r ++ " " ++ kv "state" "CLOSING"]
  match (s.route r).state with
  | .opened => .ok reply (afterCount (leftOpen r (close s)))
  | .error => .ok reply (close s)
  | _ => .err 40 "r" s
def execRouteClose (c : Ctx) (p : Pfx) (a : Args) (s : State) : Host.Outcome State Fault Refusal := ulc routeCloseV routeCloseBody c p a s

/-- A route's context dropped: waybills and receive buffers complete FLUSHED, internal buffers return zeroed to the pool, and a hop
bound to it is unbound (Table 8.2, R355). -/
def closeRoute (r : Nat) (s : State) : State :=
  let s := flushAll ((s.route r).sendq.length + 1) r 1 s
  let x := s.route r
  let s := s.forEach x.recvq fun _ s => writeReceipt x.rring {
    wid := 0, route := r, target := true, op := 3, status := 1, len := 0, imm := 0, tally := none, psn := 0, tagw := 0, phase := false } s
  let s := s.onCch fun c => { c with poolFree := c.poolFree + b2n (x.bind != .none) * x.rq, routes := tdel c.routes r }
  let s := s.onLdr fun l => { l with unbind := l.unbind.filter (· != r) }
  s.onWeave fun w => { w with plans := w.plans.map fun p => { p with
    hops := p.hops.map fun h => if h.route = some r then { h with route := none } else h } }

/-- ROUTE_CLOSED (Table 8.2). -/
def execRouteClosed (r : Nat) (s : State) : Host.Outcome State Fault Refusal :=
  .next (if (s.route r).state = .closing then afterCount (closeRoute r s) else s)

/-- `route.set`: LATE, LEVEL and REPLY on an OPEN route, any field on a CLOSED one. -/
def routeSetV : Verb := { obj := "route", name := "set", level := .keeper, keys := routeKeys }
def routeSetBody (_c : Ctx) (_p : Pfx) (e : Env) (s : State) : Res :=
  let r := e.nat "r"
  let fixed := routeKeys.any fun k => k.name != "r" && k.name != "late" && k.name != "level" && k.name != "reply" && e.has k.name
  if e.has "vlan" ∧ vlanOf e = none then .err 13 "vlan" s
  else if s.on 8 = false then .err 40 "" s
  else match (s.route r).state with
    | .closed => .ok [] (s.onRoute r fun _ => routeWith e (closedContext r s))
    | .opened => if fixed then .err 30 "r" s else .ok [] (s.onRoute r (routeWith e))
    | _ => .err 30 "r" s
def execRouteSet (c : Ctx) (p : Pfx) (a : Args) (s : State) : Host.Outcome State Fault Refusal := ulc routeSetV routeSetBody c p a s

/-- `route.recv` (R353). -/
def routeRecvV : Verb := {
  obj := "route", name := "recv", level := .keeper
  keys := [kInt "r" 0 511 true, { name := "addr", ty := .hex 48, req := true }, kInt "len" 64 4096 true] }
def routeRecvBody (_c : Ctx) (_p : Pfx) (e : Env) (s : State) : Res :=
  let r := e.nat "r"
  let x := s.route r
  if inUsable (e.nat "addr") (e.nat "len") s = false then .err 13 "addr" s
  else if x.state ≠ .opened ∨ x.bind ≠ .none then .err 40 "r" s
  else if x.rq ≤ x.recvq.length then .err 30 "r" s
  else .ok [] (s.onRoute r fun x => { x with recvq := x.recvq ++ [(e.nat "addr", e.nat "len")] })
def execRouteRecv (c : Ctx) (p : Pfx) (a : Args) (s : State) : Host.Outcome State Fault Refusal := ulc routeRecvV routeRecvBody c p a s

def opNames : List String := ["write", "write_imm", "read", "send", "flush", "wait", "arm"]

/-- `route.post` (R339 to R341, R361). -/
def routePostV : Verb := {
  obj := "route", name := "post", level := .keeper
  keys := [kInt "r" 0 511 true, kEnum "op" opNames true, kEnum "aop" (opNames.take 4), kHex "wid" 32, kInt "sig" 0 1, kInt "fence" 0 1,
           kInt "win" 0 1, kHex "tally" 64, kHex "laddr" 64, kInt "len" 0 1048576, kHex "rkey" 32, kHex "roff" 64, kHex "imm" 32,
           kHex "tag" 32, kInt "wroute" 0 65535, kHex "wcount" 32] }

/-- The waybill a line spells. -/
def lineWaybill (e : Env) : Waybill :=
  let w (k : String) : W32 := BitVec.ofNat 32 (e.nat k)
  { wid := w "wid", op := opNames.idxOf (e.word "op")
    flags := e.nat "sig" + 2 * e.nat "fence" + 4 * b2n (e.has "tally") + 8 * e.nat "win"
    aop := if e.has "aop" then opNames.idxOf (e.word "aop") else 0
    rsvd := 0, laddr := e.nat "laddr", len := e.nat "len", rkey := w "rkey", roff := e.nat "roff", imm := w "imm", tagw := w "tag"
    wroute := e.nat "wroute", wcount := w "wcount", tally := BitVec.ofNat 64 (e.nat "tally") }

def routePostBody (_c : Ctx) (_p : Pfx) (e : Env) (s : State) : Res :=
  let r := e.nat "r"
  let w := lineWaybill e
  if waybillValid w s = false then .err 13 "" s
  else if s.on 8 = false ∨ (s.route r).state ≠ .opened then .err 40 "" s
  else if postRoom r w s then .ok [] (postWaybill r w s)
  else .err 30 "" s
def execRoutePost (c : Ctx) (p : Pfx) (a : Args) (s : State) : Host.Outcome State Fault Refusal := ulc routePostV routePostBody c p a s

/-- `route.show`. -/
def routeShowV : Verb := { obj := "route", name := "show", changes := false, keys := [kInt "r" 0 511] }
def routeLine (x : Route) : String :=
  spaced [kv "state" (rstateS x.state), kv "port" (netS x.port), kv "peer" (if x.peer.isEmpty then "none" else x.peer), kv "peerroute" (match x.peerRoute with | some n => natS n | none => "none"),
    kv "rel" (if x.lossless then "LOSSLESS" else "LOSSY"), kv "bind" (bindS x.bind), kv "sq" (natS x.sendq.length ++ "/" ++ natS x.sq),
    kn "rq" x.rq, kv "psn" (hexS 6 x.psn), kv "msn" (hexS 4 x.msn.toNat), kv "cc_out" (hexS 8 x.ccOut.toNat), kv "cc_in" (hexS 8 x.ccIn.toNat)]
def routeShowBody (_c : Ctx) (_p : Pfx) (e : Env) (s : State) : Res :=
  if s.on 8 = false then .err 40 "" s
  else match e.nat? "r" with
    | some r => .ok [routeLine (s.route r)] s
    | none => .ok ((s.cch.routes.filter fun x => x.2.state != .closed).map fun x => kn "r" x.1 ++ " " ++ routeLine x.2) s
def execRouteShow (c : Ctx) (p : Pfx) (a : Args) (s : State) : Host.Outcome State Fault Refusal := ulc routeShowV routeShowBody c p a s

/-! ### Windows (R333 to R338) -/

def winOpenV : Verb := {
  obj := "win", name := "open", level := .keeper
  keys := [kInt "w" 0 1023 true, { name := "addr", ty := .hex 48, req := true }, kInt "len" 1 (2 ^ 48) true,
           { name := "rights", ty := .enums ["rd", "wr"], req := true }, kInt "route" 0 511] }

/-- The words of a list of enumerated values, or the one value. -/
def Env.wordsOf (e : Env) (k : String) : List String := if (e.words k).isEmpty then (e.word? k).toList else e.words k

/-- `win.open` (R334 to R336). -/
def winOpenBody (_c : Ctx) (_p : Pfx) (e : Env) (s : State) : Res :=
  let w := e.nat "w"
  let addr := e.nat "addr"
  let len := e.nat "len"
  if inUsable addr len s = false ∨ inCellar addr len s then .err 13 "addr" s
  else if s.on 8 = false then .err 40 "" s
  else if (s.win w).opened then .err 30 "w" s
  else
    let rights := e.wordsOf "rights"
    let s := openWindow w { addr := addr, len := len, rd := rights.contains "rd", wr := rights.contains "wr", route := e.nat? "route" } s
    .ok [kn "w" w ++ " " ++ kv "key" (hexS 8 (winKey w s).toNat)] s
def execWinOpen (c : Ctx) (p : Pfx) (a : Args) (s : State) : Host.Outcome State Fault Refusal := ulc winOpenV winOpenBody c p a s

/-- `win.close` (R338): every access that passed R337 has ended, since each is one step. A boundary window belongs to its plan. -/
def winCloseV : Verb := { obj := "win", name := "close", level := .keeper, keys := [kInt "w" 0 1023 true] }
def winCloseBody (_c : Ctx) (_p : Pfx) (e : Env) (s : State) : Res :=
  let w := e.nat "w"
  if (s.win w).opened = false then .err 40 "w" s
  else if (s.win w).hop.isSome then .err 30 "w" s
  else .ok [] (closeWindow w s)
def execWinClose (c : Ctx) (p : Pfx) (a : Args) (s : State) : Host.Outcome State Fault Refusal := ulc winCloseV winCloseBody c p a s

/-- `win.show`. -/
def winShowV : Verb := { obj := "win", name := "show", changes := false, keys := [kInt "w" 0 1023] }
def winLine (n : Nat) (w : Window) : String :=
  if w.opened then
    let rights := (if w.rd then ["RD"] else []) ++ (if w.wr then ["WR"] else [])
    spaced [kn "w" n, kv "state" "OPEN", kv "addr" (hexS 12 w.addr), kn "len" w.len, kv "rights" (commas rights),
      kv "route" (match w.route with | none => "any" | some r => if r < 512 then natS r else "none")]
  else kn "w" n ++ " " ++ kv "state" "CLOSED"
def winShowBody (_c : Ctx) (_p : Pfx) (e : Env) (s : State) : Res :=
  if s.on 8 = false then .err 40 "" s
  else match e.nat? "w" with
    | some w => .ok [winLine w (s.win w)] s
    | none => .ok ((s.cch.wins.filter fun x => x.2.opened).map fun x => winLine x.1 x.2) s
def execWinShow (c : Ctx) (p : Pfx) (a : Args) (s : State) : Host.Outcome State Fault Refusal := ulc winShowV winShowBody c p a s

/-! ### Rings (R363, R364) -/

def statusS (n : Nat) : String :=
  match n with
  | 0 => "OK" | 1 => "FLUSHED" | 2 => "ACCESS" | 3 => "LENGTH" | 4 => "RETRY" | 5 => "LOCAL" | 6 => "WAITFAIL" | 7 => "RNR"
  | 8 => "PEER-CLOSED" | _ => "POISON"

/-- A number in as few pairs of hex digits as hold it. -/
def hexMin (n : Nat) : String :=
  hexS (if n < 256 then 2 else if n < 65536 then 4 else if n < 16777216 then 6 else 8) n

def receiptLine (x : Receipt) : String :=
  spaced [kv "wid" (hexMin x.wid.toNat), kn "route" x.route, kv "kind" (if x.target then "T" else "S"), kv "op" (upperS (opNames.getD x.op "")),
    kv "st" (statusS x.status), kn "len" x.len, kv "psn" (hexS 6 x.psn)]

/-- Entries of a ring freed by its reader. -/
def advanceTail (n k : Nat) (s : State) : State :=
  s.onRing n fun g => { g with entries := g.entries.drop k, tail := wrap (g.tail + k) 1024 }

/-- `cch.ring`: receipts reported and the tail moved past them. -/
def cchRingV : Verb := { obj := "cch", name := "ring", level := .keeper, keys := [kInt "n" 0 55 true, kInt "count" 1 1024] }
def cchRingBody (_c : Ctx) (_p : Pfx) (e : Env) (s : State) : Res :=
  let n := e.nat "n"
  let l := (s.ring n).entries.take ((e.nat? "count").getD 1)
  if s.on 8 = false then .err 40 "" s
  else .ok (if l.isEmpty then ["none"] else l.map receiptLine) (advanceTail n l.length s)
def execCchRing (c : Ctx) (p : Pfx) (a : Args) (s : State) : Host.Outcome State Fault Refusal := ulc cchRingV cchRingBody c p a s

/-- Routes in a state. -/
def countRoutes (x : RState) (s : State) : Nat := (s.cch.routes.filter fun e => e.2.state == x).length
def countWins (s : State) : Nat := (s.cch.wins.filter fun e => e.2.opened).length

/-- `cch.show`. -/
def cchShowV : Verb := { obj := "cch", name := "show", changes := false }
def cchShowBody (_c : Ctx) (_p : Pfx) (_e : Env) (s : State) : Res :=
  if s.on 8 = false then .err 40 "" s
  else .ok [spaced [kn "udp" s.cch.udp.toNat, kn "open" (countRoutes .opened s), kn "error" (countRoutes .error s), kn "windows" (countWins s),
    kn "keyfail" s.cch.cKey.toNat, kn "rnr" s.cch.cRnr.toNat, kn "noreply" s.cch.cNoreply.toNat]] s
def execCchShow (c : Ctx) (p : Pfx) (a : Args) (s : State) : Host.Outcome State Fault Refusal := ulc cchShowV cchShowBody c p a s

/-! ### The doorbell and the registers (R340, R341, R365, R366) -/

/-- The staged waybill (Table 8.3). -/
def stagedWaybill (s : State) : Waybill :=
  let w (i : Nat) : W32 := s.cch.post.getD i 0
  { wid := w 0, op := fld (w 1) 0 8, flags := fld (w 1) 8 8, aop := fld (w 1) 16 8
    rsvd := fld (w 1) 24 8 + fld (w 10) 16 16 + (w 14).toNat + (w 15).toNat
    laddr := (w 2).toNat + 2 ^ 32 * (w 3).toNat, len := (w 4).toNat, rkey := w 5, roff := (w 6).toNat + 2 ^ 32 * (w 7).toNat, imm := w 8
    tagw := w 9, wroute := fld (w 10) 0 16, wcount := w 11, tally := (w 13 ++ w 12 : BitVec 64) }

/-- A write to CCH_DOORBELL: the staged waybill is posted or refused; one with a bad field is accepted and fails at issue (R341). -/
def ringDoorbell (v : W32) (s : State) : State :=
  let r := fld v 0 9
  let w := stagedWaybill s
  if (s.route r).state = .opened ∧ postRoom r w s then
    (postWaybill r w s).onCch fun c => { c with accepted := true, refused := false }
  else s.onCch fun c => { c with accepted := false, refused := true }

/-- CCH_DOORBELL. -/
def execCchDoorbell (v : W32) (s : State) : Host.Outcome State Fault Refusal := .next (if s.on 8 then ringDoorbell v s else s)

/-- A write to CCH_RING_TAIL (R366). -/
def writeTail (v : W32) (s : State) : State :=
  let n := s.cch.ringsel.toNat
  let g := s.ring n
  let k := wrap (fld v 0 10 + 1024 - g.tail) 1024
  if k ≤ g.entries.length then advanceTail n k s else s

/-- CCH_RING_TAIL_WRITE. -/
def execCchRingTailWrite (v : W32) (s : State) : Host.Outcome State Fault Refusal := .next (if s.on 8 then writeTail v s else s)

/-- The words of a receipt (Table 8.6). -/
def receiptWord (x : Receipt) (i : Nat) : W32 :=
  let t : Tally := x.tally.getD 0
  match i with
  | 0 => x.wid
  | 1 => put 0 x.route + put 14 (b2n x.tally.isSome) + put 15 (b2n x.target) + put 16 x.op + put 24 x.status
  | 2 => put 0 x.len
  | 3 => x.imm
  | 4 => t.extractLsb' 0 32
  | 5 => t.extractLsb' 32 32
  | 6 => put 0 x.psn + put 24 (fld x.tagw 0 8)
  | _ => put 0 (b2n x.phase)

/-- CCH_RINFO of a route. -/
def cchRinfo (x : Route) : W32 :=
  put 30 (match x.state with | .closed => 0 | .opened => 1 | .error => 2 | .closing => 3) + put 29 (b2n x.lossless) +
    put 27 (match x.bind with | .none => 0 | .larder => 1 | .desk => 2) + put 26 x.port + put 25 (b2n x.rejLate) + put 16 (x.status % 16) +
    put 8 (min 255 x.sendq.length)

/-- CCH_WINFO of a window. -/
def cchWinfo (w : Window) : W32 :=
  put 31 (b2n w.opened) + put 30 (b2n w.rd) + put 29 (b2n w.wr) + put 28 (b2n (w.opened && w.route.isNone)) +
    put 0 ((w.route.getD 0) % 512)

/-- A read in the CCH block. The receipt at TAIL of an empty ring is free (log entry 5). -/
def cchRead (off : Nat) (s : State) : W32 × State :=
  let c := s.cch
  let x := s.route c.rsel.toNat
  match off with
  | 0x00 => (put 0 c.udp.toNat, s)
  | 0x04 => (put 20 (countWins s) + put 10 (countRoutes .error s) + put 0 (countRoutes .opened s), s)
  | 0x10 => (put 0 c.rsel.toNat, s)
  | 0x14 => (cchRinfo x, s)
  | 0x18 => (x.ccOut, s)
  | 0x1C => (x.ccIn, s)
  | 0x84 => (put 1 (b2n c.refused) + put 0 (b2n c.accepted), s)
  | 0x90 => (put 0 c.ringsel.toNat, s)
  | 0x94 => (put 0 (s.ring c.ringsel.toNat).head, s)
  | 0x98 => (put 0 (s.ring c.ringsel.toNat).tail, s)
  | 0x100 => (put 0 c.wsel.toNat, s)
  | 0x104 => (cchWinfo (s.win c.wsel.toNat), s)
  | 0x110 => (put 24 c.cNoreply.toNat + put 16 c.cRnr.toNat + put 0 c.cKey.toNat,
              s.onCch fun c => { c with cNoreply := 0, cRnr := 0, cKey := 0 })
  | _ =>
    if 0x40 ≤ off ∧ off < 0x80 then (c.post.getD ((off - 0x40) / 4) 0, s)
    else if 0xA0 ≤ off ∧ off < 0xC0 then
      match (s.ring c.ringsel.toNat).entries with
      | g :: _ => (receiptWord g ((off - 0xA0) / 4), s)
      | [] => s.draw
    else (0, s)

/-- A write in the CCH block. -/
def cchWrite (off : Nat) (v : W32) (s : State) : State :=
  match off with
  | 0x00 => s.onCch fun c => { c with udp := BitVec.ofNat 16 (fld v 0 16) }
  | 0x10 => s.onCch fun c => { c with rsel := BitVec.ofNat 9 (fld v 0 9) }
  | 0x80 => ringDoorbell v s
  | 0x84 => s.onCch fun c => { c with refused := c.refused && !v.getLsbD 1, accepted := c.accepted && !v.getLsbD 0 }
  | 0x90 => s.onCch fun c => { c with ringsel := BitVec.ofNat 6 (fld v 0 6) }
  | 0x98 => writeTail v s
  | 0x100 => s.onCch fun c => { c with wsel := BitVec.ofNat 10 (fld v 0 10) }
  | _ => if 0x40 ≤ off ∧ off < 0x80 then s.onCch fun c => { c with post := c.post.set ((off - 0x40) / 4) v } else s

/-! ### Issuing (R342 to R347, R358, R360) -/

/-- ISSUE_WRITE. -/
def execIssueWrite (r : Nat) (s : State) : Host.Outcome State Fault Refusal := .next (if s.on 8 then issueOp r 0 s else s)
/-- ISSUE_WRITE_IMM. -/
def execIssueWriteImm (r : Nat) (s : State) : Host.Outcome State Fault Refusal := .next (if s.on 8 then issueOp r 1 s else s)
/-- ISSUE_READ. -/
def execIssueRead (r : Nat) (s : State) : Host.Outcome State Fault Refusal := .next (if s.on 8 then issueOp r 2 s else s)
/-- ISSUE_SEND. -/
def execIssueSend (r : Nat) (s : State) : Host.Outcome State Fault Refusal := .next (if s.on 8 then issueOp r 3 s else s)
/-- ISSUE_FLUSH. -/
def execIssueFlush (r : Nat) (s : State) : Host.Outcome State Fault Refusal := .next (if s.on 8 then issueOp r 4 s else s)
/-- ISSUE_WAIT (R358): the WAIT completes at once where its counter has been reached. -/
def execIssueWait (r : Nat) (s : State) : Host.Outcome State Fault Refusal := .next (if s.on 8 then issueOp r 5 s else s)
/-- ISSUE_ARM (R360): it blocks its route until it fires. -/
def execIssueArm (r : Nat) (s : State) : Host.Outcome State Fault Refusal := .next (if s.on 8 then issueOp r 6 s else s)

/-! ### Completion (R343, R345) -/

/-- WAYBILL_COMPLETE (R343, R345): the last byte of the oldest WRITE, WRITE_IMM or SEND has left the port, on a route that is OPEN or
still closing. -/
def execWaybillComplete (r : Nat) (s : State) : Host.Outcome State Fault Refusal :=
  .next (match (s.route r).sendq with
    | w :: _ =>
      if s.on 8 ∧ ((s.route r).state = .opened ∨ (s.route r).state = .closing) ∧ w.issued ∧ (w.op = 0 ∨ w.op = 1 ∨ w.op = 3) then settleRoute r (finishHead r 0 s) else s
    | [] => s)

/-- The verbs of this file. -/
def coachVerbs : List (Verb × (Ctx → Pfx → Env → State → Res)) :=
  [(routeOpenV, routeOpenBody), (routeCloseV, routeCloseBody), (routeSetV, routeSetBody), (routeRecvV, routeRecvBody),
   (routePostV, routePostBody), (routeShowV, routeShowBody), (winOpenV, winOpenBody), (winCloseV, winCloseBody), (winShowV, winShowBody),
   (cchRingV, cchRingBody), (cchShowV, cchShowBody)]

end Sys2Proof.Machine
end

