-- ==== Sys2Proof/Machine/Wire.lean ====
section
/-! DEFINITION. Coach on the wire (spec 09): what a port does with each packet it receives, sequence and acknowledgement, recovery
from loss, congestion, and the records of boundary hops. -/

namespace Sys2Proof.Machine

/-! ### Acceptance (R368, R371, R372, R386) -/

/-- Whether a port exchanges frames. -/
def portUp (p : Nat) (s : State) : Bool := s.on (portDom p) && (s.net p).en && (s.net p).link

/-- The kinds of Table 9.1. -/
def kindOk (n : Nat) : Bool := decide (n ≤ 5) || n == 0x10 || n == 0x11 || n == 0x12

/-- The statuses a NAK may carry: SEQ and those of Table 8.7. -/
def nakOk (n : Nat) : Bool := n == 0x10 || (decide (1 ≤ n) && decide (n ≤ 9))

/-- Whether a packet comes from the peer of route `x`. -/
def fromPeer (k : Packet) (x : Route) : Bool := k.src == x.peer && some k.sroute == x.peerRoute && k.sport == x.peerPort

/-- An answer sent back on route `r` from the control queue (R379): an ACK, a NAK or an EASE. -/
def sendControl (r kind apsn status cecnt : Nat) (s : State) : State :=
  sendCoach r { basePacket s r kind with apsn := apsn, status := status, cecnt := cecnt } s

/-- A NAK of status PEER-CLOSED, at most one in 100 µs for a route (R372); the time is counted in frame edges (log entry 87). -/
def onceClosed (r : Nat) (send : State → State) (s : State) : State :=
  if tgetD s.cch.nakWait r 0 = 0 then (send s).onCch fun c => { c with nakWait := tset c.nakWait r (s.fs / 10000 + 2) } else s

/-- A NAK to a request whose route is CLOSED: it goes back to where the request came from (R372). -/
def nakClosed (k : Packet) (s : State) : State :=
  let n : Packet := { k with
    sport := s.cch.udp.toNat, ce := false, tl := false, ar := false, kind := 0x11, droute := k.sroute, sroute := k.droute, pos := 0, psn := 0
    msn := 0, tally := 0, rkey := 0, roff := 0, len := 0, imm := 0, tagw := 0, apsn := k.psn, status := 8, cecnt := 0, payload := [] }
  onceClosed k.droute (sendFrame k.port (.coach k.src k.sport none 0 0 (s.net k.port).ect (isV6 k.src) (coachHeader n) n)) s

/-- A CE-marked packet taken in on a route: one EASE, at most one in each TIMER (R386). -/
def noteCe (r : Nat) (k : Packet) (s : State) : State :=
  if k.ce then
    let s := s.onRoute r fun x => { x with ceCnt := min (x.ceCnt + 1) (2 ^ 32 - 1) }
    if (s.route r).easeOut then s
    else
      let p := (s.route r).port
      let s := sendControl r 0x12 0 0 (s.route r).ceCnt s
      let s := s.onRoute r fun x => { x with easeOut := true, ceCnt := 0 }
      s.onNet p fun n => { n with cEaseT := satInc n.cEaseT }
  else s

/-- A packet taken in by its port: the route it is for, or none where it is dropped (R368, R371, R372, R332). `kind` is the kind
the command names; a packet of another kind of Table 9.1 is no such command. A frame damaged on the wire is counted and goes no further
(R406). -/
def takePacket (kind : Nat) (k : Packet) (s : State) : Option Nat × State :=
  let discard : State := s.onNet k.port fun n => { n with cDisc := satInc n.cDisc }
  if !portUp k.port s || !s.on 8 then (none, s)
  else if kindOk k.kind && k.kind != kind then (none, s)
  else if !k.fcsOk then (none, s.onNet k.port fun n => { n with cFcs := satInc n.cFcs })
  else if k.fecUnc then (none, s.onNet k.port fun n => { n with cFecU := satInc n.cFecU })
  else if !k.csumOk then (none, s.onNet k.port fun n => { n with cCsum := satInc n.cCsum })
  else if k.ver ≠ 1 ∨ kindOk k.kind = false ∨ k.rsvd ≠ 0 ∨ 512 ≤ k.droute ∨ (k.kind = 0x11 ∧ nakOk k.status = false) then (none, discard)
  else
    let x := s.route k.droute
    match x.state with
    | .closed => (none, if k.kind ≤ 4 then nakClosed k s else s)
    | .error => (none, if fromPeer k x then s else discard)
    | _ => if fromPeer k x then (some k.droute, noteCe k.droute k s) else (none, discard)

/-! ### Requests (R373 to R376) -/

/-- The latest PSN executed in order. -/
def lastPsn (x : Route) : Nat := wrap (x.epsn + 2 ^ 24 - 1) (2 ^ 24)

/-- A cumulative ACK (R376). -/
def sendAck (r : Nat) (s : State) : State := (sendControl r 0x10 (lastPsn (s.route r)) 0 0 s).onRoute r fun x => { x with unacked := 0 }

/-- A request packet executed: the expected PSN advances by the PSNs it takes, and an ACK is sent when due (R374, R376). -/
def executed (r n : Nat) (ar : Bool) (s : State) : State :=
  let s := s.onRoute r fun x => { x with epsn := wrap (x.epsn + n) (2 ^ 24), nakSent := false, unacked := x.unacked + 1 }
  let x := s.route r
  if ar || decide ((s.net x.port).ackn.toNat ≤ x.unacked) then sendAck r s else s

/-- A NAK of a status other than SEQ, counted where a counter stands for it (R337, R356, R357). -/
def sendNak (r psn st : Nat) (s : State) : State :=
  let s := s.onCch fun c => if st = 2 then { c with cKey := satInc c.cKey } else if st = 7 then { c with cRnr := satInc c.cRnr } else c
  let s := if st = 3 then s.onRoute r fun x => { x with buf := [], place := 0 } else s
  sendControl r 0x11 psn st 0 s

/-- What a receiver does with a request packet (R372, R374): `run` executes it, or answers the status of a NAK; `again` is what a
duplicate still does, or the status of the NAK it meets; it takes `n` PSNs. -/
def request (kind : Nat) (k : Packet) (n : Nat → State → Nat) (again : Nat → State → Except Nat State) (run : Nat → State → Except Nat State) (s : State) : State :=
  match takePacket kind k s with
  | (none, s) => s
  | (some r, s) =>
    let x := s.route r
    if x.state ≠ .opened then onceClosed r (sendControl r 0x11 k.psn 8 0) s
    else
      let d := wrap (x.epsn + 2 ^ 24 - k.psn) (2 ^ 24)
      if d = 0 then
        let m := n r s
        match run r s with
        | .ok s => executed r m k.ar s
        | .error st => sendNak r k.psn st s
      else if d ≤ 2 ^ 23 then
        match again r s with
        | .ok s => sendAck r s
        | .error st => sendNak r k.psn st s
      else if x.nakSent then s
      else
        let s := sendControl r 0x11 x.epsn 0x10 0 s
        (s.onRoute r fun x => { x with nakSent := true }).onNet x.port fun t => { t with cNakS := satInc t.cNakS }

/-! ### Windows and boundary records (R337, R394 to R400) -/

/-- The checks of R337, in order: the window, or none. -/
def windowFor (r : Nat) (rd : Bool) (key : W32) (off len : Nat) (s : State) : Option Nat :=
  let w := fld key 0 10
  let x := s.win w
  if x.opened && winKey w s == key && (match x.route with | none => true | some q => q == r) && (if rd then x.rd else x.wr) &&
      decide (off + len ≤ x.len) then some w else none

/-- The plan and hop of a boundary window. -/
def hopOf (x : Window) (s : State) : Option (Plan × Hop) :=
  x.hop.bind fun e => (s.plan? e.1).bind fun p => (p.hops.find? fun h => h.def_.hop == e.2).map fun h => (p, h)

/-- Whether the half that holds byte `off` of a boundary window is sealed (R399). -/
def halfSealed (p : Plan) (h : Hop) (off : Nat) (s : State) : Bool :=
  let half := off / max 1 (p.rows * h.def_.size)
  s.cch.sealed.any fun m => m % 2 == half % 2

/-- A hop of a plan changed. -/
def onHop (p : Plan) (h : Hop) (f : Hop → Hop) (s : State) : State :=
  s.onPlan p.name fun q => { q with hops := q.hops.map fun x => if x.def_.hop = h.def_.hop then f x else x }

/-- Bytes placed at an offset of a window: in LPDDR5X, or in the delivery buffer of a hop unless the half is sealed (R399). -/
def placeIn (w off : Nat) (bs : List Byte) (s : State) : State :=
  let x := s.win w
  match x.hop with
  | none => { s with ram := s.ram.writeN (x.addr + off) bs }
  | some _ => match hopOf x s with
    | some (p, h) => if halfSealed p h off s then s else onHop p h (fun y => { y with buf := y.buf.writeN off bs }) s
    | none => s

/-- The 64-bit tally of a 32-bit immediate (R67): within 2^31 frames of the present one. -/
def rebuildTally (imm : W32) (s : State) : Nat :=
  let now := s.tly.now.toNat
  let d := wrap (imm.toNat + 2 ^ 32 - wrap now (2 ^ 32)) (2 ^ 32)
  if d < 2 ^ 31 then wrap (now + d) (2 ^ 64) else wrap (now + d + 2 ^ 64 - 2 ^ 32) (2 ^ 64)

/-- A boundary record whose last packet has come (R398 to R400): on time it is valid for its round and row; into a sealed half it
counts LATE; for a round that is neither this nor the next it counts STALE, and the slot holds no valid vector. -/
def recordCame (w off : Nat) (imm : W32) (s : State) : State :=
  let x := s.win w
  match hopOf x s with
  | none => s
  | some (p, h) =>
    let half := off / max 1 (p.rows * h.def_.size)
    let row := off % max 1 (p.rows * h.def_.size) / max 1 h.def_.size
    let t := rebuildTally imm s
    let now := s.tly.now.toNat
    let pt := match h.route with | some r => (s.route r).port | none => 0
    let drop (y : Hop) : Hop := { y with recs := y.recs.filter fun e => !(e.1 % 2 == half && e.2 == row) }
    if (t ≠ now ∧ t ≠ now + 1) ∨ t % 2 ≠ half then
      (onHop p h drop s).onNet pt fun n => { n with cHopS := satInc n.cHopS }
    else if halfSealed p h off s then s.onNet pt fun n => { n with cHopL := satInc n.cHopL }
    else onHop p h (fun y => { drop y with recs := (drop y).recs ++ [(t, row)] }) s

/-- HOP_DEADLINE (R398, R399): D(n) of the coming tally has passed, and its half is sealed. -/
def execHopDeadline (s : State) : Host.Outcome State Fault Refusal :=
  .next (if s.on 3 then
      let n := s.tly.now.toNat + 1
      s.onCch fun c => { c with sealed := if c.sealed.contains n then c.sealed else c.sealed ++ [n] }
    else s)

/-! ### Target receipts -/

/-- Whether a route's reserved entries of its ring have one free (R329, R356). -/
def targetFree (r : Nat) (s : State) : Bool :=
  let x := s.route r
  decide (targetHeld x.rring r s < x.rq)

/-- A target receipt written on a ring (R342, R352). -/
def targetReceipt (n r op len psn : Nat) (imm tagw : W32) (tally : Option Tally) (s : State) : State :=
  writeReceipt n {
    wid := 0, route := r, target := true, op := op, status := 0, len := len, imm := imm, tally := tally, psn := psn, tagw := tagw
    phase := false } s

/-- CC_IN counts one more message; WAITs that watch it may complete (R358). -/
def countIn (r : Nat) (s : State) : State := afterCount (s.onRoute r fun x => { x with ccIn := x.ccIn + 1 })

/-- The first packet of a message notes its PSN and tag, and the bytes placed so far begin at 0. -/
def beginMessage (r : Nat) (k : Packet) (s : State) : State :=
  if k.pos ≤ 1 then s.onRoute r fun x => { x with place := 0, buf := [], curTag := k.tagw, curPsn := k.psn } else s

/-- Whether a packet is the last of its message. -/
def endsMsg (k : Packet) : Bool := k.pos == 0 || k.pos == 3

/-! ### The requests of Table 9.2 -/

/-- RECEIVE_WRITE (R337, R342, R370). -/
def execReceiveWrite (k : Packet) (s : State) : Host.Outcome State Fault Refusal :=
  .next (request 0 k (fun _ _ => 1) (fun _ s => .ok s) (fun r s =>
    match windowFor r false k.rkey k.roff k.payload.length s with
    | some w => .ok (placeIn w k.roff k.payload s)
    | none => .error 2) s)

/-- RECEIVE_WRITE_IMM (R342, R352, R356, R398): placed as a WRITE; its last packet writes the target receipt and counts in CC_IN. A
record of a boundary hop is receipted on a ring of the part (R330). -/
def execReceiveWriteImm (k : Packet) (s : State) : Host.Outcome State Fault Refusal :=
  .next (request 1 k (fun _ _ => 1) (fun _ s => .ok s) (fun r s =>
    match windowFor r false k.rkey k.roff k.payload.length s with
    | none => .error 2
    | some w =>
      let hop := (s.win w).hop.isSome
      if endsMsg k ∧ hop = false ∧ targetFree r s = false then .error 7
      else
        let s := placeIn w k.roff k.payload (beginMessage r k s)
        let s := s.onRoute r fun x => { x with place := x.place + k.payload.length }
        if endsMsg k then
          let x := s.route r
          let start := k.roff + k.payload.length - x.place
          let s := targetReceipt (if hop then 57 else x.rring) r 1 x.place x.curPsn k.imm 0 (if k.tl then some k.tally else none) s
          let s := if hop then recordCame w start k.imm s else s
          .ok (countIn r s)
        else .ok s) s)

/-- The packets of a READ response (R373). A response that met an uncorrectable error is marked POISON (R322). -/
def readPackets (r : Nat) (k : Packet) (poison : Bool) (bs : List Byte) (s : State) : List Packet :=
  let segs := segments (bs.length + 1) (s.pmax (s.route r).port) bs
  let n := segs.length
  (segs.zip (List.range n)).map fun e =>
    { basePacket s r 5 with
      psn := wrap (k.psn + e.2) (2 ^ 24), pos := if n = 1 then 0 else if e.2 = 0 then 1 else if e.2 + 1 = n then 3 else 2
      status := if poison then 9 else 0, payload := e.1 }

/-- RECEIVE_READ_REQ (R337, R346, R373, R374): a duplicate is read again. -/
def execReceiveReadReq (k : Packet) (ecc : Ecc) (s : State) : Host.Outcome State Fault Refusal :=
  let run (r : Nat) (s : State) : Except Nat State :=
    match windowFor r true k.rkey k.roff k.len s with
    | none => .error 2
    | some w =>
      let s := countEcc ecc s
      let ks := readPackets r k (match ecc with | .ded _ => true | _ => false) (s.ram.readN ((s.win w).addr + k.roff) k.len) s
      .ok (s.forEach ks (sendCoach r))
  .next (request 2 k (fun r s => max 1 ((k.len + s.pmax (s.route r).port - 1) / s.pmax (s.route r).port))
    run run s)

/-- RECEIVE_FLUSH (R375): every earlier request is placed as it is executed. -/
def execReceiveFlush (k : Packet) (s : State) : Host.Outcome State Fault Refusal :=
  .next (request 4 k (fun _ _ => 1) (fun _ s => .ok s) (fun _ s => .ok s) s)

/-! ### SEND (R342, R350, R353 to R362) -/

/-- A request record (Table 7.2): the event it is, or none where it is malformed (R295, R298). -/
def recordOf (r : Nat) (msn : BitVec 16) (bs : List Byte) (s : State) : Option Event :=
  let le (off n : Nat) : Nat := leNat ((bs.drop off).take n)
  let target := le 4 2
  let op := le 7 1
  let n := op / 16
  let w : W32 := BitVec.ofNat 32 (le 8 4)
  let bop : BagOp := match op % 4 with | 0 => .sum | 1 => .mean | _ => .lerp
  let req : LdrReq := ⟨target % 512, target / 512 % 16, le 6 1, bop, w, (List.range (min n 8)).map fun i => le (12 + 4 * i) 4⟩
  let rsvd : Bool := target / 8192 != 0 || op / 4 % 4 != 0 || op % 4 == 3 || le 0x2C 4 != 0 || (bop != BagOp.lerp && w != 0)
  if bs.length != 48 || rsvd || decide (8 < n) || badRequest s req then none
  else
    let t : Tally := BitVec.ofNat 64 (rebuildTally (BitVec.ofNat 32 (le 0 4)) s)
    some { src := .route r, seq := msn, stamp := t, due := t, late := false, by_ := none, eff := .request req }

/-- The 48-byte records of a message; a rest that is no whole record is a malformed one. -/
def recordsOf (fuel : Nat) (bs : List Byte) : List (List Byte) :=
  match fuel with
  | 0 => []
  | f + 1 => if bs.isEmpty then [] else bs.take 48 :: recordsOf f (bs.drop 48)

/-- A message of request records taken in: malformed records are discarded and counted, and all of them while PD11 is off (R298,
R303); the others are posted as Coach's share has room. -/
def takeRecords (r : Nat) (msn : BitVec 16) (cut : Bool) (bs : List Byte) (s : State) : State :=
  let all := recordsOf (bs.length / 48 + 1) bs
  let evs := if s.on 11 then (all.take 32).filterMap fun b => recordOf r msn b s else []
  let bad := all.length - evs.length
  let s := if s.on 11 then s.onLdr fun l => { l with cBad := satAdd l.cBad bad } else s
  let s := s.onRoute r fun x => { x with pool := x.pool - 1, pending := x.pending ++ [evs] }
  drainRoute (2 + ((s.route r).pending.map fun l => l.length + 1).sum) r cut s

/-- The earliest-posted ARM that a SEND on route `r` with tag `t` fires (R360, R361): its route and its order of posting. -/
def armFor (r : Nat) (t : W32) (s : State) : Option (Nat × Nat) :=
  let l := (s.cch.routes.filter fun e => e.2.state == .opened).map fun e =>
    (e.2.sendq.filter fun w => w.op == 6 && !w.armed && w.wroute == r && (w.tagw == 0 || w.tagw == t)).map fun w => (e.1, w.post)
  l.flatten.foldl (fun m e => match m with | none => some e | some x => if e.2 < x.2 then some e else some x) none

/-- An ARM fires: one that blocks its route issues its operation at once, one still behind others when its turn comes (R360). -/
def fireArm (r : Nat) (t : W32) (s : State) : State :=
  match armFor r t s with
  | none => s
  | some (q, post) =>
    match (s.route q).sendq.find? fun w => w.post == post with
    | none => s
    | some w =>
      let fired (v : Waybill) : Waybill :=
        if v.post = post then (if v.issued then { v with op := v.aop, issued := false } else { v with armed := true }) else v
      let s := s.onRoute q fun x => { x with sendq := x.sendq.map fired }
      if w.issued then issueOp q w.aop s else s

/-- RECEIVE_SEND. The message takes the oldest receive buffer; one longer than the buffer is refused with LENGTH and nothing of it is
placed. After placement come the target receipt, CC_IN, and the ARM it fires (R362). -/
def execReceiveSend (m : Arrival) (s : State) : Host.Outcome State Fault Refusal :=
  let k := m.packet
  .next (request 3 k (fun _ _ => 1) (fun _ s => .ok s) (fun r s =>
    let s := beginMessage r k s
    let x := s.route r
    let room : Option Nat := match x.bind with
      | .none => x.recvq.head?.map (·.2)
      | _ => if 0 < x.pool then some 4096 else none
    match room with
    | none => .error 7
    | some n =>
      if targetFree r s = false then .error 7
      else if n < x.buf.length + k.payload.length then .error 3
      else
        let bs := x.buf ++ k.payload
        let s := s.onRoute r fun x => { x with buf := bs }
        if endsMsg k then
          let s := targetReceipt x.rring r 3 bs.length x.curPsn k.imm x.curTag (if k.tl then some k.tally else none) s
          let s := match x.bind with
            | .none => { (s.onRoute r fun x => { x with recvq := x.recvq.tail }) with
                ram := s.ram.writeN ((x.recvq.headD (0, 0)).1) bs }
            | .larder => takeRecords r k.msn m.cut bs s
            | .desk => s.onRoute r fun x => { x with pool := x.pool - 1, lines := x.lines ++ [(k.msn, bs)] }
          .ok (fireArm r x.curTag (countIn r (s.onRoute r fun x => { x with buf := [] })))
        else .ok s) s)

/-! ### Answers (R342, R375, R382 to R388) -/

/-- RECEIVE_READ_RESP: the next packet of a READ is placed at the local address, or in the fetch slot of a Larder READ (R309). -/
def execReceiveReadResp (k : Packet) (s : State) : Host.Outcome State Fault Refusal :=
  .next (match takePacket 5 k s with
    | (none, s) => s
    | (some r, s) =>
      let x := s.route r
      let m := s.pmax x.port
      let isNext (w : Waybill) : Bool := w.op == 2 && w.issued && decide (w.got < w.psns) && wrap (w.psn + w.got) (2 ^ 24) == k.psn
      match x.sendq.find? isNext with
      | none => s
      | some w =>
        let poison := k.status == 9
        let last := decide (w.psns ≤ w.got + 1)
        let upd (v : Waybill) : Waybill := if v.post = w.post then { v with got := v.got + 1, poison := v.poison || poison } else v
        let s := s.onRoute r fun x => { x with sendq := x.sendq.map upd }
        let s := match w.larder with
          | some n => s.onLdr fun l => { l with slots := l.slots.map fun e =>
              if e.1 = n then (e.1, { e.2 with data := e.2.data ++ k.payload, full := e.2.full || last, poison := e.2.poison || poison }) else e }
          | none => { s with ram := s.ram.writeN (w.laddr + w.got * m) k.payload }
        settleRoute r s)

/-- RECEIVE_ACK (R375, R378, R382): every packet up to APSN leaves the retransmit store, and FLUSHes it covers complete. -/
def execReceiveAck (k : Packet) (s : State) : Host.Outcome State Fault Refusal :=
  .next (match takePacket 0x10 k s with
    | (none, s) => s
    | (some r, s) =>
      let x := s.route r
      let d := wrap (k.apsn + 1 + 2 ^ 24 - x.ackd) (2 ^ 24)
      if 1 ≤ d ∧ d ≤ wrap (x.psn + 2 ^ 24 - x.ackd) (2 ^ 24) then
        let a := wrap (k.apsn + 1) (2 ^ 24)
        settleRoute r (s.onRoute r fun x => { x with
          ackd := a, retries := 0, retx := x.retx.filter fun e => decide (wrap (e.1 + 2 ^ 24 - a) (2 ^ 24) < 2 ^ 23) })
      else s)

/-- The packets of a route sent again from a PSN (R381 to R383). -/
def resendFrom (r psn : Nat) (s : State) : State :=
  s.forEach ((s.route r).retx.filter fun e => decide (wrap (e.1 + 2 ^ 24 - psn) (2 ^ 24) < 2 ^ 23)) fun e s => sendCoach r e.2 s

/-- The waybill that owns a PSN completes with a status, those before it as far as they got, and the route enters ERROR (R384). -/
def failOwner (r psn st : Nat) (s : State) : State :=
  let owns (w : Waybill) : Bool := w.issued && decide (wrap (psn + 2 ^ 24 - w.psn) (2 ^ 24) < w.psns)
  let q := (s.route r).sendq
  if q.any owns then
    let s := s.forEach (q.takeWhile fun w => !owns w) fun w s => finishHead r (if w.issued ∧ (w.op = 0 ∨ w.op = 1 ∨ w.op = 3) then 0 else 1) s
    if (s.route r).state = .closing then settleRoute r (finishHead r st s) else routeError r st s
  else afterCount (routeErrorOne r st 1 s)

/-- RECEIVE_NAK (R381, R383, R384): an RNR after the eighth retry of a packet ends the route. -/
def execReceiveNak (k : Packet) (s : State) : Host.Outcome State Fault Refusal :=
  .next (match takePacket 0x11 k s with
    | (none, s) => s
    | (some r, s) =>
      let x := s.route r
      if k.status = 0x10 then (resendFrom r k.apsn s).onNet x.port fun n => { n with cGoB := satInc n.cGoB }
      else if k.status = 7 then
        let s := s.onNet x.port fun n => { n with cRnr := satInc n.cRnr }
        if x.rnrPsn = some k.apsn ∧ 8 ≤ x.rnr then failOwner r k.apsn 7 s
        else s.onRoute r fun x => { x with
          rnr := if x.rnrPsn = some k.apsn then x.rnr else 0, rnrPsn := some k.apsn, rnrWait := true }
      else if k.status = 2 ∨ k.status = 3 ∨ k.status = 8 then failOwner r k.apsn k.status s
      else s)

/-- RECEIVE_EASE (R387, R388). -/
def execReceiveEase (k : Packet) (s : State) : Host.Outcome State Fault Refusal :=
  .next (match takePacket 0x12 k s with
    | (none, s) => s
    | (some r, s) =>
      let p := (s.route r).port
      let s := s.onNet p fun n => { n with cEaseR := satInc n.cEaseR }
      if carriesHop r s ∨ (s.route r).easeIn then s
      else
        let n := s.net p
        s.onRoute r fun x => { x with
          easeIn := true, rate := max (n.ccRmin.toNat * (lineRate / 256)) (x.rate * (256 - n.ccCut.toNat) / 256) })

/-! ### Timers (R376, R382, R383, R387) -/

/-- ACK_TIMER. -/
def execAckTimer (r : Nat) (s : State) : Host.Outcome State Fault Refusal :=
  .next (if s.on 8 ∧ (s.route r).state = .opened ∧ 0 < (s.route r).unacked then sendAck r s else s)

/-- RETRANSMIT_TIMEOUT (R382): the eighth retry that times out ends the route. -/
def execRetransmitTimeout (r : Nat) (s : State) : Host.Outcome State Fault Refusal :=
  .next (match (s.route r).retx with
    | [] => s
    | (psn, _) :: _ =>
      let x := s.route r
      if s.on 8 = false ∨ (x.state ≠ .opened ∧ x.state ≠ .closing) then s
      else
        let s := s.onNet x.port fun n => { n with cTmo := satInc n.cTmo }
        if 8 ≤ x.retries then routeError r 4 s
        else resendFrom r psn (s.onRoute r fun x => { x with retries := x.retries + 1 }))

/-- RNR_RETRY (R383): the wait has passed. -/
def execRnrRetry (r : Nat) (s : State) : Host.Outcome State Fault Refusal :=
  .next (match (s.route r).rnrPsn with
    | none => s
    | some psn =>
      let x := s.route r
      if s.on 8 = false ∨ x.state ≠ .opened ∨ x.rnrWait = false then s
      else resendFrom r psn (s.onRoute r fun x => { x with rnr := x.rnr + 1, rnrWait := false }))

/-- CC_TIMER (R386, R387). -/
def execCcTimer (r : Nat) (s : State) : Host.Outcome State Fault Refusal :=
  .next (if s.on 8 ∧ (s.route r).state = .opened then
      let n := s.net (s.route r).port
      s.onRoute r fun x => { x with
        rate := if x.easeIn then x.rate else min lineRate (x.rate + n.ccStep.toNat * (lineRate / 256)), easeIn := false, easeOut := false }
    else s)

end Sys2Proof.Machine
end

