-- ==== Sys2Proof/Machine/Net.lean ====
section
/-! DEFINITION. The network ports (spec 09): link, PFC, the protocols the port answers, PTP settings, and the NET registers. -/

namespace Sys2Proof.Machine

/-- PFC_FRAME_RECEIVED (R385): the named priorities pause or resume; the port asks its own peer to stop while fewer than 12 KiB of its
receive FIFO are free, and to go on once 20 KiB are. -/
def execPfcFrameReceived (port vec : Nat) (xoff : Bool) (fifoFree : Nat) (s : State) : Host.Outcome State Fault Refusal :=
  .next (if portUp port s then
      let v := BitVec.ofNat 8 vec
      let s := s.onNet port fun n => { n with
        paused := if xoff then n.paused ||| v else n.paused &&& ~~~v, cXoffR := if xoff then satInc n.cXoffR else n.cXoffR }
      let n := s.net port
      let pri := 2 ^ n.pfcpri.toNat
      if fifoFree < 12288 ∧ n.xoff = false then
        sendFrame port (.pfc pri true) (s.onNet port fun n => { n with xoff := true, cXoffT := satInc n.cXoffT })
      else if 20480 ≤ fifoFree ∧ n.xoff then sendFrame port (.pfc pri false) (s.onNet port fun n => { n with xoff := false })
      else s
    else s)

/-- LINK_CHANGE (R390, R406): LINK stands only with block lock and the FEC the port is set to. -/
def execLinkChange (port : Nat) (lock fecok modp : Bool) (s : State) : Host.Outcome State Fault Refusal :=
  .next (if s.on (portDom port) then
      s.onNet port fun n => { n with
        modp := modp, fecok := n.en && (fecok || n.fec == 0), link := n.en && lock && (fecok || n.fec == 0) }
    else s)

/-- The addresses of a port (R389). -/
def portAddrs (p : Nat) (s : State) : List String :=
  let n := s.net p
  let b := n.ip4
  (if b = 0 then [] else [dotS [natS (fld b 24 8), natS (fld b 16 8), natS (fld b 8 8), natS (fld b 0 8)]]) ++
    (if n.ip6.isEmpty then [] else [n.ip6]) ++ [Config.linkLocal n.mac]

/-- ARP_REQUEST (R389). -/
def execArpRequest (port : Nat) (target sender : String) (s : State) : Host.Outcome State Fault Refusal :=
  .next (if portUp port s ∧ (s.net port).ip4 ≠ 0 ∧ ip4Word target = (s.net port).ip4 then sendFrame port (.arp sender) s else s)

/-- NDP_SOLICITATION (R389). -/
def execNdpSolicitation (port : Nat) (target sender : String) (s : State) : Host.Outcome State Fault Refusal :=
  let n := s.net port
  .next (if portUp port s && ((!n.ip6.isEmpty && lowerS target == n.ip6) || lowerS target == Config.linkLocal n.mac) then
      sendFrame port (.ndp sender) s
    else s)

/-- ICMP_ECHO (R389). -/
def execIcmpEcho (port : Nat) (dst sender : String) (data : List Byte) (s : State) : Host.Outcome State Fault Refusal :=
  .next (if portUp port s && (portAddrs port s).contains (lowerS dst) then sendFrame port (.echo sender data) s else s)

/-- Whether an IPv4 address is a multicast group. -/
def isGroup (t : String) : Bool := let n := fld (ip4Word t) 28 4; n == 14

/-- IGMP_QUERY (R431): reports for the multicast groups the port's receive flows use. -/
def execIgmpQuery (port version : Nat) (s : State) : Host.Outcome State Fault Refusal :=
  let l := ((s.aud.rx.filter fun f => f.en && f.portB == (port == 1) && isGroup f.addr).map (·.addr)).eraseDups
  .next (if portUp port s && s.on 3 && !l.isEmpty then sendFrame port (.igmp (version != 2) l) s else s)

/-! ### Registers (R406, R407) -/

/-- Whether a route on a port is OPEN. -/
def portRouted (p : Nat) (s : State) : Bool := s.cch.routes.any fun e => e.2.state == .opened && e.2.port == p

/-- A write to NET_CTL. While a route on the port is OPEN, a write that would change SPEED, FEC or MTU changes nothing (R407). -/
def writeNetCtl (p : Nat) (v : W32) (s : State) : State :=
  let n := s.net p
  let speed := v.getLsbD 1
  let f : BitVec 2 := BitVec.ofNat 2 (fld v 4 2)
  let fec := if f = 3 ∨ (f = 2 ∧ speed) then n.fec else f
  let mtu := v.getLsbD 8
  if portRouted p s ∧ (speed ≠ n.speed ∨ fec ≠ n.fec ∨ mtu ≠ n.mtu) then s
  else s.onNet p fun n => { n with
    ect := v.getLsbD 15, pfcpri := BitVec.ofNat 3 (fld v 12 3), mtu := mtu, fec := fec, speed := speed, en := v.getLsbD 0
    link := n.link && v.getLsbD 0, fecok := n.fecok && v.getLsbD 0 }

/-- NET_CTL_WRITE. -/
def execNetCtlWrite (port : Nat) (v : W32) (s : State) : Host.Outcome State Fault Refusal :=
  .next (if s.on (portDom port) then writeNetCtl port v s else s)

/-- A byte of a register unless it is 0. -/
def keepZero (old : BitVec 8) (v : W32) (lo : Nat) : BitVec 8 := if fld v lo 8 = 0 then old else BitVec.ofNat 8 (fld v lo 8)

/-- A read in a NET block. -/
def netRead (p off : Nat) (s : State) : W32 × State :=
  let n := s.net p
  match off with
  | 0x00 => (put 15 (b2n n.ect) + put 12 n.pfcpri.toNat + put 8 (b2n n.mtu) + put 4 n.fec.toNat + put 1 (b2n n.speed) + put 0 (b2n n.en), s)
  | 0x04 => (put 3 (b2n n.modp) + put 2 (b2n (n.paused.getLsbD n.pfcpri.toNat)) + put 1 (b2n n.fecok) + put 0 (b2n n.link), s)
  | 0x08 => (put 24 n.ccTimer.toNat + put 16 n.ccRmin.toNat + put 8 n.ccStep.toNat + put 0 n.ccCut.toNat, s)
  | 0x0C => (put 8 n.ackt.toNat + put 0 n.ackn.toNat, s)
  | 0x10 => (put 16 n.llto.toNat + put 0 n.lyto.toNat, s)
  | 0x18 => (put 24 n.cCsum.toNat + put 16 n.cFecU.toNat + put 8 n.cFcs.toNat + put 0 n.cDisc.toNat,
             s.onNet p fun n => { n with cCsum := 0, cFecU := 0, cFcs := 0, cDisc := 0 })
  | 0x1C => (put 24 n.cNakS.toNat + put 16 n.cGoB.toNat + put 8 n.cTmo.toNat + put 0 n.cRnr.toNat,
             s.onNet p fun n => { n with cNakS := 0, cGoB := 0, cTmo := 0, cRnr := 0 })
  | 0x20 => (put 16 n.cEaseR.toNat + put 0 n.cEaseT.toNat, s.onNet p fun n => { n with cEaseR := 0, cEaseT := 0 })
  | 0x24 => (put 16 n.cXoffT.toNat + put 0 n.cXoffR.toNat, s.onNet p fun n => { n with cXoffT := 0, cXoffR := 0 })
  | 0x28 => (put 16 n.cHopL.toNat + put 0 n.cHopS.toNat, s.onNet p fun n => { n with cHopL := 0, cHopS := 0 })
  | 0x30 => (n.ip4, s)
  | 0x34 => (n.mac.extractLsb' 0 32, s)
  | 0x38 => (put 0 (n.mac.toNat / 2 ^ 32), s)
  | _ => (0, s)

/-- A write in a NET block. -/
def netWrite (p off : Nat) (v : W32) (s : State) : State :=
  match off with
  | 0x00 => writeNetCtl p v s
  | 0x08 => s.onNet p fun n => { n with
      ccTimer := keepZero n.ccTimer v 24, ccRmin := keepZero n.ccRmin v 16, ccStep := keepZero n.ccStep v 8, ccCut := keepZero n.ccCut v 0 }
  | 0x0C => s.onNet p fun n => { n with ackt := keepZero n.ackt v 8, ackn := keepZero n.ackn v 0 }
  | 0x10 => s.onNet p fun n => { n with llto := BitVec.ofNat 16 (fld v 16 16), lyto := BitVec.ofNat 16 (fld v 0 16) }
  | 0x30 => s.onNet p fun n => { n with ip4 := v }
  | _ => s

/-! ### Commands -/

def portNames : List String := ["neta", "netb"]
def fecNames : List String := ["none", "base-r", "rs"]

/-- `net.set` (R389, R406, R407). -/
def netSetV : Verb := {
  obj := "net", name := "set", level := .keeper
  keys := [kEnum "port" portNames true, kOnOff "en", { name := "speed", ty := .oneOf "" [25000000000, 10000000000] }, kEnum "fec" fecNames,
           { name := "mtu", ty := .oneOf "" [1500, 9000] }, { name := "ip4", ty := .ip }, kInt "prefix" 0 32, { name := "ip6", ty := .ip },
           kOnOff "ect", kInt "pfcpri" 0 7, kInt "timer" 1 255, kInt "rmin" 1 255, kInt "step" 1 255, kInt "cut" 1 255, kInt "ackt" 1 255,
           kInt "ackn" 1 255, kInt "llto" 0 65535, kInt "lyto" 0 65535] }

/-- A port with the settings of a line. -/
def netWith (e : Env) (n : NetSt) : NetSt :=
  let b8 (k : String) (old : BitVec 8) : BitVec 8 := match e.nat? k with | some v => BitVec.ofNat 8 v | none => old
  let b16 (k : String) (old : BitVec 16) : BitVec 16 := match e.nat? k with | some v => BitVec.ofNat 16 v | none => old
  let en := (e.flag? "en").getD n.en
  { n with
    en := en, link := n.link && en, fecok := n.fecok && en
    speed := match e.nat? "speed" with | some v => v == 10000000000 | none => n.speed
    fec := match e.word? "fec" with | some w => BitVec.ofNat 2 (fecNames.idxOf w) | none => n.fec
    mtu := match e.nat? "mtu" with | some v => v == 9000 | none => n.mtu
    ip4 := match e.word? "ip4" with | some w => ip4Word w | none => n.ip4
    prefix4 := (e.nat? "prefix").getD n.prefix4
    ip6 := (e.word? "ip6").getD n.ip6
    ect := (e.flag? "ect").getD n.ect
    pfcpri := match e.nat? "pfcpri" with | some v => BitVec.ofNat 3 v | none => n.pfcpri
    ccTimer := b8 "timer" n.ccTimer, ccRmin := b8 "rmin" n.ccRmin, ccStep := b8 "step" n.ccStep, ccCut := b8 "cut" n.ccCut
    ackt := b8 "ackt" n.ackt, ackn := b8 "ackn" n.ackn, llto := b16 "llto" n.llto, lyto := b16 "lyto" n.lyto }

def portOfName (e : Env) : Nat := portNames.idxOf (e.word "port")

def netSetBody (_c : Ctx) (_p : Pfx) (e : Env) (s : State) : Res :=
  let p := portOfName e
  let n := netWith e (s.net p)
  if (e.word? "ip4").any isV6 then .err 13 "ip4" s
  else if (e.word? "ip6").any fun t => !isV6 t then .err 13 "ip6" s
  else if n.fec = 2 ∧ n.speed then .err 13 "fec" s
  else if s.on (portDom p) = false then .err 40 "port" s
  else if portRouted p s ∧ (n.speed ≠ (s.net p).speed ∨ n.fec ≠ (s.net p).fec ∨ n.mtu ≠ (s.net p).mtu) then .err 30 "port" s
  else .ok [] (s.onNet p fun _ => n)
def execNetSet (c : Ctx) (p : Pfx) (a : Args) (s : State) : Host.Outcome State Fault Refusal := ulc netSetV netSetBody c p a s

/-- `net.show`: the module's readings are free (log entry 5). -/
def netShowV : Verb := { obj := "net", name := "show", changes := false, keys := [kEnum "port" portNames] }
def netLine (named : Bool) (p : Nat) (s : State) : String × State :=
  let n := s.net p
  let ip := if n.ip4 = 0 then "none" else (portAddrs p s).headD "" ++ "/" ++ natS n.prefix4
  let start := (if named then [] else [kv "port" (netS p)]) ++ [kv "link" (if n.link then "up" else "down"), kv "speed" (if n.speed then "10g" else "25g"),
    kv "fec" (upperS (fecNames.getD n.fec.toNat "")), kn "mtu" (if n.mtu then 9000 else 1500), kv "ip4" ip]
  if n.modp then
    let (t, s) := s.draw
    let (x, s) := s.draw
    (spaced (start ++ [kv "module" "SFP28", kv "temp" (decS 1 t.toNat), kv "rxpow" (decS 1 x.toNat ++ "dBm")]), s)
  else (spaced (start ++ [kv "module" "none"]), s)
def netShowBody (_c : Ctx) (_p : Pfx) (e : Env) (s : State) : Res :=
  let ps := if e.has "port" then [portOfName e] else [0, 1]
  if ps.any fun p => e.has "port" && !s.on (portDom p) then .err 40 "port" s
  else
    let r := ps.foldl (fun (acc : List String × State) p => let (l, t) := netLine (e.has "port") p acc.2; (acc.1 ++ [l], t)) ([], s)
    .ok r.1 r.2
def execNetShow (c : Ctx) (p : Pfx) (a : Args) (s : State) : Host.Outcome State Fault Refusal := ulc netShowV netShowBody c p a s

/-- `ptp.set` (R389, R391). -/
def ptpSetV : Verb := {
  obj := "ptp", name := "set", level := .keeper
  keys := [kEnum "port" portNames true, kEnum "profile" ["default", "st2059"], kEnum "step" ["one", "two"], kInt "prio1" 0 255, kInt "domain" 0 255] }
def ptpSetBody (_c : Ctx) (_p : Pfx) (e : Env) (s : State) : Res :=
  let p := portOfName e
  if s.on (portDom p) = false then .err 40 "port" s
  else .ok [] (s.onNet p fun n => { n with
    prof := match e.word? "profile" with | some w => b2n (w == "st2059") | none => n.prof
    twoStep := match e.word? "step" with | some w => w == "two" | none => n.twoStep
    prio1 := (e.nat? "prio1").getD n.prio1, domain := (e.nat? "domain").getD n.domain })
def execPtpSet (c : Ctx) (p : Pfx) (a : Args) (s : State) : Host.Outcome State Fault Refusal := ulc ptpSetV ptpSetBody c p a s

/-- `ptp.show`. -/
def ptpShowV : Verb := { obj := "ptp", name := "show", changes := false, keys := [kEnum "port" portNames] }
def ptpShowBody (_c : Ctx) (_p : Pfx) (e : Env) (s : State) : Res :=
  let ps := if e.has "port" then [portOfName e] else [0, 1]
  if ps.any fun p => e.has "port" && !s.on (portDom p) then .err 40 "port" s
  else .ok (ps.map fun p =>
    let n := s.net p
    spaced [kv "port" (netS p), kv "profile" (if n.prof = 1 then "ST2059" else "DEFAULT"), kv "step" (if n.twoStep then "two" else "one"),
      kn "prio1" n.prio1, kn "domain" n.domain, kv "synced" (yesno n.synced)]) s
def execPtpShow (c : Ctx) (p : Pfx) (a : Args) (s : State) : Host.Outcome State Fault Refusal := ulc ptpShowV ptpShowBody c p a s

/-- The verbs of this file. -/
def netVerbs : List (Verb × (Ctx → Pfx → Env → State → Res)) :=
  [(netSetV, netSetBody), (netShowV, netShowBody), (ptpSetV, ptpSetBody), (ptpShowV, ptpShowBody)]

end Sys2Proof.Machine
end

