-- ==== Sys2Proof/Machine/AudioCmd.lean ====
section
/-! DEFINITION. The audio ports and the AES67 flows (spec 10): slave lock and slip, packets sent and received, the aud and aes commands,
and the AUD registers. -/

namespace Sys2Proof.Machine

/-! ### Slave ports -/

def onPort (p : Nat) (f : TdmPort → TdmPort) (s : State) : State := s.onAud fun a => { a with ports := lmod a.ports p f }

def tdmNames : List String := ["tdma", "tdmb", "tdmc", "tdmd"]
def tdmS (p : Nat) : String := upperS (tdmNames.getD p "")

/-- SLAVE_PORT_LOCK (R413): the port takes its PHASE, and records the FSYNC phase `phasem` in 1/256 frame. -/
def execSlavePortLock (port phase phasem : Nat) (s : State) : Host.Outcome State Fault Refusal :=
  let x := s.aud.ports.getD port {}
  .next (if s.on 3 && x.en && !x.master && !x.lock then
      onPort port (fun x => { x with lock := true, phase := BitVec.ofNat 2 (phase % divOf x.div), phasem := BitVec.ofNat 8 phasem }) s
    else s)

/-- FSYNC_SLIP (R413). -/
def execFsyncSlip (port : Nat) (s : State) : Host.Outcome State Fault Refusal :=
  let x := s.aud.ports.getD port {}
  .next (if s.on 3 && x.en && !x.master && x.lock then
      notify "aud" ("slip " ++ kv "port" (tdmS port)) (onPort port (fun x => { x with lock := false, slip := satInc x.slip }) s)
    else s)

/-! ### Flows -/

def onRx (k : Nat) (f : Flow → Flow) (s : State) : State := s.onAud fun a => { a with rx := lmod a.rx k f }
def onTx (k : Nat) (f : Flow → Flow) (s : State) : State := s.onAud fun a => { a with tx := lmod a.tx k f }

/-- The port a flow is on. -/
def Flow.net (f : Flow) : Nat := b2n f.portB

/-- AES67_TRANSMIT (R427): the oldest packet whose last frame has ended leaves. -/
def execAes67Transmit (flow : Nat) (s : State) : Host.Outcome State Fault Refusal :=
  let f := s.aud.tx.getD flow {}
  .next (match f.ready with
    | (ts, l) :: r =>
      if s.on 3 && f.state == .run then
        let q := f.seq.getD 0
        let s := onTx flow (fun f => { f with ready := r, seq := some (wrap (q + 1) 65536) }) s
        if portUp f.net s then sendFrame f.net (.rtp f.addr f.udp f.dscp q (BitVec.ofNat 32 ts) f.ssrc f.pt l) s else s
      else s
    | [] => s)

/-- Whether sequence number `n` has passed `expect` (R429): a gap. -/
def seqGap (expect n : Nat) : Bool := decide (1 ≤ (n + 65536 - expect) % 65536) && decide ((n + 65536 - expect) % 65536 < 32768)

/-- AES67_RECEIVE (R428 to R430): a packet whose first sample's presentation frame has not begun, and whose last sample lies within the
jitter buffer, is placed; any other is discarded and counted. A flow that is IDLE or in WAIT discards what it receives (R425). -/
def receiveRtp (k seq ts : Nat) (samples : List (List W32)) (s : State) : State :=
  let f := s.aud.rx.getD k {}
  if !s.on 3 || !(f.state == .run || f.state == .lost) || !portUp f.net s then s
  else
    let d := max 1 (flowDiv s f)
    let ahead := wrap (ts + f.playout.toNat + 2 * 2 ^ 32 - f.tsoff.toNat - wrap (s.tly.now.toNat / d) (2 ^ 32)) (2 ^ 32)
    let fits := decide (1 ≤ ahead) && decide (ahead < 2 ^ 31) && decide (ahead + samples.length ≤ 16384 / max 1 f.ch + 1)
    let gap := match f.seq with | some e => seqGap e seq | none => false
    let old := match f.seq with | some e => !gap && seq != e | none => false
    let fresh := ((List.range samples.length).zip samples).map fun e => (wrap (ts + e.1) (2 ^ 32), e.2)
    let good := if fits then f.good + 1 else 0
    onRx k (fun f => { f with
      seq := if old then f.seq else some (wrap (seq + 1) 65536)
      loss := if gap then satInc f.loss else f.loss
      late := if fits then f.late else satInc f.late
      jitter := if fits then f.jitter ++ fresh.filter fun e => !f.jitter.any fun j => j.1 == e.1 else f.jitter
      good := if f.state == .lost ∧ good < 10 then good else 0
      state := if f.state == .lost ∧ 10 ≤ good then .run else f.state }) s

def execAes67Receive (flow seq ts : Nat) (samples : List (List W32)) (s : State) : Host.Outcome State Fault Refusal :=
  .next (receiveRtp flow seq ts samples s)

/-- AES67_FLOW_LOST (R430): a receive flow has had no packet for 100 ms. -/
def execAes67FlowLost (flow : Nat) (s : State) : Host.Outcome State Fault Refusal :=
  .next (if s.on 3 && (s.aud.rx.getD flow {}).state == .run then
      notify "aud" ("flow " ++ kv "flow" ("rx" ++ natS flow) ++ " state=lost") (onRx flow (fun f => { f with state := .lost, good := 0 }) s)
    else s)

/-! ### Registers (R442 to R445) -/

/-- Whether a slot count keeps BCLK within 24.576 MHz (R409). -/
def slotsOk (slots div : Nat) (s : State) : Bool := decide (slots * 32 * s.fs ≤ 24576000 * div)

/-- A port's new settings; a change of its enable, role or divisor ends its lock (log entry 17). -/
def setPort (p : Nat) (n : TdmPort) (s : State) : State :=
  onPort p (fun o => { n with lock := n.lock && o.en == n.en && o.master == n.master && o.div == n.div }) s

def portCtl (x : TdmPort) : W32 :=
  put 16 (b2n x.hiz) + put 15 (b2n x.bclkpol) + put 14 (b2n x.delay) + put 13 (b2n x.fspol) + put 12 (b2n x.fsw) + put 8 x.slots.toNat +
    put 4 x.phase.toNat + put 2 x.div.toNat + put 1 (b2n x.master) + put 0 (b2n x.en)

/-- A write to AUD_PORTn_CTL (R442). -/
def writePortCtl (p : Nat) (v : W32) (s : State) : State :=
  let x := s.aud.ports.getD p {}
  let div : BitVec 2 := if fld v 2 2 = 3 then x.div else BitVec.ofNat 2 (fld v 2 2)
  let slots : BitVec 4 := if slotsOk (fld v 8 4 + 1) (divOf div) s then BitVec.ofNat 4 (fld v 8 4) else x.slots
  setPort p { x with
    hiz := v.getLsbD 16, bclkpol := v.getLsbD 15, delay := v.getLsbD 14, fspol := v.getLsbD 13, fsw := v.getLsbD 12
    slots := slots, div := div, master := v.getLsbD 1, en := v.getLsbD 0
    phase := if v.getLsbD 1 then BitVec.ofNat 2 (fld v 4 2) else x.phase } s

/-- The flow AUD_FSEL selects. -/
def selFlow (s : State) : Flow :=
  let n := s.aud.fsel.toNat
  (if n < 8 then s.aud.rx else s.aud.tx).getD (n % 8) {}
def onSelFlow (f : Flow → Flow) (s : State) : State := if s.aud.fsel.toNat < 8 then onRx s.aud.fsel.toNat f s else onTx (s.aud.fsel.toNat - 8) f s

def fstateNum (f : FState) : Nat := match f with | .idle => 0 | .run => 1 | .lost => 2 | .wait => 3

/-- Codes packed one a byte, channel 0 lowest. -/
def packCodes (l : List Nat) : W32 := BitVec.ofNat 32 ((l.take 4).foldr (fun c n => c % 256 + 256 * n) 0)

/-- A read in the AUD block. -/
def audRead (off : Nat) (s : State) : W32 × State :=
  let a := s.aud
  let g := a.gsel.toNat
  let x := s.guest g
  let f := selFlow s
  if off < 0x40 then
    let p := off / 16
    let t := a.ports.getD p {}
    match off % 16 with
    | 0 => (portCtl t, s)
    | 4 => (put 16 t.slip.toNat + put 8 t.phasem.toNat + put 0 (b2n t.locked), onPort p (fun t => { t with slip := 0 }) s)
    | _ => (0, s)
  else match off with
    | 0x40 => (put 0 g, s)
    | 0x44 => (packCodes x.ins, s)
    | 0x48 => (packCodes x.outs, s)
    | 0x4C => (put 8 x.fade + put 4 (b2n x.lostSrc) + put 3 (b2n x.hmute) + put 2 (b2n x.mute) + put 0 (b2n x.thru), s)
    | 0x50 => (put 16 x.clip.toNat + put 0 x.under.toNat,
               if x.clip = 0 ∧ x.under = 0 then s else s.onGuest g fun x => { x with clip := 0, under := 0 })
    | 0x60 => (put 0 a.fsel.toNat, s)
    | 0x64 => (put 11 (b2n f.portB) + put 9 (fstateNum f.state) + put 5 (f.ch - 1) + put 3 f.ptime.toNat + put 2 (b2n f.rate96) +
               put 0 (b2n f.en), s)
    | 0x68 => (put 16 f.loss.toNat + put 0 f.late.toNat, onSelFlow (fun f => { f with loss := 0, late := 0 }) s)
    | 0x6C => (put 0 f.playout.toNat, s)
    | _ => (0, s)

/-- A write in the AUD block. -/
def audWrite (off : Nat) (v : W32) (s : State) : State :=
  match off with
  | 0x00 => writePortCtl 0 v s
  | 0x10 => writePortCtl 1 v s
  | 0x20 => writePortCtl 2 v s
  | 0x30 => writePortCtl 3 v s
  | 0x40 => s.onAud fun a => { a with gsel := BitVec.ofNat 9 (fld v 0 9) }
  | 0x60 => s.onAud fun a => { a with fsel := BitVec.ofNat 4 (fld v 0 4) }
  | _ => s

/-! ### aud commands -/

/-- A decimal number of at most three digits. -/
def smallNum (l : List Char) : Option Nat := if !l.isEmpty && l.all Char.isDigit && decide (l.length ≤ 3) then some (decVal l) else none

/-- The code of a source or destination as written (Table 10.3). -/
def codeOf (t : String) : Option Nat :=
  match (lowerS t).toList.splitOn '.' with
  | [w] => if String.ofList w == "none" then some 0 else none
  | [w, n] =>
    match smallNum n with
    | some k =>
      if k < 16 then
        if String.ofList w == "usb" then some (0x20 + k)
        else if tdmNames.contains (String.ofList w) then some (0x40 + 16 * tdmNames.idxOf (String.ofList w) + k) else none
      else none
    | none => none
  | [w, m, n] =>
    match smallNum m, smallNum n with
    | some f, some c => if String.ofList w == "aes" ∧ f < 8 ∧ c < 16 then some (0x80 + 16 * f + c) else none
    | _, _ => none
  | _ => none

/-- A code as it is written. -/
def codeS (c : Nat) : String :=
  if c = 0 then "none" else if c < 0x40 then "usb." ++ natS (c % 16)
  else if c < 0x80 then tdmNames.getD (c / 16 % 4) "" ++ "." ++ natS (c % 16)
  else "aes." ++ natS (c / 16 % 8) ++ "." ++ natS (c % 16)

/-- `aud.set` (R409 to R411): the port is enabled unless `en=off` is given (log entry 17). -/
def audSetV : Verb := {
  obj := "aud", name := "set", level := .keeper
  keys := [kEnum "port" tdmNames true, kOnOff "en", kOnOff "master", kInt "slots" 1 16, { name := "div", ty := .oneOf "" [1, 2, 4] }, kInt "phase" 0 3,
           kEnum "fsync" ["bclk", "slot"], kInt "fspol" 0 1, kInt "delay" 0 1, kInt "bclkpol" 0 1, kOnOff "hiz"] }

/-- Whether a staying guest's map names a channel that `f` picks. -/
def mapsStaying (f : Nat → Bool) (s : State) : Bool := s.inn.guests.any fun e => e.2.state == .staying && (e.2.ins ++ e.2.outs).any f

def audSetBody (_c : Ctx) (_p : Pfx) (e : Env) (s : State) : Res :=
  let p := tdmNames.idxOf (e.word "port")
  let x := s.aud.ports.getD p {}
  let bit (k : String) (old : Bool) : Bool := match e.nat? k with | some n => n == 1 | none => old
  let div := match e.nat? "div" with | some n => (if n = 1 then 0 else if n = 2 then 1 else 2 : BitVec 2) | none => x.div
  let slots := (e.nat? "slots").getD (x.slots.toNat + 1)
  let master := (e.flag? "master").getD x.master
  if e.has "phase" && !master then .err 13 "phase" s
  else if e.has "phase" && decide (divOf div ≤ e.nat "phase") then .err 13 "phase" s
  else if s.on 3 && !slotsOk slots (divOf div) s then .err 13 "slots" s
  else if s.on 3 = false then .err 40 "" s
  else if mapsStaying (fun c => decide (0x40 ≤ c) && decide (c < 0x80) && c / 16 % 4 == p) s then .err 30 "port" s
  else .ok [] (setPort p { x with
    en := (e.flag? "en").getD true, master := master, slots := BitVec.ofNat 4 (slots - 1), div := div
    phase := match e.nat? "phase" with | some n => BitVec.ofNat 2 n | none => x.phase
    fsw := match e.word? "fsync" with | some w => w == "slot" | none => x.fsw
    fspol := bit "fspol" x.fspol, delay := bit "delay" x.delay, bclkpol := bit "bclkpol" x.bclkpol
    hiz := (e.flag? "hiz").getD x.hiz } s)
def execAudSet (c : Ctx) (p : Pfx) (a : Args) (s : State) : Host.Outcome State Fault Refusal := ulc audSetV audSetBody c p a s

/-- `aud.map` (R416 to R418). -/
def audMapV : Verb := {
  obj := "aud", name := "map", event := true, level := .keeper
  keys := [kInt "guest" 0 511 true, { name := "in", ty := .names 4, req := true }, { name := "out", ty := .names 4, req := true }] }
def audMapBody (c : Ctx) (p : Pfx) (e : Env) (s : State) : Res :=
  match allSome ((e.words "in").map codeOf), allSome ((e.words "out").map codeOf) with
  | some i, some o => postChecked true c p (.map (e.nat "guest") i o) s (if s.on 3 then [] else [(40, "")])
  | none, _ => .err 13 "in" s
  | _, none => .err 13 "out" s
def execAudMap (c : Ctx) (p : Pfx) (a : Args) (s : State) : Host.Outcome State Fault Refusal := ulc audMapV audMapBody c p a s

/-- `aud.dry` (R421): at least one of the two settings is given (log entry 17). -/
def audDryV : Verb := {
  obj := "aud", name := "dry", level := .keeper
  keys := [kInt "guest" 0 511 true, kEnum "policy" ["silence", "thru"], { name := "fade", ty := .int "ms" 0 20 }] }
def audDryBody (_c : Ctx) (_p : Pfx) (e : Env) (s : State) : Res :=
  if s.on 3 = false then .err 40 "" s
  else .ok [] (s.onGuest (e.nat "guest") fun x => { x with
    thru := match e.word? "policy" with | some w => w == "thru" | none => x.thru, fade := (e.nat? "fade").getD x.fade })
def execAudDry (c : Ctx) (p : Pfx) (a : Args) (s : State) : Host.Outcome State Fault Refusal := ulc audDryV audDryBody c p a s

/-- `aud.mute` (R423). -/
def audMuteV : Verb := {
  obj := "aud", name := "mute", event := true, level := .keeper
  keys := [kInt "guest" 0 511 true, { name := "state", ty := onOffTy, req := true }] }
def audMuteBody (c : Ctx) (p : Pfx) (e : Env) (s : State) : Res :=
  postChecked true c p (.mute (e.nat "guest") (e.word "state" == "on")) s (if s.on 3 then [] else [(40, "")])
def execAudMute (c : Ctx) (p : Pfx) (a : Args) (s : State) : Host.Outcome State Fault Refusal := ulc audMuteV audMuteBody c p a s

/-- `aud.show`: one guest with `guest=`, one port with `port=`, else every port. -/
def audShowV : Verb := { obj := "aud", name := "show", changes := false, keys := [kEnum "port" tdmNames, kInt "guest" 0 511] }
def portLine (p : Nat) (x : TdmPort) : String :=
  spaced [kv "port" (tdmS p), kv "en" (onoff x.en), kv "master" (onoff x.master), kn "slots" (x.slots.toNat + 1), kn "div" (divOf x.div),
    kn "phase" x.phase.toNat, kn "lock" (b2n x.locked), kn "phasem" x.phasem.toNat, kn "slip" x.slip.toNat, kv "hiz" (onoff x.hiz)]
def audShowBody (_c : Ctx) (_p : Pfx) (e : Env) (s : State) : Res :=
  if s.on 3 = false then .err 40 "" s
  else match e.nat? "guest" with
    | some g =>
      let x := s.guest g
      .ok [spaced [kn "guest" g, kv "in" (commas (x.ins.map codeS)), kv "out" (commas (x.outs.map codeS)), kv "policy" (if x.thru then "THRU" else "SILENCE"),
        kv "fade" (natS x.fade ++ "ms"), kv "mute" (onoff x.mute), kv "hmute" (onoff x.hmute), kv "lost" (yesno x.lostSrc), kn "under" x.under.toNat,
        kn "clip" x.clip.toNat]] s
    | none =>
      let ps := match e.word? "port" with | some w => [tdmNames.idxOf w] | none => [0, 1, 2, 3]
      .ok (ps.map fun p => portLine p (s.aud.ports.getD p {})) s
def execAudShow (c : Ctx) (p : Pfx) (a : Args) (s : State) : Host.Outcome State Fault Refusal := ulc audShowV audShowBody c p a s

/-! ### aes commands -/

/-- `aes.set` (R425, Table 10.4). -/
def aesSetV : Verb := {
  obj := "aes", name := "set", level := .keeper
  keys := [kEnum "flow" flowNames true, kEnum "port" portNames, { name := "rate", ty := .oneOf "" [48000, 96000] }, { name := "ptime", ty := .any }, kInt "ch" 1 16,
           kInt "pt" 96 127, { name := "addr", ty := .ip }, kInt "udp" 1 65535, { name := "filter", ty := .ip }, kInt "dscp" 0 63, kHex "tsoff" 32,
           kInt "playout" 0 16384, kOnOff "en"] }

/-- A packet time: 125, 250 or 1000 µs. -/
def ptimeOf (v : Val) : Option (BitVec 2) :=
  let us (n : Int) : Option (BitVec 2) := if n = 125 then some 0 else if n = 250 then some 1 else if n = 1000 then some 2 else none
  match v with
  | .item i => (itemScaled "us" 1 i).bind us
  | _ => none

/-- A flow with the settings of a line, before its enable is acted on. A new rate takes its default playout unless one is given. -/
def flowWith (e : Env) (f : Flow) : Flow :=
  let r96 := match e.nat? "rate" with | some n => n == 96000 | none => f.rate96
  { f with
    portB := match e.word? "port" with | some w => w == "netb" | none => f.portB
    rate96 := r96, ptime := ((e.raw? "ptime").bind ptimeOf).getD f.ptime, ch := (e.nat? "ch").getD f.ch, pt := (e.nat? "pt").getD f.pt
    addr := (e.word? "addr").getD f.addr, udp := (e.nat? "udp").getD f.udp, filter := (e.word? "filter").getD f.filter
    dscp := (e.nat? "dscp").getD f.dscp, tsoff := match e.nat? "tsoff" with | some n => BitVec.ofNat 32 n | none => f.tsoff
    playout := match e.nat? "playout" with
      | some n => BitVec.ofNat 16 n
      | none => if r96 = f.rate96 then f.playout else if r96 then 96 else 48 }

/-- The IGMP report for a multicast receive flow that is enabled (R431). -/
def joinGroup (f : Flow) (s : State) : State :=
  if isGroup f.addr && portUp f.net s then sendFrame f.net (.igmp true [f.addr]) s else s

/-- A flow set, and enabled or disabled: an enabled flow waits for its start (R425), and a transmit flow draws its SSRC (R427) and its first sequence number
(log entry 3). A line
that changes an enabled flow empties its buffers and leaves its state (log entry 17). -/
def putFlow (tx : Bool) (k : Nat) (n : Flow) (en : Bool) (s : State) : State :=
  let old := (if tx then s.aud.tx else s.aud.rx).getD k {}
  let on (f : Flow → Flow) (s : State) : State := if tx then onTx k f s else onRx k f s
  let n := { n with jitter := [], acc := [], ready := [], seq := if tx then old.seq else none, good := 0 }
  if !en then on (fun _ => { n with en := false, state := .idle }) s
  else if old.en then on (fun _ => n) s
  else
    let (ssrc, s) := if tx then s.drawRandom else (n.ssrc, s)
    let (q, s) := if tx then s.drawRandom else (0, s)
    let s := on (fun _ => { n with en := true, state := .wait, ssrc := ssrc, seq := if tx then some (fld q 0 16) else none }) s
    let s := if tx then s else joinGroup n s
    notify "aud" ("flow " ++ kv "flow" ((if tx then "tx" else "rx") ++ natS k) ++ " state=wait") s

def aesSetBody (_c : Ctx) (_p : Pfx) (e : Env) (s : State) : Res :=
  let i := flowNames.idxOf (e.word "flow")
  let tx := decide (8 ≤ i)
  let old := (if tx then s.aud.tx else s.aud.rx).getD (i % 8) {}
  let n := flowWith e old
  let en := (e.flag? "en").getD old.en
  let p := flowP n
  if e.has "ptime" && ((e.raw? "ptime").bind ptimeOf).isNone then .err 13 "ptime" s
  else if (e.word? "addr").any isV6 then .err 13 "addr" s
  else if (e.word? "filter").any isV6 || (tx && e.has "filter") then .err 13 "filter" s
  else if n.ch * p * 3 > 1440 then .err 13 "ch" s
  else if tx && e.has "playout" then .err 13 "playout" s
  else if !tx && (decide (n.playout.toNat < p) || decide (16384 / n.ch < n.playout.toNat + p)) then .err 13 "playout" s
  else if s.on 3 = false then .err 40 "" s
  else .ok [] (putFlow tx (i % 8) n en s)
def execAesSet (c : Ctx) (p : Pfx) (a : Args) (s : State) : Host.Outcome State Fault Refusal := ulc aesSetV aesSetBody c p a s

/-- `aes.show`: one flow with `flow=`, else every flow that has been set. -/
def aesShowV : Verb := { obj := "aes", name := "show", changes := false, keys := [kEnum "flow" flowNames] }
def fstateS (f : FState) : String := match f with | .idle => "IDLE" | .run => "RUN" | .lost => "LOST" | .wait => "WAIT"
def flowLine (k : Nat) (s : State) : String :=
  let f := (if k < 8 then s.aud.rx else s.aud.tx).getD (k % 8) {}
  spaced ([kv "flow" (flowNames.getD k ""), kv "state" (fstateS f.state), kv "port" (netS f.net), kv "rate" (if f.rate96 then "96k" else "48k"),
    kv "ptime" (match f.ptime.toNat with | 0 => "125us" | 1 => "250us" | _ => "1000us"), kn "ch" f.ch, kn "pt" f.pt,
    kv "addr" (if f.addr.isEmpty then "none" else f.addr), kn "udp" f.udp] ++
    (if k < 8 then [kv "filter" (if f.filter.isEmpty then "none" else f.filter), kn "playout" f.playout.toNat] else [kv "ssrc" (hexS 8 f.ssrc.toNat)]) ++
    [kn "dscp" f.dscp, kv "tsoff" (hexS 8 f.tsoff.toNat), kv "en" (onoff f.en), kn "loss" f.loss.toNat, kn "late" f.late.toNat])
def aesShowBody (_c : Ctx) (_p : Pfx) (e : Env) (s : State) : Res :=
  if s.on 3 = false then .err 40 "" s
  else match e.word? "flow" with
    | some w => .ok [flowLine (flowNames.idxOf w) s] s
    | none =>
      let ks := (List.range 16).filter fun k => !((if k < 8 then s.aud.rx else s.aud.tx).getD (k % 8) {}).addr.isEmpty
      .ok (if ks.isEmpty then ["flows=none"] else ks.map fun k => flowLine k s) s
def execAesShow (c : Ctx) (p : Pfx) (a : Args) (s : State) : Host.Outcome State Fault Refusal := ulc aesShowV aesShowBody c p a s

/-- The verbs of this file. -/
def audioVerbs : List (Verb × (Ctx → Pfx → Env → State → Res)) :=
  [(audSetV, audSetBody), (audMapV, audMapBody), (audDryV, audDryBody), (audMuteV, audMuteBody), (audShowV, audShowBody), (aesSetV, aesSetBody),
   (aesShowV, aesShowBody)]

end Sys2Proof.Machine
end

