-- ==== Sys2Proof/Machine/Usb.lean ====
section
/-! DEFINITION. The USB device (spec 10): bus reset, control requests, suspend, VBUS, UAC2 packets, the usb commands and the USB
registers. Vendor bulk transfers stand with the other memory accesses in Regs. -/

namespace Sys2Proof.Machine

/-! ### The bus -/

/-- The device is not attached, or forgets what the bus has set: address, configuration and alternate settings (R438). -/
def usbForget (st : UState) (u : UsbSt) : UsbSt :=
  { u with state := st, resumeTo := .powered, addr := 0, altOut := 0, altIn := 0, rwake := false, inReset := true }

/-- A control transfer in progress is abandoned and counted (R438, Table 10.7). -/
def abandonCtl (stage : CtlStage) (u : UsbSt) : UsbSt := if stage == .idle then u else { u with cAband := satInc u.cAband }

/-- What a bus reset and a loss of VBUS have in common (R438, R441): the abandoned transfer, the state `st`, the end of S1, and the
notice. -/
def usbReset (stage : CtlStage) (st : UState) (cause : String) (s : State) : State :=
  let s := s.onUsb fun u => usbForget st (abandonCtl stage { u with cReset := satInc u.cReset })
  notify "usb" ("reset " ++ kv "cause" cause) (endSession 1 s)

/-- Whether the device is attached: PD5 is on and its pull-up is applied. -/
def usbAttached (s : State) : Bool := s.on 5 && s.usb.pullup

/-- A bus reset (R438); `hs` says whether the host and the device agree on high speed, which HSEN limits. -/
def busReset (stage : CtlStage) (hs : Bool) (s : State) : State :=
  if usbAttached s then (usbReset stage .default_ "bus" s).onUsb fun u => { u with hs := hs && u.hsen } else s

/-- Whether an interface has an alternate setting (Table 10.5); at full speed there are interfaces 0, 1 and 5 only (R432). -/
def hasAlt (u : UsbSt) (i alt : Nat) : Bool :=
  (alt == 0 && (i == 0 || i == 1 || i == 5 || (i == 2 && u.hs && u.uacen))) ||
    ((i == 3 || i == 4) && decide (alt ≤ 2) && u.hs && u.uacen)

/-- What a control request does when its status stage completes (R437); a request the device does not support is stalled. -/
def ctlEffect (q : CtlReq) (u : UsbSt) : UsbSt :=
  let stall : UsbSt := { u with stalls := u.stalls + 1 }
  match q with
  | .setAddress a =>
    if (u.state == .default_ || u.state == .address) && decide (a < 128) then
      { u with addr := BitVec.ofNat 7 a, state := if a = 0 then .default_ else .address }
    else stall
  | .setConfig c =>
    if (u.state == .address || u.state == .configured) && decide (c ≤ 1) then
      { u with state := if c = 0 then .address else .configured, altOut := 0, altIn := 0, inReset := false }
    else stall
  | .setInterface i alt =>
    if u.state == .configured && hasAlt u i alt then
      if i = 3 then { u with altOut := BitVec.ofNat 2 alt } else if i = 4 then { u with altIn := BitVec.ofNat 2 alt } else u
    else stall
  | .setRemoteWakeup on => { u with rwake := on }
  | .setRate => stall
  | .other => u

/-- CONTROL_REQUEST: its status stage has completed (R437). -/
def execControlRequest (q : CtlReq) (s : State) : Host.Outcome State Fault Refusal :=
  .next (if usbAttached s && s.usb.state != .suspended && s.usb.state != .powered then s.onUsb (ctlEffect q) else s)

/-- The bus suspended (R439). -/
def busSuspend (s : State) : State :=
  if usbAttached s && s.usb.state != .suspended then
    endSession 1 (s.onUsb fun u => { u with resumeTo := u.state, state := .suspended, cSusp := satInc u.cSusp })
  else s

/-- RESUME (R439). -/
def execResume (s : State) : Host.Outcome State Fault Refusal :=
  .next (if usbAttached s && s.usb.state == .suspended then s.onUsb fun u => { u with state := u.resumeTo } else s)

/-- The pull-up taken away: the device is detached (R441). -/
def usbDetach (s : State) : State := s.onUsb fun u => { usbForget .detached u with pullup := false, hs := false }

/-- The pull-up applied while VBUS is valid and ATTACH is 1 (R441). -/
def usbAttach (s : State) : State :=
  if s.on 5 && s.usb.vbus && s.usb.attach && !s.usb.pullup then s.onUsb fun u => { u with pullup := true, state := .powered } else s

/-- VBUS lost (R441). While PD5 is off only the pin changes. -/
def vbusLost (stage : CtlStage) (s : State) : State :=
  if s.usb.vbus then
    let s := s.onUsb fun u => { u with vbus := false }
    if s.on 5 then usbDetach (usbReset stage .detached "vbus" s) else s
  else s

/-- VBUS_ATTACH (R441). -/
def execVbusAttach (s : State) : Host.Outcome State Fault Refusal := .next (usbAttach (s.onUsb fun u => { u with vbus := true }))

/-- ATTACH changed by a register write or a command: clearing it removes the pull-up, and S1 loses its carrier. -/
def setAttach (a : Bool) (s : State) : State :=
  let s := s.onUsb fun u => { u with attach := a }
  if a then usbAttach s else if s.usb.pullup then endSession 1 (usbDetach s) else s

/-! ### UAC2 (R433, R434) -/

/-- The samples the USB-to-AUD FIFO holds: 250 µs (Table 2.2). -/
def usbFifoDepth (s : State) : Nat := s.fs / usbDiv s / 4000

/-- UAC2_OUT_PACKET: the samples of one microframe, one list of channels a sample, and the feedback value reported with it. What does
not fit the FIFO is lost (log entry 17). -/
def execUac2OutPacket (samples : List (List W32)) (fb : W32) (s : State) : Host.Outcome State Fault Refusal :=
  .next (if usbOutOn s && s.on 3 then
      let n := if s.usb.altOut = 1 then 16 else 2
      s.onUsb fun u => { u with
        fifoIn := (u.fifoIn ++ samples.map (fun l => l.take n)).take (max u.fifoIn.length (usbFifoDepth s)), fb := fb }
    else s)

/-! ### Registers (R446) -/

def ustateNum (u : UState) : Nat :=
  match u with | .detached => 0 | .powered => 1 | .default_ => 2 | .address => 3 | .configured => 4 | .suspended => 5
def ustateS (u : UState) : String :=
  match u with
  | .detached => "DETACHED" | .powered => "POWERED" | .default_ => "DEFAULT" | .address => "ADDRESS" | .configured => "CONFIGURED"
  | .suspended => "SUSPENDED"

/-- A read in the USB block. -/
def usbRead (off : Nat) (s : State) : W32 × State :=
  let u := s.usb
  match off with
  | 0x00 => (put 3 (b2n u.hsen) + put 2 (b2n u.bulken) + put 1 (b2n u.uacen) + put 0 (b2n u.attach), s)
  | 0x04 => (put 16 (b2n u.rwake) + put 14 u.altIn.toNat + put 12 u.altOut.toNat + put 5 u.addr.toNat + put 4 (b2n u.hs) +
      put 3 (b2n u.vbus) + put 0 (ustateNum u.state), s)
  | 0x08 => (put 16 u.vid.toNat + put 0 u.pid.toNat, s)
  | 0x0C => (put 24 u.cBulk.toNat + put 16 u.cSusp.toNat + put 8 u.cAband.toNat + put 0 u.cReset.toNat,
             s.onUsb fun u => { u with cBulk := 0, cSusp := 0, cAband := 0, cReset := 0 })
  | 0x10 => (u.fb, s)
  | _ => (0, s)

/-- A write in the USB block. -/
def usbWrite (off : Nat) (v : W32) (s : State) : State :=
  match off with
  | 0x00 => setAttach (v.getLsbD 0) (s.onUsb fun u => { u with hsen := v.getLsbD 3, bulken := v.getLsbD 2, uacen := v.getLsbD 1 })
  | _ => s

/-! ### Commands -/

/-- `usb.show`. -/
def usbShowV : Verb := { obj := "usb", name := "show", changes := false }
def usbShowBody (_c : Ctx) (_p : Pfx) (_e : Env) (s : State) : Res :=
  let u := s.usb
  if s.on 5 = false then .err 40 "" s
  else .ok [spaced [kv "state" (ustateS u.state), kv "speed" (if u.hs then "high" else "full"), kn "addr" u.addr.toNat, kv "vid" (hexS 4 u.vid.toNat),
    kv "pid" (hexS 4 u.pid.toNat), kn "out.alt" u.altOut.toNat, kn "in.alt" u.altIn.toNat, kv "bulk" (onoff u.bulken), kn "rwake" (b2n u.rwake)]] s
def execUsbShow (c : Ctx) (p : Pfx) (a : Args) (s : State) : Host.Outcome State Fault Refusal := ulc usbShowV usbShowBody c p a s

/-- The verbs of this file. -/
def usbVerbs : List (Verb × (Ctx → Pfx → Env → State → Res)) := [(usbShowV, usbShowBody)]

end Sys2Proof.Machine
end

