-- ==== Sys2Proof/Machine/Ledger.lean ====
section
/-! DEFINITION. The Ledger's machinery (spec 12): partitions, physical pages and the pool, the journal and the commit, wear, the event
log's pages, and refresh runs. -/

namespace Sys2Proof.Machine

/-! ### Partitions and pages -/

/-- First logical page and page count of a partition (Table 12.2). -/
def partBase (p : Nat) : Nat :=
  match p with | 0 => 0 | 1 => 16 | 2 => 80 | 3 => 144 | 4 => 1168 | 5 => 1388 | 6 => 1608 | _ => 1828
def partSize (p : Nat) : Nat := match p with | 0 => 16 | 1 => 64 | 2 => 64 | 3 => 1024 | _ => 220

/-- The partition of a logical page. -/
def partOf (l : Nat) : Nat := ((List.range 8).reverse.find? fun p => decide (partBase p ≤ l)).getD 0

def physCount : Nat := 2144

/-- The role of a physical page nothing has changed: the first 2048 serve the logical pages of the same numbers, then the pool, then
the spares (R498; log entry 2). -/
def firstRole (k : Nat) : Role := if k < 2048 then .serves else if k < 2080 then .pool else .spare

def State.phys (s : State) (k : Nat) : PhysPage := tgetD s.ldg.phys k { role := firstRole k }
def State.onPhys (s : State) (k : Nat) (f : PhysPage → PhysPage) : State :=
  s.onLdg fun d => { d with phys := tmod d.phys k { role := firstRole k } f }

/-- The physical page that serves a logical page. -/
def State.physOf (s : State) (l : Nat) : Nat := tgetD s.ldg.map l l

/-- 256 bytes from a page's data; bytes it does not list are 0. -/
def pad256 (l : List Byte) : List Byte := (l ++ List.replicate 256 0).take 256

/-- A page image as it is kept: empty when every byte is 0. -/
def packPage (l : List Byte) : List Byte := if l.all (· == 0) then [] else l

/-- The committed content of a logical page (R511, R517), or none when its read has an uncorrectable error (R531). -/
def pageBytes (l : Nat) (s : State) : Option (List Byte) :=
  let x := s.phys (s.physOf l)
  if x.bad then none else some (pad256 x.data)

/-- An uncorrectable read is reported (R531). -/
def pageFault (l : Nat) (s : State) : State := notify "ldg" ("fault " ++ kn "page" (s.physOf l)) s

/-- Physical pages in a role. -/
def roleCount (r : Role) (s : State) : Nat := ((List.range physCount).filter fun k => (s.phys k).role == r).length

/-! ### The pool -/

/-- The pool's least-written page, the lowest number first (R499, R701). -/
def poolPick (s : State) : Option Nat :=
  (List.range physCount).foldl (fun best k =>
    if (s.phys k).role == .pool then
      match best with
      | some b => if (s.phys k).writes.toNat < (s.phys b).writes.toNat then some k else best
      | none => some k
    else best) none

/-- A wear stage reached, counted in the page's record (R527). -/
def wear (k stage part : Nat) (s : State) : State :=
  let s := s.onPhys k fun x => { x with
    stage := if x.stage.toNat < stage then BitVec.ofNat 2 stage else x.stage
    stages := (List.range 3).map fun i => x.stages.getD i 0 + b2n (i + 1 == stage) }
  let s := s.onLdg fun d => match stage with
    | 1 => { d with cW1 := satInc d.cW1 }
    | 2 => { d with cW2 := satInc d.cW2 }
    | _ => { d with cW3 := satInc d.cW3 }
  notify "ldg" ("wear " ++ kn "page" k ++ " " ++ kn "stage" stage ++ " " ++ kn "part" part) s

/-- A page retired (R527, R528, R530, R540): a spare joins the pool, and data of partition 1 or 2 gets one zeroing write, whose verify
may show residue. -/
def retire (k : Nat) (residue : Bool) (s : State) : State :=
  let s := (s.onPhys k fun x => { x with role := .retired }).onLdg fun d => { d with retired := satInc d.retired }
  let s := if s.ldg.sparesUsed < 64 then
      let n := 2080 + s.ldg.sparesUsed
      let s := (s.onPhys n fun x => { x with role := .pool }).onLdg fun d => { d with sparesUsed := d.sparesUsed + 1 }
      if s.ldg.sparesUsed = 64 then notify "ldg" "spares left=0" s else s
    else s
  if (s.phys k).voice then
    let s := s.onPhys k fun x => { x with writes := satInc x.writes }
    if residue then
      let s := s.onPhys k fun x => { x with residue := true }
      logEv 9 0x0201 0 k 0 (notify "ldg" ("residue " ++ kn "page" k) s)
    else s.onPhys k fun x => { x with data := [], voice := false }
  else s

/-- A physical page written and verified, its verify failing `f` times (R519, R527): each of up to 3 retries writes it again. The
answer says whether it stands. -/
def writePhys (k : Nat) (img : List Byte) (part f : Nat) (residue : Bool) (s : State) : State × Bool :=
  let s := s.onPhys k fun x => { x with
    writes := satAdd x.writes (1 + min f 3), data := packPage img, voice := part == 1 || part == 2, bad := false, lost := false }
  let s := if f = 0 then s else wear k 2 part s
  if f ≤ 3 then (s, true) else (retire k residue (wear k 3 part s), false)

/-- The next of the verify failures a commit meets, and the rest. -/
def nextFail (l : List Nat) : Nat × List Nat := (l.headD 0, l.tail)

/-- A staged page placed on a pool page; one page that fails is retired and replaced, a second one fails the commit (R528, R529). -/
def placePage (tries l : Nat) (img : List Byte) (fails : List Nat) (residue : Bool) (s : State) : State × List Nat × Option Nat :=
  match tries with
  | 0 => (s, fails, none)
  | t + 1 =>
    match poolPick s with
    | none => (s, fails, none)
    | some k =>
      let (f, fails) := nextFail fails
      let (s, ok) := writePhys k img (partOf l) f residue (s.onPhys k fun x => { x with role := .transit })
      if ok then (s, fails, some k) else placePage t l img fails residue s

/-- Every staged page placed, or none when the commit fails. -/
def placeAll (pages : List (Nat × List Byte)) (pairs : List (Nat × Nat)) (fails : List Nat) (residue : Bool) (s : State) :
    State × List Nat × List (Nat × Nat) × Bool :=
  match pages with
  | [] => (s, fails, pairs, true)
  | (l, img) :: r =>
    match placePage 2 l img fails residue s with
    | (s, fails, some k) => placeAll r (pairs ++ [(l, k)]) fails residue s
    | (s, fails, none) => (s, fails, pairs, false)

/-- Pages taken by a commit that did not come about go back to the pool (R518, R529). -/
def toPool (ks : List Nat) (s : State) : State := s.forEach ks fun k s => s.onPhys k fun x => { x with role := .pool }

/-! ### The journal and the map (R516 to R518) -/

/-- A journal record written to the older of the two places. -/
def writeJournal (j : Journal) (s : State) : State :=
  s.onLdg fun d =>
    let first := match d.journal0, d.journal1 with
      | none, _ => true
      | some _, none => false
      | some a, some b => decide (a.seq < b.seq)
    if first then { d with journal0 := some j } else { d with journal1 := some j }

/-- The newer journal record. -/
def newJournal (s : State) : Option Journal :=
  match s.ldg.journal0, s.ldg.journal1 with
  | some a, some b => if a.seq < b.seq then some b else some a
  | some a, none => some a
  | none, b => b

/-- The newer record changed. -/
def onNewJournal (f : Journal → Journal) (s : State) : State :=
  s.onLdg fun d =>
    match d.journal0, d.journal1 with
    | some a, some b => if a.seq < b.seq then { d with journal1 := some (f b) } else { d with journal0 := some (f a) }
    | some a, none => { d with journal0 := some (f a) }
    | none, some b => { d with journal1 := some (f b) }
    | none, none => d

/-- The pairs of a batch entered in the map; the replaced pages wait in transit (R516). -/
def enterPairs (pairs : List (Nat × Nat)) (s : State) : State × List (Nat × Nat) :=
  let olds := pairs.map fun p => (s.physOf p.1, partOf p.1)
  let s := s.forEach pairs fun p s =>
    let old := s.physOf p.1
    ((s.onPhys old fun x => { x with role := .transit }).onPhys p.2 fun x => { x with role := .serves }).onLdg fun d => { d with
      map := tset d.map p.1 p.2, commits := tmod d.commits p.1 0 (· + 1) }
  (onNewJournal (fun j => { j with entered := true }) s, olds)

/-- The replaced pages rejoin the pool, those to be zeroed only once they are (R537, R538). -/
def releaseOld (olds : List (Nat × Nat)) (zeroAll : Bool) (fails : List Nat) (residue : Bool) (s : State) : State × List Nat :=
  match olds with
  | [] => (s, fails)
  | (k, part) :: r =>
    if zeroAll ∨ part = 1 ∨ part = 2 then
      let (f, fails) := nextFail fails
      let (s, ok) := writePhys k [] part f residue s
      let s := if ok then s.onPhys k fun x => { x with role := .pool, voice := false } else s
      releaseOld r zeroAll fails residue s
    else releaseOld r zeroAll fails residue (s.onPhys k fun x => { x with role := .pool })

/-- How a batch ended: with its page count, with an error, or cut by a loss of supply. -/
inductive Commit where
  | done (n : Nat)
  | failed (code : Nat)
  | cut
  deriving DecidableEq, Repr

/-- One batch committed (R516): `atWord` is what its commit word makes true. -/
def commitBatch (pages : List (Nat × List Byte)) (zeroAll : Bool) (atWord : State → State) (fails : List Nat) (upto : CommitEnd)
    (residue : Bool) (s : State) : State × List Nat × Commit :=
  match placeAll pages [] fails residue s with
  | (s, fails, pairs, false) =>
    ((toPool (pairs.map (·.2)) s).onLdg fun d => { d with cFault := satInc d.cFault }, fails, .failed 50)
  | (s, fails, pairs, true) =>
    if upto = .beforeJournal then (s, fails, .cut)
    else
      let s := (writeJournal { seq := s.ldg.jseq, pairs := pairs, word := false, entered := false } s).onLdg fun d => { d with
        jseq := d.jseq + 1 }
      if upto = .beforeWord then (s, fails, .cut)
      else
        let s := atWord (onNewJournal (fun j => { j with word := true }) s)
        if upto = .beforeMap then (s, fails, .cut)
        else
          let (s, olds) := enterPairs pairs s
          let (s, fails) := releaseOld olds zeroAll fails residue s
          (s.onLdg fun d => { d with cCommits := satInc d.cCommits }, fails, .done pairs.length)

/-- A long list of pages committed in batches of at most 16; `atWord` goes with the last. -/
def commitMany (fuel : Nat) (pages : List (Nat × List Byte)) (zeroAll : Bool) (atWord : State → State) (n : Nat) (fails : List Nat)
    (upto : CommitEnd) (residue : Bool) (s : State) : State × List Nat × Commit :=
  match fuel with
  | 0 => (s, fails, .done n)
  | f + 1 =>
    let rest := pages.drop 16
    match commitBatch (pages.take 16) zeroAll (if rest.isEmpty then atWord else id) fails upto residue s with
    | (s, fails, .done k) => if rest.isEmpty then (s, fails, .done (n + k)) else commitMany f rest zeroAll atWord (n + k) fails upto residue s
    | r => r

/-! ### The event log (R532 to R535) -/

/-- The 32 bytes of a log entry (Table 12.5). -/
def entryBytes (e : LogEntry) : List Byte :=
  let b := natLe 4 e.lseq ++ natLe 2 e.era.toNat ++ natLe 1 e.src ++ natLe 1 (b2n e.rtc + 2 * b2n e.late) ++ natLe 8 e.tally.toNat ++
    natLe 2 e.code.toNat ++ natLe 2 e.evseq.toNat ++ natLe 8 e.arg.toNat ++ natLe 2 e.arg2.toNat
  b ++ natLe 2 (crc16 (b.map (·.toNat))).toNat

/-- The image of the log page that holds the entries of LSEQ 8q to 8q + 7 (log entry 2: an entry's place is its LSEQ modulo 8192). -/
def logPage (l : List LogEntry) (q : Nat) : List Byte :=
  ((List.range 8).map fun k => match l.find? fun e => e.lseq == 8 * q + k with | some e => entryBytes e | none => List.replicate 32 0).flatten

/-- The log after the first `n` entries of the buffer joined it: entries whose page is overwritten are gone (R532). -/
def logAfter (n : Nat) (d : LdgSt) : List LogEntry :=
  let new := d.buffer.take n
  let gone (e : LogEntry) : Bool := new.any fun x => e.lseq / 8 != x.lseq / 8 && e.lseq / 8 % 1024 == x.lseq / 8 % 1024
  (d.log.filter fun e => !gone e) ++ new

/-- Entries of the buffer that fit one batch of 16 pages. -/
def logTake (d : LdgSt) : Nat :=
  match d.buffer with
  | [] => 0
  | e :: _ => (d.buffer.takeWhile fun x => decide (x.lseq / 8 < e.lseq / 8 + 16)).length

/-- The pages a batch of the log writes. -/
def logImages (n : Nat) (d : LdgSt) : List (Nat × List Byte) :=
  let l := logAfter n d
  (((d.buffer.take n).map fun e => e.lseq / 8).eraseDups).map fun q => (partBase 3 + q % 1024, logPage l q)

/-! ### What internal writers change -/

/-- Bytes the morning script and the keyword macros take in partition 1 (R700). -/
def lineBytes (d : LdgSt) : Nat := ((d.lines ++ d.words).map fun e => e.2.length + 2).sum

/-- The logical pages an internal writer's batch stages. Where in partition 1 a line lies, and in partition 2 the factory flags, the
spec does not say (log entry 2). -/
def updPages (u : LUpd) (d : LdgSt) : List Nat :=
  let span (off n : Nat) : List Nat := (List.range ((off + n) / 256 + 1 - off / 256)).map fun i => partBase 1 + 1 + off / 256 + i
  match u with
  | .pass .. => [partBase 1]
  | .onerr _ => [partBase 1 + 1]
  | .line n t _ => span ((d.lines.filter fun e => decide (e.1 < n)).map fun e => e.2.length + 2).sum ((t.getD (tgetD d.lines n "")).length + 1)
  | .clearLines => span 0 (lineBytes d - 1)
  | .keyword k t =>
    span (((d.lines.map fun e => e.2.length + 2).sum) + ((d.words.filter fun e => decide (e.1 < k)).map fun e => e.2.length + 2).sum)
      ((t.getD (tgetD d.words k "")).length + 1)
  | .slot k _ => if k < 8 then [partBase 2 + 48] else [partBase 2 + 2 * (k - 8), partBase 2 + 2 * (k - 8) + 1]
  | .wipe p => (List.range (partSize p)).map (partBase p + ·)
  | .clearLog => (List.range 1024).map (partBase 3 + ·)
  | .logPages _ => []
  | .none => []

/-- What an internal writer's commit word makes true. -/
def applyUpd (u : LUpd) (s : State) : State :=
  match u with
  | .none => s
  | .pass l p => s.onLdg fun d => if l == .owner then { d with passO := some p } else { d with passK := some p }
  | .line n t c => s.onLdg fun d => { d with
      lines := (match t with | some t => tset d.lines n t | none => tdel d.lines n), onerr := c.getD d.onerr }
  | .onerr c => s.onLdg fun d => { d with onerr := c }
  | .clearLines => s.onLdg fun d => { d with lines := [] }
  | .keyword k t => s.onLdg fun d => { d with words := match t with | some t => tset d.words k t | none => tdel d.words k }
  | .slot k v => (s.onLdg fun d => { d with slots := tset d.slots k v }).onPor fun p => { p with slots := tset p.slots k v }
  | .wipe 1 => s.onLdg fun d => { d with passK := none, passO := none, lines := [], words := [], onerr := false }
  | .wipe 2 => s.onLdg fun d => { d with slots := [] }
  | .wipe 3 => s.onLdg fun d => { d with log := [] }
  | .wipe p => s.onLdg fun d => { d with user := d.user.zero (512 * (p - 4)) (if 4 ≤ p then 512 else 0) }
  | .logPages n => s.onLdg fun d => { d with log := logAfter n d, buffer := d.buffer.drop n }
  | .clearLog => s.onLdg fun d => { d with log := [] }

/-- Whether a job's replaced pages are zeroed whatever their partition (R538). -/
def zeroesAll (u : LUpd) : Bool := match u with | .wipe _ => true | .clearLog => true | _ => false

/-- The page images of a job. -/
def jobPages (j : LJob) (s : State) : List (Nat × List Byte) :=
  match j.upd with
  | .none => j.pages.map fun p => (p.1, p.2.1)
  | .logPages n => logImages n s.ldg
  | u => (updPages u s.ldg).map fun l => (l, [])

/-- A job run (R514, R516). -/
def runJob (j : LJob) (fails : List Nat) (upto : CommitEnd) (residue : Bool) (s : State) : State × Commit :=
  if j.pages.any fun p => tgetD s.ldg.commits p.1 0 != p.2.2 then (s.onLdg fun d => { d with cBusy := satInc d.cBusy }, .failed 30)
  else
    let pages := jobPages j s
    let r := commitMany (pages.length / 16 + 1) pages (zeroesAll j.upd) (applyUpd j.upd) 0 fails upto residue s
    (r.1, r.2.2)

/-! ### Requests and their answers -/

/-- A commit requested (R515); none is accepted after PWRFAIL_N (R520). -/
def requestJob (j : LJob) (s : State) : State := s.onLdg fun d => { d with queue := d.queue ++ [j] }

/-- A line whose reply follows an internal writer's commit (R87). -/
def lineJob (o : Origin) (u : LUpd) (s : State) : Res :=
  if s.pwr.pfail then .err 40 "" s else .work (requestJob { pages := [], upd := u, who := .line o } s)

/-- The slot and its record in an enrolment's commit. -/
def enrolOf (u : LUpd) : Nat × Slot := match u with | .slot k v => (k, v) | _ => (0, {})

/-- Enrolment ends: the mode that was set is effective again (R464, R472). -/
def endEnrol (s : State) : State := s.onPor fun p => { p with enrol := none }

def enrolS (k : Nat) (rest : String) : String := "enrol " ++ kn "slot" k ++ " " ++ rest

/-- Who waited for a job is answered (R512, R471, R472). -/
def answerJob (j : LJob) (r : Commit) (s : State) : State :=
  match j.who, r with
  | .nobody, _ => s
  | .batch n, .done k => finishLine (.sess n) (.ok [kn "pages" k]) s
  | .batch n, .failed e =>
    let s := if e != 30 && (s.sess n).opened && (s.sess n).busy then s.onSess n fun x => { x with batch := some { pages := j.pages } } else s
    finishLine (.sess n) (.error (e, "")) s
  | .line o, .done _ => finishLine o (.ok []) s
  | .line o, .failed e => finishLine o (.error (e, "")) s
  | .enrolDone o, .done _ =>
    let (k, v) := enrolOf j.upd
    finishLine o (.ok [spaced [kn "slot" k, kn "n" v.n, kv "thr" (hexS 2 v.thr.toNat)]]) (endEnrol s)
  | .enrolDone o, .failed e => finishLine o (.error (e, "")) (endEnrol s)
  | .enrolSelf, .done _ =>
    let (k, v) := enrolOf j.upd
    notify "por" (enrolS k (spaced [kv "state" "done", kn "n" v.n, kv "thr" (hexS 2 v.thr.toNat)])) (endEnrol s)
  | .enrolSelf, .failed e => notify "por" (enrolS (enrolOf j.upd).1 (spaced [kv "state" "fault", kn "err" e])) (endEnrol s)
  | _, .cut => s

/-- The oldest requested commit runs to its end or to the cut. -/
def runFirst (fails : List Nat) (upto : CommitEnd) (residue : Bool) (s : State) : State × Bool :=
  match s.ldg.queue with
  | [] => (s, false)
  | j :: r =>
    let s := s.onLdg fun d => { d with queue := r }
    match runJob j fails upto residue s with
    | (s, .cut) => (s, true)
    | (s, c) => (answerJob j c s, false)

/-- Every requested commit run (R521). -/
def runAllJobs (fuel : Nat) (s : State) : State :=
  match fuel with
  | 0 => s
  | f + 1 => if s.ldg.queue.isEmpty then s else runAllJobs f (runFirst [] .complete false s).1

/-- One batch of the log buffer committed; its entries stay in the buffer where it fails (R534). -/
def commitLog (fails : List Nat) (s : State) : State :=
  let n := logTake s.ldg
  if n = 0 then s else (runJob { pages := [], upd := .logPages n, who := .nobody } fails .complete false s).1

/-! ### PD1 (R518, R520, R521, R535) -/

/-- Recovery at PD1's power-on (R518), and the log overflow moved ahead of any new entry, followed by the count of lost ones (R535). -/
def recoverLedger (s : State) : State :=
  let s := match newJournal s with
    | some j =>
      if j.word && !j.entered then
        let (s, olds) := enterPairs j.pairs s
        (releaseOld olds false [] false s).1
      else s
    | none => s
  let taken := (s.ldg.phys.filter fun e => e.2.role == .transit).map (·.1)
  let s := toPool taken s
  let s := s.onLdg fun d => { d with buffer := d.overflow ++ d.buffer, overflow := [], ready := true }
  if s.ldg.lostSince > 0 then
    let n := s.ldg.lostSince
    logEv 9 0x0101 0 n 0 (s.onLdg fun d => { d with lostSince := 0 })
  else s

/-- The newest 16 entries not committed go to the overflow area, the others are lost and counted (R535). -/
def saveOverflow (s : State) : State :=
  s.onLdg fun d =>
    let l := d.overflow ++ d.buffer
    let n := l.length - 16
    { d with buffer := [], overflow := l.drop n, cLost := satAdd d.cLost n, lostSince := d.lostSince + n }

/-- LOG_BUFFER_COMMIT (R534): where commits wait, the log's takes its place behind them (R515). -/
def execLogBufferCommit (fails : List Nat) (s : State) : Host.Outcome State Fault Refusal :=
  .next (if s.on 1 && !s.pwr.pfail then
      if s.ldg.queue.isEmpty then commitLog fails s
      else if logTake s.ldg = 0 || s.ldg.queue.any fun j => j.upd == .logPages (logTake s.ldg) then s
      else requestJob { pages := [], upd := .logPages (logTake s.ldg), who := .nobody } s
    else s)

/-! ### Refresh (R524 to R527, R531) -/

/-- Whether a scheduled run is due (R525). -/
def refreshDue (s : State) : Bool := s.ldg.refen && decide (168 * 360000 ≤ s.ldg.sinceRef)

/-- A run started: its RTC time is written (R525). -/
def startRefresh (s : State) : State :=
  s.onLdg fun d => { d with refresh := true, lastRef := s.rtc, sinceRef := 0, rewritten := 0, refCut := false }

/-- The pages a run rewrites: weak ones as they read, uncorrectable ones from nothing (R524, R531). -/
def refreshImages (weak : List Nat) (s : State) : List (Nat × List Byte × Bool) :=
  (List.range 2048).filterMap fun l =>
    let k := s.physOf l
    let x := s.phys k
    if x.bad then some (l, [], true) else if weak.contains k then some (l, x.data, false) else none

/-- REFRESH_RUN: the run that was started, or a scheduled one, reads every serving page. `weak` names the physical pages whose margin
read differs, `early` those of them last written less than 24 h ago, and `fade` those whose content can no longer be corrected once
the run has passed them (log entry 22). -/
def refreshRun (weak early fade fails : List Nat) (s : State) : State :=
  let s := if s.ldg.refresh then s else startRefresh s
  let s := s.forEach early fun k s => if weak.contains k && (s.phys k).role == .serves then
    wear k 1 (match s.ldg.map.find? fun e => e.2 == k with | some e => partOf e.1 | none => partOf k) s else s
  let imgs := refreshImages weak s
  let pages := imgs.map fun p => (p.1, p.2.1)
  let r := commitMany (pages.length / 16 + 1) pages false id 0 fails .complete false s
  let s := if pages.isEmpty then s else r.1
  let ok := match r.2.2 with | .done _ => true | _ => false
  let s := if ok then
      (s.forEach (imgs.filter fun p => p.2.2) fun p s => s.onPhys (s.physOf p.1) fun x => { x with lost := true }).onLdg fun d => { d with
        rewritten := satOf 16 pages.length }
    else s
  let s := s.forEach fade fun k s => s.onPhys k fun x => { x with bad := x.role == .serves }
  let s := s.onLdg fun d => { d with refresh := false }
  notify "ldg" ("refresh read=2048 " ++ kn "rewritten" s.ldg.rewritten.toNat) s

/-- A run waits for the commits requested before it (R515). -/
def execRefreshRun (weak early fade fails : List Nat) (s : State) : Host.Outcome State Fault Refusal :=
  .next (if s.on 1 && s.ldg.queue.isEmpty && !s.pwr.pfail && (s.ldg.refresh || refreshDue s) then refreshRun weak early fade fails s else s)

end Sys2Proof.Machine
end

