-- ==== Sys2Proof/Machine/LedgerCmd.lean ====
section
/-! DEFINITION. The ldg and log commands (spec 12): batches, passwords and lockouts, the user Slate, zeroising, the event log as it is
read, and the LDG registers. -/

namespace Sys2Proof.Machine

/-! ### Passwords and lockouts (R504 to R508) -/

def kPart : KeySpec := kInt "part" 0 7 true

/-- PARTITION_LOCKOUT_END: the count stays (R506). -/
def execPartitionLockoutEnd (part : Nat) (s : State) : Host.Outcome State Fault Refusal :=
  .next (if s.on 1 && (s.part part).locked then s.onPart part fun x => { x with locked := false } else s)

/-- `ldg.key` (R504 to R507). -/
def ldgKeyV : Verb := {
  obj := "ldg", name := "key", changes := true
  keys := [kPart, kHex "rpw" 64, kHex "wpw" 64, { name := "drop", ty := .enum ["drop"], pos := true }] }
def ldgKeyBody (c : Ctx) (_p : Pfx) (e : Env) (s : State) : Res :=
  let p := e.nat "part"
  match c.origin with
  | .sess n =>
    if e.has "drop" then
      if e.has "rpw" || e.has "wpw" then .err 13 "drop" s
      else .ok [] (s.onSess n fun x => { x with keys := x.keys.filter fun k => k.1 != p })
    else
      let given : List (Bool × Nat) := (match e.nat? "rpw" with | some v => [(false, v)] | none => []) ++
        (match e.nat? "wpw" with | some v => [(true, v)] | none => [])
      let counted := given.filter fun g => (s.part p).pw g.1 != 0
      if counted.isEmpty then .ok [] s
      else if counted.all fun g => (s.part p).pw g.1 == BitVec.ofNat 64 g.2 then
        .ok [] ((s.onPart p fun x => { x with fails := 0, locks := 0 }).onSess n fun x => { x with
          keys := x.keys ++ (counted.map fun g => (p, g.1)).filter fun k => !x.keys.contains k })
      else .err 20 "part" (failPart p s)
  | _ => .err 40 "" s
def execLdgKey (c : Ctx) (p : Pfx) (a : Args) (s : State) : Host.Outcome State Fault Refusal := ulc ldgKeyV ldgKeyBody c p a s

/-- A password set is held by no session (R508). -/
def dropKeys (p : Nat) (w : Bool) (s : State) : State :=
  s.forEach [0, 1, 2, 3] fun n s => s.onSess n fun x => { x with keys := x.keys.filter (· != (p, w)) }

/-- `ldg.pass` (R508). -/
def ldgPassV : Verb := { obj := "ldg", name := "pass", level := .owner, keys := [kPart, kHex "rpw" 64, kHex "wpw" 64] }
def ldgPassBody (_c : Ctx) (_p : Pfx) (e : Env) (s : State) : Res :=
  let p := e.nat "part"
  let s := match e.nat? "rpw" with | some v => dropKeys p false (s.onPart p fun x => { x with rpw := BitVec.ofNat 64 v }) | none => s
  let s := match e.nat? "wpw" with | some v => dropKeys p true (s.onPart p fun x => { x with wpw := BitVec.ofNat 64 v }) | none => s
  .ok [] s
def execLdgPass (c : Ctx) (p : Pfx) (a : Args) (s : State) : Host.Outcome State Fault Refusal := ulc ldgPassV ldgPassBody c p a s

/-! ### Batches (R509 to R514, R702) -/

/-- The session a line belongs to; only a session has batches and holds passwords (R509). -/
def onSession (c : Ctx) (s : State) (f : Nat → Res) : Res := match c.origin with | .sess n => f n | _ => .err 40 "" s

def batchV (w : String) : Verb := {
  obj := "ldg", name := "batch", level := .keeper, keys := [{ name := "op", ty := .enum [w], req := true, pos := true }] }

def ldgBatchBeginV : Verb := batchV "begin"
def ldgBatchBeginBody (c : Ctx) (_p : Pfx) (_e : Env) (s : State) : Res :=
  onSession c s fun n => if (s.sess n).batch.isSome then .err 41 "" s else .ok [] (s.onSess n fun x => { x with batch := some ⟨[]⟩ })
def execLdgBatchBegin (c : Ctx) (p : Pfx) (a : Args) (s : State) : Host.Outcome State Fault Refusal := ulc ldgBatchBeginV ldgBatchBeginBody c p a s

/-- `ldg.batch commit` (R512): the batch waits with its commit. -/
def ldgBatchCommitV : Verb := batchV "commit"
def ldgBatchCommitBody (c : Ctx) (_p : Pfx) (_e : Env) (s : State) : Res :=
  onSession c s fun n =>
    match (s.sess n).batch with
    | none => .err 40 "" s
    | some b =>
      if s.pwr.pfail then .err 40 "" s
      else if b.pages.isEmpty then .ok ["pages=0"] (s.onSess n fun x => { x with batch := none })
      else .work (requestJob { pages := b.pages, upd := .none, who := .batch n } (s.onSess n fun x => { x with batch := none }))
def execLdgBatchCommit (c : Ctx) (p : Pfx) (a : Args) (s : State) : Host.Outcome State Fault Refusal := ulc ldgBatchCommitV ldgBatchCommitBody c p a s

def ldgBatchAbortV : Verb := batchV "abort"
def ldgBatchAbortBody (c : Ctx) (_p : Pfx) (_e : Env) (s : State) : Res :=
  match c.origin with
  | .sess n => .ok [] (s.onSess n fun x => { x with batch := none })
  | _ => .ok [] s
def execLdgBatchAbort (c : Ctx) (p : Pfx) (a : Args) (s : State) : Host.Outcome State Fault Refusal := ulc ldgBatchAbortV ldgBatchAbortBody c p a s

/-- The bytes of `data=`: hexnums of even digit counts, most significant byte first (R509). -/
def hexBytes (v : Val) : Option (List Byte) :=
  let l := valItems v
  if l.isEmpty ∨ 8 < l.length then none
  else (allSome (l.map fun i => match i with
    | .hex d n => if d % 2 = 0 then some (natLe (d / 2) n).reverse else none
    | _ => none)).map List.flatten

/-- A staged page's bytes replaced from an offset. -/
def overlay (l : List Byte) (off : Nat) (bs : List Byte) : List Byte := l.take off ++ bs ++ l.drop (off + bs.length)

/-- A page changed in a batch, staged first where it is not (R509, R510). -/
def stagePut (n l off : Nat) (bs : List Byte) (s : State) : Res :=
  match (s.sess n).batch with
  | none => .err 40 "" s
  | some b =>
    let put (b : Batch) : Res :=
      let pages := b.pages.map fun p => if p.1 = l then (l, overlay p.2.1 off bs, p.2.2) else p
      .ok [kn "staged" pages.length] (s.onSess n fun x => { x with batch := some ⟨pages⟩ })
    if b.pages.any fun p => p.1 == l then put b
    else if 16 ≤ b.pages.length then .err 33 "" s
    else match pageBytes l s with
      | some bytes => put ⟨b.pages ++ [(l, bytes, tgetD s.ldg.commits l 0)]⟩
      | none => .err 50 "" (pageFault l s)

/-- `ldg.put` (R503, R509, R510). -/
def ldgPutV : Verb := {
  obj := "ldg", name := "put", level := .keeper
  keys := [kPart, kInt "page" 0 1023 true, kInt "off" 0 255, { name := "data", ty := .any }, kHex "src" 48] }
def ldgPutBody (c : Ctx) (_p : Pfx) (e : Env) (s : State) : Res :=
  let p := e.nat "part"
  let l := partBase p + e.nat "page"
  if partSize p ≤ e.nat "page" then .err 13 "page" s
  else match e.raw? "data" with
    | some v =>
      match hexBytes v with
      | some bs =>
        if e.has "src" then .err 13 "src" s
        else if e.nat "off" + bs.length > 256 then .err 13 "data" s
        else onSession c s fun n => stagePut n l (e.nat "off") bs s
      | none => .err 13 "data" s
    | none =>
      if e.has "off" then .err 13 "off" s
      else if !inUsable (e.nat "src") 256 s then .err 13 "src" s
      else onSession c s fun n => stagePut n l 0 (s.ram.readN (e.nat "src") 256) s
def execLdgPut (c : Ctx) (p : Pfx) (a : Args) (s : State) : Host.Outcome State Fault Refusal := ulc ldgPutV ldgPutBody c p a s

/-! ### Reads and the user Slate -/

/-- Bytes as hexnums of at most 8 bytes each, most significant first (log entry 17). -/
def bytesS (fuel : Nat) (l : List Byte) : List String :=
  match fuel with
  | 0 => []
  | f + 1 => if l.isEmpty then [] else hexS (2 * (l.take 8).length) (leNat (l.take 8).reverse) :: bytesS f (l.drop 8)

/-- `ldg.read` (R503, R511, R703). -/
def ldgReadV : Verb := {
  obj := "ldg", name := "read", changes := false, keys := [kPart, kInt "page" 0 1023 true, kInt "off" 0 255, kInt "n" 1 64, kHex "dst" 48] }
def ldgReadBody (_c : Ctx) (_p : Pfx) (e : Env) (s : State) : Res :=
  let p := e.nat "part"
  let l := partBase p + e.nat "page"
  let off := e.nat "off"
  let n := (e.nat? "n").getD 64
  if partSize p ≤ e.nat "page" then .err 13 "page" s
  else if e.has "dst" then
    if e.has "off" || e.has "n" || !inUsable (e.nat "dst") 256 s then .err 13 "dst" s
    else match pageBytes l s with
      | some bs => .ok [] { s with ram := s.ram.writeN (e.nat "dst") bs }
      | none => .err 50 "" (pageFault l s)
  else if off + n > 256 then .err 13 "n" s
  else match pageBytes l s with
    | some bs => .ok [kv "data" (commas (bytesS 9 ((bs.drop off).take n)))] s
    | none => .err 50 "" (pageFault l s)
def execLdgRead (c : Ctx) (p : Pfx) (a : Args) (s : State) : Host.Outcome State Fault Refusal := ulc ldgReadV ldgReadBody c p a s

/-- `ldg.slate` (R522, R523): each word takes effect on its own, in ascending order. -/
def ldgSlateV : Verb := {
  obj := "ldg", name := "slate", keys := [kPart, kInt "off" 0 511 true, kInt "n" 1 8, { name := "val", ty := .hexs 32 8 }] }
def ldgSlateBody (_c : Ctx) (_p : Pfx) (e : Env) (s : State) : Res :=
  let p := e.nat "part"
  let off := e.nat "off"
  let base := 512 * (p - 4)
  if p < 4 then .err 13 "part" s
  else if e.has "val" then
    let vs := e.nums "val"
    if off % 4 ≠ 0 then .err 13 "off" s
    else if off + 4 * vs.length > 512 ∨ e.has "n" then .err 13 "val" s
    else .ok [] (s.forEach ((List.range vs.length).zip vs) fun v s => s.onLdg fun d => { d with
      user := d.user.writeW (base + off + 4 * v.1) (BitVec.ofNat 32 v.2) })
  else
    let n := (e.nat? "n").getD 1
    if off % 4 ≠ 0 then .err 13 "off" s
    else if off + 4 * n > 512 then .err 13 "n" s
    else .ok [kv "val" (commas ((List.range n).map fun k => hexS 8 (s.ldg.user.readW (base + off + 4 * k)).toNat))] s
def execLdgSlate (c : Ctx) (p : Pfx) (a : Args) (s : State) : Host.Outcome State Fault Refusal := ulc ldgSlateV ldgSlateBody c p a s

/-! ### Wipe, refresh, show -/

/-- `ldg.wipe` (R538). -/
def ldgWipeV : Verb := { obj := "ldg", name := "wipe", level := .owner, keys := [kPart] }
def ldgWipeBody (c : Ctx) (_p : Pfx) (e : Env) (s : State) : Res := lineJob c.origin (.wipe (e.nat "part")) s
def execLdgWipe (c : Ctx) (p : Pfx) (a : Args) (s : State) : Host.Outcome State Fault Refusal := ulc ldgWipeV ldgWipeBody c p a s

/-- `ldg.refresh` starts a run (R525). -/
def ldgRefreshV : Verb := { obj := "ldg", name := "refresh", level := .keeper }
def ldgRefreshBody (_c : Ctx) (_p : Pfx) (_e : Env) (s : State) : Res := .ok [] (startRefresh s)
def execLdgRefresh (c : Ctx) (p : Pfx) (a : Args) (s : State) : Host.Outcome State Fault Refusal := ulc ldgRefreshV ldgRefreshBody c p a s

/-- Hours since the last refresh run started (R541). -/
def refreshAge (s : State) : Nat := min 0xFFFF ((s.rtc - s.ldg.lastRef) / 3600)

/-- `ldg.show`, or `ldg.show residue` (R540). -/
def ldgShowV : Verb := {
  obj := "ldg", name := "show", changes := false, keys := [{ name := "what", ty := .enum ["residue"], pos := true }] }
def ldgShowBody (_c : Ctx) (_p : Pfx) (e : Env) (s : State) : Res :=
  let d := s.ldg
  if e.has "what" then .ok [kv "residue" (commas ((d.phys.filter fun x => x.2.residue).map fun x => natS x.1))] s
  else .ok [spaced [kn "ready" (b2n d.ready), kn "busy" (b2n (!d.queue.isEmpty)), kn "pool" (roleCount .pool s), kn "spares" (64 - d.sparesUsed),
    kn "retired" d.retired.toNat, kn "wear1" d.cW1.toNat, kn "wear2" d.cW2.toNat, kn "wear3" d.cW3.toNat, kv "refresh" (natS (refreshAge s) ++ "h"),
    kn "lost" d.cLost.toNat]] s
def execLdgShow (c : Ctx) (p : Pfx) (a : Args) (s : State) : Host.Outcome State Fault Refusal := ulc ldgShowV ldgShowBody c p a s

/-! ### The log as it is read (R536, R705, R706) -/

def logNames : List String :=
  ["desk", "porter", "coach", "larder", "hearth", "inn", "stake", "power", "tly", "ldg", "aud", "usb", "net", "mem"]

/-- A line of `log.tail` (R705). -/
def entryLine (pend : Bool) (e : LogEntry) : String :=
  spaced ([kv "lseq" (hexS 8 e.lseq), kv "era" (hexS 4 e.era.toNat), if e.rtc then kn "rtc" e.tally.toNat else kv "t" (tallyS e.tally.toNat),
    kv "src" (logNames.getD e.src ""), kv "code" (hexS 4 e.code.toNat), kv "ev" (hexS 4 e.evseq.toNat),
    if e.late then kv "late" (tallyS e.arg.toNat) else kv "arg" (hexS 16 e.arg.toNat)] ++
    (if e.arg2 = 0 then [] else [kv "arg2" (hexS 4 e.arg2.toNat)]) ++ (if pend then ["pend=1"] else []))

/-- `log.show` (R706). -/
def logShowV : Verb := { obj := "log", name := "show", changes := false }
def logShowBody (_c : Ctx) (_p : Pfx) (_e : Env) (s : State) : Res :=
  let d := s.ldg
  .ok [spaced [kn "entries" d.log.length, kv "oldest" (match d.log with | e :: _ => hexS 8 e.lseq | [] => "none"), kv "next" (hexS 8 d.lseq),
    kn "pend" d.buffer.length, kn "lost" d.cLost.toNat]] s
def execLogShow (c : Ctx) (p : Pfx) (a : Args) (s : State) : Host.Outcome State Fault Refusal := ulc logShowV logShowBody c p a s

/-- `log.tail` (R536, R705): the newest entries, newest last; a page that cannot be read fails the line (R531). -/
def logTailV : Verb := { obj := "log", name := "tail", changes := false, keys := [kInt "n" 1 64, kEnum "src" logNames] }
def logTailBody (_c : Ctx) (_p : Pfx) (e : Env) (s : State) : Res :=
  let d := s.ldg
  let want (x : LogEntry) : Bool := match e.word? "src" with | some w => x.src == logNames.idxOf w | none => true
  let l := (d.log.map fun x => (false, x)) ++ d.buffer.map fun x => (true, x)
  let l := l.filter fun x => want x.2
  let l := l.drop (l.length - (e.nat? "n").getD 8)
  match l.find? fun x => !x.1 && (pageBytes (partBase 3 + x.2.lseq / 8 % 1024) s).isNone with
  | some x => .err 50 "" (pageFault (partBase 3 + x.2.lseq / 8 % 1024) s)
  | none => .ok (l.map fun x => entryLine x.1 x.2) s
def execLogTail (c : Ctx) (p : Pfx) (a : Args) (s : State) : Host.Outcome State Fault Refusal := ulc logTailV logTailBody c p a s

/-- `log.clear` (R536). -/
def logClearV : Verb := { obj := "log", name := "clear", level := .owner }
def logClearBody (c : Ctx) (_p : Pfx) (_e : Env) (s : State) : Res :=
  if s.pwr.pfail then .err 40 "" s
  else lineJob c.origin .clearLog (s.onLdg fun d => { d with buffer := [], queue := d.queue.filter fun j => match j.upd with | .logPages _ => false | _ => true })
def execLogClear (c : Ctx) (p : Pfx) (a : Args) (s : State) : Host.Outcome State Fault Refusal := ulc logClearV logClearBody c p a s

/-! ### Registers (R541) -/

def roleNum (r : Role) : Nat := match r with | .serves => 0 | .pool => 1 | .spare => 2 | .retired => 3 | .transit => 4

/-- A read in the LDG block. -/
def ldgRegRead (off : Nat) (s : State) : W32 × State :=
  let d := s.ldg
  if 0x20 ≤ off ∧ off < 0x40 ∧ off % 4 = 0 then
    let x := s.part ((off - 0x20) / 4)
    let left := if x.locked then (x.endAt - d.powered + (perMinute - 1)) / perMinute else 0
    (put 16 (min left 0xFFFF) + put 8 x.fails.toNat + put 2 (b2n x.locked) + put 1 (b2n (x.wpw != 0)) + put 0 (b2n (x.rpw != 0)), s)
  else match off with
    | 0x00 => (put 17 (64 - d.sparesUsed) + put 11 (roleCount .pool s % 64) + put 2 (b2n d.refresh) + put 1 (b2n (!d.queue.isEmpty)) +
               put 0 (b2n d.ready), s)
    | 0x04 => (put 0 (b2n d.refen), s)
    | 0x08 => (put 16 d.cCommits.toNat + put 8 d.cFault.toNat + put 0 d.cBusy.toNat,
               s.onLdg fun d => { d with cCommits := 0, cFault := 0, cBusy := 0 })
    | 0x0C => (put 24 d.retired.toNat + put 16 d.cW3.toNat + put 8 d.cW2.toNat + put 0 d.cW1.toNat,
               s.onLdg fun d => { d with cW1 := 0, cW2 := 0, cW3 := 0 })
    | 0x10 => (put 16 (refreshAge s) + put 0 d.rewritten.toNat, s)
    | 0x14 => (put 0 d.cLost.toNat, s.onLdg fun d => { d with cLost := 0 })
    | 0x18 => (put 0 d.lseq, s)
    | 0x40 => (put 0 d.pgsel.toNat, s)
    | 0x44 =>
      let x := s.phys d.pgsel.toNat
      (put 31 (b2n (x.role == .retired)) + put 30 (b2n x.lost) + put 29 (b2n x.residue) + put 27 x.stage.toNat + put 24 (roleNum x.role) +
        put 0 x.writes.toNat, s)
    | _ => (0, s)

/-- A write in the LDG block. -/
def ldgRegWrite (off : Nat) (v : W32) (s : State) : State :=
  match off with
  | 0x04 => s.onLdg fun d => { d with refen := v.getLsbD 0 }
  | 0x40 => if fld v 0 12 ≤ 2143 then s.onLdg fun d => { d with pgsel := BitVec.ofNat 12 (fld v 0 12) } else s
  | _ => s

/-- The verbs of this file. -/
def ledgerVerbs : List (Verb × (Ctx → Pfx → Env → State → Res)) :=
  [(ldgBatchBeginV, ldgBatchBeginBody), (ldgBatchCommitV, ldgBatchCommitBody), (ldgBatchAbortV, ldgBatchAbortBody), (ldgPutV, ldgPutBody),
   (ldgReadV, ldgReadBody), (ldgKeyV, ldgKeyBody), (ldgPassV, ldgPassBody), (ldgSlateV, ldgSlateBody), (ldgWipeV, ldgWipeBody),
   (ldgRefreshV, ldgRefreshBody), (ldgShowV, ldgShowBody), (logShowV, logShowBody), (logTailV, logTailBody), (logClearV, logClearBody)]

end Sys2Proof.Machine
end

