-- ==== Sys2Proof/Machine/Porter.lean ====
section
/-! DEFINITION. The Porter listening island (spec 11): supply, listening, words, enrolment, the coin-cell gauge, WAKE_OUT, the por
commands and the POR registers. -/

namespace Sys2Proof.Machine

/-! ### Modes, path and supply -/

def inVault (s : State) : Bool := !s.on 2

/-- Whether an override of R484 is in force: only while the island runs from VBAT. -/
def PorSt.override (p : PorSt) : Option Gauge := if p.onVbat then p.ovr else none

/-- The effective mode (R464, R474, R483). -/
def effMode (s : State) : PMode :=
  let p := s.por
  if p.enrol.isSome then .enrol
  else
    let set := if inVault s && p.pend.isSome then .listen else p.mode
    match p.override with
    | some .empty => .off
    | some .low => if set == .off then .off else .doze
    | _ => set

/-- Whether the DIGITAL path is in use (R451). -/
def wantsDigital (s : State) : Bool := s.on 3 && s.por.cancel

/-- MICBIAS and the feature path brought in line with the mode and the domains; for 100 ms after a change of path no slot fires
(R451, R454, R464). -/
def settlePor (s : State) : State :=
  let d := wantsDigital s
  let mic := s.por.running && effMode s != .off
  s.onPor fun p => { p with digital := d, pathHold := p.pathHold || (p.running && p.digital != d), micOn := mic }

/-- VAON_FALL (R447, R450): the island moves to VBAT, or stops where VBAT cannot carry it. -/
def execVaonFall (s : State) : Host.Outcome State Fault Refusal :=
  .next (settlePor ((s.onPwr fun p => { p with vaon := false }).onPor fun p =>
    if p.running && p.vbatOk then { p with onVbat := true } else { p with running := false }))

/-- VAON_RETURN (R447, R484): the island moves back; a LOW or EMPTY outcome ends. An island that had stopped starts cold
(ISLAND_COLD_START). -/
def execVaonReturn (s : State) : Host.Outcome State Fault Refusal :=
  .next (settlePor ((s.onPwr fun p => { p with vaon := true }).onPor fun p => if p.running then { p with onVbat := false, ovr := none } else p))

/-- ISLAND_COLD_START (R487): everything the island keeps is at its reset value. -/
def execIslandColdStart (s : State) : Host.Outcome State Fault Refusal :=
  .next (if s.pwr.vaon || s.por.vbatOk then
      settlePor (s.onPor fun p => { vbatOk := p.vbatOk, removed := p.removed, onVbat := !s.pwr.vaon })
    else s)

/-- VBAT_FALL (R450): VBAT below 1.8 V. -/
def execVbatFall (s : State) : Host.Outcome State Fault Refusal :=
  .next (settlePor (s.onPor fun p => { p with vbatOk := false, running := p.running && !p.onVbat }))

/-! ### Words -/

/-- Whether the slot's word can fire: it is enabled, sound, holds a template, and in VAULT has WAKE set (R455, R463, R466). -/
def slotLive (s : State) (x : Slot) : Bool := x.en && !x.crcbad && decide (0 < x.n) && (!inVault s || x.wake)

/-- An H16 element as a multiple of 2^−24; none where it is no number. -/
def h16Int (c : Nat) : Option Int :=
  match fmtVal 10 0 c with
  | .fin q => let n : Nat := q.num * 2 ^ 24 / q.den
              some (if q.neg then -(n : Int) else n)
  | _ => none

/-- The cosine similarity of two vectors of H16 elements, to the nearest 1/256, from 0 to 255/256 (R455; log entry 64). -/
def cosSim (a b : List Nat) : Nat :=
  match allSome (a.map h16Int), allSome (b.map h16Int) with
  | some x, some y =>
    let dot : Int := (List.zipWith (· * ·) x y).sum
    let n : Int := (x.map fun v => v * v).sum * (y.map fun v => v * v).sum
    if n = 0 then Config.similarity a b % 256
    else ((List.range 256).reverse.find? fun c : Nat =>
      c == 0 || (decide (0 < dot) && decide ((2 * (c : Int) - 1) ^ 2 * n ≤ (512 * dot) ^ 2))).getD 0
  | _, _ => Config.similarity a b % 256

/-- The largest similarity of a vector to a template of a user slot; none where the slot holds none (R455). -/
def slotSim (v : List Nat) (x : Slot) : Option Nat := ((x.tpl.take x.n).map (cosSim v)).max?

/-- The similarity of a vector to each slot that holds a template; `fac` gives those of the factory slots. -/
def slotSims (v : List Nat) (fac : List (Nat × Nat)) (s : State) : List (Nat × Nat) :=
  (List.range 32).filterMap fun k =>
    if k < 8 then fac.find? fun e => e.1 == k
    else (slotSim v (tgetD s.por.slots k {})).map fun n => (k, n)

/-- Consecutive qualifying embeddings of each slot after one more (R456). -/
def qualsAfter (sims : List (Nat × Nat)) (s : State) : Tab Nat :=
  (List.range 32).filterMap fun k =>
    let x := tgetD s.por.slots k {}
    match sims.find? fun e => e.1 == k with
    | some e => if slotLive s x && decide (x.thr.toNat ≤ e.2) then some (k, min 3 (tgetD s.por.quals k 0 + 1)) else none
    | none => none

/-- The slot that fires: the largest margin over its threshold among those that qualify, the lowest number on a tie (R456). -/
def firing (sims : List (Nat × Nat)) (s : State) : Option (Nat × Nat) :=
  ((List.range 32).filterMap fun k =>
    if tgetD s.por.quals k 0 = 3 then (sims.find? fun e => e.1 == k).map fun e => (k, e.2) else none).foldl (fun best e =>
      let m (e : Nat × Nat) : Int := (e.2 : Int) - ((tgetD s.por.slots e.1 {}).thr.toNat : Int)
      match best with
      | some b => if m b < m e then some e else some b
      | none => some e) none

/-- WAKE_OUT asserted under R488. -/
def assertWake (word : Bool) (s : State) : State :=
  (s.onPor fun p => { p with wakeOut := true, wakeWord := word }).onPwr fun p => { p with woken := true }

/-- A keyword event given to the Desk (R491, R136, R440): its macro waits its turn; one beyond the 8 is discarded and logged. -/
def keywordToDesk (k : Keyword) (sim : Nat) (s : State) : State :=
  let s := notify "por" ("word " ++ kn "slot" k.slot ++ " " ++ kv "sim" (hexS 2 sim)) s
  let s := if s.usb.state == .suspended && s.usb.rwake then s.onUsb fun u => { u with wakeup := u.wakeup + 1 } else s
  if s.desk.kwq.length < 8 then s.onDesk fun d => { d with kwq := d.kwq ++ [{ k with tally := if s.on 3 then some s.tly.now else none }] }
  else logEv 0 0x0104 k.seq.toNat k.slot 0 s

/-- Keyword events that waited in the island leave as their share frees (R493); the similarity is kept in the event's `rtc`. -/
def drainKeywords (fuel : Nat) (s : State) : State :=
  match fuel with
  | 0 => s
  | f + 1 =>
    match s.por.held with
    | [] => s
    | k :: r =>
      if shareFull .porter s || !s.on 2 then s
      else drainKeywords f (keywordToDesk { k with rtc := none } (k.rtc.getD 0) (s.onPor fun p => { p with held := r }))

/-- A slot fires (R457, R488, R491, R493). -/
def fireSlot (k sim : Nat) (s : State) : State :=
  let seq := s.por.seq
  let s := s.onPor fun p => { p with cWords := satInc p.cWords, refr := true, seq := p.seq + 1 }
  if inVault s then
    let s := assertWake true s
    if s.por.vlog.length < 8 then
      s.onPor fun p => { p with vlog := p.vlog ++ [⟨k, p.ticks / 100, false, seq⟩], cVault := satInc p.cVault }
    else s.onPor fun p => { p with cDisc := satInc p.cDisc }
  else
    let e : Keyword := ⟨k, seq, none, none⟩
    if shareFull .porter s then
      if s.por.held.length < 8 then s.onPor fun p => { p with held := p.held ++ [{ e with rtc := some sim }] }
      else s.onPor fun p => { p with cDisc := satInc p.cDisc }
    else keywordToDesk e sim s

/-- The feature code of a band (R453): round(16 × log2(E_b / E_ref)) from 0 to 255, the energy being given in E_ref / 65536. The code is
at least c where 32 × log2(E_b / E_ref) ≥ 2c − 1. -/
def featureCode (e : Nat) : Nat := ((List.range 256).reverse.find? fun c => c == 0 || decide (2 ^ (2 * c - 1 + 512) ≤ e ^ 32)).getD 0

/-- Whether the island senses this frame: in DOZE on VBAT one in four while it hears no voice (R465). -/
def senses (s : State) : Bool :=
  let m := effMode s
  m != .off && !(m == .doze && s.por.onVbat && s.por.dozing && s.por.frame != 0)

/-- The charge tally's units of 50 nC, in 40 bits (R481). -/
def addCharge (n : Nat) (p : PorSt) : PorSt := { p with tally := satAdd p.tally n }

/-- A 10 ms tick of the RTC, of the time since PD2's power-on (log entry 6), of powered time, and of the time since the part-wide
unlock failures reached 20 (R121, R451, R500, R525, R640). -/
def tick10 (s : State) : State :=
  let s := s.onPor fun p => { p with ticks := p.ticks + 1, frame := (p.frame + 1) % 4 }
  let s := if s.on 2 then s.onSys fun y => { y with pd2Frames := min 100 (y.pd2Frames + 1) } else s
  if s.on 1 then
    s.onLdg fun d => { d with
      powered := d.powered + 1, sinceRef := d.sinceRef + 1, lockTicks := if 20 ≤ d.unlockFails.toNat then d.lockTicks + 1 else d.lockTicks }
  else s

/-- The 256 taps as the state holds them: the empty list while all are zero (R461). -/
def packTaps (l : List W32) : List W32 := if (l.take 256).all (· == 0) then [] else l.take 256

/-- The cancellation filter over one frame (R477, R478, R480): it freezes, or adapts its taps to the reference behind the bulk delay and
to what the microphone heard. -/
def aecFrame (f : Feature) (s : State) : State :=
  if s.por.digital then
    let still := f.refLow || f.near
    s.onPor fun p => { p with frozen := still, erle := satOf 6 f.erle, taps := if still then p.taps else packTaps (Config.nlms p.delay.toNat p.mu.toNat p.taps p.refMix f.mic) }
  else s

/-- FEATURE_FRAME (R451, R453, R455 to R457, R465). -/
def featureFrame (f : Feature) (s : State) : State :=
  let sims := slotSims f.emb f.fac s
  let s := aecFrame f (tick10 (s.onPor fun p => if p.onVbat then addCharge f.charge p else p))
  let s := drainKeywords 8 s
  if senses s then
    let s := if f.voice && effMode s == .doze then s.onPor fun p => { p with dozing := false } else s
    let s := s.onPor fun p => { p with quals := qualsAfter sims s, micOn := true, codes := (f.bands.take 16).map featureCode }
    if s.por.refr || s.por.pathHold || effMode s == .enrol then s
    else match firing sims s with
      | some (k, sim) => fireSlot k sim s
      | none => s
  else s.onPor fun p => { p with micOn := false }

def execFeatureFrame (f : Feature) (s : State) : Host.Outcome State Fault Refusal := .next (if s.por.running then featureFrame f s else s)

/-- REFRACTORY_END (R457). -/
def execRefractoryEnd (s : State) : Host.Outcome State Fault Refusal := .next (s.onPor fun p => { p with refr := false })

/-- PATH_CHANGE_HOLD_END (R454). -/
def execPathChangeHoldEnd (s : State) : Host.Outcome State Fault Refusal := .next (s.onPor fun p => { p with pathHold := false })

/-- DOZE_RETURN (R465). -/
def execDozeReturn (s : State) : Host.Outcome State Fault Refusal := .next (s.onPor fun p => { p with dozing := true })

/-! ### Slots -/

/-- A slot's CRC failure reported and logged (R463). -/
def sayCrc (k : Nat) (s : State) : State :=
  logEv 1 0x0101 0 k 0 (notify "por" ("crc " ++ kn "slot" k) (s.onPor fun p => { p with crcSaid := p.crcSaid ++ [k] }))

/-- SLOT_CRC_CHECK (R463): `bad` names the user slots whose CRC does not match. In VAULT the report waits for main power. -/
def execSlotCrcCheck (bad : List Nat) (s : State) : Host.Outcome State Fault Refusal :=
  let ks := bad.filter fun k => decide (8 ≤ k) && decide (k < 32)
  let fresh := ks.filter fun k => !(tgetD s.por.slots k {}).crcbad
  .next (if s.por.running then
      let s := s.onPor fun p => { p with slots := ks.foldl (fun t k => tmod t k {} fun x => { x with crcbad := true }) p.slots }
      if s.on 2 then s.forEach fresh sayCrc else s
    else s)

/-- The slot records as the Steward writes them at each entry to HUSH (R462), after the CRC failures found in VAULT are reported. -/
def reloadSlots (s : State) : State :=
  let bad := (s.por.slots.filter fun e => e.2.crcbad && !s.por.crcSaid.contains e.1).map (·.1)
  let s := s.forEach bad sayCrc
  let factory (k : Nat) : Slot :=
    match tget s.ldg.slots k with
    | some x => { en := x.en, wake := x.wake, factory := true, n := 1, thr := x.thr }
    | none => tgetD factorySlots k {}
  let user := s.ldg.slots.filter fun e => decide (8 ≤ e.1)
  s.onPor fun p => { p with slots := (List.range 8).map (fun k => (k, factory k)) ++ user, crcSaid := [], quals := [] }

/-! ### Enrolment (R467 to R474) -/

def enrolNote (k : Nat) (rest : String) (s : State) : State := notify "por" (enrolS k rest) s

/-- Whether the enrolment of a slot waits for its commit (R471). -/
def enrolBusy (s : State) : Bool :=
  s.ldg.queue.any fun j => match j.who with | .enrolDone _ => true | .enrolSelf => true | _ => false

/-- Enrolment of a slot starts (R467). -/
def startEnrol (k : Nat) (s : State) : State :=
  enrolNote k "state=ready n=0" (s.onPor fun p => { p with enrol := some ⟨k, [], []⟩, pend := none })

/-- Enrolment given up because the part falls below HUSH: the Porter enters LISTEN (R473). -/
def dropEnrol (s : State) : State :=
  if s.por.enrol.isSome then s.onPor fun p => { p with enrol := none, mode := .listen } else s

/-- The threshold of an enrolment (R471): the mean pairwise similarity less 0.10, from 0.60 to 0.95, in 1/256. -/
def enrolThr (sims : List Nat) : Nat :=
  let den : Int := 10 * sims.length
  let num : Int := 10 * sims.sum - 256 * sims.length
  if num * 5 < 768 * den then 154 else if 1216 * den < num * 5 then 243 else ((2 * num + den) / (2 * den)).toNat

/-- The record an enrolment writes: EN set, WAKE as it was (R471). -/
def enrolSlot (e : Enrol) (s : State) : LUpd :=
  .slot e.slot { en := true, wake := (tgetD s.por.slots e.slot {}).wake, n := e.takes.length, thr := BitVec.ofNat 8 (enrolThr e.sims), tpl := e.takes }

/-- Whether a take comes as near to another enabled slot as that slot's threshold (R468). -/
def takeClash (t : Take) (k : Nat) (s : State) : Bool :=
  (slotSims t.template t.fac s).any fun e =>
    let x := tgetD s.por.slots e.1 {}
    e.1 != k && x.en && decide (x.thr.toNat ≤ e.2)

/-- Whether any feature code of a take reaches 255 (R453, R468). -/
def takeClips (t : Take) : Bool := t.bands.any fun l => l.any fun e => featureCode e == 255

/-- Why a take is rejected, the first reason that applies (R468). -/
def takeFault (t : Take) (e : Enrol) (s : State) : Option String :=
  if t.ms < 250 then some "short" else if 1500 < t.ms then some "long" else if takeClips t then some "clip"
  else if t.snr < 12 then some "noisy" else if e.takes.any fun y => decide (cosSim t.template y < 192) then some "differ"
  else if takeClash t e.slot s then some "clash" else none

/-- ENROL_TAKE (R468 to R471). -/
def execEnrolTake (t : Take) (s : State) : Host.Outcome State Fault Refusal :=
  .next (match s.por.enrol with
    | some e =>
      if enrolBusy s then s
      else match takeFault t e s with
        | some w => enrolNote e.slot ("state=reject " ++ kv "why" w) s
        | none =>
          let e := { e with takes := e.takes ++ [t.template], sims := e.sims ++ e.takes.map (cosSim t.template) }
          let s := enrolNote e.slot ("state=take " ++ kn "n" e.takes.length) (s.onPor fun p => { p with enrol := some e })
          if 5 ≤ e.takes.length then requestJob { pages := [], upd := enrolSlot e s, who := .enrolSelf } s else s
    | none => s)

/-- ENROL_TIMEOUT (R472). -/
def execEnrolTimeout (s : State) : Host.Outcome State Fault Refusal :=
  .next (match s.por.enrol with
    | some e => if enrolBusy s then s else settlePor (enrolNote e.slot "state=timeout" (endEnrol s))
    | none => s)

def kSlot : KeySpec := kInt "slot" 0 31 true
def kWord (w : String) : KeySpec := { name := "op", ty := .enum [w], req := true, pos := true }

/-- `por.enrol` (R467). -/
def porEnrolV : Verb := { obj := "por", name := "enrol", level := .keeper, keys := [kSlot] }
def porEnrolBody (_c : Ctx) (_p : Pfx) (e : Env) (s : State) : Res :=
  if e.nat "slot" < 8 then .err 13 "slot" s
  else if s.por.enrol.isSome then .err 41 "" s
  else .ok [] (settlePor (startEnrol (e.nat "slot") s))
def execPorEnrol (c : Ctx) (p : Pfx) (a : Args) (s : State) : Host.Outcome State Fault Refusal := ulc porEnrolV porEnrolBody c p a s

/-- `por.enrol … done` (R470, R471). -/
def porEnrolDoneV : Verb := { obj := "por", name := "enrol", level := .keeper, keys := [kSlot, kWord "done"] }
def porEnrolDoneBody (c : Ctx) (_p : Pfx) (e : Env) (s : State) : Res :=
  match s.por.enrol with
  | some x =>
    if x.slot ≠ e.nat "slot" ∨ x.takes.length < 3 ∨ s.pwr.pfail then .err 40 "" s
    else if enrolBusy s then .err 41 "" s
    else .work (requestJob { pages := [], upd := enrolSlot x s, who := .enrolDone c.origin } s)
  | none => .err 40 "" s
def execPorEnrolDone (c : Ctx) (p : Pfx) (a : Args) (s : State) : Host.Outcome State Fault Refusal := ulc porEnrolDoneV porEnrolDoneBody c p a s

/-- `por.enrol … abort` (R472, R474). -/
def porEnrolAbortV : Verb := { obj := "por", name := "enrol", level := .keeper, keys := [kSlot, kWord "abort"] }
def porEnrolAbortBody (_c : Ctx) (_p : Pfx) (e : Env) (s : State) : Res :=
  let k := e.nat "slot"
  if s.por.enrol.any fun x => x.slot == k then
    if enrolBusy s then .err 41 "" s else .ok [] (settlePor (endEnrol s))
  else if s.por.pend = some k then .ok [] (s.onPor fun p => { p with pend := none })
  else .err 40 "" s
def execPorEnrolAbort (c : Ctx) (p : Pfx) (a : Args) (s : State) : Host.Outcome State Fault Refusal := ulc porEnrolAbortV porEnrolAbortBody c p a s

/-- `por.enrol … when=wake` (R474). -/
def porEnrolWakeV : Verb := { obj := "por", name := "enrol", level := .keeper, keys := [kSlot, kEnum "when" ["wake"] true] }
def porEnrolWakeBody (_c : Ctx) (_p : Pfx) (e : Env) (s : State) : Res :=
  if e.nat "slot" < 8 then .err 13 "slot" s
  else if s.por.enrol.isSome then .err 41 "" s
  else .ok [] (s.onPor fun p => { p with pend := some (e.nat "slot") })
def execPorEnrolWake (c : Ctx) (p : Pfx) (a : Args) (s : State) : Host.Outcome State Fault Refusal := ulc porEnrolWakeV porEnrolWakeBody c p a s

/-! ### Settings and slots -/

/-- `por.set` (R464, R475 to R477, R481, R489, R494). -/
def porSetV : Verb := {
  obj := "por", name := "set", level := .keeper
  keys := [kEnum "mode" ["off", "doze", "listen"], kOnOff "cancel", { name := "ref", ty := .names 4 }, { name := "gain", ty := .oneOf "dB" [0, 6, 12, 18, 24] },
           { name := "bias", ty := .dec "V" 10 18 22 }, { name := "refract", ty := .int "ms" 200 2000 }, kEnum "winpol" ["low", "high"],
           { name := "cell", ty := .int "mAh" 1 65535 }, kInt "mu" 0 255, kInt "delay" 0 255, { name := "tmo", ty := .dec "s" 10 1 255 }] }
def pmodeOf (w : String) : PMode := match w with | "off" => .off | "doze" => .doze | _ => .listen

/-- A new nominal capacity; the estimate starts equal to it (log entry 17). -/
def setCell (n : Nat) (p : PorSt) : PorSt := { p with nom := BitVec.ofNat 16 n, est := 10 * n }

def porSetBody (_c : Ctx) (_p : Pfx) (e : Env) (s : State) : Res :=
  let refs := allSome ((e.words "ref").map codeOf)
  if e.has "bias" && e.nat "bias" != 18 && e.nat "bias" != 22 then .err 13 "bias" s
  else if e.nat "refract" % 100 ≠ 0 then .err 13 "refract" s
  else match refs with
    | none => .err 13 "ref" s
    | some l =>
      let b8 (k : String) (old : BitVec 8) : BitVec 8 := match e.nat? k with | some v => BitVec.ofNat 8 v | none => old
      .ok [] (settlePor (s.onPor fun p =>
        let p := match e.nat? "cell" with | some n => setCell n p | none => p
        { p with
          mode := match e.word? "mode" with | some w => pmodeOf w | none => p.mode
          cancel := (e.flag? "cancel").getD p.cancel, refDst := if e.has "ref" then packCodes l else p.refDst
          gain := match e.nat? "gain" with | some v => BitVec.ofNat 3 (v / 6) | none => p.gain
          bias := match e.nat? "bias" with | some v => v == 22 | none => p.bias
          refract := match e.nat? "refract" with | some v => BitVec.ofNat 5 (v / 100 - 2) | none => p.refract
          winpol := match e.word? "winpol" with | some w => w == "high" | none => p.winpol
          mu := b8 "mu" p.mu, delay := b8 "delay" p.delay, tmo := b8 "tmo" p.tmo }))
def execPorSet (c : Ctx) (p : Pfx) (a : Args) (s : State) : Host.Outcome State Fault Refusal := ulc porSetV porSetBody c p a s

/-- `por.slot` (R459, R496): the Ledger copy and the retention copy change together, by one batch. -/
def porSlotV : Verb := { obj := "por", name := "slot", level := .keeper, keys := [kSlot, kOnOff "en", kOnOff "wake", { name := "thr", ty := .int "" 128 253 }] }
def porSlotBody (c : Ctx) (_p : Pfx) (e : Env) (s : State) : Res :=
  let x := tgetD s.por.slots (e.nat "slot") {}
  if !e.has "en" && !e.has "wake" && !e.has "thr" then .ok [] s
  else if e.flag? "en" = some true ∧ x.n = 0 then .err 40 "" s
  else lineJob c.origin (.slot (e.nat "slot") { x with
    en := (e.flag? "en").getD x.en, wake := (e.flag? "wake").getD x.wake, thr := match e.nat? "thr" with | some v => BitVec.ofNat 8 v | none => x.thr }) s
def execPorSlot (c : Ctx) (p : Pfx) (a : Args) (s : State) : Host.Outcome State Fault Refusal := ulc porSlotV porSlotBody c p a s

/-- `por.slot … clear` (R539). -/
def porSlotClearV : Verb := { obj := "por", name := "slot", level := .keeper, keys := [kSlot, kWord "clear"] }
def porSlotClearBody (c : Ctx) (_p : Pfx) (e : Env) (s : State) : Res :=
  if e.nat "slot" < 8 then .err 13 "slot" s else lineJob c.origin (.slot (e.nat "slot") {}) s
def execPorSlotClear (c : Ctx) (p : Pfx) (a : Args) (s : State) : Host.Outcome State Fault Refusal := ulc porSlotClearV porSlotClearBody c p a s

/-! ### The gauge (R481 to R487) -/

/-- Charge units of 50 nC in 0.1 mAh. -/
def tenthUnits : Nat := 7200000

/-- The outcome of a loaded check and the estimate it leaves (Table 11.7, R484). -/
def gaugeOutcome (mv : Nat) (p : PorSt) : PorSt :=
  let table : Gauge :=
    if mv < 2200 then .empty else if mv < 2400 then .low else if p.est * tenthUnits ≤ p.tally.toNat then .disagree else .good
  match p.override with
  | some o =>
    if mv < 2500 then
      let r : Gauge := if o == .empty || decide (mv < 2200) then .empty else .low
      { p with gauge := r, ovr := some r }
    else
      { p with
        gauge := table, ovr := none, est := if table == .disagree then max p.est (min (20 * p.nom.toNat) (p.est + p.nom.toNat)) else p.est }
  | none =>
    { p with
      gauge := table, ovr := if table == .empty || table == .low then some table else if 2500 ≤ mv then none else p.ovr
      est := if table == .disagree then max p.est (min (20 * p.nom.toNat) (p.est + p.nom.toNat)) else p.est }

/-- A loaded check that reads `mv` (R482, R483, R485): its load draws 2 µC. -/
def gaugeCheck (mv : Nat) (s : State) : State :=
  settlePor (s.onPor fun p =>
    let p := gaugeOutcome mv { addCharge 40 p with mv := satOf 12 mv, lastChk := p.ticks }
    { p with outcomes := p.outcomes ++ [(p.gauge, p.ticks / 100, mv)] })

def execGaugeCheck (mv : Nat) (s : State) : Host.Outcome State Fault Refusal := .next (if s.por.running then gaugeCheck mv s else s)

def gaugeNum (g : Gauge) : Nat := match g with | .good => 0 | .disagree => 1 | .low => 2 | .empty => 3
def gaugeS (g : Gauge) : String := match g with | .good => "GOOD" | .disagree => "GAUGE_DISAGREE" | .low => "LOW" | .empty => "EMPTY"

/-- Outcomes kept since the last entry to HUSH are logged, and the latest is told (R485, R533). -/
def reportGauge (s : State) : State :=
  let l := s.por.outcomes
  let s := s.forEach l fun o s =>
    pushLog { lseq := 0, era := s.ldg.era, src := 1, rtc := true, late := false, tally := BitVec.ofNat 64 o.2.1, code := 0x0201, evseq := 0,
              arg := BitVec.ofNat 64 (gaugeNum o.1), arg2 := BitVec.ofNat 16 o.2.2 } s
  match l.getLast? with
  | some o => (notify "por" (spaced ["gauge", kv "state" (gaugeS o.1), kn "v" o.2.2]) s).onPor fun p => { p with outcomes := [] }
  | none => s

/-- A new cell: the tally is 0 and the estimate nominal (R486). -/
def newCell (p : PorSt) : PorSt := { p with tally := 0, est := 10 * p.nom.toNat }

/-- CELL_REMOVED (R486): VBAT has been below 1.0 V for 1 s while VAON is present. -/
def execCellRemoved (s : State) : Host.Outcome State Fault Refusal :=
  .next (if s.por.running && s.pwr.vaon then s.onPor fun p => { p with removed := true, vbatOk := false } else s)

/-- CELL_RETURN (R486). -/
def execCellReturn (s : State) : Host.Outcome State Fault Refusal :=
  let t := s.onPor fun p => { p with vbatOk := true }
  .next (if s.por.running && s.por.removed then notify "por" "gauge state=new" (t.onPor fun p => { newCell p with removed := false }) else t)

/-- `por.gauge check` (R482): the voltage it reads is free (log entry 5). -/
def porGaugeCheckV : Verb := { obj := "por", name := "gauge", level := .keeper, keys := [kWord "check"] }
def porGaugeCheckBody (_c : Ctx) (_p : Pfx) (_e : Env) (s : State) : Res :=
  let (w, s) := s.draw
  .ok [] (gaugeCheck (fld w 0 12) s)
def execPorGaugeCheck (c : Ctx) (p : Pfx) (a : Args) (s : State) : Host.Outcome State Fault Refusal := ulc porGaugeCheckV porGaugeCheckBody c p a s

/-- `por.gauge new` (R486). -/
def porGaugeNewV : Verb := { obj := "por", name := "gauge", level := .keeper, keys := [kWord "new"] }
def porGaugeNewBody (_c : Ctx) (_p : Pfx) (_e : Env) (s : State) : Res := .ok [] (s.onPor newCell)
def execPorGaugeNew (c : Ctx) (p : Pfx) (a : Args) (s : State) : Host.Outcome State Fault Refusal := ulc porGaugeNewV porGaugeNewBody c p a s

/-- `por.gauge used=` (R487). -/
def porGaugeUsedV : Verb := { obj := "por", name := "gauge", level := .owner, keys := [{ name := "used", ty := .dec "mAh" 10 0 152000, req := true }] }
def porGaugeUsedBody (_c : Ctx) (_p : Pfx) (e : Env) (s : State) : Res := .ok [] (s.onPor fun p => { p with tally := satOf 40 (e.nat "used" * tenthUnits) })
def execPorGaugeUsed (c : Ctx) (p : Pfx) (a : Args) (s : State) : Host.Outcome State Fault Refusal := ulc porGaugeUsedV porGaugeUsedBody c p a s

/-! ### WAKE_OUT (R488 to R490) -/

def releaseWake (s : State) : State := s.onPor fun p => { p with wakeOut := false, hold := false, wakeWord := false }
def holdWake (s : State) : State := s.onPor fun p => { p with wakeOut := true, hold := true }

/-- `por.wake release` and `por.wake hold`. -/
def porWakeReleaseV : Verb := { obj := "por", name := "wake", level := .keeper, keys := [kWord "release"] }
def porWakeReleaseBody (_c : Ctx) (_p : Pfx) (_e : Env) (s : State) : Res := .ok [] (releaseWake s)
def execPorWakeRelease (c : Ctx) (p : Pfx) (a : Args) (s : State) : Host.Outcome State Fault Refusal := ulc porWakeReleaseV porWakeReleaseBody c p a s
def porWakeHoldV : Verb := { obj := "por", name := "wake", level := .keeper, keys := [kWord "hold"] }
def porWakeHoldBody (_c : Ctx) (_p : Pfx) (_e : Env) (s : State) : Res := .ok [] (holdWake s)
def execPorWakeHold (c : Ctx) (p : Pfx) (a : Args) (s : State) : Host.Outcome State Fault Refusal := ulc porWakeHoldV porWakeHoldBody c p a s

/-- WAKE_IN_ASSERT (R488): WAKE_IN has been at its active level for 10 ms. -/
def execWakeInAssert (s : State) : Host.Outcome State Fault Refusal :=
  .next (if s.por.running && inVault s then assertWake false s else s)

/-- The newest entry of the VAULT log marked WAKEFAIL. -/
def failWord (p : PorSt) : PorSt :=
  if p.wakeWord then { p with vlog := lmod p.vlog (p.vlog.length - 1) fun w => { w with fail := true } } else p

/-- WAKE_TIMEOUT (R489). -/
def execWakeTimeout (s : State) : Host.Outcome State Fault Refusal :=
  .next (if s.por.running && s.por.wakeOut && !s.pwr.vaon && !s.por.hold then releaseWake (s.onPor failWord) else s)

/-! ### Registers (R494 to R497) -/

def pmodeNum (m : PMode) : Nat := match m with | .off => 0 | .doze => 1 | .listen => 2 | .enrol => 3
def pmodeS (m : PMode) : String := match m with | .off => "OFF" | .doze => "DOZE" | .listen => "LISTEN" | .enrol => "ENROL"

/-- A read in the POR block. -/
def porRead (off : Nat) (s : State) : W32 × State :=
  let p := s.por
  let x := tgetD p.slots p.slotsel.toNat {}
  match off with
  | 0x00 => (put 17 p.refract.toNat + put 16 (b2n p.winpol) + put 10 (b2n p.bias) + put 7 p.gain.toNat + put 2 (b2n p.cancel) +
             put 0 (pmodeNum p.mode), s)
  | 0x04 => (put 9 (b2n p.cold) + put 8 (b2n p.wakeOut) + put 7 (b2n p.pend.isSome) + put 5 (gaugeNum p.gauge) + put 4 (b2n p.digital) +
             put 3 (b2n p.onVbat) + put 0 (pmodeNum (effMode s)), s)
  | 0x08 => (put 0 p.slotsel.toNat, s)
  | 0x0C => (put 8 x.thr.toNat + put 4 x.n + put 3 (b2n x.crcbad) + put 2 (b2n x.factory) + put 1 (b2n x.wake) + put 0 (b2n x.en), s)
  | 0x10 => (p.tally.extractLsb' 0 32, s)
  | 0x14 => (put 0 (p.tally.toNat / 2 ^ 32), s)
  | 0x18 => (put 16 (p.est / 10) + put 0 p.nom.toNat, s)
  | 0x1C => (put 12 (min 0xFFF ((p.ticks - p.lastChk) / 360000)) + put 0 p.mv.toNat, s)
  | 0x20 => (put 16 p.cWords.toNat + put 8 p.cVault.toNat + put 0 p.cDisc.toNat, s.onPor fun p => { p with cWords := 0, cVault := 0, cDisc := 0 })
  | 0x24 => (put 24 (b2n p.frozen) + put 16 p.mu.toNat + put 8 p.delay.toNat + put 0 p.erle.toNat, s)
  | 0x28 => (p.refDst, s)
  | 0x2C => (put 0 s.rtc, s)
  | 0x30 => (put 9 (b2n p.hold) + put 0 p.tmo.toNat, s)
  | _ => (0, s)

/-- A write in the POR block. -/
def porWrite (off : Nat) (v : W32) (s : State) : State :=
  match off with
  | 0x00 => settlePor (s.onPor fun p => { p with
      refract := if fld v 17 5 ≤ 0x12 then BitVec.ofNat 5 (fld v 17 5) else p.refract, winpol := v.getLsbD 16, bias := v.getLsbD 10
      gain := if fld v 7 3 ≤ 4 then BitVec.ofNat 3 (fld v 7 3) else p.gain, cancel := v.getLsbD 2
      mode := match fld v 0 2 with | 0 => .off | 1 => .doze | 2 => .listen | _ => p.mode })
  | 0x04 => if v.getLsbD 9 then s.onPor fun p => { p with cold := false } else s
  | 0x08 => s.onPor fun p => { p with slotsel := BitVec.ofNat 5 (fld v 0 5) }
  | 0x0C => s.onPor fun p => { p with
      slots := tmod p.slots p.slotsel.toNat {} fun x => { x with
        thr := if 128 ≤ fld v 8 8 ∧ fld v 8 8 ≤ 253 then BitVec.ofNat 8 (fld v 8 8) else x.thr, wake := v.getLsbD 1
        en := v.getLsbD 0 && decide (0 < x.n) } }
  | 0x18 => if fld v 0 16 = 0 then s else s.onPor (setCell (fld v 0 16))
  | 0x24 => s.onPor fun p => { p with mu := BitVec.ofNat 8 (fld v 16 8), delay := BitVec.ofNat 8 (fld v 8 8) }
  | 0x28 => s.onPor fun p => { p with refDst := v }
  | 0x30 =>
    let s := if fld v 0 8 = 0 then s else s.onPor fun p => { p with tmo := BitVec.ofNat 8 (fld v 0 8) }
    if v.getLsbD 9 then holdWake s else if s.por.hold then releaseWake s else s
  | _ => s

/-- `por.show`. -/
def porShowV : Verb := { obj := "por", name := "show", changes := false }
def porShowBody (_c : Ctx) (_p : Pfx) (_e : Env) (s : State) : Res :=
  let p := s.por
  let pick (f : Slot → Bool) : String := rangesS "" ((p.slots.filter fun e => f e.2).map (·.1))
  .ok [spaced [kv "mode" (pmodeS p.mode), kv "eff" (pmodeS (effMode s)), kv "path" (if p.digital then "DIGITAL" else "ANALOGUE"),
         kv "supply" (if p.onVbat then "VBAT" else "VAON"), kn "erle" p.erle.toNat, kv "gauge" (gaugeS p.gauge), kn "v" p.mv.toNat,
         kv "used" (decS 1 (p.tally.toNat / tenthUnits) ++ "mAh"), kv "est" (decS 1 p.est ++ "mAh")],
       spaced [kv "slots" (pick fun x => x.en), kv "wake" (pick fun x => x.wake), kv "crcbad" (pick fun x => x.crcbad),
         kv "pend" (match p.pend with | some k => natS k | none => "none"), kv "rtc" (hexS 8 s.rtc)]] s
def execPorShow (c : Ctx) (p : Pfx) (a : Args) (s : State) : Host.Outcome State Fault Refusal := ulc porShowV porShowBody c p a s

/-- The verbs of this file. -/
def porterVerbs : List (Verb × (Ctx → Pfx → Env → State → Res)) :=
  [(porSetV, porSetBody), (porEnrolV, porEnrolBody), (porEnrolDoneV, porEnrolDoneBody), (porEnrolAbortV, porEnrolAbortBody),
   (porEnrolWakeV, porEnrolWakeBody), (porSlotV, porSlotBody), (porSlotClearV, porSlotClearBody), (porGaugeCheckV, porGaugeCheckBody),
   (porGaugeNewV, porGaugeNewBody), (porGaugeUsedV, porGaugeUsedBody), (porWakeReleaseV, porWakeReleaseBody), (porWakeHoldV, porWakeHoldBody),
   (porShowV, porShowBody)]

end Sys2Proof.Machine
end

