-- ==== Sys2Proof/Machine/Hearth.lean ====
section
/-! DEFINITION. The Hearth (spec 13): the 50 µs loop, the states of a channel, READY, tokens and the budget, faults, supply sag, the
hth commands and the HTH registers. -/

namespace Sys2Proof.Machine

/-! ### Names and codes -/

def hmodeNum (m : HMode) : Nat := match m with | .off => 0 | .linear => 1 | .switched => 2 | .lamp => 3
def hmodeS (m : HMode) : String := match m with | .off => "OFF" | .linear => "HEATER-LINEAR" | .switched => "HEATER-SWITCHED" | .lamp => "LAMP"
def hmodeOf (n : Nat) : HMode := match n with | 1 => .linear | 2 => .switched | 3 => .lamp | _ => .off

def hstateNum (x : HState) : Nat :=
  match x with | .off => 0 | .wait => 1 | .probe => 2 | .ramp => 3 | .hold => 4 | .park => 5 | .backoff => 6 | .run => 7 | .fault => 8
def hstateS (x : HState) : String :=
  match x with
  | .off => "OFF" | .wait => "WAIT" | .probe => "PROBE" | .ramp => "RAMP" | .hold => "HOLD" | .park => "PARK" | .backoff => "BACKOFF"
  | .run => "RUN" | .fault => "FAULT"

def hfaultNum (x : HFault) : Nat :=
  match x with | .none => 0 | .short => 1 | .overcur => 2 | .open_ => 3 | .fetpower => 4 | .rampfail => 5 | .budget => 6 | .sense => 7 | .supply => 8
def hfaultS (x : HFault) : String :=
  match x with
  | .none => "none" | .short => "SHORT" | .overcur => "OVERCUR" | .open_ => "OPEN" | .fetpower => "FETPOWER" | .rampfail => "RAMPFAIL"
  | .budget => "BUDGET" | .sense => "SENSE" | .supply => "SUPPLY"

/-- The gate of these states is driven (Table 13.3). -/
def HState.driven (x : HState) : Bool := match x with | .probe | .ramp | .hold | .run => true | _ => false
/-- A channel may be READY in these states (R554). -/
def HState.mayReady (x : HState) : Bool := match x with | .ramp | .hold | .run => true | _ => false
/-- A token is held in these states (R557, R558). -/
def HState.hasToken (x : HState) : Bool := match x with | .probe | .ramp | .hold | .park => true | _ => false

def Chan.idle (c : Chan) : Bool := c.state == .off || c.state == .fault
/-- Whether every channel is in OFF (R575). -/
def allChansOff (s : State) : Bool := s.hth.chans.all fun c => c.state == .off

/-! ### READY, states and faults -/

/-- A READY change given to the event queue with the next Hearth sequence (R556); with no tally it takes effect at once. -/
def postReady (ch : Nat) (on cut : Bool) (s : State) : State :=
  if s.on 3 then
    let q := s.evq.hearthSeq
    postInner .hearth q cut (.ready ch on) (s.onEvq fun e => { e with hearthSeq := q + 1 })
  else s.onWeave fun w => { w with plans := w.plans.map fun p => if p.hearth = some ch then { p with hmuted := !on } else p }

/-- A channel becomes, or ceases to be, READY (R554 to R556). -/
def setReady (ch : Nat) (on cut : Bool) (s : State) : State :=
  if (s.chan ch).ready = on then s
  else postReady ch on cut (notify "hth" ("ready " ++ kn "ch" ch ++ " " ++ kv "state" (onoff on)) (s.onChan ch fun c => { c with ready := on }))

/-- A channel enters a state: its gate, its token and its READY follow (R553, R554, R558), and WAIT asks for a token (R557). -/
def toState (ch : Nat) (st : HState) (cut : Bool) (s : State) : State :=
  if (s.chan ch).state = st then s
  else
    let s := if st.mayReady then s else setReady ch false cut s
    s.onChan ch fun c => { c with
      state := st, gate := st.driven, duty := if st.driven then c.duty else 0, drive := if st.driven then c.drive else 0
      token := c.token && st.hasToken, asked := if st == .wait then s.hth.period else 0 }

/-- A fault latched (R560): the gate low, the token returned, FAULT with its code, the notice and the log entry. -/
def latch (ch : Nat) (f : HFault) (final cut : Bool) (s : State) : State :=
  if (s.chan ch).idle then s
  else
    let s := (toState ch .fault cut s).onChan ch fun c => { c with fault := f }
    let s := notify "hth" ("fault " ++ kn "ch" ch ++ " " ++ kv "code" (hfaultS f) ++ (if final then " final=1" else "")) s
    logEv 4 0x0101 0 ch (hfaultNum f) s

/-- An abort: the channel enters BACKOFF and counts a retry; the abort that ends the third retry latches RAMPFAIL (R565). -/
def abortChan (ch : Nat) (cut : Bool) (s : State) : State :=
  if 3 ≤ (s.chan ch).retries.toNat then latch ch .rampfail false cut s
  else (toState ch .backoff cut s).onChan ch fun c => { c with retries := c.retries + 1 }

/-- A mode selected (R549, R553): mode OFF takes the channel to OFF at the next loop period (corner of chapter 13); any other mode
takes it through OFF to WAIT, afresh. Only `hth.clear` and an auto-retry leave FAULT. -/
def setMode (ch : Nat) (m : HMode) (cut : Bool) (s : State) : State :=
  if (s.chan ch).mode = m then s
  else
    let s := s.onChan ch fun c => { c with mode := m, retries := 0, autos := 0 }
    if (s.chan ch).state = .fault ∨ m = .off then s else toState ch .wait cut (toState ch .off cut s)

/-- A channel returned from FAULT (R562). -/
def clearChan (ch : Nat) (s : State) : State :=
  if (s.chan ch).state = .fault then
    toState ch (if (s.chan ch).mode == .off then .off else .wait) false (s.onChan ch fun c => { c with retries := 0, autos := 0, fault := .none })
  else s

/-! ### The loop -/

/-- The nearest integer to a quotient; 0 for a divisor of 0. -/
def nearDiv (a b : Nat) : Nat := (2 * a + b) / (2 * b)

/-- The nearest integer `T` to `tamb · (r / rc)^(5/6)`, bit by bit: the largest `T` with `(2T − 1)^6 · rc^5 ≤ (2·tamb)^6 · r^5`
(R551). -/
def tempBits (k acc tamb r rc : Nat) : Nat :=
  match k with
  | 0 => acc
  | j + 1 =>
    let t := acc + 2 ^ j
    tempBits j (if (2 * t - 1) ^ 6 * rc ^ 5 ≤ (2 * tamb) ^ 6 * r ^ 5 then t else acc) tamb r rc

/-- The filament temperature in kelvin (R551). -/
def filamentTemp (tamb r rc : Nat) : Nat := if rc = 0 then 0 else tempBits 16 0 tamb r rc

/-- V_SUP in mV: the pin's voltage in µV times RATIO, which is in 1/256 units (R542). -/
def supplyMv (sns : Nat) (ratio : BitVec 16) : Nat := nearDiv (sns * ratio.toNat) 256000

/-- V_D in mV: HV[n] in µV times DIV, which is in 1/256 units (R542). -/
def Chan.drainMv (c : Chan) (hv : Nat) : Nat := nearDiv (hv * c.div.toNat) 256000

/-- V_L = V_SUP − V_D, in mV (R542). -/
def Chan.loadMv (c : Chan) (vsup hv : Nat) : Int := (vsup : Int) - c.drainMv hv

/-- V_SH = HSP[n] − HSN[n], in µV; a negative one counts as 0. -/
def shuntUv (hsp hsn : Int) : Nat := (hsp - hsn).toNat

/-- I = V_SH / R_SH, in mA, SHUNT being in 10 µΩ units (R542); 0 while no shunt is set (R544). -/
def Chan.loadMa (c : Chan) (hsp hsn : Int) : Nat := if c.shunt = 0 then 0 else nearDiv (100 * shuntUv hsp hsn) c.shunt.toNat

/-- The FET's dissipation (V_D − V_SH) × I, in mW (Table 13.4). -/
def Chan.fetMw (c : Chan) (m : HMeas) : Nat := (1000 * c.drainMv m.hv - shuntUv m.hsp m.hsn) * c.loadMa m.hsp m.hsn / 1000000

/-- The estimates after one period's measurement: R is taken while I is at least 2 % of ILIM and held otherwise (R551). -/
def Chan.measured (vl i : Nat) (c : Chan) : Chan :=
  let r : Nat := if 0 < i ∧ c.ilim.toNat ≤ 50 * i then min 65535 (nearDiv (100 * vl) i) else c.rest.toNat
  { c with v := satOf 16 vl, i := satOf 16 i, rest := BitVec.ofNat 16 r, temp := satOf 16 (filamentTemp c.tamb r c.rcold) }

/-- The first fault of Table 13.4 that the loop finds. `m` says for how long each condition has held. -/
def loopFault (vsup : Nat) (m : HMeas) (c : Chan) : Option HFault :=
  let i := c.loadMa m.hsp m.hsn
  let vl := c.loadMv vsup m.hv
  if m.over1ms && decide (5 * c.ilim.toNat < 4 * i) then some .overcur
  else if m.open20 && c.state.driven && decide (50 * i < c.ilim.toNat) && decide (1000 < vl) then some .open_
  else if m.fet100 && c.mode == .linear && decide (100 * c.pdmax.toNat < c.fetMw m) then some .fetpower
  else if m.adc1ms || decide (vl < -500) then some .sense
  else none

/-- How far the present target moves in one 50 µs period (Table 13.3, R548): over RAMP for the whole target. -/
def rampStep (target present ramp : Nat) : Nat := max 1 (max (target * 1000000) present / (2000 * max 1 ramp))

/-- The present target after one period (Table 13.3 RAMP, R548 RUN), in 10^-6 register units. -/
def Chan.stepped (c : Chan) : Chan :=
  let t := c.target.toNat * 1000000
  let d := rampStep c.target.toNat (if c.state = .run then c.present else 0) c.ramp.toNat
  match c.state with
  | .ramp => { c with present := min t (c.present + d) }
  | .run => { c with present := if c.present < t then min t (c.present + d) else max t (c.present - d) }
  | _ => c

/-- Steps of the 48 MHz PWM counter in one period of FPWM (Table 13.2). -/
def Chan.pwmSteps (c : Chan) : Nat := 48000 / max 1 c.fpwm.toNat

/-- The largest on-time, in steps of `n`, at which a quantity that reads `on` while the gate is driven averages at most `want`. -/
def meanSteps (n on want : Nat) : Nat := if on = 0 then n else min n (want * n / on)

/-- What the loop regulates to in the next period, and the current it clamps at (R550, Table 13.3): PROBE drives 5 % of ILIM, HOLD
the held current, RAMP and RUN the present target. True where the aim is a current. -/
def Chan.aimOf (c : Chan) : Bool × Nat × Nat :=
  let ilim := c.ilim.toNat
  match c.state with
  | .probe => (true, ilim / 20, ilim / 20)
  | .hold => (true, min c.heldI ilim, ilim)
  | _ => (c.reg, if c.reg then min (c.present / 1000000) ilim else c.present / 1000000, ilim)

/-- The gate for the next period (R550, R566): in the PWM modes the duty at which RMS V_L, or the mean I, is the aim and the mean current
is at most the clamp (Table 13.2; log entry 67); in HEATER-LINEAR an analogue drive. -/
def Chan.driveGate (c : Chan) : Chan :=
  if c.state.driven then
    let (curr, aim, lim) := c.aimOf
    let n := c.pwmSteps
    let c := { c with gate := true, aim := aim, clamp := lim }
    if c.mode == .linear then { c with duty := 0, drive := Config.gateDrive aim lim c.v.toNat c.i.toNat }
    else
      let d := if curr then meanSteps n c.i.toNat aim else meanSteps n (c.v.toNat * c.v.toNat) (aim * aim)
      { c with duty := min d (meanSteps n c.i.toNat lim), drive := 0 }
  else { c with gate := false, aim := 0, clamp := 0, duty := 0, drive := 0 }

/-- READY and RHOTAUTO of one channel after its measurement (R554, R555). -/
def readyStep (ch : Nat) (m : HMeas) (cut : Bool) (s : State) : State :=
  let c := s.chan ch
  if !c.state.mayReady then s
  else if c.state == .run && c.rhotauto && !c.autoDone && m.steady2s then
    setReady ch true cut (s.onChan ch fun c => { c with rhot := c.rest, autoDone := true })
  else if c.rhot = 0 then s
  else if !c.ready then if 90 * c.rhot.toNat ≤ 100 * c.rest.toNat then setReady ch true cut s else s
  else if m.cold10 && decide (100 * c.rest.toNat < 85 * c.rhot.toNat) then setReady ch false cut s
  else s

/-- One channel's part of a loop period (R550 to R555, R560). -/
def loopChan (ch : Nat) (m : HMeas) (cut : Bool) (s : State) : State :=
  let vsup := s.hth.vsup.toNat
  let s := s.onChan ch fun c => c.measured (c.loadMv vsup m.hv).toNat (c.loadMa m.hsp m.hsn)
  let c := s.chan ch
  if c.idle then s
  else if c.mode = .off then toState ch .off cut s
  else match loopFault vsup m c with
    | some f => latch ch f false cut s
    | none =>
      let s := s.onChan ch Chan.stepped
      let c := s.chan ch
      let s := if c.state == .ramp && decide (c.present = c.target.toNat * 1000000) && m.below10 && decide (c.i.toNat < c.ilim.toNat) then
          toState ch .run cut s else s
      readyStep ch m cut s

/-- What the channels draw and may come to draw, in mA (R557). -/
def budgetUsed (s : State) : Nat :=
  (s.hth.chans.map fun c => if c.state.hasToken then c.ilim.toNat else if c.state = .run then c.i.toNat else 0).sum

def tokensHeld (s : State) : Nat := s.hth.chans.countP (·.token)

/-- The waiting channel that is served next: the earliest request, and of one period the lowest channel (R557). -/
def nextWaiting (s : State) : Option Nat :=
  ((List.range 8).filter fun n => (s.chan n).state == .wait && (s.chan n).mode != .off).foldl
    (fun b n => match b with | none => some n | some k => if (s.chan n).asked < (s.chan k).asked then some n else some k) none

/-- Tokens granted in order of request, while R557 allows (R557, R558); none while HEARTH_SUP is low (R561). -/
def grantTokens (fuel : Nat) (s : State) : State :=
  match fuel with
  | 0 => s
  | f + 1 =>
    match nextWaiting s with
    | none => s
    | some n =>
      if s.hth.sag || s.hth.suplow || decide (s.hth.tokens.toNat ≤ tokensHeld s) ||
          decide (s.hth.imax.toNat < budgetUsed s + (s.chan n).ilim.toNat) then s
      else grantTokens f ((toState n .probe false s).onChan n fun c => { c with token := true })

/-- HEARTH_SUP below 4.5 V, and its return (R561). -/
def supplyLow (vsup : Nat) (sup10 cut : Bool) (s : State) : State :=
  if vsup < 4500 then
    if s.hth.suplow then s
    else (s.onHth fun h => { h with suplow := true }).forEach (List.range 8) fun n s =>
      if (s.chan n).state.hasToken then abortChan n cut s
      else if (s.chan n).state = .run then toState n .wait cut s else s
  else if s.hth.suplow && sup10 && decide (4800 < vsup) then s.onHth fun h => { h with suplow := false }
  else s

/-- The sag of HEARTH_SUP and its end (R563 to R565): ramping channels hold; held and parked channels ramp on. -/
def supplySag (suprec cut : Bool) (s : State) : State :=
  let v := s.hth.vsup.toNat
  let r := s.hth.vref.toNat
  if !s.hth.sag && decide (100 * v < 92 * r) then
    (s.onHth fun h => { h with sag := true }).forEach (List.range 8) fun n s =>
      if (s.chan n).state = .ramp then (toState n .hold cut s).onChan n fun c => { c with heldI := c.i.toNat } else s
  else if s.hth.sag && suprec && decide (95 * r ≤ 100 * v) then
    (s.onHth fun h => { h with sag := false }).forEach (List.range 8) fun n s =>
      if (s.chan n).state = .hold ∨ (s.chan n).state = .park then toState n .ramp cut s else s
  else s

/-- Every gate set for the next period. -/
def driveGates (s : State) : State := s.onHth fun h => { h with chans := h.chans.map Chan.driveGate }

/-- One period of the loop (R543, R550 to R569). `sns` is the voltage of HEARTH_SUP_SNS in µV and `snsMean` its mean over the last
100 ms, used unless VREF is frozen; `suprec` says that V_SUP has been at or above 0.95 × VREF for 100 µs, `sup10` that it has been above 4.8 V for 10 ms. -/
def loopPeriod (ms : List HMeas) (sns snsMean : Nat) (suprec sup10 vglow cut : Bool) (s : State) : State :=
  let vsup := supplyMv sns s.hth.ratio
  let s := s.onHth fun h => { h with
    vsup := satOf 16 vsup, vref := if h.frozen = 0 then satOf 16 (supplyMv snsMean h.ratio) else h.vref, frozen := h.frozen - 1
    suphigh := decide (17000 < vsup), vglow := vglow }
  let s := ((List.range 8).zip ms).foldl (fun s e => loopChan e.1 e.2 cut s) s
  let s := grantTokens 8 (supplySag suprec cut (supplyLow vsup sup10 cut s))
  driveGates (s.onHth fun h => { h with period := h.period + 1 })

/-- CONTROL_LOOP_PERIOD. -/
def execControlLoopPeriod (ms : List HMeas) (sns snsMean : Nat) (suprec sup10 vglow cut : Bool) (s : State) : Host.Outcome State Fault Refusal :=
  .next (if s.on 4 && s.clk.stat.getLsbD 10 then loopPeriod ms sns snsMean suprec sup10 vglow cut s else s)

/-- PROBE_END (Table 13.3, R551): R_cold and the die temperature are recorded and the ramp starts from 0. -/
def execProbeEnd (ch hv : Nat) (h : HShunt) (tamb : Nat) (s : State) : Host.Outcome State Fault Refusal :=
  .next (if s.on 4 && (s.chan ch).state == .probe then
      (toState ch .ramp false s).onChan ch fun c =>
        let c := c.measured (c.loadMv s.hth.vsup.toNat hv).toNat (c.loadMa h.hsp h.hsn)
        let c := { c with rcold := c.rest.toNat, tamb := tamb, present := 0 }
        { c with temp := satOf 16 (filamentTemp tamb c.rest.toNat c.rcold) }
    else s)

/-- SHORT_TRIP (R560, R563, R568, R569): the first trip freezes VREF at the mean of the 1 ms before it, for 20 ms. -/
def execShortTrip (ch snsMean : Nat) (cut : Bool) (s : State) : Host.Outcome State Fault Refusal :=
  .next (if s.on 4 && !(s.chan ch).idle then
      let s := if s.hth.frozen = 0 then s.onHth fun h => { h with vref := satOf 16 (supplyMv snsMean h.ratio), frozen := 400 } else s
      let s := s.onChan ch fun c => { c with shorts := satInc c.shorts }
      latch ch .short ((s.chan ch).autoretry && decide (5 ≤ (s.chan ch).autos)) cut s
    else s)

/-- AUTO_RETRY (R569). -/
def execAutoRetry (ch : Nat) (s : State) : Host.Outcome State Fault Refusal :=
  .next (let c := s.chan ch
    if s.on 4 && c.state == .fault && c.fault == .short && c.autoretry && decide (c.autos < 5) then
      toState ch (if c.mode == .off then .off else .wait) false (s.onChan ch fun c => { c with autos := c.autos + 1, fault := .none })
    else s)

/-- HOLD_TIMEOUT (R564). -/
def execHoldTimeout (s : State) : Host.Outcome State Fault Refusal :=
  .next (if s.hth.sag then
      s.forEach (List.range 8) fun n s => if (s.chan n).state = .hold then toState n .park false s else s
    else s)

/-- PARK_TIMEOUT (R565). -/
def execParkTimeout (cut : Bool) (s : State) : Host.Outcome State Fault Refusal :=
  .next (if s.hth.sag then s.forEach (List.range 8) fun n s => if (s.chan n).state = .park then abortChan n cut s else s else s)

/-- BACKOFF_END (Table 13.3). -/
def execBackoffEnd (ch : Nat) (s : State) : Host.Outcome State Fault Refusal :=
  .next (if (s.chan ch).state = .backoff then toState ch .wait false s else s)

/-- The channel a budget excess takes: LAMP before the heaters, and of each the highest number (R559). -/
def budgetVictim (s : State) : Option Nat :=
  let l := ((List.range 8).filter fun n => (s.chan n).state.driven).reverse
  match l.find? fun n => (s.chan n).mode == .lamp with
  | some n => some n
  | none => l.head?

/-- BUDGET_EXCESS (R559): the total current has exceeded HTH_IMAX for 5 ms. -/
def execBudgetExcess (cut : Bool) (s : State) : Host.Outcome State Fault Refusal :=
  .next (if s.on 4 && decide (s.hth.imax.toNat < (s.hth.chans.map fun c => c.i.toNat).sum) then
      match budgetVictim s with
      | some n => latch n .budget false cut s
      | none => s
    else s)

/-- GATE_WATCHDOG (R552): every driver forces its gate low until the loop updates it again. -/
def execGateWatchdog (s : State) : Host.Outcome State Fault Refusal :=
  .next (s.onHth fun h => { h with chans := h.chans.map fun c => { c with gate := false, duty := 0, drive := 0 } })

/-- HEARTH_SUPPLY_FAULT (Table 13.4): HEARTH_VG below 4.5 V, or HEARTH_SUP above 17 V, for 10 µs. -/
def execHearthSupplyFault (vg cut : Bool) (s : State) : Host.Outcome State Fault Refusal :=
  .next (if s.on 4 then
      (s.onHth fun h => if vg then { h with vglow := true } else { h with suphigh := true }).forEach (List.range 8)
        fun n s => latch n .supply false cut s
    else s)

/-- Every channel to OFF with its gate low, its counts and fault cleared (R571, R591). -/
def hearthOff (s : State) : State :=
  (s.forEach (List.range 8) fun n s => toState n .off false s).onHth fun h => { h with
    chans := h.chans.map fun c => { c with
      mode := .off, fault := .none, retries := 0, autos := 0, present := 0, heldI := 0, gate := false, aim := 0, clamp := 0, duty := 0, drive := 0 }
    sag := false, suplow := false, suphigh := false, vglow := false, frozen := 0 }

/-- PD4 powers on (R571): RHOT keeps only what firmware wrote; what is measured starts anew. -/
def hearthOn (s : State) : State :=
  (hearthOff s).onHth fun h => { h with
    vref := 0, vsup := 0, period := 1
    chans := h.chans.map fun c => { c with
      rhot := c.fwRhot, autoDone := false, v := 0, i := 0, temp := 0, rest := 0, shorts := 0, rcold := 0, tamb := 0 } }

/-! ### Registers -/

/-- A word with bit n for each channel that `f` holds of. -/
def chanBits (f : Chan → Bool) (h : HthSt) : Nat := ((List.range 8).map fun n => b2n (f (h.chans.getD n {})) * 2 ^ n).sum

/-- HTH_CHn_STAT.RETRIES: both kinds of retry, saturating (log entry 17). -/
def Chan.retriesShown (c : Chan) : Nat := min 7 (c.retries.toNat + c.autos)

/-- A read in the HTH block (R573, R574). -/
def hthRead (off : Nat) (s : State) : W32 × State :=
  let h := s.hth
  if 0x100 ≤ off ∧ off < 0x200 then
    let n := (off - 0x100) / 0x20
    let c := s.chan n
    match (off - 0x100) % 0x20 with
    | 0x00 => (put 16 c.ramp.toNat + put 8 c.fpwm.toNat + put 5 (b2n c.rhotauto) + put 4 (b2n c.autoretry) + put 3 (b2n c.reg) +
        put 0 (hmodeNum c.mode), s)
    | 0x04 => (put 0 c.target.toNat, s)
    | 0x08 => (put 24 c.pdmax.toNat + put 16 c.itrip.toNat + put 0 c.ilim.toNat, s)
    | 0x0C => (put 16 c.div.toNat + put 0 c.shunt.toNat, s)
    | 0x10 => (put 0 c.rhot.toNat, s)
    | 0x14 => (put 16 c.v.toNat + put 0 c.i.toNat, s)
    | 0x18 => (put 16 c.temp.toNat + put 0 c.rest.toNat, s)
    | 0x1C => (put 24 c.shorts.toNat + put 16 c.retriesShown + put 14 (b2n c.token) + put 13 (b2n c.ready) + put 8 (hfaultNum c.fault) +
        put 0 (hstateNum c.state), s.onChan n fun c => { c with shorts := 0 })
    | _ => (0, s)
  else match off with
    | 0x00 => (put 0 h.tokens.toNat, s)
    | 0x04 => (put 27 (b2n h.suphigh) + put 26 (b2n h.vglow) + put 25 (b2n h.suplow) + put 24 (b2n h.sag) + put 16 (tokensHeld s) +
        put 8 (chanBits (fun c => c.state == .fault) h) + put 0 (chanBits (·.ready) h), s)
    | 0x08 => (put 0 h.imax.toNat, s)
    | 0x0C => (put 16 h.vref.toNat + put 0 h.vsup.toNat, s)
    | 0x10 => (put 0 h.ratio.toNat, s)
    | _ => (0, s)

/-- A write to MODE (R575, Table 13.7); RAMP stays as it is (R546). -/
def writeMode (ch m : Nat) (s : State) : State :=
  let c := s.chan ch
  if 4 ≤ m ∨ (m ≠ 0 ∧ (c.shunt = 0 ∨ c.ilim = 0)) then s else setMode ch (hmodeOf m) false s

/-- A write to HTH_CHn_CTL. -/
def writeChCtl (ch : Nat) (v : W32) (s : State) : State :=
  writeMode ch (fld v 0 3) (s.onChan ch fun c => { c with
    ramp := if fld v 16 8 = 0 then c.ramp else BitVec.ofNat 8 (fld v 16 8)
    fpwm := if 25 ≤ fld v 8 8 ∧ fld v 8 8 ≤ 200 then BitVec.ofNat 8 (fld v 8 8) else c.fpwm
    rhotauto := v.getLsbD 5, autoretry := v.getLsbD 4, reg := v.getLsbD 3 })

/-- A write in the HTH block (R573 to R575). -/
def hthWrite (off : Nat) (v : W32) (s : State) : State :=
  let w16 := BitVec.ofNat 16 (fld v 0 16)
  if 0x100 ≤ off ∧ off < 0x200 then
    let n := (off - 0x100) / 0x20
    match (off - 0x100) % 0x20 with
    | 0x00 => writeChCtl n v s
    | 0x04 => s.onChan n fun c => { c with target := w16 }
    | 0x08 => s.onChan n fun c => { c with
        pdmax := BitVec.ofNat 8 (fld v 24 8), itrip := if 20 ≤ fld v 16 8 ∧ fld v 16 8 ≤ 200 then BitVec.ofNat 8 (fld v 16 8) else c.itrip
        ilim := w16 }
    | 0x0C => if allChansOff s then s.onChan n fun c => { c with div := BitVec.ofNat 16 (fld v 16 16), shunt := w16 } else s
    | 0x10 => s.onChan n fun c => { c with rhot := w16, fwRhot := w16, autoDone := false }
    | 0x1C => if v.getLsbD 15 then clearChan n s else s
    | _ => s
  else match off with
    | 0x00 => if 1 ≤ fld v 0 4 ∧ fld v 0 4 ≤ 8 then s.onHth fun h => { h with tokens := BitVec.ofNat 4 (fld v 0 4) } else s
    | 0x08 => s.onHth fun h => { h with imax := w16 }
    | 0x10 => if allChansOff s then s.onHth fun h => { h with ratio := w16 } else s
    | _ => s

/-- HTH_STAT_CLEAR_WRITE (R562). -/
def execHthStatClearWrite (ch : Nat) (v : W32) (s : State) : Host.Outcome State Fault Refusal :=
  .next (if s.on 4 && decide (ch < 8) then hthWrite (0x11C + 0x20 * ch) v s else s)

/-- HTH_MODE_WRITE (R575). -/
def execHthModeWrite (ch : Nat) (v : W32) (s : State) : Host.Outcome State Fault Refusal :=
  .next (if s.on 4 && decide (ch < 8) then hthWrite (0x100 + 0x20 * ch) v s else s)

/-! ### Commands -/

def hmodeWords : List String := ["off", "heater-linear", "heater-switched", "lamp"]
def hmodeWord (w : String) : HMode := match w with | "heater-linear" => .linear | "heater-switched" => .switched | "lamp" => .lamp | _ => .off

/-- `hth.set` (R545 to R549, R573 to R575). -/
def hthSetV : Verb := {
  obj := "hth", name := "set", level := .keeper
  keys := [{ name := "imax", ty := .near "A" 1000 0 65535 }, kInt "tokens" 1 8, { name := "ratio", ty := .near "" 256 1 65535 },
           kInt "ch" 0 7, kEnum "mode" hmodeWords, kEnum "reg" ["volt", "curr"], { name := "v", ty := .near "V" 1000 0 65535 },
           { name := "i", ty := .near "A" 1000 0 65535 }, { name := "fpwm", ty := .int "Hz" 25000 200000 }, { name := "ramp", ty := .near "s" 10 1 255 },
           { name := "ilim", ty := .near "A" 1000 0 65535 }, { name := "itrip", ty := .near "A" 1000000 0 4000000000 },
           { name := "shunt", ty := .near "" 100000 1 65535 }, { name := "div", ty := .near "" 256 1 65535 },
           { name := "rhot", ty := .near "" 100 0 65535 }, { name := "pdmax", ty := .near "W" 10 0 255 }, kOnOff "rhotauto", kOnOff "autoretry"] }

def w8 (n : Option Nat) (old : BitVec 8) : BitVec 8 := match n with | some v => BitVec.ofNat 8 v | none => old
def w16 (n : Option Nat) (old : BitVec 16) : BitVec 16 := match n with | some v => BitVec.ofNat 16 v | none => old

/-- The channel as `hth.set` leaves it, but for its mode. -/
def chanWith (e : Env) (c : Chan) : Chan :=
  let shunt := w16 (e.nat? "shunt") c.shunt
  let ramp0 : Option Nat := match e.word? "mode" with
    | some "off" => none
    | some "lamp" => some 5
    | some _ => some 20
    | none => none
  { c with
    reg := if e.has "v" then false else if e.has "i" then true else match e.word? "reg" with | some w => w == "curr" | none => c.reg
    target := w16 (if e.has "v" then e.nat? "v" else e.nat? "i") c.target
    fpwm := w8 ((e.nat? "fpwm").map (· / 1000)) c.fpwm, ramp := w8 (if e.has "ramp" then e.nat? "ramp" else ramp0) c.ramp
    ilim := w16 (e.nat? "ilim") c.ilim, shunt := shunt, div := w16 (e.nat? "div") c.div
    itrip := w8 ((e.nat? "itrip").map fun i => nearDiv (i * shunt.toNat) 50000000) c.itrip
    rhot := w16 (e.nat? "rhot") c.rhot, fwRhot := w16 (e.nat? "rhot") c.fwRhot, autoDone := c.autoDone && !e.has "rhot"
    pdmax := w8 (e.nat? "pdmax") c.pdmax, rhotauto := (e.flag? "rhotauto").getD c.rhotauto, autoretry := (e.flag? "autoretry").getD c.autoretry }

/-- The key of `hth.set` whose value is bad for the channel as it would stand (Table 13.2, R544, R547, R575). -/
def hthBad (e : Env) (old c : Chan) (s : State) : Option String :=
  let m := match e.word? "mode" with | some w => hmodeWord w | none => old.mode
  let t := match e.nat? "itrip" with | some i => nearDiv (i * c.shunt.toNat) 50000000 | none => 20
  if e.has "v" && (e.has "i" || e.word? "reg" == some "curr") then some "v"
  else if e.has "i" && e.word? "reg" == some "volt" then some "i"
  else if e.nat "fpwm" % 1000 ≠ 0 then some "fpwm"
  else if t < 20 ∨ 200 < t then some "itrip"
  else if e.has "mode" && m != .off && c.shunt == 0 then some "shunt"
  else if e.has "mode" && m != .off && c.ilim == 0 then some "ilim"
  else if s.on 4 && (e.has "mode" || e.has "v") && m != .off && !c.reg &&
      (if m == .linear then decide (s.hth.vsup.toNat < c.target.toNat + 500) else decide (95 * s.hth.vsup.toNat < 100 * c.target.toNat)) then some "v"
  else none

def hthSetBody (c : Ctx) (_p : Pfx) (e : Env) (s : State) : Res :=
  let n := e.nat "ch"
  let old := s.chan n
  let new := chanWith e old
  match if e.has "ch" then hthBad e old new s else none with
  | some k => .err 13 k s
  | none =>
    let ratio := w16 (e.nat? "ratio") s.hth.ratio
    if s.on 4 = false then .err 40 "" s
    else if !allChansOff s && (ratio != s.hth.ratio || (e.has "ch" && (new.shunt != old.shunt || new.div != old.div))) then .err 30 "" s
    else
      let s := s.onHth fun h => { h with
        imax := w16 (e.nat? "imax") h.imax, ratio := ratio, tokens := match e.nat? "tokens" with | some t => BitVec.ofNat 4 t | none => h.tokens }
      let s := if e.has "ch" then s.onChan n (chanWith e) else s
      .ok [] (match e.word? "mode" with | some w => setMode n (hmodeWord w) c.cut s | none => s)
def execHthSet (c : Ctx) (p : Pfx) (a : Args) (s : State) : Host.Outcome State Fault Refusal := ulc hthSetV hthSetBody c p a s

/-- `hth.clear` (R562). -/
def hthClearV : Verb := { obj := "hth", name := "clear", level := .keeper, keys := [kInt "ch" 0 7 true] }
def hthClearBody (_c : Ctx) (_p : Pfx) (e : Env) (s : State) : Res :=
  if s.on 4 = false then .err 40 "" s else .ok [] (clearChan (e.nat "ch") s)
def execHthClear (c : Ctx) (p : Pfx) (a : Args) (s : State) : Host.Outcome State Fault Refusal := ulc hthClearV hthClearBody c p a s

/-- Two decimals of a value in thousandths. -/
def dec2 (m : Nat) : String := let n := nearDiv m 10; natS (n / 100) ++ "." ++ padS 2 (n % 100)

/-- The fields of a channel (the example under *Commands and registers*). -/
def chanLine (n : Nat) (c : Chan) : String :=
  spaced [kn "ch" n, kv "mode" (hmodeS c.mode), kv "state" (hstateS c.state), kn "token" (b2n c.token), kn "ready" (b2n c.ready),
    kv "v" (dec2 c.v.toNat ++ "V"), kv "i" (dec2 c.i.toNat ++ "A"), kv "r" (dec2 (10 * c.rest.toNat)), kv "rhot" (dec2 (10 * c.rhot.toNat)),
    kv "temp" (natS c.temp.toNat ++ "K"), kn "retries" c.retriesShown, kv "fault" (hfaultS c.fault)]

/-- `hth.show` (R574). -/
def hthShowV : Verb := { obj := "hth", name := "show", changes := false, keys := [kInt "ch" 0 7] }
def hthShowBody (_c : Ctx) (_p : Pfx) (e : Env) (s : State) : Res :=
  if s.on 4 = false then .err 40 "" s
  else match e.nat? "ch" with
    | some n => .ok [chanLine n (s.chan n)] s
    | none =>
      let h := s.hth
      .ok (spaced [kv "imax" (decS 3 h.imax.toNat ++ "A"), kn "tokens" h.tokens.toNat, kn "used" (tokensHeld s), kv "vsup" (dec2 h.vsup.toNat ++ "V"),
          kv "vref" (dec2 h.vref.toNat ++ "V"), kn "sag" (b2n h.sag), kn "suplow" (b2n h.suplow)] ::
        (List.range 8).map fun n => chanLine n (s.chan n)) s
def execHthShow (c : Ctx) (p : Pfx) (a : Args) (s : State) : Host.Outcome State Fault Refusal := ulc hthShowV hthShowBody c p a s

def hearthVerbs : List (Verb × (Ctx → Pfx → Env → State → Res)) :=
  [(hthSetV, hthSetBody), (hthClearV, hthClearBody), (hthShowV, hthShowBody)]

end Sys2Proof.Machine
end

