-- ==== Sys2Proof/Machine/House.lean ====
section
/-! DEFINITION. Power domains and house states (spec 14, R16 to R18, R36, R582 to R591, R607 to R613): what each domain's power-on
and power-off does, the moves between house states, power failure, and `house.set` and `pwr.set`. -/

namespace Sys2Proof.Machine

/-! ### Domains (Tables 1.1 and 14.2) -/

/-- Partition IDENT as it reads. -/
def identBytes (s : State) : List Byte := ((List.range 16).map fun l => (pageBytes l s).getD []).flatten

/-- The PLLs and references of a domain's blocks (Table 2.1; log entry 16). -/
def domClocks (d : Nat) : List Clk :=
  match d with
  | 3 => [.aud]
  | 4 => [.hearth]
  | 5 => [.usb]
  | 6 => [.netref, .net]
  | 7 => [.netref, .net]
  | 8 => [.mesh]
  | 9 => [.mem]
  | 10 => [.core, .mesh]
  | 11 => [.mesh]
  | _ => []

/-- The clocks derived from REFCLK (Table 2.1). -/
def fromRef (k : Clk) : Bool := match k with | .core => true | .mesh => true | .mem => true | .usb => true | _ => false

/-- NETREF itself, and the NET PLL derived from it (Table 2.1). -/
def fromNetref (k : Clk) : Bool := match k with | .netref => true | .net => true | _ => false

/-- The clocks of a domain run once it is on, those derived from REFCLK or NETREF while it is present. -/
def clocksOn (d : Nat) (s : State) : State :=
  s.forEach (domClocks d) fun k s =>
    if (fromRef k && !s.clk.stat.getLsbD 0) || (fromNetref k && s.clk.netLost) then s else setClk k true s

/-- The clocks that no domain uses any longer stop; that is no loss of a clock (R69). -/
def clocksOff (d : Nat) (s : State) : State :=
  s.forEach ((domClocks d).filter fun k => !(List.range 16).any fun e => s.on e && (domClocks e).contains k) fun k s =>
    s.onClk fun c => { c with stat := setBit c.stat (clkBit k) false, freq := if k == .core then 0 else c.freq }

/-- A bit of PWR_DOM. -/
def setDom (d : Nat) (on : Bool) (s : State) : State := s.onPwr fun p => { p with dom := setBit p.dom d on }

/-- PD1 on: the LDG registers at reset, and recovery (R518). -/
def pd1On (s : State) : State :=
  recoverLedger (s.onLdg fun d => { d with
    queue := [], refresh := false, ready := false, refen := true, cCommits := 0, cFault := 0, cBusy := 0, cW1 := 0, cW2 := 0, cW3 := 0
    rewritten := 0, cLost := 0, pgsel := 0 })

/-- PD1 off: a refresh run in progress stops, and counts as not done (R525). -/
def pd1Off (s : State) : State :=
  s.onLdg fun d => { d with queue := [], buffer := [], ready := false, refresh := false, refCut := d.refCut || d.refresh }

/-- What PD2's power-off loses: sessions, claims, registrations, the governors, the settings the Steward keeps, and every register
of its blocks (R83, R235, R582, R654); a release of WAKE_OUT held for a reply takes place (R688). -/
def pd2Off (s : State) : State :=
  let s := if s.desk.deferred.any fun e => e.2 == .wakeRelease then releaseWake s else s
  let s := { s with
    desk := { sess0 := {}, script := .idle }, jtag := {}, clk := { netLost := s.clk.netLost }, hth := {}
    pwr := { house := s.pwr.house, goal := s.pwr.goal, dom := s.pwr.dom, vaon := s.pwr.vaon, byFail := s.pwr.byFail
             woken := s.pwr.woken, resetV := s.pwr.resetV, zones := s.pwr.zones.map fun (z : Zone) => { zbase := z.zbase } }
    sys := { grade := s.sys.grade, step := s.sys.step, strap := s.sys.strap, warms := s.sys.warms, keyrev := s.sys.keyrev
             keyprog := s.sys.keyprog, jtaglock := s.sys.jtaglock, sigenf := s.sys.sigenf, keys := s.sys.keys, serial := s.sys.serial
             rWdog2 := s.sys.rWdog2, rSoft := s.sys.rSoft, rWarm := s.sys.rWarm, rWdog := s.sys.rWdog, rPin := s.sys.rPin
             rCold := s.sys.rCold, testmode := s.sys.testmode, flash := s.sys.flash, readData := s.sys.readData } }
  let s := (s.onTly fun t => { t with kept := {} }).onEvq fun q => { q with deskSeq := 0 }
  (s.onInn fun i => { i with guests := [] }).onLdr fun l => { l with tables := [] }

/-- PD2 on: the Steward starts, S0 opens, and the morning script is due (R126, R83). -/
def pd2On (s : State) : State :=
  { s with desk := {}, sys := { s.sys with serial := BitVec.ofNat 64 (Config.ident 0 (identBytes s)) } }

/-- The AUD settings of a guest at their reset values (Table 10.10). -/
def Guest.audReset (x : Guest) : Guest :=
  { x with ins := [], outs := [], thru := false, fade := 5, mute := false, fading := false, hmute := false, lostSrc := false
           gain := 0x3F800000, clip := 0, under := 0, fifo := [], cur := none, muted := false }

/-- PD3 on: the AUD registers at reset, the settings the Steward keeps, a new era (R38, R654), the Porter's path, and the cancellation
taps at 0 (R479). -/
def pd3On (s : State) : State :=
  let s := { s with aud := {} }
  let s := s.onInn fun i => { i with guests := i.guests.map fun e => (e.1, e.2.audReset) }
  settleAud (settlePor ((eraStart (pd3Registers s)).onPor fun p => { p with taps := [] }))

/-- PD3 off: the era, pending events, the TDM lock and the flows (R39, R582). The cancellation taps stay in retention SRAM (R479). -/
def pd3Off (s : State) : State :=
  let s := { s with aud := {} }
  let s := s.onInn fun i => { i with guests := i.guests.map fun e => (e.1, e.2.audReset) }
  let s := s.onEvq fun q => { q with entries := [], held := [] }
  let s := s.onPor fun p => { p with held := [], refIn := [], refPhase := 0, refMix := [] }
  settlePor (s.onTly fun t => { kept := t.kept })

/-- PD5 on and off (R441). -/
def pd5On (s : State) : State :=
  let id := identBytes s
  usbAttach (s.onUsb fun u => { vbus := u.vbus, bulkIn := u.bulkIn, vid := BitVec.ofNat 16 (Config.ident 3 id), pid := BitVec.ofNat 16 (Config.ident 4 id) })

def pd5Off (s : State) : State := (endSession 1 (usbDetach s)).onUsb fun u => { vbus := u.vbus, bulkIn := u.bulkIn }

/-- A network port on: its registers at reset and its MAC address from partition IDENT (R406). -/
def netOn (p : Nat) (s : State) : State := s.onNet p fun _ => { mac := BitVec.ofNat 48 (Config.ident (1 + p) (identBytes s)) }

/-- A network port off: the link, PTP, the TCP sessions and the AES67 flows on it (R582). -/
def netOff (p : Nat) (s : State) : State :=
  let drop (f : Flow) : Flow := if f.en && f.net == p then { f with en := false, state := .idle, jitter := [], acc := [], ready := [], good := 0 } else f
  let s := s.forEach [2, 3] fun k s => if (s.sess k).port = p then endSession k s else s
  (s.onAud fun a => { a with rx := a.rx.map drop, tx := a.tx.map drop }).onNet p fun _ => {}

/-- PD8 on: every window's tag is drawn at random (R334). -/
def pd8On (s : State) : State :=
  (({ s with cch := {} }).forEach (List.range 1024) fun w s =>
    let (r, s) := s.drawRandom
    s.onWin w fun x => { x with tag := r.extractLsb' 0 22 })

/-- PD8 off: routes, windows, rings and counters (Table 8.2), and with them what was bound to a route; a route of a REMOTE table that
leaves OPEN so is reported (R309). -/
def pd8Off (s : State) : State :=
  let s := s.forEach ((s.cch.routes.filter fun e => e.2.state == .opened).map (·.1)) leftOpen
  let s := { s with cch := {} }
  let s := s.onWeave fun w => { w with plans := w.plans.map fun p => { p with
    hops := p.hops.map fun h => { h with route := none, key := none, win := none } } }
  s.onLdr fun l => { l with unbind := [] }

/-- PD9 on: training starts with the settings of MEM_CTL (R319, R321, R326). -/
def pd9On (s : State) : State :=
  s.onMem fun m => { ctlRate := m.ctlRate, ctlEcc := m.ctlEcc, rateNext := m.ctlRate, eccNext := m.ctlEcc }

/-- PD9 off: LPDDR5X contents, cellar images with their guests, and firmware windows (R238, R338, R582). -/
def pd9Off (s : State) : State :=
  let s := s.forEach ((s.cch.wins.filter fun e => e.2.opened && e.2.hop.isNone).map (·.1)) closeWindow
  let s := s.forEach ((s.inn.guests.filter fun e => e.2.state == .away).map (·.1)) fun g s => s.onGuest g fun x => x.idle .registered
  { s with ram := s.ram.filter fun c => decide (2 ^ 35 ≤ c.1), mem := { ctlRate := s.mem.ctlRate, ctlEcc := s.mem.ctlEcc } }

/-- PD10 on: the INN registers at reset; the thermal level in force still sheds (R263). -/
def pd10On (s : State) : State :=
  s.onInn fun i => { guests := i.guests, thermal := s.pwr.therm == .emergency }

/-- PD10 off: every guest that is not FREE is REGISTERED, the room store is lost (R238, R582), and the events pass to the Steward, those
of the present tally taking effect there (R685). -/
def pd10Off (s : State) : State :=
  let s := allRegistered s
  let s := { s with ram := s.ram.zero 0x110000000000 0x200000 }
  takeLeft ((s.onInn fun i => { guests := i.guests }).onWeave fun w => { w with todo := [], undo := [], round := false, abandoned := [] })

/-- PD11 off and on: the row cache, the delivery store and the waiting requests; the Steward keeps the descriptors (R582). -/
def pd11Off (s : State) : State := { s with ldr := { tables := s.ldr.tables } }

/-- PD11 on: the pinned tables the Steward has kept are loaded anew (R313; log entry 52). -/
def pd11On (s : State) : State := s.forEach (s.ldr.tables.filter fun e => e.2.pin) fun e => pinTable e.1 e.2

/-- A stake quadrant off: the stores, and every plan with a layer there (R582). -/
def quadOff (q : Nat) (s : State) : State :=
  let s := s.forEach (s.weave.plans.filter fun p => (List.range p.stakes).any fun j => (p.base + j) / 12 == q) dropPlan
  let s := s.onWeave fun w => { w with stakes := w.stakes.filter fun e => e.1 / 12 != q }
  { s with ram := s.ram.zero (stakeBase (12 * q)) (12 * 0x200000) }

/-- A domain switched on, when it is off. -/
def domOn (d : Nat) (s : State) : State :=
  if s.on d then s
  else
    let s := clocksOn d (setDom d true s)
    match d with
    | 1 => pd1On s
    | 2 => pd2On s
    | 3 => pd3On s
    | 4 => hearthOn s
    | 5 => pd5On s
    | 6 => netOn 0 s
    | 7 => netOn 1 s
    | 8 => pd8On s
    | 9 => pd9On s
    | 10 => pd10On s
    | 11 => pd11On s
    | _ => s

/-- A domain switched off, when it is on. -/
def domOff (d : Nat) (s : State) : State :=
  if !s.on d then s
  else
    let s := match d with
      | 4 => hearthOff s
      | 5 => pd5Off s
      | 6 => netOff 0 s
      | 7 => netOff 1 s
      | _ => s
    let s := clocksOff d (setDom d false s)
    match d with
    | 1 => pd1Off s
    | 2 => pd2Off s
    | 3 => pd3Off s
    | 8 => pd8Off s
    | 9 => pd9Off s
    | 10 => pd10Off s
    | 11 => pd11Off s
    | 12 => quadOff 0 s
    | 13 => quadOff 1 s
    | 14 => quadOff 2 s
    | 15 => quadOff 3 s
    | _ => s

/-- Domains in order of need, and the reverse (R584). -/
def onOrder : List Nat := [1, 2, 3, 5, 6, 7, 8, 9, 10, 11, 4, 12, 13, 14, 15]
def offOrder : List Nat := onOrder.reverse

/-- Every domain but PD0 cut at once: nothing more is said to any session (R580, R591, R626, R645). -/
def cutAll (s : State) : State :=
  (offOrder.foldl (fun s d => domOff d s) (s.onDesk fun d => { d with ready := false }))

/-! ### Configuration (R583 to R585) -/

/-- Whether PD `d` is configured on. -/
def State.cfgOn (s : State) (d : Nat) : Bool := decide (4 ≤ d) && s.pwr.cfg.getLsbD (d - 4)

/-- A configuration without a domain that a configured one needs (Table 14.2, R583). -/
def cfgBad (c : BitVec 12) : Bool :=
  let on (d : Nat) : Bool := c.getLsbD (d - 4)
  (on 8 && !on 6 && !on 7) || (on 11 && !(on 9 && on 10)) || ((on 12 || on 13 || on 14 || on 15) && !on 10)

/-- Whether a house state and a configuration have a domain on (Table 1.2). -/
def wantsDom (h : House) (c : BitVec 12) (d : Nat) : Bool :=
  match d with
  | 0 => true
  | 1 => h != .vault
  | 2 => h != .vault
  | 3 => h == .lobby || h == .full
  | d => c.getLsbD (d - 4) && (h == .full || (h == .lobby && decide (5 ≤ d) && decide (d ≤ 8)))

/-- Whether a domain holds what R585 names. -/
def domHolds (d : Nat) (s : State) : Bool :=
  let port (p : Nat) : Bool :=
    (s.aud.rx ++ s.aud.tx).any (fun f => f.en && f.net == p) || s.cch.routes.any fun e => e.2.state == .opened && e.2.port == p
  match d with
  | 6 => port 0
  | 7 => port 1
  | 8 => s.cch.routes.any fun e => e.2.state == .opened
  | 9 => s.inn.guests.any fun e => e.2.state == .away || e.2.swapping || e.2.writing
  | 10 => s.inn.guests.any fun e => e.2.state != .free && e.2.state != .registered
  | d => decide (12 ≤ d) && s.weave.plans.any fun p => (List.range p.stakes).any fun j => 12 + (p.base + j) / 12 == d

/-- The house state whose domains the part keeps: FULL too while it rises to it (Table 14.3). -/
def State.cfgHouse (s : State) : House := if s.pwr.rising then .full else s.pwr.house

/-- The domains a configuration switches off in the present house state. -/
def cfgDrops (c : BitVec 12) (s : State) : List Nat := offOrder.filter fun d => decide (4 ≤ d) && s.on d && !wantsDom s.cfgHouse c d

/-- The domain that carries a session (R83, R85). -/
def sessDom (k : Nat) (s : State) : Nat := match k with | 0 => 2 | 1 => 5 | k => portDom (s.sess k).port

/-- An effect held for the reply of a session (R688). -/
def defer (k : Nat) (f : Deferred) (s : State) : State := s.onDesk fun d => { d with deferred := d.deferred ++ [(k, f)] }

/-! ### Quadrants (R588, R609, R613) -/

/-- The next configured quadrant's switch starts to ramp, announced on LOADCAST. -/
def startRamp (s : State) : State :=
  if s.pwr.ramping.isSome then s
  else match (List.range 4).find? fun q => s.cfgOn (12 + q) && !s.on (12 + q) with
    | some q =>
      let s := s.onPwr fun p => { p with ramping := some q }
      if roundsRun s then s else setForecast (s.tly.now.toNat + 1) s
    | none => s

/-! ### Moves (Table 14.3) -/

/-- A house state reached: its notice (R586), and the script line that waited for the end of the move (R128). -/
def reached (h : House) (say : Bool) (s : State) : State :=
  let s := s.onPwr fun p => { p with house := h, rising := false, goal := if p.goal = some h then none else p.goal }
  let s := if say then notify "house" ("state " ++ kv "state" (houseS h)) s else s
  moveEnds s

/-- Whether an effect of a kind is held for its reply (R688). -/
def heldHouse (f : Nat → Bool) (s : State) : Bool :=
  s.desk.deferred.any fun e => f e.1 && (match e.2 with | .house _ => true | _ => false)

/-- A PENDING enrolment starts (R474). -/
def takePend (s : State) : State := match s.por.pend with | some k => startEnrol k s | none => s

/-- The refresh check at an entry to HUSH (R525); a run that was cut short starts afresh. -/
def hushRefresh (s : State) : State :=
  if s.ldg.refen && (s.ldg.refCut || decide (24 * 3600 ≤ s.rtc - s.ldg.lastRef)) then startRefresh s else s

/-- MOVE_VAULT_TO_HUSH: PD1 and recovery, PD2, the slots reloaded, outcomes told, a pending enrolment and a due refresh started
(R462, R474, R485, R518, R525). -/
def execMoveVaultToHush (s : State) : Host.Outcome State Fault Refusal :=
  .next (if s.pwr.house == .vault && s.pwr.goal.isSome && s.pwr.vaon && !s.sys.testmode then
      let s := reached .hush false (domOn 2 (domOn 1 s))
      let s := reportGauge (reloadSlots s)
      idleLoadcast (hushRefresh (takePend s))
    else s)

/-- MOVE_HUSH_TO_LOBBY: PD3 and its era, then the configured ones of PD5 to PD8. -/
def execMoveHushToLobby (s : State) : Host.Outcome State Fault Refusal :=
  .next (if s.pwr.house == .hush && (s.pwr.goal == some .lobby || s.pwr.goal == some .full) then
      let s := domOn 3 s
      let s := s.forEach [5, 6, 7, 8] fun d s => if s.cfgOn d then domOn d s else s
      reached .lobby true s
    else s)

/-- The move LOBBY → FULL: PD9 where it is configured, and once that has trained or failed to, PD10, PD11, PD4, then the quadrants one
at a time. -/
def riseOn (s : State) : State :=
  if !s.pwr.rising || s.pwr.goal != some .full then s
  else if s.cfgOn 9 && !s.on 9 then domOn 9 s
  else if !s.on 9 || s.mem.trained || s.mem.fail then
    let s := s.forEach [10, 11, 4] fun d s => if s.cfgOn d then domOn d s else s
    let s := startRamp s
    if s.pwr.ramping.isSome then s else idleLoadcast (reached .full true s)
  else s

/-- MOVE_LOBBY_TO_FULL. -/
def execMoveLobbyToFull (s : State) : Host.Outcome State Fault Refusal :=
  .next (if s.pwr.house == .lobby && s.pwr.goal == some .full && !s.pwr.rising then
      riseOn (s.onPwr fun p => { p with rising := true })
    else s)

/-- QUADRANT_RAMP_END (R613): the quadrant is on, and the code without its 8 A is set. -/
def execQuadrantRampEnd (q : Nat) (s : State) : Host.Outcome State Fault Refusal :=
  .next (if s.pwr.ramping = some q then
      let s := domOn (12 + q) (s.onPwr fun p => { p with ramping := none })
      let s := if roundsRun s then s else setForecast (s.tly.now.toNat + 1) s
      if s.pwr.rising then riseOn s else startRamp s
    else s)

/-- Whether every fade before a check-out has ended (R18); with CORE stopped the outputs carry their dry values already (R617, R36). -/
def fadesEnded (s : State) : Bool :=
  !roundsRun s || s.inn.guests.all fun e => !e.2.inRounds || e.2.gain == 0

/-- MOVE_FULL_TO_LOBBY: check-outs, the Hearth off, and the domains of FULL off in the reverse order of need. -/
def execMoveFullToLobby (s : State) : Host.Outcome State Fault Refusal :=
  .next (if (s.pwr.house == .full || s.pwr.rising) && s.pwr.goal.any (fun h => decide (houseNum h < 3)) && fadesEnded s then
      let s := hearthOff s
      let s := s.forEach ((s.inn.guests.filter fun e => e.2.inRounds).map (·.1)) fun g s => toRegistered g s
      let s := s.forEach [15, 14, 13, 12, 11, 10, 9, 4] domOff
      let s := s.onPwr fun p => { p with ramping := none }
      idleLoadcast (reached .lobby true s)
    else s)

/-- MOVE_HUSH_TO_VAULT: commits and the log buffer, the gauge check, WAKE_OUT released, Reset Voltage, PD2 and PD1 off. -/
def execMoveHushToVault (mv : Nat) (s : State) : Host.Outcome State Fault Refusal :=
  .next (if s.pwr.house == .hush && s.pwr.goal == some .vault && !heldHouse (fun _ => true) s then
      let s := runAllJobs (s.ldg.queue.length + 1) s
      let s := (List.range 4).foldl (fun s _ => commitLog [] s) s
      let s := releaseWake (gaugeCheck mv s)
      let s := dropEnrol (s.onPwr fun p => { p with resetV := p.resetV + 1 })
      let s := domOff 1 (domOff 2 (reached .vault false s))
      s.onPwr fun p => { p with byFail := false, woken := false }
    else s)

/-! ### Power failure, reset, and the way back (R590, R591, R645) -/

/-- The gauge check at an entry to VAULT that no command brings a reading for: what it measures is free (R482, log entry 5). -/
def entryCheck (s : State) : State :=
  if s.por.running && s.pwr.house != .vault then
    let (w, s) := s.draw
    gaugeCheck (fld w 0 12) s
  else s

/-- PWRFAIL (Table 14.4, R482). The commit in progress ends; `residue` is how its retired pages are zeroed. -/
def execPwrfail (residue : Nat) (s : State) : Host.Outcome State Fault Refusal :=
  .next (if s.pwr.house ≠ .vault then
      let s := entryCheck (s.onPwr fun p => { p with pfail := true })
      let s := hearthOff (dryOutputs true s)
      let s := (runFirst [] .complete (decide (residue ≠ 0)) s).1
      let s := saveOverflow s
      let s := cutAll (dropEnrol (s.onPwr fun p => { p with resetV := p.resetV + 1 }))
      s.onPwr fun p => { p with house := .vault, goal := none, byFail := true, woken := false }
    else s)

/-- Every domain but PD0 is in reset without warning: a commit stays as far as it got (R517, R518), and the gauge makes the
check of an entry to VAULT (R482). -/
def pinCut (s : State) : State :=
  let s := cutAll (dropEnrol (hearthOff (entryCheck s)))
  s.onPwr fun p => { p with house := .vault, goal := none, byFail := true, woken := false }

/-- The causes of the reset that begins (Table 15.9). -/
def setCause (cold pin soft wdog2 : Bool) (s : State) : State :=
  s.onSys fun y => { y with
    rCold := cold, rPin := pin, rSoft := soft, rWdog2 := wdog2, rWarm := false, rWdog := false, warms := if cold then 0 else y.warms }

/-- A pin reset and what acts as one: the part goes through VAULT to HUSH, and the boot strap is sampled (R627, R645). -/
def pinReset (bootsel : Option (BitVec 3)) (soft wdog2 : Bool) (s : State) : State :=
  let s := (setCause false true soft wdog2 (pinCut s)).onPor fun p => { p with quals := [] }
  let s := s.onSys fun y => { y with strap := bootsel.getD y.strap, testmode := false }
  s.onPwr fun p => { p with goal := some .hush }

/-- PIN_RESET (R644, R645). -/
def execPinReset (bootsel : BitVec 3) (s : State) : Host.Outcome State Fault Refusal := .next (pinReset (some bootsel) false false s)

/-- VAON_WAKE (R590, R627). -/
def execVaonWake (bootsel : BitVec 3) (s : State) : Host.Outcome State Fault Refusal :=
  .next (if s.pwr.house == .vault && s.pwr.vaon && !s.sys.testmode && s.pwr.goal.isNone && (s.pwr.byFail || s.pwr.woken) then
      let s := setCause true false false false s
      (s.onSys fun y => { y with strap := bootsel }).onPwr fun p => { p with goal := some .hush }
    else s)

/-- TESTMODE_HIGH (R626): PD1 to PD15 are in reset; the part leaves it by a pin reset. -/
def execTestmodeHigh (s : State) : Host.Outcome State Fault Refusal := .next ((pinCut s).onSys fun y => { y with testmode := true })

/-! ### Memory training (R319, R320) -/

/-- A capacity the interface supports: 2 to 16 GiB for each of two equal channels (Table 7.6), in units of 256 MiB for both. -/
def capacityOk (installed : Nat) : Bool := decide (16 ≤ installed) && decide (installed ≤ 128) && installed % 2 == 0

/-- MEM_TRAIN_DONE (R318, R319, R321, R326, R23): `installed` in units of 256 MiB; with inline ECC 15/16 of it is usable, which
SYS_MEMSIZE.USABLE shows in whole units (log entry 68). -/
def execMemTrainDone (installed : Nat) (s : State) : Host.Outcome State Fault Refusal :=
  .next (if capacityOk installed && s.on 9 && !s.mem.trained && !s.mem.fail then
      riseOn (s.onMem fun m => { m with
        trained := true, valid := true, eccOn := m.eccNext, rate := if m.rateNext = 3 then 2 else m.rateNext
        installed := BitVec.ofNat 8 installed, usable := BitVec.ofNat 8 (if m.eccNext then installed * 15 / 16 else installed) })
    else s)

/-- MEM_TRAIN_FAIL (R320). -/
def execMemTrainFail (s : State) : Host.Outcome State Fault Refusal :=
  .next (if s.on 9 && !s.mem.trained && !s.mem.fail then
      riseOn (notify "mem" "train err" (s.onMem fun m => { m with fail := true }))
    else s)

/-! ### Commands -/

def houseNames : List String := ["vault", "hush", "lobby", "full"]
def houseOf (w : String) : House := match w with | "vault" => .vault | "hush" => .hush | "lobby" => .lobby | _ => .full

/-- `house.set` (R36, R586, R587, R589). -/
def houseSetV : Verb := { obj := "house", name := "set", level := .keeper, keys := [kEnum "state" houseNames true] }
def houseSetBody (c : Ctx) (_p : Pfx) (e : Env) (s : State) : Res :=
  let h := houseOf (e.word "state")
  let up := decide (houseNum s.pwr.house < houseNum h)
  if (up || (s.pwr.house == .hush && h == .vault)) && !s.clk.stat.getLsbD 0 then .err 40 "state" s
  else if h == .full && (s.pwr.therm == .emergency || s.pwr.therm == .trip) then .err 40 "state" s
  else if s.pwr.goal.isSome then .err 41 "" s
  else if h = s.pwr.house then .ok [] s
  else
    let s' := s.onPwr fun p => { p with goal := some h }
    let s' := if s.pwr.house = .full then startFades s' else s'
    match c.origin with
    | .sess k =>
      let s' := if !wantsDom h s.pwr.cfg (sessDom k s) then defer k (.house h) s' else s'
      .ok [] (if h = .vault then defer k .wakeRelease s' else s')
    | .morning l => .work (s'.onDesk fun d => { d with script := .running l .move })
    | _ => .ok [] s'
def execHouseSet (c : Ctx) (p : Pfx) (a : Args) (s : State) : Host.Outcome State Fault Refusal := ulc houseSetV houseSetBody c p a s

/-- A configuration put in force in the present house state: off in the reverse order of need, then on in order (R584); a rise to FULL
goes on by it (R16). -/
def applyCfg (c : BitVec 12) (s : State) : State :=
  let s := s.forEach (cfgDrops c s) domOff
  let s := s.onPwr fun p => { p with cfg := c, ramping := p.ramping.filter fun q => c.getLsbD (8 + q) }
  let s := s.forEach (onOrder.filter fun d => decide (4 ≤ d) && decide (d < 12)) fun d s => if wantsDom s.pwr.house c d then domOn d s else s
  if s.pwr.house = .full then startRamp s else riseOn s

/-- PWR_DOMCFG written (R583, R585): a configuration that R583 or R585 would refuse leaves the register unchanged (log entry 23). -/
def writeDomcfg (v : W32) (s : State) : State :=
  let c := BitVec.ofNat 12 (fld v 4 12)
  if cfgBad c || (cfgDrops c s).any fun d => domHolds d s then s else applyCfg c s

/-- `PDn` or `PDa-PDb`, of PD4 to PD15. -/
def domRange (w : String) : Option (List Nat) :=
  let one (t : List Char) : Option Nat := match t with
    | 'p' :: 'd' :: r => if !r.isEmpty && r.all Char.isDigit && decide (r.length ≤ 2) then some (decVal r) else none
    | _ => none
  match (lowerS w).toList.splitOn '-' with
  | [a] => (one a).bind fun n => if 4 ≤ n ∧ n ≤ 15 then some [n] else none
  | [a, b] => match one a, one b with
    | some m, some n => if 4 ≤ m ∧ m ≤ n ∧ n ≤ 15 then some ((List.range (n + 1)).filter (m ≤ ·)) else none
    | _, _ => none
  | _ => none

/-- The configuration a list of domains names. -/
def domList (ws : List String) : Option (BitVec 12) :=
  (allSome (ws.map domRange)).map fun l => l.flatten.foldl (fun c d => setBit c (d - 4) true) 0

/-- `pwr.set` (R583 to R585, R596, R600, R605, R612, R617 to R619). -/
def pwrSetV : Verb := {
  obj := "pwr", name := "set", level := .keeper
  keys := [kEnum "point" ["p0", "p1", "p2", "p3", "p4", "p5"], { name := "force", ty := .enum ["force"], pos := true },
    { name := "domains", ty := .names 16 }, kEnum "sense" ["die-min", "remote"], { name := "guard", ty := .int "mV" 0 255 },
    { name := "offset", ty := .int "mV" 0 255 }, kInt "rail" 0 15, { name := "avsclk", ty := .oneOf "Hz" [5000000, 10000000, 20000000] },
    kOnOff "lcen", kEnum "vmax" ["clear"], kEnum "therm" ["clear"], kEnum "avs" ["retry"]] }

/-- The load stands at a frequency: some bundle's rows need more cycles than a round of it has (R258, R596). -/
def loadFails (mhz : Nat) (s : State) : Bool :=
  let t := s.onClk fun c => { c with freq := BitVec.ofNat 16 mhz }
  roundsRun s && s.weave.plans.any fun p => !(planRows s p).isEmpty && (cyclesFail t p (planRows s p)).isSome

def pwrSetBody (c : Ctx) (_p : Pfx) (e : Env) (s : State) : Res :=
  let point := (e.word? "point").map fun w => ["p0", "p1", "p2", "p3", "p4", "p5"].idxOf w
  let cfg := domList (e.words "domains")
  let withSet (p : PwrSt) : PwrSt := match point with | some n => { p with set := BitVec.ofNat 3 n } | none => p
  let goal := (withSet s.pwr).goalPoint
  let cfgV := cfg.getD s.pwr.cfg
  if e.has "domains" && (match cfg with | some v => cfgBad v | none => true) then .err 13 "domains" s
  else if e.has "therm" && s.pwr.therm == .trip && decide (s.tjMax - 10 ≤ s.pwr.tj) then .err 40 "therm" s
  else if e.has "rail" && stakesOn s then .err 30 "rail" s
  else if e.has "domains" && (cfgDrops cfgV s).any fun d => domHolds d s then .err 30 "domains" s
  else if point.isSome && !e.has "force" && decide (s.pwr.goalPoint < goal) && loadFails (pointMHz goal) s then .err 32 "point" s
  else
    let s := s.onPwr fun p =>
      let p := withSet p
      { p with
        guard := match e.nat? "guard" with | some n => BitVec.ofNat 8 n | none => p.guard
        offset := match e.nat? "offset" with | some n => BitVec.ofNat 8 n | none => p.offset
        rail := match e.nat? "rail" with | some n => BitVec.ofNat 4 n | none => p.rail
        avsclk := match e.nat? "avsclk" with | some n => (if n = 5000000 then 0 else if n = 10000000 then 1 else 2) | none => p.avsclk
        lcen := (e.flag? "lcen").getD p.lcen
        vmax := p.vmax && !e.has "vmax", capV := if e.has "vmax" then 0 else p.capV
        avsRetry := p.avsRetry || (e.has "avs" && p.avsfail) }
    let s := if e.has "therm" && s.pwr.therm == .trip then
        setTherm (thermEnter s.tjMax s.pwr.tj) (s.onPwr fun p => { p with coreStop := false }) else s
    let s := settlePoint s
    let s := match e.word? "sense" with | some w => writeSense (w == "remote") s | none => s
    if e.has "domains" then
      match c.origin with
      | .sess k => if (cfgDrops cfgV s).contains (sessDom k s) then .ok [] (defer k (.domains cfgV) s) else .ok [] (applyCfg cfgV s)
      | _ => .ok [] (applyCfg cfgV s)
    else .ok [] s

/-- A list of domains, runs of them joined (`house.show`). -/
def domsS (l : List Nat) : String := rangesS "PD" l

/-- `house.show`. -/
def houseShowV : Verb := { obj := "house", name := "show", changes := false }
def houseShowBody (_c : Ctx) (_p : Pfx) (_e : Env) (s : State) : Res :=
  .ok [spaced [kv "state" (houseS s.pwr.house), kv "on" (domsS ((List.range 16).filter (s.on ·))),
    kv "off" (domsS ((List.range 16).filter fun d => !s.on d))]] s
def execHouseShow (c : Ctx) (p : Pfx) (a : Args) (s : State) : Host.Outcome State Fault Refusal := ulc houseShowV houseShowBody c p a s

def houseVerbs : List (Verb × (Ctx → Pfx → Env → State → Res)) :=
  [(houseSetV, houseSetBody), (houseShowV, houseShowBody), (pwrShowV, pwrShowBody), (pwrCrackV, pwrCrackBody)]

end Sys2Proof.Machine
end

