-- ==== Sys2Proof/Machine/Boot.lean ====
section
/-! DEFINITION. Bring-up (spec 15): the boot and its sources (R627 to R639), the boot flash (R634 to R637, R649), resets (R644 to R648),
fuses (R640), JTAG (R642, R643), clocks lost and found (R69), and the commands of sys (R12, R30, R651, R670, R698). -/

namespace Sys2Proof.Machine

/-! ### The boot flash -/

/-- Offsets of the directory copies (R634). -/
def dirBase (b : Bool) : Nat := if b then 0x10000 else 0

/-- `n` bytes of the flash, and a little-endian number in it. -/
def flashN (f : Flash) (a n : Nat) : List Byte := (List.range n).map fun k => flashByte f (a + k)
def flashLe (f : Flash) (a n : Nat) : Nat := leNat (flashN f a n)

/-- The directory entry at an offset (Table 15.7); every reserved byte counts in `rsvd`. -/
def entryAt (f : Flash) (a : Nat) : DirEntry :=
  let name := (flashN f (a + 4) 16).map (·.toNat)
  { type := flashLe f a 1, rsvd := flashLe f (a + 1) 3 + flashLe f (a + 0x1C) 4
    name := String.ofList ((name.takeWhile (· != 0)).map Char.ofNat), offset := flashLe f (a + 0x14) 4, length := flashLe f (a + 0x18) 4 }

/-- The entries of a directory copy (Table 15.6). -/
def dirEntries (f : Flash) (a : Nat) : List DirEntry := (List.range (flashLe f (a + 6) 2)).map fun k => entryAt f (a + 0x10 + 32 * k)

/-- Whether a directory copy is valid (R634). -/
def dirValid (f : Flash) (a : Nat) : Bool :=
  let n := flashLe f (a + 6) 2
  flashLe f a 4 == 0x52445641 && flashLe f (a + 4) 2 == 0x0100 && decide (1 ≤ n) && decide (n ≤ 1024) &&
    flashLe f (a + 12) 2 == (crc16 ((flashN f a 12 ++ flashN f (a + 16) (32 * n)).map (·.toNat))).toNat

/-- The copy the part uses: the larger GEN, copy A when they are equal (R634). -/
def chooseDir (f : Flash) : Option Bool :=
  let a := f.present && dirValid f (dirBase false)
  let b := f.present && dirValid f (dirBase true)
  if a && b then some (decide (flashLe f (dirBase false + 8) 4 < flashLe f (dirBase true + 8) 4))
  else if a then some false else if b then some true else none

/-- The size of the flash the part reads, in bytes (R629, R635). -/
def flashSize (f : Flash) : Nat := min (2 ^ f.size) (2 ^ 31)

/-- Whether the part heeds an entry (R635). -/
def entryOk (f : Flash) (e : DirEntry) : Bool :=
  decide (1 ≤ e.type) && decide (e.type ≤ 3) && e.rsvd == 0 && decide (e.offset + e.length ≤ flashSize f)

/-- A directory copy taken into use, or none (R634). -/
def useDir (f : Flash) (d : Option Bool) (s : State) : State :=
  s.onSys fun y => match d with
    | some b => { y with
        dir := b, store := true
        dirOf := some (flashLe f (dirBase b + 8) 4, (dirEntries f (dirBase b)).filter (entryOk f)) }
    | none => { y with dir := false, store := false, dirOf := none }

/-- A flash without some of its bytes, and the images that began there. -/
def eraseFlash (off len : Nat) (f : Flash) : Flash :=
  let out (a : Nat) : Bool := !(decide (off ≤ a) && decide (a < off + len))
  { f with bytes := f.bytes.filter fun e => out e.1, bodies := f.bodies.filter fun e => out e.1, patches := f.patches.filter fun e => out e.1 }

/-! ### Boot -/

/-- A patch verified and applied, or refused (R638, R639): a failing one is applied while SIGENF is intact. -/
def applyPatch (v : Nat) (ok : Bool) (s : State) : State :=
  if sigVerifies 0 ok s then s.onSys fun y => { y with patch := BitVec.ofNat 16 v, unsigned := false, ram := some (v, ok) }
  else if s.sys.sigenf then s.onSys fun y => { y with patch := 0, unsigned := false, fallback := true, ram := none }
  else logEv 0 0x0202 0 v 0 (s.onSys fun y => { y with
    patch := BitVec.ofNat 16 v, unsigned := true, unsignedNote := true, ram := some (v, ok) })

/-- The part continues as for ROM, with FALLBACK set (R632, R634). -/
def romFallback (s : State) : State := s.onSys fun y => { y with source := 4, fallback := true }

/-- The mode of the flash (R628): 3 8D-8D-8D, 2 1-4-4, 1 1-1-1. -/
def flashMode (octal : Bool) (f : Flash) : BitVec 2 × BitVec 8 :=
  if octal && f.octal then (3, 200) else if !octal && f.quad then (2, 100) else (1, 25)

/-- A boot from flash (R628, R634, R635, R639). -/
def bootFlash (octal : Bool) (f : Flash) (s : State) : State :=
  let s := if f.present then
      let m := flashMode octal f
      s.onSys fun y => { y with flash := some f, fmode := m.1, ffreq := m.2, fsize := BitVec.ofNat 8 f.size }
    else s.onSys fun y => { y with flash := none, fmode := 0, ffreq := 0, fsize := 0 }
  match chooseDir f with
  | none => romFallback (useDir f none s)
  | some b =>
    let s := useDir f (some b) s
    match (((s.sys.dirOf.map (·.2)).getD []).find? fun e => e.type == 1) with
    | none => s
    | some e =>
      match tget f.patches e.offset with
      | some (v, ok) => applyPatch v ok s
      | none => applyPatch (flashLe f (e.offset + 4) 2) false s

/-- BOOT (R627 to R635): the Steward, started from ROM, takes its patch and image store from the source the strap names. REFCLK, the DESK
PLL and the 32.768 kHz crystal run (log entry 16). -/
def boot (f : Flash) (s : State) : State :=
  let s := setClk .xtal32 true (setClk .desk true (setClk .refclk true s))
  let s := s.onSys fun y => { y with
    source := if y.strap.toNat ≤ 4 then y.strap else 4, badstrap := decide (5 ≤ y.strap.toNat), fallback := false, unsigned := false
    patch := 0, ram := none, dir := false, store := false, dirOf := none, flash := none, fmode := 0, ffreq := 0, fsize := 0 }
  match s.sys.strap.toNat with
  | 0 => (bootFlash true f s).onSys fun y => { y with booted := true }
  | 1 => (bootFlash false f s).onSys fun y => { y with booted := true }
  | 2 => (domOn 5 s).onSys fun y => { y with waiting := true }
  | 3 =>
    let id := identBytes s
    ((domOn 6 s).onNet 0 fun n => { n with
      en := true, speed := Config.ident 5 id % 2 == 1, fec := BitVec.ofNat 2 (Config.ident 6 id % 3) }).onSys fun y => { y with waiting := true }
  | _ => s.onSys fun y => { y with booted := true }
def execBoot (f : Flash) (s : State) : Host.Outcome State Fault Refusal :=
  .next (if s.on 2 && !s.sys.booted && !s.sys.waiting then boot f s else s)

/-- A boot wait ends (R630 to R632): the domains powered for it switch off. -/
def endWait (patch : Option (Nat × Bool)) (s : State) : State :=
  let s := if s.pwr.house == .hush then domOff 5 (domOff 6 s) else s
  let s := match patch with
    | some (v, ok) => applyPatch v ok s
    | none => romFallback s
  s.onSys fun y => { y with waiting := false, booted := true }

/-- BOOT_WAIT_TIMEOUT (R632). -/
def execBootWaitTimeout (s : State) : Host.Outcome State Fault Refusal := .next (if s.sys.waiting then endWait none s else s)

/-- NET_BOOT_PATCH_RECEIVED (R631). -/
def execNetBootPatchReceived (patch : Option (Nat × Bool)) (s : State) : Host.Outcome State Fault Refusal :=
  .next (if s.sys.waiting && s.sys.source == 3 && patch.isSome then endWait patch s else s)

/-! ### Resets -/

/-- A held effect that is no reset takes place (R85, R88, R490). The move of a `house.set` waits for its own rows of the table. -/
def takeHeld (f : Deferred) (s : State) : State :=
  match f with
  | .uart b w => s.onDesk fun d => { d with baud := b.getD d.baud, flow := w.getD d.flow }
  | .wakeRelease => releaseWake s
  | .domains c => applyCfg c s
  | _ => s

/-- A warm reset (R644, R646): the commit in progress completes, every session ends, the effects held for its reply taking place (R688),
and every claim is released, the Desk starts anew without its script, and the patch in patch RAM is verified and applied again. Domains,
house state, rounds, registrations and event sequences stay. -/
def warmReset (s : State) : State :=
  let s := s.forEach (s.desk.deferred.map (·.2)) takeHeld
  let s := (runFirst [] .complete false s).1
  let s := s.onLdg fun d => { d with queue := d.queue.map fun j => forget 0 (forget 1 (forget 2 (forget 3 j))) }
  let s := { s with desk := { script := .idle } }
  let s := match s.sys.ram with | some (v, ok) => applyPatch v ok s | none => s
  s.onSys fun y => { y with warms := satInc y.warms }

/-- A warm reset by command (SYS_RSTCAUSE.WARM). -/
def warmByCommand (s : State) : State := (warmReset s).onSys fun y => { y with rWarm := true }

/-- What `sys.reset full` does once its reply has left (R648). -/
def fullReset (s : State) : State := pinReset none true false s

/-- WATCHDOG_EXPIRY (R644, R647). -/
def execWatchdogExpiry (s : State) : Host.Outcome State Fault Refusal :=
  .next (if s.on 2 && s.sys.wdogEn then
      if s.sys.wdogHit && !s.desk.ready then pinReset none false true s
      else (warmReset s).onSys fun y => { y with wdogHit := true, rWdog := true }
    else s)

/-- A line of `sys.reset`: a session's takes effect once its reply has left (R85, R648; for warm, log entry 24), any other line's at
once. -/
def sysResetBody (f : Deferred) (eff : State → State) (c : Ctx) (_p : Pfx) (_e : Env) (s : State) : Res :=
  match c.origin with
  | .sess k => .ok [] (defer k f s)
  | _ => .ok [] (eff s)
def sysResetWarmV : Verb := {
  obj := "sys", name := "reset", level := .owner, keys := [{ name := "kind", ty := .enum ["warm"], req := true, pos := true }] }
def sysResetWarmBody : Ctx → Pfx → Env → State → Res := sysResetBody .resetWarm warmByCommand
def execSysResetWarm (c : Ctx) (p : Pfx) (a : Args) (s : State) : Host.Outcome State Fault Refusal := ulc sysResetWarmV sysResetWarmBody c p a s
def sysResetFullV : Verb := {
  obj := "sys", name := "reset", level := .owner, keys := [{ name := "kind", ty := .enum ["full"], req := true, pos := true }] }
def sysResetFullBody : Ctx → Pfx → Env → State → Res := sysResetBody .resetFull fullReset
def execSysResetFull (c : Ctx) (p : Pfx) (a : Args) (s : State) : Host.Outcome State Fault Refusal := ulc sysResetFullV sysResetFullBody c p a s

/-- A write to SYS_RESET (R650): it takes effect only with the key; FULL goes before WARM (log entry 24). -/
def writeReset (v : W32) (s : State) : State :=
  if fld v 0 16 ≠ 0xA55A then s
  else if v.getLsbD 17 then fullReset s else if v.getLsbD 16 then warmByCommand s else s
def execSysResetWriteWarm (v : W32) (s : State) : Host.Outcome State Fault Refusal := .next (if s.on 2 then writeReset v s else s)
def execSysResetWriteFull (v : W32) (s : State) : Host.Outcome State Fault Refusal := .next (if s.on 2 then writeReset v s else s)

/-! ### Fuses (R640, R641) -/

def fuseV : Verb := {
  obj := "pwr", name := "fuse", level := .owner
  keys := [{ name := "fuse", ty := .enum ["sigenf", "jtaglock"], pos := true }, kInt "key" 1 3, kHex "src" 48, kInt "keyrev" 0 3,
    kEnum "confirm" ["burn"] true] }

/-- `pwr.fuse`. -/
def fuseBody (_c : Ctx) (_p : Pfx) (e : Env) (s : State) : Res :=
  let n := b2n (e.has "fuse") + b2n (e.has "key") + b2n (e.has "keyrev")
  let y := s.sys
  let blown := (e.word? "fuse" == some "sigenf" && y.sigenf) || (e.word? "fuse" == some "jtaglock" && y.jtaglock) ||
    (e.has "key" && y.keyprog.getLsbD (e.nat "key")) || (e.has "keyrev" && y.keyrev.getLsbD (e.nat "keyrev"))
  if n ≠ 1 then .err 13 "fuse" s
  else if e.has "src" && !e.has "key" then .err 13 "src" s
  else if e.has "key" && s.mem.valid && !inUsable (e.nat "src") 32 s then .err 13 "src" s
  else if y.pd2Frames < 100 then .err 40 "" s
  else if e.has "key" && !s.mem.valid then .err 40 "src" s
  else if blown then .err 30 "" s
  else .ok [] (s.onSys fun y =>
    if e.word? "fuse" == some "sigenf" then { y with sigenf := true }
    else if e.word? "fuse" == some "jtaglock" then { y with jtaglock := true }
    else if e.has "key" then { y with
      keyprog := setBit y.keyprog (e.nat "key") true, keys := tset y.keys (e.nat "key") (s.ram.readN (e.nat "src") 32) }
    else { y with keyrev := setBit y.keyrev (e.nat "keyrev") true })
def execPwrFuse (c : Ctx) (p : Pfx) (a : Args) (s : State) : Host.Outcome State Fault Refusal := ulc fuseV fuseBody c p a s

/-! ### `sys.flash` -/

/-- A power of two of bytes. -/
def sizeS (n : Nat) : String :=
  if 30 ≤ n then natS (2 ^ (n - 30)) ++ "GiB" else if 20 ≤ n then natS (2 ^ (n - 20)) ++ "MiB"
  else if 10 ≤ n then natS (2 ^ (n - 10)) ++ "KiB" else natS (2 ^ n) ++ "B"

def fmodeS (m : BitVec 2) : String := match m.toNat with | 0 => "none" | 1 => "1-1-1" | 2 => "1-4-4" | _ => "8D-8D-8D"

/-- The directory in use, as replies give it. -/
def dirFields (s : State) : List String :=
  match s.sys.dirOf with
  | some (g, es) => [kv "dir" (if s.sys.dir then "B" else "A"), kv "gen" (hexS 8 g), kn "images" es.length]
  | none => [kv "dir" "none", kv "gen" (hexS 8 0), kn "images" 0]

def flashFields (s : State) : List String :=
  [kv "flash" (if s.sys.fsize = 0 then "none" else sizeS s.sys.fsize.toNat), kv "mode" (fmodeS s.sys.fmode),
    kv "freq" (natS s.sys.ffreq.toNat ++ "MHz")]

def kFlashOp (w : String) : KeySpec := { name := "op", ty := .enum [w], req := true, pos := true }

/-- `sys.flash show`. -/
def flashShowV : Verb := { obj := "sys", name := "flash", changes := false, level := .owner, keys := [kFlashOp "show"] }
def flashShowBody (_c : Ctx) (_p : Pfx) (_e : Env) (s : State) : Res :=
  .ok [spaced (flashFields s ++ [kn "erase" ((s.sys.flash.map (·.erase)).getD 0)] ++ dirFields s)] s
def execSysFlashShow (c : Ctx) (p : Pfx) (a : Args) (s : State) : Host.Outcome State Fault Refusal := ulc flashShowV flashShowBody c p a s

/-- What an erase or a write of a range lacks (R649): whole erase units inside the flash, and none of the directory copy in use or of
an image it names. -/
def flashRefuses (f : Flash) (off len : Nat) (s : State) : Option (Nat × String) :=
  let meets (a n : Nat) : Bool := decide (a < off + len) && decide (off < a + n)
  let base := dirBase s.sys.dir
  if off % max 1 f.erase ≠ 0 ∨ 2 ^ f.size < off + len then some (13, "off")
  else if len % max 1 f.erase ≠ 0 ∨ len = 0 then some (13, "len")
  else match s.sys.dirOf with
    | some (_, es) =>
      if meets base (0x10 + 32 * flashLe f (base + 6) 2) || es.any fun e => meets e.offset e.length then some (30, "off") else none
    | none => none

/-- `sys.flash erase`. -/
def flashEraseV : Verb := { obj := "sys", name := "flash", level := .owner, keys := [kFlashOp "erase", kHex "off" 32 true, kHex "len" 32 true] }
def flashEraseBody (_c : Ctx) (_p : Pfx) (e : Env) (s : State) : Res :=
  match s.sys.flash with
  | none => .err 40 "" s
  | some f =>
    match flashRefuses f (e.nat "off") (e.nat "len") s with
    | some (c, k) => .err c k s
    | none => .ok [] (s.onSys fun y => { y with flash := some (eraseFlash (e.nat "off") (e.nat "len") f) })
def execSysFlashErase (c : Ctx) (p : Pfx) (a : Args) (s : State) : Host.Outcome State Fault Refusal := ulc flashEraseV flashEraseBody c p a s

/-- `sys.flash write`: the bytes, and the bodies of plan images among them. -/
def flashWriteV : Verb := {
  obj := "sys", name := "flash", level := .owner, keys := [kFlashOp "write", kHex "off" 32 true, kHex "src" 48 true, kHex "len" 32 true] }
def flashWriteBody (_c : Ctx) (_p : Pfx) (e : Env) (s : State) : Res :=
  let off := e.nat "off"
  let len := e.nat "len"
  let src := e.nat "src"
  match s.sys.flash with
  | none => .err 40 "" s
  | some f =>
    if !inUsable src len s then .err 13 "src" s
    else match flashRefuses f off len s with
    | some (c, k) => .err c k s
    | none =>
      let g := eraseFlash off len f
      let bytes := (s.ram.filter fun c => decide (src ≤ c.1) && decide (c.1 < src + len)).map fun c => (off + (c.1 - src), c.2)
      let blank := ((List.range len).filter fun k => s.ram.read (src + k) == Memory.blank).map fun k => (off + k, Memory.blank)
      let bodies := (s.mem.bodies.filter fun b => decide (src ≤ b.1) && decide (b.1 < src + len)).map fun b => (off + (b.1 - src), b.2)
      .ok [] (s.onSys fun y => { y with flash := some { g with
        bytes := g.bytes ++ bytes ++ blank, bodies := bodies.foldl (fun t b => tset t b.1 b.2) g.bodies } })
def execSysFlashWrite (c : Ctx) (p : Pfx) (a : Args) (s : State) : Host.Outcome State Fault Refusal := ulc flashWriteV flashWriteBody c p a s

/-- `sys.flash rescan` (R634). -/
def flashRescanV : Verb := { obj := "sys", name := "flash", level := .owner, keys := [kFlashOp "rescan"] }
def flashRescanBody (_c : Ctx) (_p : Pfx) (_e : Env) (s : State) : Res :=
  match s.sys.flash with
  | none => .err 40 "" s
  | some f =>
    let s := useDir f (chooseDir f) s
    .ok [spaced (dirFields s)] s
def execSysFlashRescan (c : Ctx) (p : Pfx) (a : Args) (s : State) : Host.Outcome State Fault Refusal := ulc flashRescanV flashRescanBody c p a s

/-! ### Reports -/

def bits3 (v : BitVec 3) : String := lcS v
def sourceNameS (n : Nat) : String := match n with | 0 => "XSPI-OCTAL" | 1 => "XSPI-QUAD" | 2 => "USB" | 3 => "NET" | _ => "ROM"

/-- The latest cause of a reset. -/
def causeName (y : SysSt) : String :=
  if y.rWdog2 then "WDOG2" else if y.rWdog then "WDOG" else if y.rWarm then "WARM" else if y.rSoft then "SOFT"
  else if y.rPin then "PIN" else if y.rCold then "COLD" else "none"

/-- `sys.boot` (R650). -/
def sysBootV : Verb := { obj := "sys", name := "boot", changes := false }
def sysBootBody (_c : Ctx) (_p : Pfx) (_e : Env) (s : State) : Res :=
  let y := s.sys
  .ok [spaced ([kv "cause" (causeName y), kv "strap" (bits3 y.strap), kv "src" (sourceNameS y.source.toNat)] ++ flashFields s ++ dirFields s ++
    [kv "patch" (if y.ram.isSome then hexS 4 y.patch.toNat else "none"), kv "key" (if y.ram.isSome && !y.unsigned then "0" else "none"),
      kn "unsigned" (b2n y.unsigned), kn "fallback" (b2n y.fallback)])] s
def execSysBoot (c : Ctx) (p : Pfx) (a : Args) (s : State) : Host.Outcome State Fault Refusal := ulc sysBootV sysBootBody c p a s

/-- `sys.show` (R12). -/
def sysShowV : Verb := { obj := "sys", name := "show", changes := false }
def sysShowBody (_c : Ctx) (_p : Pfx) (_e : Env) (s : State) : Res :=
  .ok [spaced [kv "part" ("AV9-4832-" ++ (if s.sys.grade = 2 then "FX" else "FB")), "member=9", kv "step" (hexS 2 s.sys.step.toNat),
    kv "grade" (hexS 1 s.sys.grade.toNat)]] s
def execSysShow (c : Ctx) (p : Pfx) (a : Args) (s : State) : Host.Outcome State Fault Refusal := ulc sysShowV sysShowBody c p a s

/-- `sys.caps` (R30). -/
def sysCapsV : Verb := { obj := "sys", name := "caps", changes := false }
def sysCapsBody (_c : Ctx) (_p : Pfx) (_e : Env) (s : State) : Res :=
  .ok ["member=9 stakes=48 rooms=32 netports=2 netrate=25g mem=lpddr5x memch=2"] s
def execSysCaps (c : Ctx) (p : Pfx) (a : Args) (s : State) : Host.Outcome State Fault Refusal := ulc sysCapsV sysCapsBody c p a s

/-- `sys.map` (R23, R698). -/
def sysMapV : Verb := { obj := "sys", name := "map", changes := false }
def sysMapBody (_c : Ctx) (_p : Pfx) (_e : Env) (s : State) : Res :=
  let span (a b : Nat) : String := hexS 12 a ++ ".." ++ hexS 12 b
  let ddr := if s.mem.valid then
      [kv "ddr" (span 0 (s.usable - 1)), kv "usable" (gibS s.mem.usable.toNat), kv "installed" (gibS s.mem.installed.toNat),
        kv "ecc" (onoff s.mem.eccOn)]
    else ["ddr=none", kv "mem" (if !s.on 9 then "off" else if s.mem.fail then "trainfail" else "training")]
  .ok [spaced ddr, spaced [kv "stakes" (span 0x100000000000 0x100005FFFFFF), kv "rooms" (span 0x110000000000 0x1100001FFFFF)],
    kv "csr" (span 0x1F0000000000 0x1F000012FFFF)] s
def execSysMap (c : Ctx) (p : Pfx) (a : Args) (s : State) : Host.Outcome State Fault Refusal := ulc sysMapV sysMapBody c p a s

def smodeLate (h : HopLate) : String := match h with | .hold => "HOLD" | .zero => "ZERO" | .mute => "MUTE"

/-- `sys.modes` (R651, R653): the effective value of each axis of Table 16.1. -/
def sysModesV : Verb := { obj := "sys", name := "modes", changes := false }
def sysModesBody (_c : Ctx) (_p : Pfx) (_e : Env) (s : State) : Res :=
  let tly := s.on 3
  let one (t : String) : String := if tly then t else "none"
  let sess := ((List.range 4).filter fun k => (s.sess k).opened).map fun k =>
    kv ("sess" ++ natS k) (if (s.sess k).machine then "MACHINE" else "TYPED")
  let hth := commas (s.hth.chans.map fun c => hmodeS (if s.on 4 then c.mode else .off))
  let bundles := s.weave.plans.filterMap fun p => p.prec.map fun x => p.name ++ ":" ++ precS x
  let routes := (s.cch.routes.filter fun e => e.2.state == .opened).map fun e =>
    natS e.1 ++ ":" ++ (if e.2.lossless then "LOSSLESS" else "LOSSY")
  let hops := (s.weave.plans.map fun p => p.hops.map fun h => natS h.def_.hop ++ ":" ++ smodeLate h.late).flatten
  .ok [spaced [kv "house" (houseS s.pwr.house), kv "src" (one (sourceS s.tly.source.toNat)), kv "tstate" (one (tstateS s.tly.state)),
      kv "rate" (one (rateS s.tly.rate)), kv "sense" (if s.pwr.remote then "REMOTE" else "DIE-MIN"), kv "por" (pmodeS (effMode s))],
    spaced (sess ++ [kv "hth" hth]), spaced [kv "bundles" (commas bundles), kv "routes" (commas routes), kv "hops" (commas hops)]] s
def execSysModes (c : Ctx) (p : Pfx) (a : Args) (s : State) : Host.Outcome State Fault Refusal := ulc sysModesV sysModesBody c p a s

/-- The conditions of SYS_HEALTH, bit 15 first (Table 16.8). -/
def healthBits (s : State) : List (String × Bool) :=
  [("PFAIL", s.pwr.pfail), ("TRIP", s.pwr.therm == .trip), ("EMERG", s.pwr.therm == .emergency), ("DERATE", s.pwr.therm == .derate),
    ("CRACK", s.pwr.zones.any (·.raised)), ("AVSFAIL", s.pwr.avsfail), ("VMAX", s.pwr.vmax), ("REFCLK", s.clk.stat.getLsbD 9),
    ("TLYLOST", s.tly.lost), ("MEMFAIL", s.mem.fail), ("QUAR", s.inn.guests.any fun e => e.2.state == .quarantined),
    ("OVERLOAD", s.inn.overload), ("ROUTEERR", s.cch.routes.any fun e => e.2.state == .error),
    ("HTHFAULT", s.hth.chans.any fun c => c.state == .fault), ("STKFAULT", s.weave.stakes.any fun e => e.2.fault),
    ("NOSPARE", decide (64 ≤ s.ldg.sparesUsed))]

/-- SYS_HEALTH (R670). -/
def sysHealthWord (s : State) : W32 := (healthBits s).foldl (fun v b => (v <<< 1) + put 0 (b2n b.2)) 0

/-- `sys.health` (R670). -/
def sysHealthV : Verb := { obj := "sys", name := "health", changes := false }
def sysHealthBody (_c : Ctx) (_p : Pfx) (_e : Env) (s : State) : Res :=
  let plans := (s.weave.plans.filter (·.quar)).map (·.name)
  let alone := (s.inn.guests.filter fun e => e.2.state == .quarantined && !plans.contains e.2.plan).map fun e => natS e.1
  .ok [spaced [kv "faults" (commas (((healthBits s).filter (·.2)).map (·.1))), kv "quar" (commas (plans ++ alone)),
    kv "stkfault" (commas ((s.weave.stakes.filter fun e => e.2.fault).map fun e => natS e.1)), kv "therm" (thermS s.pwr.therm),
    kv "crack" (commas (((List.range 8).filter fun z => (s.pwr.zones.getD z {}).raised).map natS))]] s
def execSysHealth (c : Ctx) (p : Pfx) (a : Args) (s : State) : Host.Outcome State Fault Refusal := ulc sysHealthV sysHealthBody c p a s

/-! ### The SYS registers (R12, R30, R31, R650, R670) -/

def sysRead (off : Nat) (s : State) : W32 × State :=
  let y := s.sys
  match off with
  | 0x00 => (put 16 0x4832 + put 12 9 + put 8 y.grade.toNat + put 0 y.step.toNat, s)
  | 0x04 => (put 24 0x30 + put 16 0x20 + put 12 2 + put 8 2 + put 4 2 + put 0 2, s)
  | 0x08 => (put 31 (b2n s.mem.valid) + put 8 s.mem.installed.toNat + put 0 s.mem.usable.toNat, s)
  | 0x0C => (put 16 y.patch.toNat + put 11 (b2n y.unsigned) + put 10 (b2n y.fallback) + put 9 (b2n y.dir) + put 8 (b2n y.store) +
      put 4 y.source.toNat + put 3 (b2n y.badstrap) + put 0 y.strap.toNat, s)
  | 0x10 => (put 8 y.warms.toNat + put 5 (b2n y.rWdog2) + put 4 (b2n y.rSoft) + put 3 (b2n y.rWarm) + put 2 (b2n y.rWdog) +
      put 1 (b2n y.rPin) + put 0 (b2n y.rCold), s.onSys fun y => { y with warms := 0 })
  | 0x14 => (put 8 (b2n y.wdogEn) + put 0 y.wdogTmo.toNat, s)
  | 0x1C => (put 8 y.keyrev.toNat + put 4 y.keyprog.toNat + put 1 (b2n y.jtaglock) + put 0 (b2n y.sigenf), s)
  | 0x20 => (y.serial.extractLsb' 0 32, s)
  | 0x24 => (y.serial.extractLsb' 32 32, s)
  | 0x28 => (put 16 y.ffreq.toNat + put 8 y.fmode.toNat + put 0 y.fsize.toNat, s)
  | 0x2C => (sysHealthWord s, s)
  | _ => (0, s)

def sysWrite (off : Nat) (v : W32) (s : State) : State :=
  match off with
  | 0x10 => s.onSys fun y => { y with
      rWdog2 := y.rWdog2 && !v.getLsbD 5, rSoft := y.rSoft && !v.getLsbD 4, rWarm := y.rWarm && !v.getLsbD 3
      rWdog := y.rWdog && !v.getLsbD 2, rPin := y.rPin && !v.getLsbD 1, rCold := y.rCold && !v.getLsbD 0 }
  | 0x14 => s.onSys fun y => { y with wdogEn := v.getLsbD 8, wdogTmo := if fld v 0 8 = 0 then y.wdogTmo else BitVec.ofNat 8 (fld v 0 8) }
  | 0x18 => writeReset v s
  | _ => s

/-! ### JTAG (R642, R643) -/

/-- An instruction of the TAP, whose pins lie in PD2; outside EXTEST, CLAMP and HIGHZ the pins carry what the part drives. -/
def tap (ir : Nat) (f : JtagSt → JtagSt) (s : State) : State := if s.on 2 then s.onJtag fun j => f { j with ir := ir, pins := none, out := 0 } else s

/-- EXTEST: the pins carry the boundary-scan register, HG and WAKE_OUT excepted (R643). -/
def execExtest (v : List Bool) (s : State) : Host.Outcome State Fault Refusal := .next (tap 0x00 (fun j => { j with dr := v, pins := some v }) s)

/-- IDCODE. -/
def execIdcode (s : State) : Host.Outcome State Fault Refusal := .next (tap 0x01 (fun j => { j with out := 0xA48323B3 }) s)

/-- SAMPLE/PRELOAD: the boundary-scan register is loaded; what the pins carried is read out (log entry 5). -/
def execSamplePreload (v : List Bool) (s : State) : Host.Outcome State Fault Refusal :=
  .next (let (w, s) := s.draw; tap 0x02 (fun j => { j with dr := v, out := w }) s)

/-- CLAMP: the pins carry the boundary-scan register while the bypass register is selected. -/
def execClamp (s : State) : Host.Outcome State Fault Refusal := .next (tap 0x04 (fun j => { j with pins := some j.dr }) s)

/-- HIGHZ: every pin the boundary-scan register covers is high-impedance. -/
def execHighz (s : State) : Host.Outcome State Fault Refusal := .next (tap 0x05 (fun j => { j with pins := some [] }) s)

/-- BYPASS. -/
def execBypass (s : State) : Host.Outcome State Fault Refusal := .next (tap 0x3F id s)

/-! ### Clocks (R69) -/

/-- CLOCK_LOSS. The loss of REFCLK has its own command, the fallback oscillator is not lost, and NETREF takes the NET PLL with it
(Table 2.1). -/
def execClockLoss (k : Clk) (s : State) : Host.Outcome State Fault Refusal :=
  if k = .refclk then execRefclkLoss s
  else .next (if s.on 2 && k != .deskrc then
      let s := if k = .netref then setClk .net false (s.onClk fun c => { c with netLost := true }) else s
      takeLeft (setClk k false s)
    else s)

/-- CLOCK_RETURN: a clock returns where a domain that is on uses it. -/
def execClockReturn (k : Clk) (s : State) : Host.Outcome State Fault Refusal :=
  if k = .refclk then execRefclkReturn s
  else
    let s := if k = .netref then s.onClk fun c => { c with netLost := false } else s
    let used (k : Clk) : Bool := k == .desk || k == .xtal32 || (List.range 16).any fun d => s.on d && (domClocks d).contains k
    .next (if s.on 2 && used k && k != .deskrc && (!(fromRef k || k == .desk) || s.clk.stat.getLsbD 0) && !(fromNetref k && s.clk.netLost) then
        let s := setClk k true s
        if k = .netref then setClk .net true s else s
      else s)

def sysVerbs : List (Verb × (Ctx → Pfx → Env → State → Res)) :=
  [(sysResetWarmV, sysResetWarmBody), (sysResetFullV, sysResetFullBody), (fuseV, fuseBody), (flashShowV, flashShowBody),
    (flashEraseV, flashEraseBody), (flashWriteV, flashWriteBody), (flashRescanV, flashRescanBody), (sysBootV, sysBootBody),
    (sysShowV, sysShowBody), (sysCapsV, sysCapsBody), (sysMapV, sysMapBody), (sysModesV, sysModesBody), (sysHealthV, sysHealthBody)]

end Sys2Proof.Machine
end

