-- ==== Sys2Proof/Machine/Held.lean ====
section
/-! DEFINITION. Effects held for their reply (R85, R88, R490, R648, R688): how they take place when the reply has left or its session
ends, and the commands that can end a session with a domain or with the USB carrier. -/

namespace Sys2Proof.Machine

/-- A held effect takes place. -/
def takeDeferred (f : Deferred) (s : State) : State :=
  match f with
  | .resetFull => fullReset s
  | .resetWarm => warmByCommand s
  | _ => takeHeld f s

/-- The effects of sessions that have ended take place at that moment (R688); one of them may end further sessions. -/
def settleRun (fuel : Nat) (s : State) : State :=
  match fuel with
  | 0 => s
  | f + 1 =>
    match s.desk.deferred.find? fun e => e.1 == 4 with
    | some e => settleRun f (takeDeferred e.2 (s.onDesk fun d => { d with deferred := d.deferred.erase e }))
    | none => s
def settleDue (s : State) : State := settleRun s.desk.deferred.length s

/-- Whether everything a session had to send has left. -/
def allSent (k : Nat) (s : State) : Bool := (s.sess k).out.isEmpty && (s.sess k).waiting.isNone

/-- DEFERRED_EFFECT (R688): the first held effect whose reply has left takes place, and where none has, the oldest, whose 100 ms have
passed (log entry 71). -/
def execDeferredEffect (s : State) : Host.Outcome State Fault Refusal :=
  .next (match (s.desk.deferred.find? fun e => allSent e.1 s).or s.desk.deferred.head? with
    | none => s
    | some e => settleDue (takeDeferred e.2 (s.onDesk fun d => { d with deferred := d.deferred.erase e })))

/-! ### Sessions that end with a domain -/

/-- MOVE_LOBBY_TO_HUSH: PD8 to PD5 and PD3 off, once the reply of a session they carry has left (R85); the slots are reloaded, outcomes
told and a due refresh started at this entry to HUSH too. -/
def execMoveLobbyToHush (s : State) : Host.Outcome State Fault Refusal :=
  .next (if s.pwr.house == .lobby && !s.pwr.rising && (s.pwr.goal == some .hush || s.pwr.goal == some .vault) && !heldHouse (· != 0) s then
      let s := s.forEach [8, 7, 6, 5, 3] domOff
      settleDue (hushRefresh (reportGauge (reloadSlots (reached .hush true s))))
    else s)

/-- PWR_DOMCFG_WRITE (R583, R585). -/
def execPwrDomcfgWrite (v : W32) (s : State) : Host.Outcome State Fault Refusal :=
  .next (if s.on 2 then settleDue (writeDomcfg v s) else s)

/-- `pwr.set` with what follows from the end of a session by it. -/
def pwrSetAll (c : Ctx) (p : Pfx) (e : Env) (s : State) : Res :=
  match pwrSetBody c p e s with
  | .ok ls s => .ok ls (settleDue s)
  | r => r
def execPwrSet (c : Ctx) (p : Pfx) (a : Args) (s : State) : Host.Outcome State Fault Refusal := ulc pwrSetV pwrSetAll c p a s

/-! ### Sessions that end with the USB carrier -/

/-- BUS_RESET (R438). -/
def execBusReset (stage : CtlStage) (hs : Bool) (s : State) : Host.Outcome State Fault Refusal := .next (settleDue (busReset stage hs s))

/-- SUSPEND (R439). -/
def execSuspend (s : State) : Host.Outcome State Fault Refusal := .next (settleDue (busSuspend s))

/-- VBUS_LOSS (R441). -/
def execVbusLoss (stage : CtlStage) (s : State) : Host.Outcome State Fault Refusal := .next (settleDue (vbusLost stage s))

/-- `usb.set` (R446); `bulk=` needs OWNER (Table 3.7). -/
def usbSetV : Verb := {
  obj := "usb", name := "set", level := .keeper
  keys := [kOnOff "attach", kOnOff "uac", kOnOff "bulk", kOnOff "hs"] }
def usbSetBody (_c : Ctx) (_p : Pfx) (e : Env) (s : State) : Res :=
  if s.on 5 = false then .err 40 "" s
  else
    let s := s.onUsb fun u => { u with
      uacen := (e.flag? "uac").getD u.uacen, bulken := (e.flag? "bulk").getD u.bulken, hsen := (e.flag? "hs").getD u.hsen }
    .ok [] (match e.flag? "attach" with | some a => settleDue (setAttach a s) | none => s)
def execUsbSet (c : Ctx) (p : Pfx) (a : Args) (s : State) : Host.Outcome State Fault Refusal := ulc usbSetV usbSetBody c p a s

/-- The verbs of this file. -/
def heldVerbs : List (Verb × (Ctx → Pfx → Env → State → Res)) := [(usbSetV, usbSetBody), (pwrSetV, pwrSetAll)]

end Sys2Proof.Machine
end

