-- ==== Sys2Proof/Machine/Regs.lean ====
section
/-! DEFINITION. The address map (R22 to R29): the CSR blocks, peek and poke (R137 to R140), register writes by firmware, the vendor bulk
interface (R435, R436, R630), and JTAG's DEBUG (R642). -/

namespace Sys2Proof.Machine

/-! ### The DSK registers (R141 to R146) -/

/-- Seconds of the part-wide lockout left (R121, R146). -/
def lockoutLeft (d : LdgSt) : Nat := if 20 ≤ d.unlockFails.toNat then (360000 - d.lockTicks + 99) / 100 else 0

def levelNum (l : Level) : Nat := match l with | .visitor => 0 | .keeper => 1 | .owner => 2

/-- DSK_SESSn (Table 3.9). -/
def dskSess (x : Session) : W32 :=
  put 8 x.tag.toNat + put 4 (b2n x.held) + put 3 (b2n x.machine) + put 1 (levelNum x.level) + put 0 (b2n x.opened)

def dskRead (off : Nat) (s : State) : W32 × State :=
  let d := s.desk
  match off with
  | 0x00 => (put 16 d.tcpPort.toNat + put 2 (b2n d.morning) + put 1 (b2n d.cdcen) + put 0 (b2n d.tcpen), s)
  | 0x04 => (put 24 (b2n d.flow) + put 0 d.baud.toNat, s)
  | 0x10 => (dskSess (s.sess 0), s)
  | 0x14 => (dskSess (s.sess 1), s)
  | 0x18 => (dskSess (s.sess 2), s)
  | 0x1C => (dskSess (s.sess 3), s)
  | 0x20 => (put 16 d.cDup.toNat + put 8 d.cSeq.toNat + put 0 d.cCrc.toNat, s.onDesk fun d => { d with cDup := 0, cSeq := 0, cCrc := 0 })
  | 0x24 => (((List.range 4).map fun k => put (8 * k) (d.drop.getD k 0).toNat).foldl (· + ·) 0, s.onDesk fun d => { d with drop := [0, 0, 0, 0] })
  | 0x28 => (put 8 (lockoutLeft s.ldg) + put 0 s.ldg.unlockFails.toNat, s)
  | _ => (0, s)

/-- Whether a UART rate is one of R142. -/
def baudOk (n : Nat) : Bool := decide (115200 ≤ n) && decide (n ≤ 3000000)

def dskWrite (off : Nat) (v : W32) (s : State) : State :=
  match off with
  | 0x00 => s.onDesk fun d => { d with
      tcpPort := BitVec.ofNat 16 (fld v 16 16), morning := v.getLsbD 2, cdcen := v.getLsbD 1, tcpen := v.getLsbD 0 }
  | 0x04 => s.onDesk fun d => { d with
      baud := if baudOk (fld v 0 22) then BitVec.ofNat 22 (fld v 0 22) else d.baud, flow := v.getLsbD 24 }
  | _ => s

/-! ### CSR blocks (Table 1.6) -/

/-- A read of a register in block `b` of the first sixteen. -/
def blockRead (b off : Nat) (s : State) : W32 × State :=
  match b with
  | 0x0 => sysRead off s
  | 0x1 => clkRead off s
  | 0x2 => tlyRead off s
  | 0x3 => pwrRead off s
  | 0x4 => dskRead off s
  | 0x5 => innRead off s
  | 0x6 => ldrRead off s
  | 0x7 => memRead off s
  | 0x8 => cchRead off s
  | 0x9 => netRead 0 off s
  | 0xA => netRead 1 off s
  | 0xB => audRead off s
  | 0xC => usbRead off s
  | 0xD => porRead off s
  | 0xE => ldgRegRead off s
  | 0xF => hthRead off s
  | _ => (0, s)

/-- A write of a register in block `b` of the first sixteen. -/
def blockWrite (b off : Nat) (v : W32) (s : State) : State :=
  match b with
  | 0x0 => sysWrite off v s
  | 0x1 => clkWrite off v s
  | 0x2 => tlyWrite off v s
  | 0x3 => if off = 0x0C then writeDomcfg v s else pwrWrite off v s
  | 0x4 => dskWrite off v s
  | 0x5 => innWrite off v s
  | 0x6 => ldrWrite off v s
  | 0x7 => memWrite off v s
  | 0x8 => cchWrite off v s
  | 0x9 => netWrite 0 off v s
  | 0xA => netWrite 1 off v s
  | 0xB => audWrite off v s
  | 0xC => usbWrite off v s
  | 0xD => porWrite off v s
  | 0xE => ldgRegWrite off v s
  | 0xF => hthWrite off v s
  | _ => s

/-- The power domain of a block of the first sixteen (Table 1.6). -/
def blockDom (b : Nat) : Nat := [2, 2, 3, 2, 2, 10, 11, 9, 8, 6, 7, 3, 5, 0, 1, 4].getD b 2

/-! ### Places (Table 1.5) -/

/-- What an address names: LPDDR5X, an offset in a stake's store, in a room, in a CSR block, in a stake's registers, or nothing. -/
inductive Place where
  | ddr (a : Nat)
  | store (k off : Nat)
  | room (n off : Nat)
  | csr (b off : Nat)
  | stk (k off : Nat)
  | none
  deriving DecidableEq, Repr

/-- The first address of CSR space. -/
def csrBase : Nat := 0x1F0000000000

/-- The place of an address (R22, R28). -/
def placeOf (a : Nat) : Place :=
  if a < 0x800000000 then .ddr a
  else if 0x100000000000 ≤ a ∧ a < 0x100006000000 then .store ((a - 0x100000000000) / 0x200000) ((a - 0x100000000000) % 0x200000)
  else if 0x110000000000 ≤ a ∧ a < 0x110000200000 then .room ((a - 0x110000000000) / 0x10000) ((a - 0x110000000000) % 0x10000)
  else if csrBase ≤ a ∧ a < csrBase + 0x100000 then .csr ((a - csrBase) / 0x10000) ((a - csrBase) % 0x10000)
  else if csrBase + 0x100000 ≤ a ∧ a < csrBase + 0x130000 then .stk ((a - csrBase - 0x100000) / 0x1000) ((a - csrBase) % 0x1000)
  else .none

/-- The region of Table 1.5 a place lies in. -/
def Place.region (p : Place) : Nat := match p with | .ddr _ => 1 | .store .. => 2 | .room .. => 3 | .csr .. => 4 | .stk .. => 4 | .none => 0

/-- Why a place cannot be read: unmapped (R24, R23), or its power domain off (R25). -/
def placeErr (a : Nat) (s : State) : Option Nat :=
  match placeOf a with
  | .none => some 13
  | .ddr a => if !s.mem.valid then some 40 else if s.usable ≤ a then some 13 else none
  | .store k _ => if s.on (12 + k / 12) then none else some 40
  | .room .. => if s.on 10 then none else some 40
  | .csr b _ => if s.on (blockDom b) || blockDom b == 0 then none else some 40
  | .stk k _ => if s.on (12 + k / 12) then none else some 40

/-- Whether a place holds what the spec forbids to write: the store of a loaded plan's stake, a room held by a staying guest, one being
zeroed or copied (R26, R246). -/
def placeBusy (a : Nat) (s : State) : Bool :=
  match placeOf a with
  | .store k _ => stakeUsed k s
  | .room n _ => (tget s.inn.inUse n).isSome || (match tget s.inn.rooms n with
      | some g => (s.guest g).state == .staying
      | none => false)
  | _ => false

/-- A word of the conditioning buffers of stake `k`, `off` bytes into them (Table 5.1, R222, R223; log entry 80): two halves of sixteen
rows, the one in force being that of the present round; a row of no guest reads as zero. -/
def condWord (k off : Nat) (s : State) : W32 :=
  match s.planAt k with
  | none => 0
  | some p =>
    match (s.rowsOf p.name Guest.inRounds).find? fun e => e.2.row == off % 0x8000 / 0x800 with
    | none => 0
    | some e =>
      let vals := if off / 0x8000 = s.tly.now.toNat % 2 then e.2.ports else e.2.portsN
      BitVec.ofNat 32 (leNat (((condRow p.body ((layersOn p (k - p.base)).map (·.2)) vals).drop (off % 0x800)).take 4))

/-- One word read from a place that can be read (R27, R29). -/
def readPlace (a : Nat) (s : State) : W32 × State :=
  match placeOf a with
  | .csr b off => blockRead b off s
  | .stk k off => stkRead k off s
  | .room n off => readRoom n off s
  | .store k off => (if 0x1F0000 ≤ off ∧ stakeUsed k s = true then condWord k (off - 0x1F0000) s else s.ram.readW a, s)
  | _ => (s.ram.readW a, s)

/-- One word written to a place; one that has become unreachable takes nothing. -/
def writePlace (a : Nat) (v : W32) (s : State) : State :=
  if (placeErr a s).isSome then s
  else match placeOf a with
    | .csr b off => blockWrite b off v s
    | .stk k off => stkWrite k off v s
    | .room n off => writeRoom n off v s
    | _ => { s with ram := s.ram.writeW a v }

/-- The words of a run read in order. -/
def readRun (n a : Nat) (s : State) : List W32 × State :=
  match n with
  | 0 => ([], s)
  | k + 1 =>
    let (w, s) := readPlace a s
    let (l, s) := readRun k (a + 4) s
    (w :: l, s)

/-- Why a run of `n` words cannot be accessed (R24, R25, R139). -/
def runErr (a n : Nat) (s : State) : Option Nat :=
  let errs := (List.range n).filterMap fun k => placeErr (a + 4 * k) s
  if a % 4 ≠ 0 ∨ (placeOf a).region ≠ (placeOf (a + 4 * n - 1)).region then some 13
  else if errs.contains 13 then some 13 else errs.head?

/-- A word of a session's poke that resets the part, or that switches off the domain which carries the session, takes effect once the
reply has left (R85, R650). -/
def pokeHeld (k a : Nat) (v : W32) (s : State) : Option Deferred :=
  if a = csrBase + 0x18 ∧ fld v 0 16 = 0xA55A then
    (if v.getLsbD 17 then some .resetFull else if v.getLsbD 16 then some .resetWarm else none)
  else if a = csrBase + 0x3000C then
    let c := BitVec.ofNat 12 (fld v 4 12)
    if !cfgBad c && !((cfgDrops c s).any fun d => domHolds d s) && (cfgDrops c s).contains (sessDom k s) then some (.domains c) else none
  else none

/-- The words of a poke written in order. -/
def pokeRun (o : Origin) (l : List W32) (a : Nat) (s : State) : State :=
  match l with
  | [] => s
  | w :: r => pokeRun o r (a + 4) (match (Origin.sess? o).bind fun k => (pokeHeld k a w s).map fun f => (k, f) with
      | some (k, f) => defer k f s
      | none => writePlace a w s)

/-! ### Commands -/

def kAddress : KeySpec := { name := "address", ty := .hex 48, req := true, pos := true }

/-- `peek` (R137, R139). -/
def peekV : Verb := { obj := "", name := "peek", changes := false, level := .keeper, keys := [kAddress, kInt "n" 1 16] }
def peekBody (_c : Ctx) (_p : Pfx) (e : Env) (s : State) : Res :=
  let a := e.nat "address"
  let n := (e.nat? "n").getD 1
  match runErr a n s with
  | some c => .err c "" s
  | none =>
    let (l, s) := readRun n a s
    .ok [spaced (l.map fun w => hexS 8 w.toNat)] (s.onSys fun y => { y with readData := l })
def execPeek (c : Ctx) (p : Pfx) (a : Args) (s : State) : Host.Outcome State Fault Refusal := ulc peekV peekBody c p a s

/-- `poke` (R138 to R140, R26). -/
def pokeV : Verb := {
  obj := "", name := "poke", level := .owner, keys := [kAddress, { name := "value", ty := .hex 32, req := true, pos := true, many := true }] }
def pokeBody (c : Ctx) (_p : Pfx) (e : Env) (s : State) : Res :=
  let a := e.nat "address"
  let l := (e.allNums "value").map fun n => BitVec.ofNat 32 n
  if 8 < l.length then .err 13 "" s
  else match runErr a l.length s with
  | some c => .err c "" s
  | none =>
    if (List.range l.length).any fun k => placeBusy (a + 4 * k) s then .err 30 "" s
    else .ok [] (settleDue (pokeRun c.origin l a s))
def execPoke (c : Ctx) (p : Pfx) (a : Args) (s : State) : Host.Outcome State Fault Refusal := ulc pokeV pokeBody c p a s

/-- REGISTER_WRITE: a write by firmware to a register whose domain is on; each field acts by its access code (R8, R28, R29). -/
def execRegisterWrite (addr : Nat) (v : W32) (s : State) : Host.Outcome State Fault Refusal :=
  .next (if addr % 4 = 0 ∧ (placeOf addr).region = 4 then settleDue (writePlace addr v s) else s)

/-- DEBUG (R642): while JTAGLOCK is intact, OWNER-level access to one word; a blown fuse leaves the bypass register selected. -/
def execDebug (write : Bool) (addr : Nat) (v : W32) (s : State) : Host.Outcome State Fault Refusal :=
  .next (if s.sys.jtaglock then tap 0x3F id s
    else if !s.on 2 then s
    else
      let s := tap 0x10 id s
      if (runErr addr 1 s).isSome then s
      else if write then (if placeBusy addr s then s else settleDue (writePlace addr v s))
      else
        let (w, s) := readPlace addr s
        s.onJtag fun j => { j with out := w })

/-! ### The vendor bulk interface -/

/-- The answer to a transfer (R435): the data, the status and the bytes moved; a failed one counts. -/
def bulkAnswer (data : List Byte) (code moved : Nat) (s : State) : State :=
  s.onUsb fun u => { u with
    bulkIn := (data ++ natLe 2 code ++ [0, 0] ++ natLe 4 moved) :: u.bulkIn, cBulk := if code = 0 then u.cBulk else satInc u.cBulk }

/-- Whether the host can reach interface 5 (R432). -/
def bulkUp (s : State) : Bool := s.on 5 && s.usb.state == .configured

/-- What is wrong with a header (R435, R436). -/
def bulkBad (h : BulkHdr) : Bool :=
  h.magic != 0x4B4C5542 || h.rsvd != 0 || decide (2 ^ 48 ≤ h.addr) || h.len % 4 != 0 || decide (0x1000000 < h.len)

/-- The end of the boot wait by OP 0x0003 (R630). -/
def bulkEnd (len : Nat) (patch : Option (Nat × Bool)) (s : State) : State :=
  if !s.usb.bulken then bulkAnswer [] 20 0 s
  else if s.sys.waiting && s.sys.source == 2 && len == 0 then endWait patch (bulkAnswer [] 0 0 s)
  else bulkAnswer [] 10 0 s

/-- VENDOR_BULK_WRITE (R436, R630). -/
def execVendorBulkWrite (h : BulkHdr) (data : List Byte) (body : Option PlanBody) (s : State) : Host.Outcome State Fault Refusal :=
  .next (if !bulkUp s then s
    else if !s.usb.bulken then bulkAnswer [] 20 0 s
    else if bulkBad h || h.op != 1 then bulkAnswer [] 10 0 s
    else if s.sys.waiting && s.sys.source == 2 && decide (h.addr < 0x80000) then
      if h.addr + h.len ≤ 0x80000 then bulkAnswer [] 0 h.len s else bulkAnswer [] 13 0 s
    else if (placeOf h.addr).region == 1 && !s.mem.valid then bulkAnswer [] 40 0 s
    else if !inUsable h.addr h.len s || inCellar h.addr h.len s then bulkAnswer [] 13 0 s
    else
      let bs := data.take h.len
      let s := { s with ram := s.ram.writeN h.addr bs }
      let s := s.onMem fun m =>
        let kept := m.bodies.filter fun b => !(decide (h.addr ≤ b.1) && decide (b.1 < h.addr + bs.length))
        { m with bodies := match body with | some b => tset kept h.addr b | none => kept }
      bulkAnswer [] 0 bs.length s)

/-- VENDOR_BULK_READ (R436): a read follows R24 to R27. -/
def execVendorBulkRead (h : BulkHdr) (s : State) : Host.Outcome State Fault Refusal :=
  .next (if !bulkUp s then s
    else if !s.usb.bulken then bulkAnswer [] 20 0 s
    else if bulkBad h || h.op != 2 then bulkAnswer [] 10 0 s
    else if h.len = 0 then bulkAnswer [] 0 0 s
    else match runErr h.addr (h.len / 4) s with
      | some c => bulkAnswer [] c 0 s
      | none =>
        let (l, s) := readRun (h.len / 4) h.addr s
        bulkAnswer (l.map wordBytes).flatten 0 h.len s)

/-- VENDOR_BULK_END_WAIT (R630). -/
def execVendorBulkEndWait (len : Nat) (patch : Option (Nat × Bool)) (s : State) : Host.Outcome State Fault Refusal :=
  .next (if bulkUp s then bulkEnd len patch s else s)

def regVerbs : List (Verb × (Ctx → Pfx → Env → State → Res)) := [(peekV, peekBody), (pokeV, pokeBody)]

end Sys2Proof.Machine
end

