-- ==== Sys2Proof/Machine/Session.lean ====
section
/-! DEFINITION. Console sessions and the Desk's own commands (spec 03): how sessions open and end, their output buffers, modes, notice
masks, claims, levels and passphrases, the morning script's and the keyword macros' editing, effects held for their reply, and the
Ledger's commits. -/

namespace Sys2Proof.Machine

/-! ### Sessions (Table 3.1, R81 to R84) -/

/-- The objects of Table 3.7. -/
def objects : List String :=
  ["sys", "house", "clk", "tly", "desk", "morning", "macro", "fmt", "plan", "stk", "guest", "room", "bundle", "inn", "ldr", "mem", "route",
   "win", "cch", "net", "ptp", "aud", "aes", "usb", "por", "ldg", "log", "hth", "pwr"]

/-- Session `k` opens in TYPED mode at VISITOR; it gets its first prompt once sessions are served (R83, R131). -/
def openSession (k port : Nat) (peer : String) (s : State) : State :=
  let s := s.onSess k fun _ => { opened := true, port := port, peer := peer }
  if s.desk.ready then pushOut k .prompt promptS s else s

/-- CDC_DTR_SET (Table 3.1, R141): not while the part waits for a patch over USB (R630). -/
def execCdcDtrSet (s : State) : Host.Outcome State Fault Refusal :=
  .next (if s.on 2 && s.on 5 && s.usb.state == .configured && s.desk.cdcen && !s.sys.waiting && !(s.sess 1).opened then openSession 1 0 "" s else s)

/-- CDC_DTR_CLEAR. -/
def execCdcDtrClear (s : State) : Host.Outcome State Fault Refusal := .next (settleDue (endSession 1 s))

/-- TCP_CONNECT (Table 3.1, R82): the connection takes the first of S2 and S3 that is closed, or is answered busy and closed. -/
def execTcpConnect (port tcpPort : Nat) (peer : String) (s : State) : Host.Outcome State Fault Refusal :=
  .next (if s.on 2 && decide (port < 2) && s.on (portDom port) && (s.net port).link && s.desk.tcpen && s.desk.tcpPort.toNat == tcpPort && !s.sys.waiting then
      if !(s.sess 2).opened then openSession 2 port peer s
      else if !(s.sess 3).opened then openSession 3 port peer s
      else s.onDesk fun d => { d with refused := d.refused ++ [(port, "err 30 busy" ++ crlf)] }
    else s)

/-- TCP_CLOSE (R84). -/
def execTcpClose (k : Nat) (s : State) : Host.Outcome State Fault Refusal := .next (if k = 2 ∨ k = 3 then settleDue (endSession k s) else s)

/-! ### The output buffer (R112 to R114, R693) -/

/-- `n` characters taken off the front of a buffer. -/
def drainOut (n : Nat) (l : List OutItem) : List OutItem :=
  match l with
  | [] => []
  | i :: r =>
    let left := i.text.length - i.sent
    if left ≤ n then drainOut (n - left) r else { i with sent := i.sent + n } :: r

/-- OUTPUT_BUFFER_DRAIN (R693). -/
def execOutputBufferDrain (k n : Nat) (s : State) : Host.Outcome State Fault Refusal :=
  .next (if k < 4 then s.onSess k fun x => { x with out := drainOut n x.out } else s)

/-- DESK_DROPPED (R113): the count joins a `!desk.dropped` of which nothing has left. -/
def deskDropped (k : Nat) (s : State) : State :=
  let x := s.sess k
  let old : Nat := (x.out.map fun i => match i.kind with | .dropped n => if i.sent == 0 then n else 0 | _ => 0).sum
  let rest := x.out.filter fun i => match i.kind with | .dropped _ => i.sent != 0 | _ => true
  let n := x.dropPend + old
  let t := noticeText x ("!desk.dropped " ++ kn "n" n ++ " " ++ kv "t" (noticeT s))
  if x.dropPend = 0 ∨ x.waiting.isSome ∨ outCap < outUsed { x with out := rest } + t.length then s
  else s.onSess k fun x => { x with out := rest ++ [⟨.dropped n, t, 0⟩], dropPend := 0, mid := leavesMid x.mid t }
def execDeskDropped (k : Nat) (s : State) : Host.Outcome State Fault Refusal :=
  .next (if k < 4 then (if (s.sess k).opened && s.desk.ready then deskDropped k s else s) else s)

/-! ### Modes and notices (R98, R111) -/

/-- `desk.mode` (R98): the mode changes after the reply. A line of the script, of a macro or of a route has no session (R694). -/
def deskModeV : Verb := {
  obj := "desk", name := "mode", keys := [{ name := "mode", ty := .enum ["typed", "machine"], req := true, pos := true }] }
def deskModeBody (c : Ctx) (_p : Pfx) (e : Env) (s : State) : Res :=
  match c.origin with
  | .sess k => .ok [] (s.onSess k fun x => { x with next := some (e.word "mode" == "machine") })
  | _ => .err 40 "" s
def execDeskMode (c : Ctx) (p : Pfx) (a : Args) (s : State) : Host.Outcome State Fault Refusal := ulc deskModeV deskModeBody c p a s

/-- `desk.notices` (R111). -/
def deskNoticesV : Verb := {
  obj := "desk", name := "notices", keys := [{ name := "on", ty := .enums ("all" :: objects) }, { name := "off", ty := .enums ("all" :: objects) }] }
def deskNoticesBody (c : Ctx) (_p : Pfx) (e : Env) (s : State) : Res :=
  match c.origin with
  | .sess k =>
    let names (key : String) : List String := let l := e.words key; if l.contains "all" then objects else l
    if e.isEmpty then .ok [kv "on" (commas (objects.filter fun o => !(s.sess k).off.contains o))] s
    else
      let off := (s.sess k).off.filter fun o => !(names "on").contains o
      .ok [] (s.onSess k fun x => { x with off := off ++ (names "off").filter fun o => !off.contains o })
  | _ => .err 40 "" s
def execDeskNotices (c : Ctx) (p : Pfx) (a : Args) (s : State) : Host.Outcome State Fault Refusal := ulc deskNoticesV deskNoticesBody c p a s

/-! ### desk.show, desk.uart, desk.set (R696, R88, R141, R142) -/

def levelName (l : Level) : String := match l with | .visitor => "VISITOR" | .keeper => "KEEPER" | .owner => "OWNER"

/-- A session's line of `desk.show`. -/
def sessLine (k : Nat) (s : State) : String :=
  let x := s.sess k
  let carrier := match k with | 0 => "uart" | 1 => "cdc" | _ => "tcp"
  spaced ([kn "sess" k, kv "mode" (if x.machine then "MACHINE" else "TYPED"), kv "level" (levelName x.level), kv "carrier" carrier] ++
    (if k = 0 then [kn "baud" s.desk.baud.toNat, kv "flow" (onoff s.desk.flow)] else if k = 1 then [] else [kv "peer" x.peer]))
def deskShowV : Verb := { obj := "desk", name := "show", changes := false }
def deskShowBody (_c : Ctx) (_p : Pfx) (_e : Env) (s : State) : Res :=
  let d := s.desk
  .ok (((List.range 4).filter fun k => (s.sess k).opened).map (fun k => sessLine k s) ++
    [spaced [kv "tcp" (onoff d.tcpen), kn "port" d.tcpPort.toNat, kv "morning" (onoff d.morning),
      kv "claims" (if d.claims.isEmpty then "none" else commas (d.claims.map fun c => c.1 ++ ":" ++ natS c.2))]]) s
def execDeskShow (c : Ctx) (p : Pfx) (a : Args) (s : State) : Host.Outcome State Fault Refusal := ulc deskShowV deskShowBody c p a s

/-- `desk.uart` (R88): the rate of a session's line changes once its reply has left. -/
def deskUartV : Verb := { obj := "desk", name := "uart", level := .keeper, keys := [kInt "baud" 115200 3000000, kOnOff "flow"] }
def deskUartBody (c : Ctx) (_p : Pfx) (e : Env) (s : State) : Res :=
  let f := Deferred.uart ((e.nat? "baud").map (BitVec.ofNat 22)) (e.flag? "flow")
  match c.origin with
  | .sess k => .ok [] (defer k f s)
  | _ => .ok [] (takeDeferred f s)
def execDeskUart (c : Ctx) (p : Pfx) (a : Args) (s : State) : Host.Outcome State Fault Refusal := ulc deskUartV deskUartBody c p a s

/-- `desk.set` sets the fields of DSK_CTL (R141). -/
def deskSetV : Verb := {
  obj := "desk", name := "set", level := .keeper, keys := [kOnOff "tcp", kInt "port" 0 65535, kOnOff "cdc", kOnOff "morning"] }
def deskSetBody (_c : Ctx) (_p : Pfx) (e : Env) (s : State) : Res :=
  .ok [] (s.onDesk fun d => { d with
    tcpen := (e.flag? "tcp").getD d.tcpen, cdcen := (e.flag? "cdc").getD d.cdcen, morning := (e.flag? "morning").getD d.morning
    tcpPort := match e.nat? "port" with | some n => BitVec.ofNat 16 n | none => d.tcpPort })
def execDeskSet (c : Ctx) (p : Pfx) (a : Args) (s : State) : Host.Outcome State Fault Refusal := ulc deskSetV deskSetBody c p a s

/-! ### Claims (R122 to R124) -/

/-- `desk.claim`: another session's claim has answered locked (R122), and a claim of its own stays (log entry 73). -/
def deskClaimV : Verb := { obj := "desk", name := "claim", level := .keeper, keys := [{ name := "obj", ty := .enum objects, req := true }] }
def deskClaimBody (c : Ctx) (_p : Pfx) (e : Env) (s : State) : Res :=
  match c.origin with
  | .sess k =>
    if s.desk.claims.any fun x => x.1 == e.word "obj" then .ok [] s
    else .ok [] (s.onDesk fun d => { d with claims := d.claims ++ [(e.word "obj", k)] })
  | _ => .err 40 "" s
def execDeskClaim (c : Ctx) (p : Pfx) (a : Args) (s : State) : Host.Outcome State Fault Refusal := ulc deskClaimV deskClaimBody c p a s

/-- `desk.release`: a claim of its own, or with `force` any (R123); where nobody claims the object nothing changes (log entry 73). -/
def deskReleaseV : Verb := {
  obj := "desk", name := "release", level := .keeper
  keys := [{ name := "obj", ty := .enum objects, req := true }, { name := "force", ty := .enum ["force"], pos := true }] }
def deskReleaseBody (c : Ctx) (_p : Pfx) (e : Env) (s : State) : Res :=
  match c.origin with
  | .sess _ => .ok [] (s.onDesk fun d => { d with claims := d.claims.filter fun x => x.1 != e.word "obj" })
  | _ => .err 40 "" s
def execDeskRelease (c : Ctx) (p : Pfx) (a : Args) (s : State) : Host.Outcome State Fault Refusal := ulc deskReleaseV deskReleaseBody c p a s

/-! ### Levels (R116 to R121) -/

/-- `desk.pass` (R118): the reply follows the Ledger's commit. -/
def deskPassV : Verb := {
  obj := "desk", name := "pass", level := .owner, keys := [kEnum "level" ["keeper", "owner"] true, { name := "new", ty := .str 8 64, req := true }] }
def deskPassBody (c : Ctx) (_p : Pfx) (e : Env) (s : State) : Res :=
  lineJob c.origin (.pass (if e.word "level" == "owner" then .owner else .keeper) (e.word "new")) s
def execDeskPass (c : Ctx) (p : Pfx) (a : Args) (s : State) : Host.Outcome State Fault Refusal := ulc deskPassV deskPassBody c p a s

/-- A failed unlock (R120, R121): the 5th of a session holds it off, and the part counts every one. -/
def unlockFailed (k : Nat) (s : State) : State :=
  (s.onSess k fun x => { x with fails := x.fails + 1, held := decide (5 ≤ x.fails + 1) }).onLdg fun d => { d with unlockFails := satInc d.unlockFails }

/-- `unlock` (R116, R117): an unset passphrase is the empty string; a wrong one is answered denied (log entry 72). -/
def unlockV : Verb := {
  obj := "", name := "unlock"
  keys := [{ name := "level", ty := .enum ["keeper", "owner"], req := true, pos := true }, { name := "passphrase", ty := .str 0 240, req := true, pos := true }] }
def unlockBody (c : Ctx) (_p : Pfx) (e : Env) (s : State) : Res :=
  match c.origin with
  | .sess k =>
    let owner := e.word "level" == "owner"
    if (if owner then s.ldg.passO else s.ldg.passK).getD "" == e.word "passphrase" then
      .ok [] ((s.onSess k fun x => { x with level := if owner then .owner else .keeper }).onLdg fun d => { d with unlockFails := 0, lockTicks := 0 })
    else .err 20 "" (unlockFailed k s)
  | _ => .err 40 "" s
def execUnlock (c : Ctx) (p : Pfx) (a : Args) (s : State) : Host.Outcome State Fault Refusal := ulc unlockV unlockBody c p a s

/-- `lock` (R116). -/
def lockV : Verb := { obj := "", name := "lock" }
def lockBody (c : Ctx) (_p : Pfx) (_e : Env) (s : State) : Res :=
  match c.origin with
  | .sess k => .ok [] (s.onSess k fun x => { x with level := .visitor })
  | _ => .err 40 "" s
def execLock (c : Ctx) (p : Pfx) (a : Args) (s : State) : Host.Outcome State Fault Refusal := ulc lockV lockBody c p a s

/-- UNLOCK_HOLDOFF_END (R120). -/
def execUnlockHoldoffEnd (k : Nat) (s : State) : Host.Outcome State Fault Refusal :=
  .next (if k < 4 then s.onSess k fun x => if x.held then { x with held := false, fails := 0 } else x else s)

/-- UNLOCK_LOCKOUT_END (R121): an hour of powered time, in frames of 10 ms, after the 20th failure. -/
def execUnlockLockoutEnd (s : State) : Host.Outcome State Fault Refusal :=
  .next (if s.on 2 && decide (20 ≤ s.ldg.unlockFails.toNat) && decide (360000 ≤ s.ldg.lockTicks) then
      s.onLdg fun d => { d with unlockFails := 0, lockTicks := 0 }
    else s)

/-- `ping`. -/
def pingV : Verb := { obj := "", name := "ping", changes := false }
def pingBody (_c : Ctx) (_p : Pfx) (_e : Env) (s : State) : Res := .ok [] s
def execPing (c : Ctx) (p : Pfx) (a : Args) (s : State) : Host.Outcome State Fault Refusal := ulc pingV pingBody c p a s

/-! ### The morning script and the keyword macros as they are edited (R125, R700) -/

/-- Lines as `morning.show` and `macro.show` list them, in order of their numbers, no secret of them in clear (R119). -/
def numbered (n : Nat) (l : Tab String) : List String :=
  (List.range (n + 1)).filterMap fun k => (tget l k).map fun t => natS k ++ (if t.isEmpty then "" else " " ++ echoed t)

/-- `morning.show`. -/
def morningShowV : Verb := { obj := "morning", name := "show", changes := false, level := .owner }
def morningShowBody (_c : Ctx) (_p : Pfx) (_e : Env) (s : State) : Res := .ok (numbered 64 s.ldg.lines) s
def execMorningShow (c : Ctx) (p : Pfx) (a : Args) (s : State) : Host.Outcome State Fault Refusal := ulc morningShowV morningShowBody c p a s

/-- Whether a line of `t` in place of one of `old` fits beside the other lines (R700). -/
def lineFits (t : String) (old : Option String) (d : LdgSt) : Bool :=
  decide (lineBytes d + (t.length + 2) ≤ 16128 + (match old with | some o => o.length + 2 | none => 0))

/-- `morning.set` (R129, R700). -/
def morningSetV : Verb := {
  obj := "morning", name := "set", level := .owner
  keys := [kInt "line" 1 64, { name := "text", ty := .str 0 240 }, kEnum "onerr" ["stop", "continue"]] }
def morningSetBody (c : Ctx) (_p : Pfx) (e : Env) (s : State) : Res :=
  let on := (e.word? "onerr").map (· == "continue")
  match e.nat? "line", e.word? "text", on with
  | some n, some t, _ => if lineFits t (tget s.ldg.lines n) s.ldg then lineJob c.origin (.line n (some t) on) s else .err 33 "" s
  | _, _, b => lineJob c.origin (.onerr (b == some true)) s
def execMorningSet (c : Ctx) (p : Pfx) (a : Args) (s : State) : Host.Outcome State Fault Refusal := ulc morningSetV morningSetBody c p a s

/-- `morning.del`. -/
def morningDelV : Verb := { obj := "morning", name := "del", level := .owner, keys := [kInt "line" 1 64 true] }
def morningDelBody (c : Ctx) (_p : Pfx) (e : Env) (s : State) : Res := lineJob c.origin (.line (e.nat "line") none none) s
def execMorningDel (c : Ctx) (p : Pfx) (a : Args) (s : State) : Host.Outcome State Fault Refusal := ulc morningDelV morningDelBody c p a s

/-- `morning.clear`. -/
def morningClearV : Verb := { obj := "morning", name := "clear", level := .owner }
def morningClearBody (c : Ctx) (_p : Pfx) (_e : Env) (s : State) : Res := lineJob c.origin .clearLines s
def execMorningClear (c : Ctx) (p : Pfx) (a : Args) (s : State) : Host.Outcome State Fault Refusal := ulc morningClearV morningClearBody c p a s

/-- `morning.run`: the script runs from its first line (R127); the line is answered at once, being none of those R87 answers at their
end. -/
def morningRunV : Verb := { obj := "morning", name := "run", level := .owner }
def morningRunBody (c : Ctx) (_p : Pfx) (_e : Env) (s : State) : Res :=
  match c.origin with
  | .sess _ => if s.desk.script == .idle then .ok [] (s.onDesk fun d => { d with script := .running 1 .no }) else .err 40 "" s
  | _ => .err 40 "" s
def execMorningRun (c : Ctx) (p : Pfx) (a : Args) (s : State) : Host.Outcome State Fault Refusal := ulc morningRunV morningRunBody c p a s

/-- `macro.set`, `macro.clear`, and `macro.show`, which Table 3.7 gives VISITOR (log entry 65). -/
def macroSetV : Verb := {
  obj := "macro", name := "set", level := .keeper, keys := [kInt "slot" 0 31 true, { name := "text", ty := .str 0 240, req := true }] }
def macroSetBody (c : Ctx) (_p : Pfx) (e : Env) (s : State) : Res :=
  if lineFits (e.word "text") (tget s.ldg.words (e.nat "slot")) s.ldg then lineJob c.origin (.keyword (e.nat "slot") (some (e.word "text"))) s
  else .err 33 "" s
def execMacroSet (c : Ctx) (p : Pfx) (a : Args) (s : State) : Host.Outcome State Fault Refusal := ulc macroSetV macroSetBody c p a s
def macroClearV : Verb := { obj := "macro", name := "clear", level := .keeper, keys := [kInt "slot" 0 31 true] }
def macroClearBody (c : Ctx) (_p : Pfx) (e : Env) (s : State) : Res := lineJob c.origin (.keyword (e.nat "slot") none) s
def execMacroClear (c : Ctx) (p : Pfx) (a : Args) (s : State) : Host.Outcome State Fault Refusal := ulc macroClearV macroClearBody c p a s
def macroShowV : Verb := { obj := "macro", name := "show", changes := false }
def macroShowBody (_c : Ctx) (_p : Pfx) (_e : Env) (s : State) : Res := .ok (numbered 31 s.ldg.words) s
def execMacroShow (c : Ctx) (p : Pfx) (a : Args) (s : State) : Host.Outcome State Fault Refusal := ulc macroShowV macroShowBody c p a s

/-! ### The end of the script (R130 to R132) -/

/-- 0x03 on S0 within 1 s after PD2's power-on: the script is skipped, and sessions are served once the part has started (R132). -/
def skipScript (s : State) : State :=
  if s.on 2 && decide (s.sys.pd2Frames < 100) && !s.desk.ready && s.desk.script != .idle then
    if s.sys.booted then deskReady "skipped" s else s.onDesk fun d => { d with script := .idle }
  else s
def execMorningSkip (s : State) : Host.Outcome State Fault Refusal := .next (skipScript s)

/-- MORNING_TIMEOUT (R130). -/
def execMorningTimeout (s : State) : Host.Outcome State Fault Refusal :=
  .next (match s.desk.script with
    | .running l _ => scriptEnd "stopped" (logEv 0 0x0102 0 l 0 s)
    | .idle => s)

/-! ### Ledger commits (R515 to R518) -/

/-- LEDGER_COMMIT: the oldest requested commit runs. Where the supply is lost in its course, the part loses power with it (R516). -/
def execLedgerCommit (fails : List Nat) (upto : CommitEnd) (residue : Bool) (s : State) : Host.Outcome State Fault Refusal :=
  .next (if s.on 1 then
      let r := runFirst fails upto residue (if s.ldg.ready then s else recoverLedger s)
      if r.2 then pinCut r.1 else r.1
    else s)

/-- The verbs of this file. -/
def deskVerbs : List (Verb × (Ctx → Pfx → Env → State → Res)) :=
  [(deskShowV, deskShowBody), (deskModeV, deskModeBody), (deskNoticesV, deskNoticesBody), (deskUartV, deskUartBody), (deskSetV, deskSetBody),
   (deskClaimV, deskClaimBody), (deskReleaseV, deskReleaseBody), (deskPassV, deskPassBody), (morningShowV, morningShowBody),
   (morningSetV, morningSetBody), (morningDelV, morningDelBody), (morningClearV, morningClearBody), (morningRunV, morningRunBody),
   (macroShowV, macroShowBody), (macroSetV, macroSetBody), (macroClearV, macroClearBody), (unlockV, unlockBody), (lockV, lockBody),
   (pingV, pingBody)]

end Sys2Proof.Machine
end

