-- ==== Sys2Proof/Machine/Catalogue.lean ====
section
/-! DEFINITION. The command catalogue (Table 3.7): every verb with its meaning, the one a line names, and `help` (R695). -/

namespace Sys2Proof.Machine

/-- Each object's verbs in the order of Table 3.7. -/
def tableVerbs : List (String × List String) :=
  [("sys", ["show", "caps", "map", "boot", "modes", "health", "reset", "flash"]), ("house", ["show", "set"]), ("clk", ["show"]),
   ("tly", ["show", "set", "late"]), ("desk", ["show", "mode", "notices", "uart", "set", "claim", "release", "pass"]),
   ("morning", ["show", "set", "del", "clear", "run"]), ("macro", ["show", "set", "clear"]), ("fmt", ["show", "conv"]),
   ("plan", ["show", "load", "unload", "set", "hop"]), ("stk", ["show", "set"]),
   ("guest", ["show", "register", "checkin", "checkout", "set", "reopen"]), ("room", ["show"]), ("bundle", ["show", "set", "reopen"]),
   ("inn", ["show", "set"])] ++
  [("ldr", ["show", "set", "load", "bind", "req", "put", "inval"]), ("mem", ["show", "set"]),
   ("route", ["show", "open", "close", "set", "recv", "post"]), ("win", ["show", "open", "close"]), ("cch", ["show", "ring"]),
   ("net", ["show", "set"]), ("ptp", ["show", "set"]), ("aud", ["show", "set", "map", "dry", "mute"]), ("aes", ["show", "set"]),
   ("usb", ["show", "set"]), ("por", ["show", "set", "enrol", "slot", "gauge", "wake"]),
   ("ldg", ["show", "read", "key", "slate", "batch", "put", "refresh", "wipe", "pass"]), ("log", ["show", "tail", "clear"]),
   ("hth", ["show", "set", "clear"]), ("pwr", ["show", "set", "crack", "fuse"])]

/-- Every verb but `help`. -/
def plainVerbs : List (Verb × (Ctx → Pfx → Env → State → Res)) :=
  tallyVerbs ++ guestVerbs ++ planVerbs ++ larderVerbs ++ coachVerbs ++ netVerbs ++ audioVerbs ++ usbVerbs ++ ledgerVerbs ++ porterVerbs ++
    hearthVerbs ++ houseVerbs ++ heldVerbs ++ sysVerbs ++ regVerbs ++ deskVerbs

/-! ### help (R695) -/

/-- A list of names, or `none`. -/
def orNone (l : List String) : String := if l.isEmpty then "none" else commas l

/-- The line of one verb of an object: keys that every form of the verb requires, then the others. -/
def helpLine (obj name : String) : Option String :=
  let forms := (plainVerbs.map (·.1)).filter fun v => v.obj == obj && v.name == name
  match forms with
  | [] => none
  | v :: _ =>
    let keys := ((forms.map fun v => v.keys.map (·.name)).flatten).eraseDups
    let must := keys.filter fun k => forms.all fun v => v.keys.any fun x => x.name == k && x.req
    some (spaced [obj ++ "." ++ name, kv "kind" (if forms.any (·.event) then "event" else "setting"), kv "level" (levelName v.level),
      kv "keys" (orNone must), kv "opt" (orNone (keys.filter fun k => !must.contains k))])
def helpV : Verb := { obj := "", name := "help", changes := false, keys := [{ name := "object", ty := .name, pos := true }] }
def helpBody (_c : Ctx) (_p : Pfx) (e : Env) (s : State) : Res :=
  match e.word? "object" with
  | none => .ok ((tableVerbs.map fun x => spaced [x.1, kv "verbs" (commas x.2)]) ++ ["bare verbs=help,ping,unlock,lock,peek,poke"]) s
  | some o =>
    match tableVerbs.find? fun x => x.1 == lowerS o with
    | none => .err 12 "" s
    | some x => .ok (x.2.filterMap (helpLine x.1)) s
def execHelp (c : Ctx) (p : Pfx) (a : Args) (s : State) : Host.Outcome State Fault Refusal := ulc helpV helpBody c p a s

/-! ### The verb a line names -/

/-- Every verb. -/
def verbs : List (Verb × (Ctx → Pfx → Env → State → Res)) := plainVerbs ++ [(helpV, helpBody)]

/-- How badly a line's arguments fit one form of a verb: every check passes; its keys and its words fit; its keys fit; none. -/
def misfit (v : Verb) (a : Args) : Nat :=
  match checkArgs v.keys a with
  | .ok _ => 0
  | .error _ =>
    match bindArgs v.keys a with
    | .error _ => 3
    | .ok l => if l.all fun p => !p.1.pos || (p.1.ty.check p.2).isSome then 1 else 2

/-- The form of a verb that a line's arguments fit best, the first on a tie. -/
def bestForm (l : List (Verb × (Ctx → Pfx → Env → State → Res))) (a : Args) : Option (Verb × (Ctx → Pfx → Env → State → Res)) :=
  l.foldl (fun b x => match b with | none => some x | some y => if misfit x.1 a < misfit y.1 a then some x else b) none

/-- The verb of a line, or the error of check order 4. -/
def findVerb (obj name : String) (a : Args) : Except Nat (Verb × (Ctx → Pfx → Env → State → Res)) :=
  if obj != "" && !objects.contains obj then .error 12
  else match bestForm (verbs.filter fun x => x.1.obj == obj && x.1.name == name) a with
    | some x => .ok x
    | none => .error 11

end Sys2Proof.Machine
end

