-- ==== Sys2Proof/Machine/Lines.lean ====
section
/-! DEFINITION. Lines as they arrive (spec 03): typed characters, lines of the sessions with their CRC, tag and history, the morning
script's next line, keyword macros, and the lines of DESK-bound routes. -/

namespace Sys2Proof.Machine

/-! ### One line -/

/-- A line's command found and run: none for an empty line or a comment (R90, R93, R108). `long` says that the line, with its tag
and CRC, is over 240 characters (R89). -/
def lineRes (c : Ctx) (long : Bool) (t : List Char) (s : State) : Option Res :=
  if long || !t.all printable then some (.err 10 "" s)
  else match pLine t with
    | .blank => none
    | .bad k => some (.err 10 k s)
    | .cmd p o v a =>
      match findVerb o v a with
      | .error e => some (.err e "" s)
      | .ok x => some (runVerb x.1 x.2 c p a s)

/-- A TYPED line of a session, of the script, of a macro or of a route. -/
def typedLine (c : Ctx) (text : String) (s : State) : Option Res := lineRes c (decide (240 < text.length)) text.toList s

/-! ### MACHINE mode (R101 to R107) -/

/-- What the checks of a MACHINE line before its grammar find. -/
inductive Mach where
  /-- An empty line or a comment (R93). -/
  | blank
  /-- An error that leaves the tag history alone, with the tag of its reply (R105 to R107). -/
  | bad (code : Nat) (tag : Option Nat)
  /-- A repeat, with the stored reply (R104). -/
  | again (reply : List String)
  /-- A new line with its tag and its command. -/
  | fresh (tag : Nat) (body : List Char)
  deriving DecidableEq, Repr

/-- CRC, tag and history of a MACHINE line (R103 to R107, R689). -/
def machCheck (x : Session) (text : String) : Mach :=
  let l := text.toList
  if pLine l == .blank then (if l.all printable && decide (l.length ≤ 240) then .blank else .bad 10 none)
  else match splitCrc l with
    | none => .bad 10 ((pTag l).map (·.1))
    | some (b, crc) =>
      if lineCrc (String.ofList b) != crc then .bad 15 ((pTag b).map (·.1))
      else match pTag b with
        | none => .bad 10 none
        | some (n, r) =>
          match x.hist.find? fun h => h.1 == text with
          | some h => .again h.2
          | none => if x.expect.getD n != n then .bad 16 (some n) else .fresh n r

/-- A line's reply stored with it, or the line kept until its work ends (R107). -/
def keepReply (k : Nat) (text : String) (tag : Nat) (r : Res) : Res :=
  let f (t : String) (s : State) : State := s.onSess k (remember text t)
  match r with
  | .ok ls s => .ok ls (f (okText true (some tag) ls) s)
  | .err e a s => .err e a (f (errText true (some tag) e a) s)
  | .work s => .work (s.onSess k fun x => { x with busyLine := some text })

/-- A MACHINE line of session `k`; a tag must have a command after it (R90). -/
def machLine (k : Nat) (text : String) (cut : Bool) (s : State) : State :=
  match machCheck (s.sess k) text with
  | .blank => s
  | .bad e tag =>
    let s := match e with
      | 15 => s.onDesk fun d => { d with cCrc := satInc d.cCrc }
      | 16 => s.onDesk fun d => { d with cSeq := satInc d.cSeq }
      | _ => s
    pushOut k .reply (errText true tag e "") s
  | .again r => pushOut k .reply (String.join r) (s.onDesk fun d => { d with cDup := satInc d.cDup })
  | .fresh tag body =>
    let c : Ctx := ⟨.sess k, some tag, cut⟩
    let s := noteTag c.origin c.tag s
    let long := decide (240 < text.length)
    deliver c (keepReply k text tag ((lineRes c long body s).getD (.err 10 "" s)))

/-! ### Lines of a session (R86, R114) -/

/-- A line that session `k` reads: an empty TYPED line is answered with the prompt (R93). -/
def readLine (k : Nat) (text : String) (cut : Bool) (s : State) : State :=
  if (s.sess k).machine then machLine k text cut s
  else match typedLine ⟨.sess k, none, cut⟩ text s with
    | none => pushOut k .prompt promptS s
    | some r => deliver ⟨.sess k, none, cut⟩ r

/-- The oldest line that waits is read, when the session is between lines (R86, R114). -/
def serveLine (k : Nat) (cut : Bool) (s : State) : State :=
  match (s.sess k).inq with
  | [] => s
  | t :: r => if canRun (.sess k) s then readLine k t cut (s.onSess k fun x => { x with inq := r }) else s

/-- A line whose terminator has arrived. -/
def takeLine (k : Nat) (text : String) (cut : Bool) (s : State) : State :=
  serveLine k cut (s.onSess k fun x => { x with inq := x.inq ++ [text], typed := "", esc := false })

/-- Whether characters of session `k` are taken (R131). -/
def listens (k : Nat) (s : State) : Bool := s.on 2 && decide (k < 4) && (s.sess k).opened && s.desk.ready

/-- LINE_RECEIVED (R86). -/
def execLineReceived (k : Nat) (text : String) (cut : Bool) (s : State) : Host.Outcome State Fault Refusal :=
  .next (if listens k s then takeLine k text cut (s.onSess k fun x => { x with cr := false }) else s)

/-- REPLY_BUFFERED (R114): what waits enters the buffer as far as space has freed, and the next line is read once all of it has. -/
def execReplyBuffered (k : Nat) (cut : Bool) (s : State) : Host.Outcome State Fault Refusal :=
  .next (if listens k s then serveLine k cut (refill (((s.sess k).waiting.getD []).length + 2) k s) else s)

/-! ### Typed characters (Tables 3.2 and 3.3) -/

/-- The echo of the next character of a partial line: `*` inside a secret (R119, R505). -/
def echoOf (typed : String) (ch : Char) : String := String.ofList [(echoed (typed.push ch)).toList.getLastD ch]

/-- A character of a TYPED session that is no terminator. -/
def typeChar (k : Nat) (ch : Char) (s : State) : State :=
  let x := s.sess k
  let code := ch.toNat
  if x.esc then (if ch.isAlpha then s.onSess k fun x => { x with esc := false } else s)
  else if code = 0x1B then s.onSess k fun x => { x with esc := true }
  else if code = 0x08 ∨ code = 0x7F then s.onSess k fun x => { x with typed := String.ofList x.typed.toList.dropLast }
  else if code = 0x15 then pushOut k .prompt promptS (s.onSess k fun x => { x with typed := "" })
  else if code = 0x03 then pushOut k .prompt ("^C" ++ crlf ++ promptS) (s.onSess k fun x => { x with typed := "" })
  else if printable ch then pushOut k .echo (echoOf x.typed ch) (s.onSess k fun x => { x with typed := x.typed.push ch })
  else s

/-- A character of a TYPED session: a CR, a LF or the pair closes the line (R90), but for one in an escape sequence (Table 3.3). -/
def takeChar (k ch : Nat) (cut : Bool) (s : State) : State :=
  let x := s.sess k
  let s := s.onSess k fun x => { x with cr := ch == 0x0D }
  if x.esc then typeChar k (Char.ofNat ch) s
  else if ch = 0x0A ∧ x.cr then s
  else if ch = 0x0D ∨ ch = 0x0A then takeLine k x.typed cut s
  else typeChar k (Char.ofNat ch) s

/-- TYPED_CHARACTER: a character of a session in TYPED mode. No character is taken while its echo has no room (R114); before
`!desk.ready` only the 0x03 of R132 counts (R131). -/
def execTypedCharacter (k ch : Nat) (cut : Bool) (s : State) : Host.Outcome State Fault Refusal :=
  let x := s.sess k
  .next (if listens k s then
      (if x.machine || x.waiting.isSome || decide (outCap ≤ outUsed x) || decide (256 ≤ ch) then s else takeChar k ch cut s)
    else if k = 0 ∧ ch = 3 then skipScript s
    else s)

/-! ### The morning script (R127 to R131) -/

/-- The first script line at or after `l`. -/
def nextScript (l : Nat) (d : LdgSt) : Option (Nat × String) :=
  ((List.range 65).filter fun k => decide (l ≤ k)).findSome? fun k => (tget d.lines k).map fun t => (k, t)

/-- MORNING_LINE: the script's next line, or its end. Where no script runs, sessions are served at once (R126, R131), after
a warm reset too (log entry 74). -/
def morningLine (cut : Bool) (s : State) : State :=
  match s.desk.script with
  | .idle => if s.desk.ready then s else deskReady "skipped" s
  | .running l w =>
    if w != .no then s
    else if !s.desk.ready && l == 1 && !s.desk.morning then deskReady "skipped" s
    else match nextScript l s.ldg with
      | none => scriptEnd "done" s
      | some (n, t) =>
        let s := s.onDesk fun d => { d with script := .running n .no }
        let c : Ctx := ⟨.morning n, none, cut⟩
        match typedLine c t s with
        | none => s.onDesk fun d => { d with script := .running (n + 1) .no }
        | some r => deliver c r
def execMorningLine (cut : Bool) (s : State) : Host.Outcome State Fault Refusal :=
  .next (if s.on 2 && s.sys.booted then morningLine cut s else s)

/-! ### Keyword macros (R133 to R136) -/

/-- KEYWORD_MACRO_RUN: the slot's line runs at KEEPER with the keyword's stamp. A slot without a line has nothing to run (log entry 35),
and an empty line or a comment sends no notice (log entry 75). -/
def runKeyword (w : Keyword) (cut : Bool) (s : State) : State :=
  match tget s.ldg.words w.slot with
  | none => s
  | some t =>
    let c : Ctx := ⟨.keyword w.slot w.seq w.tally, none, cut⟩
    match typedLine c t s with
    | none => s
    | some r => deliver c r
def execKeywordMacroRun (cut : Bool) (s : State) : Host.Outcome State Fault Refusal :=
  .next (if s.on 2 && s.desk.ready then
      (match s.desk.kwq with
       | [] => s
       | w :: r => runKeyword w cut (s.onDesk fun d => { d with kwq := r }))
    else s)

/-! ### Lines of DESK-bound routes (R350, R351, R355) -/

/-- DESK_ROUTE_LINE: the oldest line of the route runs at the route's level; its buffer is zeroed and free again. -/
def runRouteLine (r : Nat) (msn : BitVec 16) (bs : List Byte) (cut : Bool) (s : State) : State :=
  let s := s.onRoute r fun x => { x with lines := x.lines.tail, pool := x.pool + 1 }
  let c : Ctx := ⟨.route r msn, none, cut⟩
  match typedLine c (String.ofList (bs.map fun b => Char.ofNat b.toNat)) s with
  | none => s
  | some res => deliver c res
def execDeskRouteLine (r : Nat) (cut : Bool) (s : State) : Host.Outcome State Fault Refusal :=
  .next (match (s.route r).lines with
    | [] => s
    | (msn, bs) :: _ => if s.desk.ready && canRun (.route r msn) s then runRouteLine r msn bs cut s else s)

end Sys2Proof.Machine
end

