-- ==== Sys2Proof/Machine/Dispatch.lean ====
section
/-! DEFINITION. The dispatch of commands: one arm for each row of spec/opcode_table.json. -/

namespace Sys2Proof.Machine

def exec (i : Instr) (s : State) : Host.Outcome State Fault Refusal :=
  match i with
  | .tallyEdge ins => Sys2Proof.Machine.execTallyEdge ins s
  | .roundStart => Sys2Proof.Machine.execRoundStart s
  | .rowJobComplete stake slot row sec => Sys2Proof.Machine.execRowJobComplete stake slot row sec s
  | .rowAbandon => Sys2Proof.Machine.execRowAbandon s
  | .stakeDoubleBitError stake slot => Sys2Proof.Machine.execStakeDoubleBitError stake slot s
  | .eraStart => Sys2Proof.Machine.execEraStart s
  | .refclkLoss => Sys2Proof.Machine.execRefclkLoss s
  | .refclkReturn => Sys2Proof.Machine.execRefclkReturn s
  | .frequencyWindow ppm => Sys2Proof.Machine.execFrequencyWindow ppm s
  | .tallySourceLost => Sys2Proof.Machine.execTallySourceLost s
  | .tallySourceReturn => Sys2Proof.Machine.execTallySourceReturn s
  | .ptpSync m sec ns offsetNs => Sys2Proof.Machine.execPtpSync m sec ns offsetNs s
  | .tallyAlign phaseNs => Sys2Proof.Machine.execTallyAlign phaseNs s
  | .tallyLocked => Sys2Proof.Machine.execTallyLocked s
  | .eventEnqueue src seq stamp cut eff => Sys2Proof.Machine.execEventEnqueue src seq stamp cut eff s
  | .tlyNowLoRead => Sys2Proof.Machine.execTlyNowLoRead s
  | .tlyCntSkipLoRead => Sys2Proof.Machine.execTlyCntSkipLoRead s
  | .tlySourceWrite v => Sys2Proof.Machine.execTlySourceWrite v s
  | .tlyRateWrite v => Sys2Proof.Machine.execTlyRateWrite v s
  | .tlyEpochNsWrite v => Sys2Proof.Machine.execTlyEpochNsWrite v s
  | .tlySet c p a => Sys2Proof.Machine.execTlySet c p a s
  | .tlyLate c p a => Sys2Proof.Machine.execTlyLate c p a s
  | .tlyShow c p a => Sys2Proof.Machine.execTlyShow c p a s
  | .clkShow c p a => Sys2Proof.Machine.execClkShow c p a s
  | .registerWrite addr v => Sys2Proof.Machine.execRegisterWrite addr v s
  | .cdcDtrSet => Sys2Proof.Machine.execCdcDtrSet s
  | .cdcDtrClear => Sys2Proof.Machine.execCdcDtrClear s
  | .tcpConnect port tcpPort peer => Sys2Proof.Machine.execTcpConnect port tcpPort peer s
  | .tcpClose sess => Sys2Proof.Machine.execTcpClose sess s
  | .typedCharacter sess ch cut => Sys2Proof.Machine.execTypedCharacter sess ch cut s
  | .lineReceived sess text cut => Sys2Proof.Machine.execLineReceived sess text cut s
  | .deskDropped sess => Sys2Proof.Machine.execDeskDropped sess s
  | .replyBuffered sess cut => Sys2Proof.Machine.execReplyBuffered sess cut s
  | .outputBufferDrain sess n => Sys2Proof.Machine.execOutputBufferDrain sess n s
  | .deferredEffect => Sys2Proof.Machine.execDeferredEffect s
  | .deskMode c p a => Sys2Proof.Machine.execDeskMode c p a s
  | .deskNotices c p a => Sys2Proof.Machine.execDeskNotices c p a s
  | .deskShow c p a => Sys2Proof.Machine.execDeskShow c p a s
  | .deskUart c p a => Sys2Proof.Machine.execDeskUart c p a s
  | .deskSet c p a => Sys2Proof.Machine.execDeskSet c p a s
  | .deskClaim c p a => Sys2Proof.Machine.execDeskClaim c p a s
  | .deskRelease c p a => Sys2Proof.Machine.execDeskRelease c p a s
  | .deskPass c p a => Sys2Proof.Machine.execDeskPass c p a s
  | .unlock c p a => Sys2Proof.Machine.execUnlock c p a s
  | .lock c p a => Sys2Proof.Machine.execLock c p a s
  | .unlockHoldoffEnd sess => Sys2Proof.Machine.execUnlockHoldoffEnd sess s
  | .unlockLockoutEnd => Sys2Proof.Machine.execUnlockLockoutEnd s
  | .help c p a => Sys2Proof.Machine.execHelp c p a s
  | .ping c p a => Sys2Proof.Machine.execPing c p a s
  | .peek c p a => Sys2Proof.Machine.execPeek c p a s
  | .poke c p a => Sys2Proof.Machine.execPoke c p a s
  | .morningSkip => Sys2Proof.Machine.execMorningSkip s
  | .morningLine cut => Sys2Proof.Machine.execMorningLine cut s
  | .morningTimeout => Sys2Proof.Machine.execMorningTimeout s
  | .morningShow c p a => Sys2Proof.Machine.execMorningShow c p a s
  | .morningSet c p a => Sys2Proof.Machine.execMorningSet c p a s
  | .morningDel c p a => Sys2Proof.Machine.execMorningDel c p a s
  | .morningClear c p a => Sys2Proof.Machine.execMorningClear c p a s
  | .morningRun c p a => Sys2Proof.Machine.execMorningRun c p a s
  | .keywordMacroRun cut => Sys2Proof.Machine.execKeywordMacroRun cut s
  | .macroSet c p a => Sys2Proof.Machine.execMacroSet c p a s
  | .macroClear c p a => Sys2Proof.Machine.execMacroClear c p a s
  | .macroShow c p a => Sys2Proof.Machine.execMacroShow c p a s
  | .sysShow c p a => Sys2Proof.Machine.execSysShow c p a s
  | .sysCaps c p a => Sys2Proof.Machine.execSysCaps c p a s
  | .sysMap c p a => Sys2Proof.Machine.execSysMap c p a s
  | .sysModes c p a => Sys2Proof.Machine.execSysModes c p a s
  | .sysHealth c p a => Sys2Proof.Machine.execSysHealth c p a s
  | .houseShow c p a => Sys2Proof.Machine.execHouseShow c p a s
  | .fmtShow c p a => Sys2Proof.Machine.execFmtShow c p a s
  | .fmtConv c p a => Sys2Proof.Machine.execFmtConv c p a s
  | .planSet c p a => Sys2Proof.Machine.execPlanSet c p a s
  | .planSetHop c p a => Sys2Proof.Machine.execPlanSetHop c p a s
  | .stkShow c p a => Sys2Proof.Machine.execStkShow c p a s
  | .stkSet c p a => Sys2Proof.Machine.execStkSet c p a s
  | .planLoad c p a => Sys2Proof.Machine.execPlanLoad c p a s
  | .planUnload c p a => Sys2Proof.Machine.execPlanUnload c p a s
  | .planShow c p a => Sys2Proof.Machine.execPlanShow c p a s
  | .planHop c p a => Sys2Proof.Machine.execPlanHop c p a s
  | .guestSetStep c p a => Sys2Proof.Machine.execGuestSetStep c p a s
  | .guestRegister c p a => Sys2Proof.Machine.execGuestRegister c p a s
  | .guestRegisterDrop c p a => Sys2Proof.Machine.execGuestRegisterDrop c p a s
  | .guestCheckin c p a => Sys2Proof.Machine.execGuestCheckin c p a s
  | .guestCheckout c p a => Sys2Proof.Machine.execGuestCheckout c p a s
  | .guestAway c p a => Sys2Proof.Machine.execGuestAway c p a s
  | .guestReturn c p a => Sys2Proof.Machine.execGuestReturn c p a s
  | .guestReopen c p a => Sys2Proof.Machine.execGuestReopen c p a s
  | .guestSetClass c p a => Sys2Proof.Machine.execGuestSetClass c p a s
  | .guestShow c p a => Sys2Proof.Machine.execGuestShow c p a s
  | .roomShow c p a => Sys2Proof.Machine.execRoomShow c p a s
  | .innShow c p a => Sys2Proof.Machine.execInnShow c p a s
  | .innSet c p a => Sys2Proof.Machine.execInnSet c p a s
  | .bundleSet c p a => Sys2Proof.Machine.execBundleSet c p a s
  | .bundleReopen c p a => Sys2Proof.Machine.execBundleReopen c p a s
  | .bundleShow c p a => Sys2Proof.Machine.execBundleShow c p a s
  | .roomZeroed room => Sys2Proof.Machine.execRoomZeroed room s
  | .cellarWritebackDone g => Sys2Proof.Machine.execCellarWritebackDone g s
  | .swapInDone g ecc => Sys2Proof.Machine.execSwapInDone g ecc s
  | .leaseRevoke l => Sys2Proof.Machine.execLeaseRevoke l s
  | .thermalShed => Sys2Proof.Machine.execThermalShed s
  | .innCellarWrite hi v => Sys2Proof.Machine.execInnCellarWrite hi v s
  | .ldrSet c p a => Sys2Proof.Machine.execLdrSet c p a s
  | .ldrLoad c p a => Sys2Proof.Machine.execLdrLoad c p a s
  | .ldrBind c p a => Sys2Proof.Machine.execLdrBind c p a s
  | .ldrUnbind c p a => Sys2Proof.Machine.execLdrUnbind c p a s
  | .ldrReq c p a => Sys2Proof.Machine.execLdrReq c p a s
  | .ldrPut c p a => Sys2Proof.Machine.execLdrPut c p a s
  | .ldrInval c p a => Sys2Proof.Machine.execLdrInval c p a s
  | .ldrShow c p a => Sys2Proof.Machine.execLdrShow c p a s
  | .larderServe => Sys2Proof.Machine.execLarderServe s
  | .rowFetchDone slot ecc => Sys2Proof.Machine.execRowFetchDone slot ecc s
  | .deliveryWrite g port cut => Sys2Proof.Machine.execDeliveryWrite g port cut s
  | .memTrainDone installed => Sys2Proof.Machine.execMemTrainDone installed s
  | .memTrainFail => Sys2Proof.Machine.execMemTrainFail s
  | .mr4Poll hot => Sys2Proof.Machine.execMr4Poll hot s
  | .memShow c p a => Sys2Proof.Machine.execMemShow c p a s
  | .memSet c p a => Sys2Proof.Machine.execMemSet c p a s
  | .routeOpen c p a => Sys2Proof.Machine.execRouteOpen c p a s
  | .routeClose c p a => Sys2Proof.Machine.execRouteClose c p a s
  | .routeClosed r => Sys2Proof.Machine.execRouteClosed r s
  | .routeSet c p a => Sys2Proof.Machine.execRouteSet c p a s
  | .routeRecv c p a => Sys2Proof.Machine.execRouteRecv c p a s
  | .routePost c p a => Sys2Proof.Machine.execRoutePost c p a s
  | .routeShow c p a => Sys2Proof.Machine.execRouteShow c p a s
  | .winOpen c p a => Sys2Proof.Machine.execWinOpen c p a s
  | .winClose c p a => Sys2Proof.Machine.execWinClose c p a s
  | .winShow c p a => Sys2Proof.Machine.execWinShow c p a s
  | .cchRing c p a => Sys2Proof.Machine.execCchRing c p a s
  | .cchShow c p a => Sys2Proof.Machine.execCchShow c p a s
  | .cchDoorbell v => Sys2Proof.Machine.execCchDoorbell v s
  | .cchRingTailWrite v => Sys2Proof.Machine.execCchRingTailWrite v s
  | .issueWrite r => Sys2Proof.Machine.execIssueWrite r s
  | .issueWriteImm r => Sys2Proof.Machine.execIssueWriteImm r s
  | .issueRead r => Sys2Proof.Machine.execIssueRead r s
  | .issueSend r => Sys2Proof.Machine.execIssueSend r s
  | .issueFlush r => Sys2Proof.Machine.execIssueFlush r s
  | .issueWait r => Sys2Proof.Machine.execIssueWait r s
  | .issueArm r => Sys2Proof.Machine.execIssueArm r s
  | .waybillComplete r => Sys2Proof.Machine.execWaybillComplete r s
  | .receiveWrite k => Sys2Proof.Machine.execReceiveWrite k s
  | .receiveWriteImm k => Sys2Proof.Machine.execReceiveWriteImm k s
  | .receiveReadReq k ecc => Sys2Proof.Machine.execReceiveReadReq k ecc s
  | .receiveReadResp k => Sys2Proof.Machine.execReceiveReadResp k s
  | .receiveSend m => Sys2Proof.Machine.execReceiveSend m s
  | .deskRouteLine r cut => Sys2Proof.Machine.execDeskRouteLine r cut s
  | .receiveFlush k => Sys2Proof.Machine.execReceiveFlush k s
  | .receiveAck k => Sys2Proof.Machine.execReceiveAck k s
  | .receiveNak k => Sys2Proof.Machine.execReceiveNak k s
  | .receiveEase k => Sys2Proof.Machine.execReceiveEase k s
  | .ackTimer r => Sys2Proof.Machine.execAckTimer r s
  | .retransmitTimeout r => Sys2Proof.Machine.execRetransmitTimeout r s
  | .rnrRetry r => Sys2Proof.Machine.execRnrRetry r s
  | .ccTimer r => Sys2Proof.Machine.execCcTimer r s
  | .pfcFrameReceived port vec xoff fifoFree => Sys2Proof.Machine.execPfcFrameReceived port vec xoff fifoFree s
  | .hopDeadline => Sys2Proof.Machine.execHopDeadline s
  | .linkChange port lock fecok modp => Sys2Proof.Machine.execLinkChange port lock fecok modp s
  | .arpRequest port target sender => Sys2Proof.Machine.execArpRequest port target sender s
  | .ndpSolicitation port target sender => Sys2Proof.Machine.execNdpSolicitation port target sender s
  | .icmpEcho port dst sender data => Sys2Proof.Machine.execIcmpEcho port dst sender data s
  | .igmpQuery port version => Sys2Proof.Machine.execIgmpQuery port version s
  | .netCtlWrite port v => Sys2Proof.Machine.execNetCtlWrite port v s
  | .netSet c p a => Sys2Proof.Machine.execNetSet c p a s
  | .netShow c p a => Sys2Proof.Machine.execNetShow c p a s
  | .ptpSet c p a => Sys2Proof.Machine.execPtpSet c p a s
  | .ptpShow c p a => Sys2Proof.Machine.execPtpShow c p a s
  | .audSet c p a => Sys2Proof.Machine.execAudSet c p a s
  | .audMap c p a => Sys2Proof.Machine.execAudMap c p a s
  | .audDry c p a => Sys2Proof.Machine.execAudDry c p a s
  | .audMute c p a => Sys2Proof.Machine.execAudMute c p a s
  | .audShow c p a => Sys2Proof.Machine.execAudShow c p a s
  | .aesSet c p a => Sys2Proof.Machine.execAesSet c p a s
  | .aesShow c p a => Sys2Proof.Machine.execAesShow c p a s
  | .slavePortLock port phase phasem => Sys2Proof.Machine.execSlavePortLock port phase phasem s
  | .fsyncSlip port => Sys2Proof.Machine.execFsyncSlip port s
  | .aes67Transmit flow => Sys2Proof.Machine.execAes67Transmit flow s
  | .aes67Receive flow seq ts samples => Sys2Proof.Machine.execAes67Receive flow seq ts samples s
  | .aes67FlowLost flow => Sys2Proof.Machine.execAes67FlowLost flow s
  | .busReset stage hs => Sys2Proof.Machine.execBusReset stage hs s
  | .controlRequest q => Sys2Proof.Machine.execControlRequest q s
  | .suspend => Sys2Proof.Machine.execSuspend s
  | .resume => Sys2Proof.Machine.execResume s
  | .vbusLoss stage => Sys2Proof.Machine.execVbusLoss stage s
  | .vbusAttach => Sys2Proof.Machine.execVbusAttach s
  | .uac2OutPacket samples fb => Sys2Proof.Machine.execUac2OutPacket samples fb s
  | .vendorBulkWrite h data body => Sys2Proof.Machine.execVendorBulkWrite h data body s
  | .vendorBulkRead h => Sys2Proof.Machine.execVendorBulkRead h s
  | .vendorBulkEndWait len patch => Sys2Proof.Machine.execVendorBulkEndWait len patch s
  | .usbSet c p a => Sys2Proof.Machine.execUsbSet c p a s
  | .usbShow c p a => Sys2Proof.Machine.execUsbShow c p a s
  | .vaonFall => Sys2Proof.Machine.execVaonFall s
  | .vaonReturn => Sys2Proof.Machine.execVaonReturn s
  | .islandColdStart => Sys2Proof.Machine.execIslandColdStart s
  | .featureFrame f => Sys2Proof.Machine.execFeatureFrame f s
  | .refractoryEnd => Sys2Proof.Machine.execRefractoryEnd s
  | .pathChangeHoldEnd => Sys2Proof.Machine.execPathChangeHoldEnd s
  | .dozeReturn => Sys2Proof.Machine.execDozeReturn s
  | .slotCrcCheck bad => Sys2Proof.Machine.execSlotCrcCheck bad s
  | .porSet c p a => Sys2Proof.Machine.execPorSet c p a s
  | .porEnrol c p a => Sys2Proof.Machine.execPorEnrol c p a s
  | .porEnrolDone c p a => Sys2Proof.Machine.execPorEnrolDone c p a s
  | .porEnrolAbort c p a => Sys2Proof.Machine.execPorEnrolAbort c p a s
  | .porEnrolWake c p a => Sys2Proof.Machine.execPorEnrolWake c p a s
  | .enrolTake t => Sys2Proof.Machine.execEnrolTake t s
  | .enrolTimeout => Sys2Proof.Machine.execEnrolTimeout s
  | .porSlot c p a => Sys2Proof.Machine.execPorSlot c p a s
  | .porSlotClear c p a => Sys2Proof.Machine.execPorSlotClear c p a s
  | .porGaugeCheck c p a => Sys2Proof.Machine.execPorGaugeCheck c p a s
  | .porGaugeNew c p a => Sys2Proof.Machine.execPorGaugeNew c p a s
  | .porGaugeUsed c p a => Sys2Proof.Machine.execPorGaugeUsed c p a s
  | .porWakeRelease c p a => Sys2Proof.Machine.execPorWakeRelease c p a s
  | .porWakeHold c p a => Sys2Proof.Machine.execPorWakeHold c p a s
  | .porShow c p a => Sys2Proof.Machine.execPorShow c p a s
  | .gaugeCheck mv => Sys2Proof.Machine.execGaugeCheck mv s
  | .cellRemoved => Sys2Proof.Machine.execCellRemoved s
  | .cellReturn => Sys2Proof.Machine.execCellReturn s
  | .wakeInAssert => Sys2Proof.Machine.execWakeInAssert s
  | .wakeTimeout => Sys2Proof.Machine.execWakeTimeout s
  | .ldgBatchBegin c p a => Sys2Proof.Machine.execLdgBatchBegin c p a s
  | .ldgPut c p a => Sys2Proof.Machine.execLdgPut c p a s
  | .ldgBatchCommit c p a => Sys2Proof.Machine.execLdgBatchCommit c p a s
  | .ldgBatchAbort c p a => Sys2Proof.Machine.execLdgBatchAbort c p a s
  | .ledgerCommit fails upto residue => Sys2Proof.Machine.execLedgerCommit fails upto residue s
  | .ldgRead c p a => Sys2Proof.Machine.execLdgRead c p a s
  | .ldgKey c p a => Sys2Proof.Machine.execLdgKey c p a s
  | .ldgPass c p a => Sys2Proof.Machine.execLdgPass c p a s
  | .ldgSlate c p a => Sys2Proof.Machine.execLdgSlate c p a s
  | .ldgWipe c p a => Sys2Proof.Machine.execLdgWipe c p a s
  | .ldgRefresh c p a => Sys2Proof.Machine.execLdgRefresh c p a s
  | .ldgShow c p a => Sys2Proof.Machine.execLdgShow c p a s
  | .partitionLockoutEnd part => Sys2Proof.Machine.execPartitionLockoutEnd part s
  | .refreshRun weak early unreadable fails => Sys2Proof.Machine.execRefreshRun weak early unreadable fails s
  | .logBufferCommit fails => Sys2Proof.Machine.execLogBufferCommit fails s
  | .logShow c p a => Sys2Proof.Machine.execLogShow c p a s
  | .logTail c p a => Sys2Proof.Machine.execLogTail c p a s
  | .logClear c p a => Sys2Proof.Machine.execLogClear c p a s
  | .hthSet c p a => Sys2Proof.Machine.execHthSet c p a s
  | .hthClear c p a => Sys2Proof.Machine.execHthClear c p a s
  | .hthStatClearWrite ch v => Sys2Proof.Machine.execHthStatClearWrite ch v s
  | .hthModeWrite ch v => Sys2Proof.Machine.execHthModeWrite ch v s
  | .hthShow c p a => Sys2Proof.Machine.execHthShow c p a s
  | .controlLoopPeriod ms sns snsMean suprec sup10 vglow cut => Sys2Proof.Machine.execControlLoopPeriod ms sns snsMean suprec sup10 vglow cut s
  | .shortTrip ch snsMean cut => Sys2Proof.Machine.execShortTrip ch snsMean cut s
  | .probeEnd ch hv h tamb => Sys2Proof.Machine.execProbeEnd ch hv h tamb s
  | .holdTimeout => Sys2Proof.Machine.execHoldTimeout s
  | .parkTimeout cut => Sys2Proof.Machine.execParkTimeout cut s
  | .backoffEnd ch => Sys2Proof.Machine.execBackoffEnd ch s
  | .autoRetry ch => Sys2Proof.Machine.execAutoRetry ch s
  | .budgetExcess cut => Sys2Proof.Machine.execBudgetExcess cut s
  | .gateWatchdog => Sys2Proof.Machine.execGateWatchdog s
  | .houseSet c p a => Sys2Proof.Machine.execHouseSet c p a s
  | .moveVaultToHush => Sys2Proof.Machine.execMoveVaultToHush s
  | .moveHushToLobby => Sys2Proof.Machine.execMoveHushToLobby s
  | .moveLobbyToFull => Sys2Proof.Machine.execMoveLobbyToFull s
  | .moveFullToLobby => Sys2Proof.Machine.execMoveFullToLobby s
  | .moveLobbyToHush => Sys2Proof.Machine.execMoveLobbyToHush s
  | .moveHushToVault mv => Sys2Proof.Machine.execMoveHushToVault mv s
  | .quadrantRampEnd q => Sys2Proof.Machine.execQuadrantRampEnd q s
  | .pwrfail residue => Sys2Proof.Machine.execPwrfail residue s
  | .vaonWake bootsel => Sys2Proof.Machine.execVaonWake bootsel s
  | .pwrSet c p a => Sys2Proof.Machine.execPwrSet c p a s
  | .pwrDomcfgWrite v => Sys2Proof.Machine.execPwrDomcfgWrite v s
  | .pwrSenseWrite v => Sys2Proof.Machine.execPwrSenseWrite v s
  | .pwrCrackClear c p a => Sys2Proof.Machine.execPwrCrackClear c p a s
  | .pwrFuse c p a => Sys2Proof.Machine.execPwrFuse c p a s
  | .pwrShow c p a => Sys2Proof.Machine.execPwrShow c p a s
  | .pointRaise => Sys2Proof.Machine.execPointRaise s
  | .sentinelRead lows stood1ms => Sys2Proof.Machine.execSentinelRead lows stood1ms s
  | .droop on => Sys2Proof.Machine.execDroop on s
  | .avsbusFrame ok isWrite isStatus => Sys2Proof.Machine.execAvsbusFrame ok isWrite isStatus s
  | .zoneSample volts means => Sys2Proof.Machine.execZoneSample volts means s
  | .thermalSample tj below100 => Sys2Proof.Machine.execThermalSample tj below100 s
  | .thermalCapStep => Sys2Proof.Machine.execThermalCapStep s
  | .pinReset bootsel => Sys2Proof.Machine.execPinReset bootsel s
  | .boot fl => Sys2Proof.Machine.execBoot fl s
  | .bootWaitTimeout => Sys2Proof.Machine.execBootWaitTimeout s
  | .watchdogExpiry => Sys2Proof.Machine.execWatchdogExpiry s
  | .sysResetWarm c p a => Sys2Proof.Machine.execSysResetWarm c p a s
  | .sysResetFull c p a => Sys2Proof.Machine.execSysResetFull c p a s
  | .sysResetWriteWarm v => Sys2Proof.Machine.execSysResetWriteWarm v s
  | .sysResetWriteFull v => Sys2Proof.Machine.execSysResetWriteFull v s
  | .sysBoot c p a => Sys2Proof.Machine.execSysBoot c p a s
  | .sysFlashShow c p a => Sys2Proof.Machine.execSysFlashShow c p a s
  | .sysFlashErase c p a => Sys2Proof.Machine.execSysFlashErase c p a s
  | .sysFlashWrite c p a => Sys2Proof.Machine.execSysFlashWrite c p a s
  | .sysFlashRescan c p a => Sys2Proof.Machine.execSysFlashRescan c p a s
  | .extest v => Sys2Proof.Machine.execExtest v s
  | .idcode => Sys2Proof.Machine.execIdcode s
  | .samplePreload v => Sys2Proof.Machine.execSamplePreload v s
  | .clamp => Sys2Proof.Machine.execClamp s
  | .highz => Sys2Proof.Machine.execHighz s
  | .bypass => Sys2Proof.Machine.execBypass s
  | .debug write addr v => Sys2Proof.Machine.execDebug write addr v s
  | .clockLoss k => Sys2Proof.Machine.execClockLoss k s
  | .clockReturn k => Sys2Proof.Machine.execClockReturn k s
  | .vbatFall => Sys2Proof.Machine.execVbatFall s
  | .hearthSupplyFault vg cut => Sys2Proof.Machine.execHearthSupplyFault vg cut s
  | .netBootPatchReceived patch => Sys2Proof.Machine.execNetBootPatchReceived patch s
  | .testmodeHigh => Sys2Proof.Machine.execTestmodeHigh s

end Sys2Proof.Machine
end

