-- ==== Sys2Proof/Machine/Pins.lean ====
section
/-! DEFINITION. The pins (Table 15.4, R622 to R626, R643): what each signal of the part is at, as its state gives it. No command reads a
pin's state from here; the commands that bring a pin's event carry what the pin brings. -/

namespace Sys2Proof.Machine

/-- The signals of Table 15.4; a number names the port, channel or ball group. -/
inductive Pin where
  | tdmClk (port : Nat)
  | tdmDin (port : Nat)
  | clkIn
  | tdmDout (port : Nat)
  | mclkOut
  | wclkOut
  | netTx (port : Nat)
  | netRx (port : Nat)
  | netI2c (port : Nat)
  | netMod (port : Nat)
  | netTxdis (port : Nat)
  | usbDp
  | usbVbus
  | ddrOut
  | ddrIo
  | ddrReset
  | xspiClk
  | xspiCs
  | xspiIo
  | xspiReset
  | uartTx
  | uartIn
  | uartRts
  | jtagUp
  | jtagDown
  | jtagTdo
  | strap
  | refclk
  | resetN
  | wakeIn
  | wakeOut
  | avsOut
  | avsIn
  | loadcast
  | zoneSns
  | mic
  | micBias
  | xtal
  | hg (ch : Nat)
  | hearthIn
  deriving DecidableEq, Repr

/-- What a pin is at: high-impedance, an input, with a pull, driven to a level, carrying its function, a silent transmitter, an
open drain released or asserted, held by the boundary-scan register. -/
inductive PinState where
  | z | input | pullUp | pullDown | low | high | driven | silent | released | asserted | scan
  deriving DecidableEq, Repr

/-- The states of Table 15.4: unpowered, in reset or with its domain off, and with the domain on. -/
def byDomain (d : Nat) (unpowered reset on : PinState) (s : State) : PinState :=
  if !s.pwr.vaon then unpowered else if s.on d then on else reset

/-- The pins that the boundary-scan register does not hold (R643): analogue and differential ones, HG and WAKE_OUT. -/
def unscanned (p : Pin) : Bool :=
  match p with
  | .netTx _ => true | .netRx _ => true | .usbDp => true | .usbVbus => true | .wakeOut => true | .zoneSns => true | .mic => true
  | .micBias => true | .xtal => true | .hg _ => true | .hearthIn => true | .jtagUp => true | .jtagDown => true | .jtagTdo => true
  | _ => false

/-- A pin's state by the part's own function. -/
def ownState (p : Pin) (s : State) : PinState :=
  let tdm (k : Nat) : TdmPort := s.aud.ports.getD k {}
  match p with
  | .tdmClk k => byDomain 3 .z .z (if (tdm k).en then (if (tdm k).master then .driven else .input) else .z) s
  | .tdmDin _ => byDomain 3 .z .z .input s
  | .clkIn => byDomain 3 .z .z .input s
  | .tdmDout k => byDomain 3 .z .z (if (tdm k).en then .driven else .z) s
  | .mclkOut => byDomain 3 .z .z (if s.clk.mclken then .driven else .z) s
  | .wclkOut => byDomain 3 .z .z (if s.clk.wclken then .driven else .z) s
  | .netTx k => byDomain (6 + k) .silent .silent (if (s.net k).en then .driven else .silent) s
  | .netRx k => byDomain (6 + k) .z .z .input s
  | .netI2c k => byDomain (6 + k) .z .z .released s
  | .netMod k => byDomain (6 + k) .z .z .input s
  | .netTxdis k => byDomain (6 + k) .z .z (if (s.net k).en then .low else .high) s
  | .usbDp => byDomain 5 .z .z (if s.usb.pullup then .pullUp else .z) s
  | .usbVbus => byDomain 5 .z .z .input s
  | .ddrOut => byDomain 9 .z .z .driven s
  | .ddrIo => byDomain 9 .z .z .driven s
  | .ddrReset => byDomain 9 .z .low (if s.mem.trained then .high else .low) s
  | .xspiClk => byDomain 2 .z .z .low s
  | .xspiCs => byDomain 2 .z .pullUp .high s
  | .xspiIo => byDomain 2 .z .z .z s
  | .xspiReset => byDomain 2 .z .pullDown .high s
  | .uartTx => byDomain 2 .z .z .high s
  | .uartIn => byDomain 2 .z .pullUp .pullUp s
  | .uartRts => byDomain 2 .z .z .low s
  | .jtagUp => byDomain 2 .z .pullUp .pullUp s
  | .jtagDown => byDomain 2 .z .pullDown .pullDown s
  | .jtagTdo => .z
  | .strap => byDomain 2 .z .pullDown .pullDown s
  | .refclk => byDomain 2 .z .z .input s
  | .resetN => if s.por.running then .input else .z
  | .wakeIn => if s.por.running then .pullUp else .z
  | .wakeOut => if s.por.wakeOut then .asserted else .released
  | .avsOut => byDomain 2 .z .z .driven s
  | .avsIn => byDomain 2 .z .z .input s
  | .loadcast => byDomain 2 .z .z (if s.pwr.lcen then (if s.pwr.lc = 0 then .low else .driven) else .z) s
  | .zoneSns => byDomain 2 .z .z .input s
  | .mic => if s.por.running then .input else .z
  | .micBias => if s.por.running && s.por.micOn then .driven else .z
  | .xtal => if s.por.running then .driven else .z
  | .hg k => byDomain 4 .low .low (if (s.chan k).gate then .driven else .low) s
  | .hearthIn => byDomain 4 .z .z .input s

/-- A pin's state: while EXTEST or CLAMP drives the pins, or HIGHZ leaves them, the boundary-scan register holds those it covers. -/
def pinState (p : Pin) (s : State) : PinState :=
  if unscanned p then
    (match p with | .hg _ => if s.jtag.pins.isSome then .low else ownState p s
                  | .wakeOut => if s.jtag.pins.isSome then .released else ownState p s
                  | _ => ownState p s)
  else match s.jtag.pins with
    | none => ownState p s
    | some [] => .z
    | some _ => .scan

end Sys2Proof.Machine
end

