-- ==== Sys2Proof/Safety.lean ====
section
/-! DEFINITION. The terms the statements use: that a command completes, and with what; that a command line passes the checks of
Table 3.5 and is answered; that an event command is accepted and staged; the canonical form of the memory. -/

namespace Sys2Proof.Machine

/-- The command answers a next state of which `P` holds. -/
def Gives (i : Instr) (s : State) (P : State → Prop) : Prop := ∃ t, exec i s = .next t ∧ P t

/-- A command line of verb `v` that its sender can have run and that passes check orders 5 to 7 of Table 3.5: level, claims,
the keys and their values. `e` holds the values. -/
def Passes (v : Verb) (c : Ctx) (p : Pfx) (a : Args) (e : Env) (s : State) : Prop :=
  canRun c.origin s = true ∧ checkLine v c p a s = .ok e

/-- The line is answered `ok` with the lines `ls`, its effect being `u`. -/
def AnswersOk (i : Instr) (c : Ctx) (s : State) (ls : List String) (u : State) : Prop :=
  exec i s = .next (deliver c (.ok ls u))

/-- The line is answered `ok`, with lines and an effect of which `P` holds. -/
def AnswersWith (i : Instr) (c : Ctx) (s : State) (P : List String → State → Prop) : Prop :=
  ∃ ls u, AnswersOk i c s ls u ∧ P ls u

/-- The line has begun its work, `u`, and is answered when the work ends (R87). -/
def Begins (i : Instr) (c : Ctx) (s : State) (P : State → Prop) : Prop := ∃ u, exec i s = .next (deliver c (.work u)) ∧ P u

/-- The line has no effect and is answered with an error of Table 3.5. -/
def Refuses (i : Instr) (c : Ctx) (s : State) (code : Nat) (key : String) : Prop :=
  exec i s = .next (deliver c (.err code key s))

/-- The event a line with the prefix `p` posts for tally `t` (R52, R63, R94, R97). -/
def eventOf (c : Ctx) (p : Pfx) (eff : Effect) (t : Nat) (s : State) : Event :=
  { src := (eventSource c.origin s).1, seq := (eventSource c.origin s).2, stamp := BitVec.ofNat 64 t, due := BitVec.ofNat 64 t,
    late := false, by_ := some c.origin, eff := eff, bare := p == .none }

/-- An event line is accepted for tally `t`: the tally runs, the line names `t` (R62, R63) within the bound of R64 and in time
(R56), the effect would be taken in the present state, and the queue has no entry of its stamp and a free place in its share
(R55, R68). -/
def Acceptable (c : Ctx) (p : Pfx) (eff : Effect) (t : Nat) (s : State) : Prop :=
  s.on 3 = true ∧ p ≠ .plus 0 ∧ namedTally c p s = some t ∧ t ≤ s.tly.now.toNat + 2147483647 ∧ t < 2 ^ 64 ∧
    onTime t c.cut s = true ∧ (∃ u, applyEffect (eventOf c p eff t s) t s = .ok u) ∧
    shareFull (eventSource c.origin s).1 s = false ∧
    isDup (eventSource c.origin s).1 (eventSource c.origin s).2 (BitVec.ofNat 64 t) eff s = false

/-- The reply to an accepted event line (R95). -/
def eventReply (c : Ctx) (t : Nat) (s : State) : List String :=
  [kv "t" (tallyS t) ++ " " ++ kv "seq" (hexS 4 (eventSource c.origin s).2.toNat)]

/-- The line is accepted: its event stands at the end of the queue, the Desk's sequence has counted on where the line is the
Desk's (R94), and the reply names the event's tally and sequence. -/
def Stages (i : Instr) (c : Ctx) (p : Pfx) (eff : Effect) (t : Nat) (s : State) : Prop :=
  AnswersOk i c s (eventReply c t s)
    ((bumpSeq c.origin s).onEvq fun q => { q with entries := q.entries ++ [eventOf c p eff t s] })

/-- The memory of the part is in its canonical form. -/
def State.memOk (s : State) : Prop := s.ram.wf = true

/-- The form of the state that every step keeps: the memory and the user Slate are in their canonical form, and the Hearth's channels and
the crack detector's zones are eight each. -/
def State.Ok (s : State) : Prop :=
  s.ram.wf = true ∧ s.ldg.user.wf = true ∧ s.hth.chans.length = 8 ∧ s.pwr.zones.length = 8

end Sys2Proof.Machine
end

