-- ==== Sys2Proof/Certificates/Slice0/Obligations.lean ====
section
/-! DEFINITION. The statements for the provers, by part of the machine. A hypothesis `Passes v c p a e s` says that a command line
passes check orders 5 to 7 of Table 3.5; `AnswersOk`, `AnswersWith`, `Begins`, `Refuses`, `Acceptable` and `Stages` are defined in
Sys2Proof/Safety.lean. -/

open Sys2Proof Sys2Proof.Machine

/-! ### The queue and reset -/

/-- A step runs the command at the front of the queue with the rest of the queue behind it. On an empty queue the block idles; that
is the model's choice (log entry 13). -/
def Obligations.StepRunsFront : Prop :=
  (∀ (c : Instr) (s : State), step { s with pending := c :: s.pending } = exec c s) ∧
  (∀ s : State, s.pending = [] → step s = .next s)

/-! ### Tally, clocks and events (spec 02) -/

/-- Without a skip due, a frame edge advances the tally by one; with `k` frames to skip it carries n + 1 + k, the skip count
grows by `k`, and the skip is spent. While PD3 is off there is no tally and the edge changes nothing (the model's choice). -/
def Obligations.TallyEdge : Prop :=
  ∀ (ins : List (Nat × W32)) (s : State),
    (s.on 3 = true → s.tly.skipNext = 0 → Gives (.tallyEdge ins) s fun t =>
      t.tly.now = s.tly.now + 1 ∧ t.tly.skip = s.tly.skip ∧ t.tly.skipNext = 0) ∧
    (s.on 3 = true → s.tly.skipNext ≠ 0 → Gives (.tallyEdge ins) s fun t =>
      t.tly.now = BitVec.ofNat 64 (s.tly.now.toNat + 1 + s.tly.skipNext) ∧
      t.tly.skip = s.tly.skip + BitVec.ofNat 64 s.tly.skipNext ∧ t.tly.skipNext = 0) ∧
    (s.on 3 = false → exec (.tallyEdge ins) s = .next s)

/-- Frame of a frame edge: the clocks, the Hearth, the power registers, the network ports, the boot state and the memory of
registers other than the ones an event can reach stay as they are. -/
def Obligations.TallyEdgeFrame : Prop :=
  ∀ (ins : List (Nat × W32)) (s t : State), exec (.tallyEdge ins) s = .next t →
    t.clk = s.clk ∧ t.pwr = s.pwr ∧ t.hth = s.hth ∧ t.sys = s.sys ∧ t.jtag = s.jtag ∧ t.neta = s.neta ∧ t.netb = s.netb ∧
    t.mem = s.mem ∧ t.pending = s.pending ∧ t.tly.source = s.tly.source ∧ t.tly.rate = s.tly.rate ∧ t.tly.state = s.tly.state ∧
    t.tly.epSec = s.tly.epSec ∧ t.tly.epNs = s.tly.epNs ∧ t.ldg.era = s.ldg.era

/-- An era starts at tally 0 with the era count one higher modulo 65 536 and the skip count at 0. No event is pending but READY levels that
the Hearth posts again, where the era start discarded a READY event of their channel (the model's choice, log entry 86). A write of
TLY_CTL that names another legal rate while no guest is staying takes that rate and starts an era; one that meets a staying guest
sets REFUSED and leaves the rate. -/
def Obligations.Eras : Prop :=
  (∀ s : State, s.on 3 = true → Gives .eraStart s fun t =>
    t.tly.now = 0 ∧ t.ldr.queue = [] ∧
    (∀ e ∈ t.evq.entries ++ t.evq.held, ∃ ch ∈ readyDropped s, e.src = .hearth ∧ e.eff = .ready ch (s.chan ch).ready) ∧ t.ldg.era = s.ldg.era + 1 ∧ t.tly.skip = 0 ∧
    t.tly.rate = s.tly.rate ∧ t.tly.source = s.tly.source) ∧
  (∀ (v : W32) (s : State), s.on 3 = true → fld v 4 3 ≤ 5 → fld v 4 3 ≠ s.tly.rate.toNat → s.anyStaying = false →
    Gives (.tlyRateWrite v) s fun t =>
      t.tly.rate = BitVec.ofNat 3 (fld v 4 3) ∧ t.tly.now = 0 ∧ t.ldg.era = s.ldg.era + 1) ∧
  (∀ (v : W32) (s : State), s.on 3 = true → fld v 4 3 ≤ 5 → fld v 4 3 ≠ s.tly.rate.toNat → s.anyStaying = true →
    Gives (.tlyRateWrite v) s fun t =>
      t.tly.rate = s.tly.rate ∧ t.tly.refused = true ∧ t.tly.now = s.tly.now ∧ t.ldg.era = s.ldg.era)

/-- Loss of REFCLK moves the DESK domain to the fallback oscillator, shows it in CLK_STAT and CLK_FAULT, and starts the move to
HUSH from LOBBY or FULL; its return sets CLK_STAT.REFCLK, clears DESKRC and changes neither CLK_FAULT nor the house state. -/
def Obligations.RefclkLossAndReturn : Prop :=
  (∀ s : State, s.on 2 = true → (s.pwr.house = .lobby ∨ s.pwr.house = .full) → Gives .refclkLoss s fun t =>
    t.clk.stat.getLsbD 0 = false ∧ t.clk.stat.getLsbD 9 = true ∧ t.clk.fault.getLsbD 0 = true ∧ t.pwr.goal = some .hush ∧
    t.pwr.house = s.pwr.house ∧ t.desk = s.desk ∧ t.tly = s.tly) ∧
  (∀ s : State, s.on 2 = true → Gives .refclkReturn s fun t =>
    t.clk.stat.getLsbD 0 = true ∧ t.clk.stat.getLsbD 9 = false ∧ t.clk.fault = s.clk.fault ∧
    t = s.onClk fun c => { c with stat := t.clk.stat })

/-- Loss of the tally source in any state but FREE-RUN sets LOST and CLK_FAULT.AUD, and LOCKED becomes HOLDOVER. A window in which
EXT-MCLK or WORDCLOCK is more than 1000 ppm off is such a loss; one within 1000 ppm is none. A source that is present again clears
LOST, ends the holdover count of AHEAD, and leaves the state and the tally. -/
def Obligations.TallySourceLoss : Prop :=
  (∀ s : State, s.on 3 = true → s.tly.state ≠ .freeRun → s.tly.lost = false → Gives .tallySourceLost s fun t =>
    t.tly.lost = true ∧ t.clk.fault.getLsbD 8 = true ∧ t.clk.stat.getLsbD 8 = false ∧
    t.tly.state = (if s.tly.state = .locked then .holdover else s.tly.state) ∧ t.tly.now = s.tly.now ∧ t.pwr = s.pwr) ∧
  (∀ (ppm : Nat) (s : State), s.on 3 = true → s.tly.state ≠ .freeRun → s.tly.lost = false →
    (s.tly.source = 1 ∨ s.tly.source = 2) → 1000 < ppm → Gives (.frequencyWindow ppm) s fun t =>
      t.tly.lost = true ∧ t.clk.fault.getLsbD 8 = true) ∧
  (∀ (ppm : Nat) (s : State), ppm ≤ 1000 → exec (.frequencyWindow ppm) s = .next s) ∧
  (∀ s : State, Gives .tallySourceReturn s fun t =>
    t.tly.lost = false ∧ t.tly.now = s.tly.now ∧ t.tly.state = s.tly.state ∧ (s.tly.state = .ahead → t.tly.holdEdges = 0) ∧
    t.clk.fault = s.clk.fault)

/-- Under PTP a message that the source's port follows takes the target floor((PTP time − epoch) × fs), and a servo offset above 1 µs is
a loss of the source; a port whose priority1 is the better one is master and follows none, and a message of another domain changes
nothing. An alignment that finds the tally behind by more than 4096 frames, or the first of an era, or one under SKIP, skips the error
rounded to the nearest frame at the next edge, at most half a frame being left; one that finds it ahead by more than 4096 frames enters
AHEAD, and one otherwise slews and never steps the tally; a lock ends the slew and enters LOCKED from ACQUIRE and HOLDOVER. The tally's value is changed by none of them. A PTP time before the epoch gives the target 0
(the model's choice, log entry 27). -/
def Obligations.PtpAndAlignment : Prop :=
  (∀ (port sec ns dom prio : Nat) (off : Int) (s : State), port < 2 → s.on 3 = true → s.on (portDom port) = true →
    (s.net port).link = true → (s.net port).domain = dom → prio ≤ (s.net port).prio1 → s.tly.source = 3 → s.tly.ptpport = (port == 1) →
    s.tly.epSec.toNat * 10 ^ 9 + s.tly.epNs.toNat ≤ sec * 10 ^ 9 + ns →
    Gives (.ptpSync ⟨port, dom, prio⟩ sec ns off) s fun t =>
      t.tly.target = some (BitVec.ofNat 64
        ((sec * 10 ^ 9 + ns - (s.tly.epSec.toNat * 10 ^ 9 + s.tly.epNs.toNat)) * s.fs / 10 ^ 9)) ∧
      t.tly.servoNs = off ∧ (t.net port).synced = true ∧ (t.net port).master = false ∧ t.tly.now = s.tly.now ∧
      (1000 < off.natAbs → s.tly.state ≠ .freeRun → t.tly.lost = true)) ∧
  (∀ (port sec ns dom prio : Nat) (off : Int) (s : State), s.on (portDom port) = true → (s.net port).link = true →
    (s.net port).domain = dom → (s.net port).prio1 < prio →
    exec (.ptpSync ⟨port, dom, prio⟩ sec ns off) s = .next (s.onNet port fun n => { n with master := true })) ∧
  (∀ (port sec ns dom prio : Nat) (off : Int) (s : State), (s.net port).domain ≠ dom →
    exec (.ptpSync ⟨port, dom, prio⟩ sec ns off) s = .next s) ∧
  (∀ (ph : Int) (v : Tally) (s : State), s.on 3 = true → s.tly.lost = false → s.tly.state ≠ .freeRun → s.tly.state ≠ .ahead →
    (s.tly.source = 3 ∨ s.tly.source = 0) → s.tly.target = some v →
    let err := alignError ((v.toNat : Int) - s.tly.now.toNat) ph s.fs
    let frame : Int := 10 ^ 9
    Gives (.tallyAlign ph) s fun t => t.tly.now = s.tly.now ∧
      (0 ≤ err → (s.tly.aligned = false ∨ 4096 * frame < err ∨ s.tly.relock = true) →
        -frame ≤ 2 * (err - t.tly.skipNext * frame) ∧ 2 * (err - t.tly.skipNext * frame) < frame ∧ t.tly.aligned = true) ∧
      (0 ≤ err → s.tly.aligned = true → err ≤ 4096 * frame → s.tly.relock = false → t.tly.skipNext = s.tly.skipNext) ∧
      (err < -4096 * frame → t.tly.state = .ahead) ∧
      (err < 0 → -4096 * frame ≤ err → t.tly.state = s.tly.state ∧ t.tly.skipNext = s.tly.skipNext)) ∧
  (∀ (ph : Int) (s : State), s.on 3 = true → s.tly.lost = false → s.tly.state ≠ .freeRun → s.tly.state ≠ .ahead →
    (s.tly.source = 1 ∨ s.tly.source = 2) → exec (.tallyAlign ph) s =
      .next (s.onTly fun t => { t with slewNs := if s.tly.source = 1 then 0 else ph, aligned := true })) ∧
  (∀ s : State, s.on 3 = true → s.tly.lost = false → (s.tly.state = .acquire ∨ s.tly.state = .holdover) →
    Gives .tallyLocked s fun t => t.tly.state = .locked ∧ t.tly.slewNs = 0 ∧ t.clk.stat.getLsbD 8 = true ∧ t.tly.now = s.tly.now)

/-- A write of TLY_CTL that selects another source starts no era: the tally counts on, LOST clears, and the state is FREE-RUN for
FREE and ACQUIRE for every other source. -/
def Obligations.SourceWrite : Prop :=
  ∀ (v : W32) (s : State), s.on 3 = true → BitVec.ofNat 2 (fld v 0 2) ≠ s.tly.source → fld v 4 3 = s.tly.rate.toNat →
    Gives (.tlySourceWrite v) s fun t =>
      t.tly.source = BitVec.ofNat 2 (fld v 0 2) ∧ t.tly.now = s.tly.now ∧ t.ldg.era = s.ldg.era ∧ t.tly.lost = false ∧
      t.tly.state = (if fld v 0 2 = 0 then .freeRun else .acquire) ∧ t.tly.ptpport = v.getLsbD 9 ∧ t.evq = s.evq

/-- A read of TLY_NOW_LO returns the low word of the tally and latches the high word in TLY_NOW_HI; a read of TLY_CNT_SKIP_LO
returns the low word of the skip count, latches the high word and clears the count; a write of TLY_EPOCH_NS below 10^9 takes the
epoch of the three registers at once, and any other leaves it. Nothing else changes. -/
def Obligations.TallyRegisters : Prop :=
  (∀ s : State, s.on 3 = true → exec .tlyNowLoRead s = .next
    ((s.onTly fun t => { t with nowHi := s.tly.now.extractLsb' 32 32 }).onSys fun y =>
      { y with readData := [s.tly.now.extractLsb' 0 32] })) ∧
  (∀ s : State, s.on 3 = true → exec .tlyCntSkipLoRead s = .next
    ((s.onTly fun t => { t with skipHi := s.tly.skip.extractLsb' 32 32, skip := 0 }).onSys fun y =>
      { y with readData := [s.tly.skip.extractLsb' 0 32] })) ∧
  (∀ (v : W32) (s : State), s.on 3 = true → v.toNat < 10 ^ 9 → exec (.tlyEpochNsWrite v) s = .next
    (s.onTly fun t => { t with
      ns := BitVec.ofNat 30 v.toNat, epNs := BitVec.ofNat 30 v.toNat, epSec := s.tly.shi ++ s.tly.slo })) ∧
  (∀ (v : W32) (s : State), s.on 3 = true → 10 ^ 9 ≤ v.toNat → v.toNat < 2 ^ 30 → exec (.tlyEpochNsWrite v) s = .next s)

/-- The tly and clk verbs. `tly.set relock=` and `slew=` set those fields and keep them for the next PD3 power-on; a rate change
while a guest is staying is refused busy; `tly.late` sets the source's bit of TLY_LATE; the show verbs change nothing. -/
def Obligations.TallyVerbs : Prop :=
  (∀ c p a e s, Passes tlySetV c p a e s → s.on 3 = true → e.has "rate" = false → e.has "src" = false → e.has "port" = false →
    e.has "epoch" = false → AnswersWith (.tlySet c p a) c s fun ls u => ls = [] ∧
      u.tly.relock = ((e.word? "relock").map (· == "skip")).getD s.tly.relock ∧
      u.tly.slew = ((e.nat? "slew").map (BitVec.ofNat 8)).getD s.tly.slew ∧
      u.tly.now = s.tly.now ∧ u.tly.rate = s.tly.rate ∧ u.tly.source = s.tly.source) ∧
  (∀ c p a e s n, Passes tlySetV c p a e s → e.nat? "rate" = some n → rateCode n ≠ s.tly.rate → s.anyStaying = true →
    Refuses (.tlySet c p a) c s 30 "") ∧
  (∀ c p a e s, Passes tlyLateV c p a e s → s.on 3 = true → AnswersOk (.tlyLate c p a) c s []
    (s.onTly fun t =>
      let v := setBit s.tly.late (lateNames.idxOf (e.word "src")) (e.word "policy" == "reject-late")
      { t with kept := { t.kept with late := some v }, late := v })) ∧
  (∀ c p a e s, Passes tlyShowV c p a e s → AnswersWith (.tlyShow c p a) c s fun ls u => u = s ∧
    ls.length = (if s.on 3 then 2 else 1)) ∧
  (∀ c p a e s, Passes clkShowV c p a e s → AnswersWith (.clkShow c p a) c s fun ls u => u = s ∧ ls.length = 1)

/-- An event that reaches the queue: a second one of the same tally, source and sequence is discarded and counted in DUP; one whose
share is full waits with its source; one on time is queued for its own tally; one that is late from a source that applies late
takes the first open tally and is counted in LATE; one from a REJECT-LATE source is discarded and counted in REJECT (a READY event
is then posted again, as chapter 13 says of the Hearth). A Larder request on time waits for its service instead. -/
def Obligations.EventQueue : Prop :=
  ∀ (src : Src) (seq : BitVec 16) (stamp : Tally) (cut : Bool) (eff : Effect) (s : State), s.on 3 = true →
    let ev : Event := { src := src, seq := seq, stamp := stamp, due := stamp, late := false, by_ := none, eff := eff }
    let i := Instr.eventEnqueue src seq stamp cut eff
    (isDup src seq stamp eff s = true → exec i s = .next (s.onTly fun t => { t with cDup := satInc t.cDup })) ∧
    (isDup src seq stamp eff s = false → shareFull src s = true →
      exec i s = .next (s.onEvq fun q => { q with held := q.held ++ [ev] })) ∧
    (isDup src seq stamp eff s = false → shareFull src s = false → onTime stamp.toNat cut s = true → (∀ r, eff ≠ .request r) →
      exec i s = .next (s.onEvq fun q => { q with entries := q.entries ++ [ev] })) ∧
    (∀ r, isDup src seq stamp eff s = false → shareFull src s = false → onTime stamp.toNat cut s = true → eff = .request r →
      s.on 11 = true → exec i s = .next (s.onLdr fun l =>
        { l with queue := l.queue ++ [{ src := src, seq := seq, stamp := stamp, named := stamp, req := r, rows := [], wait := [] }] })) ∧
    (isDup src seq stamp eff s = false → shareFull src s = false → onTime stamp.toNat cut s = false → rejectsLate src s = false →
      (∀ r, eff ≠ .request r) →
      Gives i s fun t => t.tly.cLate = satInc s.tly.cLate ∧ t.tly.cReject = s.tly.cReject ∧
        t.evq.entries = s.evq.entries ++ [{ ev with due := BitVec.ofNat 64 (firstOpen cut s), late := true }]) ∧
    (isDup src seq stamp eff s = false → shareFull src s = false → onTime stamp.toNat cut s = false → rejectsLate src s = true →
      (∀ ch on, eff ≠ .ready ch on) →
      Gives i s fun t => t.tly.cReject = satInc s.tly.cReject ∧ t.tly.cLate = s.tly.cLate ∧ t.evq.entries = s.evq.entries)

/-- Events of one tally take effect in the order Desk, Porter, routes in ascending number, Larder, Hearth; within one source and
tally, event a precedes event b when (b − a) modulo 65 536 lies between 1 and 32 767. -/
def Obligations.EventOrder : Prop :=
  (∀ (a b : Event), a.src = b.src → (evBefore a b = true ↔ 1 ≤ (b.seq - a.seq).toNat ∧ (b.seq - a.seq).toNat ≤ 32767)) ∧
  (∀ (a b : Event) (r q : Nat), r < 512 → q < 512 →
    (a.src = .desk → b.src ≠ .desk → (∀ n, b.src = .route n → n < 512) → evBefore a b = true) ∧
    (a.src = .porter → (b.src = .route r ∨ b.src = .larder ∨ b.src = .hearth) → evBefore a b = true) ∧
    (a.src = .route r → b.src = .route q → r < q → evBefore a b = true) ∧
    (a.src = .route r → (b.src = .larder ∨ b.src = .hearth) → evBefore a b = true) ∧
    (a.src = .larder → b.src = .hearth → evBefore a b = true))

/-! ### The Desk (spec 03) -/

/-- A line below its verb's level is denied (order 5); a claim of another session locks a line that changes the object (order 5);
a required key that is lacking and a key the verb does not take are named (orders 6 and 7); a tally prefix on a setting is a bad
value. Each leaves the line without effect. Shown on `aud.set`. -/
def Obligations.CheckOrder : Prop :=
  (∀ c p a s, canRun c.origin s = true → (s.levelOf c.origin).rank < Level.keeper.rank → Refuses (.audSet c p a) c s 20 "") ∧
  (∀ n tag cut p a s, canRun (.sess n) s = true → Level.keeper.rank ≤ (s.levelOf (.sess n)).rank →
    (∃ m, m ≠ n ∧ ("aud", m) ∈ s.desk.claims) → Refuses (.audSet ⟨.sess n, tag, cut⟩ p a) ⟨.sess n, tag, cut⟩ s 21 "") ∧
  (∀ c p v s, canRun c.origin s = true → Level.keeper.rank ≤ (s.levelOf c.origin).rank → s.desk.claims = [] →
    Refuses (.audDry c p [⟨"policy", v⟩]) c s 14 "guest" ∧ Refuses (.lock c p [⟨"x", v⟩]) c s 13 "x" ∧
    (p ≠ .none → Refuses (.lock c p []) c s 13 ""))

/-- How a line is answered: in TYPED mode an `ok` of a session whose buffer has room puts the reply and then the prompt behind what
waits there, and changes nothing else in the part; a session of a closed carrier is sent nothing. The line of the morning script that
runs moves the script on by one line when it succeeds; one that runs no more (R127) moves nothing. -/
def Obligations.LineAnswers : Prop :=
  (∀ (n : Nat) (cut : Bool) (ls : List String) (s : State), n < 4 → (s.sess n).opened = true → s.desk.ready = true →
    (s.sess n).machine = false → (s.sess n).waiting = none → (s.sess n).next = none →
    outUsed (s.sess n) + (okText false none ls).length + promptS.length ≤ outCap →
    deliver ⟨.sess n, none, cut⟩ (.ok ls s) = s.onSess n fun x =>
      { x with out := x.out ++ [⟨.reply, okText false none ls, 0⟩, ⟨.prompt, promptS, 0⟩], mid := true }) ∧
  (∀ (n : Nat) (cut : Bool) (ls : List String) (s : State), n < 4 → (s.sess n).opened = false → (s.sess n).next = none →
    deliver ⟨.sess n, none, cut⟩ (.ok ls s) = s) ∧
  (∀ (l : Nat) (w : ScriptWait) (cut : Bool) (ls : List String) (s : State), s.desk.script = .running l w →
    deliver ⟨.morning l, none, cut⟩ (.ok ls s) = (s.onDesk fun d => { d with script := .running (l + 1) .no })) ∧
  (∀ (k l : Nat) (w : ScriptWait) (cut : Bool) (ls : List String) (s : State), s.desk.script = .running l w → k ≠ l →
    deliver ⟨.morning k, none, cut⟩ (.ok ls s) = s)

/-- Setting DTR opens S1 while CDCEN and the device allow it; clearing it ends S1 and gives up its claims; a connection to TCPPORT
takes the first of S2 and S3 that is closed, or is answered busy when both are open; its end closes the session, and no session is told
any more of the events it posted. A session opens in TYPED mode at VISITOR; an effect held for the reply of a session that ends takes
place at that moment. -/
def Obligations.Sessions : Prop :=
  (∀ s : State, s.on 2 = true → s.on 5 = true → s.usb.state = .configured → s.desk.cdcen = true → s.sys.waiting = false →
    (s.sess 1).opened = false → Gives .cdcDtrSet s fun t =>
      (t.sess 1).opened = true ∧ (t.sess 1).level = .visitor ∧ (t.sess 1).machine = false ∧ t.sess 0 = s.sess 0 ∧
      t.usb = s.usb ∧ t.ldg = s.ldg) ∧
  (∀ s : State, (s.sess 1).opened = true → (∀ e ∈ s.desk.deferred, e.1 ≠ 1 ∧ e.1 ≠ 4) → Gives .cdcDtrClear s fun t =>
    (t.sess 1).opened = false ∧ (∀ e ∈ t.desk.claims, e.2 ≠ 1) ∧ t.usb = s.usb) ∧
  (∀ (b : BitVec 22) (f : Bool) (s : State), (s.sess 1).opened = true → s.desk.deferred = [(1, .uart (some b) (some f))] → Gives .cdcDtrClear s fun t =>
    (t.sess 1).opened = false ∧ t.desk.deferred = [] ∧ t.desk.baud = b ∧ t.desk.flow = f) ∧
  (∀ (port tcp : Nat) (peer : String) (s : State), port < 2 → s.on 2 = true → s.on (portDom port) = true →
    (s.net port).link = true → s.desk.tcpen = true → s.desk.tcpPort.toNat = tcp → s.sys.waiting = false →
    ((s.sess 2).opened = false → Gives (.tcpConnect port tcp peer) s fun t =>
      (t.sess 2).opened = true ∧ (t.sess 2).peer = peer ∧ (t.sess 2).level = .visitor ∧ t.sess 3 = s.sess 3) ∧
    ((s.sess 2).opened = true → (s.sess 3).opened = false → Gives (.tcpConnect port tcp peer) s fun t =>
      (t.sess 3).opened = true ∧ (t.sess 3).peer = peer ∧ (t.sess 3).level = .visitor ∧ t.sess 2 = s.sess 2) ∧
    ((s.sess 2).opened = true → (s.sess 3).opened = true → Gives (.tcpConnect port tcp peer) s fun t =>
      t.sess 2 = s.sess 2 ∧ t.sess 3 = s.sess 3 ∧ t.desk.refused.length = s.desk.refused.length + 1)) ∧
  (∀ (k : Nat) (s : State), (k = 2 ∨ k = 3) → (s.sess k).opened = true → (∀ e ∈ s.desk.deferred, e.1 ≠ k ∧ e.1 ≠ 4) →
    Gives (.tcpClose k) s fun t => (t.sess k).opened = false ∧ (∀ e ∈ t.desk.claims, e.2 ≠ k) ∧
      t.evq.entries = s.evq.entries.map (orphan k) ∧ t.cch = s.cch)

/-- What arrives and leaves on a session's carrier. A printable character of a TYPED session joins the partial line and is echoed; a
terminated line that cannot be read yet waits its turn; characters taken by the carrier leave the buffer in order; `!desk.dropped`
states how many notices were discarded; a reply that waited is buffered as soon as it fits, and an effect held for its reply takes
place, the first whose reply has left before any other. -/
def Obligations.DeskCarriers : Prop :=
  (∀ (k ch : Nat) (cut : Bool) (s : State), listens k s = true → (s.sess k).machine = false → (s.sess k).waiting = none →
    (s.sess k).esc = false → 0x20 ≤ ch → ch ≤ 0x7E → outUsed (s.sess k) < outCap → Gives (.typedCharacter k ch cut) s fun t =>
      (t.sess k).typed = (s.sess k).typed.push (Char.ofNat ch) ∧
      (t.sess k).out = (s.sess k).out ++ [⟨.echo, echoOf (s.sess k).typed (Char.ofNat ch), 0⟩] ∧ t.ldg = s.ldg ∧ t.evq = s.evq) ∧
  (∀ (k : Nat) (text : String) (cut : Bool) (s : State), listens k s = true → (s.sess k).busy = true →
    Gives (.lineReceived k text cut) s fun t =>
      (t.sess k).inq = (s.sess k).inq ++ [text] ∧ (t.sess k).typed = "" ∧ (t.sess k).out = (s.sess k).out) ∧
  (∀ (k : Nat) (cut : Bool) (s : State), listens k s = true → (s.sess k).machine = false → (s.sess k).busy = false →
    (s.sess k).waiting = none → (s.sess k).inq = [] → (s.sess k).out = [] → Gives (.lineReceived k "" cut) s fun t =>
      (t.sess k).out = [⟨.prompt, promptS, 0⟩] ∧ (t.sess k).inq = []) ∧
  (∀ (k : Nat) (cut : Bool) (s : State), listens k s = true → (s.sess k).machine = false → (s.sess k).busy = false →
    (s.sess k).waiting = none → (s.sess k).inq = [] → (s.sess k).out = [] → (s.sess k).next = none →
    Gives (.lineReceived k "ping" cut) s fun t =>
      (t.sess k).out = [⟨.reply, okText false none [], 0⟩, ⟨.prompt, promptS, 0⟩] ∧ (t.sess k).inq = [] ∧ t.ldg = s.ldg) ∧
  (∀ (k n : Nat) (i : OutItem) (r : List OutItem) (s : State), k < 4 → (s.sess k).out = i :: r → i.sent + n < i.text.length →
    exec (.outputBufferDrain k n) s = .next (s.onSess k fun x => { x with out := { i with sent := i.sent + n } :: r })) ∧
  (∀ (k : Nat) (s : State), k < 4 → (s.sess k).opened = true → s.desk.ready = true → (s.sess k).out = [] →
    (s.sess k).waiting = none → 0 < (s.sess k).dropPend →
    let n := (s.sess k).dropPend
    let text := noticeText (s.sess k) ("!desk.dropped " ++ kn "n" n ++ " " ++ kv "t" (noticeT s))
    text.length ≤ outCap → exec (.deskDropped k) s =
      .next (s.onSess k fun x => { x with out := [⟨.dropped n, text, 0⟩], dropPend := 0, mid := leavesMid x.mid text })) ∧
  (∀ (k : Nat) (cut : Bool) (t : String) (s : State), listens k s = true → (s.sess k).waiting = some [t] → (s.sess k).inq = [] →
    outUsed (s.sess k) + t.length ≤ outCap → Gives (.replyBuffered k cut) s fun u =>
      (u.sess k).waiting = none ∧ (u.sess k).out = (s.sess k).out ++ [⟨.reply, t, 0⟩]) ∧
  (∀ (n : Nat) (f : Deferred) (s : State), s.desk.deferred = [(n, f)] →
    exec .deferredEffect s = .next (settleDue (takeDeferred f (s.onDesk fun d => { d with deferred := [] })))) ∧
  (∀ (n : Nat) (b : BitVec 22) (f : Bool) (r : List (Nat × Deferred)) (s : State), (∀ e ∈ r, e.1 ≠ 4) → allSent n s = true →
    s.desk.deferred = (n, .uart (some b) (some f)) :: r →
    exec .deferredEffect s = .next (s.onDesk fun d => { d with deferred := r, baud := b, flow := f })) ∧
  (∀ (m n : Nat) (b : BitVec 22) (f : Bool) (g : Deferred) (s : State), m ≠ 4 → allSent m s = false → allSent n s = true →
    s.desk.deferred = [(m, g), (n, .uart (some b) (some f))] →
    exec .deferredEffect s = .next (s.onDesk fun d => { d with deferred := [(m, g)], baud := b, flow := f }))

/-- `desk.mode` takes effect after its reply, in the session that sent it; `desk.notices` edits the session's mask; `desk.set` sets
the fields it names; `desk.uart` changes the rate once the reply has left; `desk.claim` records the claim of a free object; `desk.claim`
and `desk.release` are locked out by another's claim, but for an OWNER's release with `force`; `desk.release` frees the object;
`desk.show` changes nothing. -/
def Obligations.DeskVerbs : Prop :=
  (∀ c p a e s k, Passes deskModeV c p a e s → c.origin = .sess k → AnswersOk (.deskMode c p a) c s []
    (s.onSess k fun x => { x with next := some (e.word "mode" == "machine") })) ∧
  (∀ c p a e s k, Passes deskNoticesV c p a e s → c.origin = .sess k → e.words "on" = [] → e.words "off" = ["tly"] → e ≠ [] →
    "tly" ∉ (s.sess k).off → AnswersOk (.deskNotices c p a) c s [] (s.onSess k fun x => { x with off := x.off ++ ["tly"] })) ∧
  (∀ c p a e s, Passes deskShowV c p a e s → AnswersWith (.deskShow c p a) c s fun ls u => u = s ∧ ls ≠ []) ∧
  (∀ c p a e s k, Passes deskUartV c p a e s → c.origin = .sess k → AnswersOk (.deskUart c p a) c s []
    (s.onDesk fun d => { d with
      deferred := d.deferred ++ [(k, .uart ((e.nat? "baud").map (BitVec.ofNat 22)) (e.flag? "flow"))] })) ∧
  (∀ c p a e s, Passes deskSetV c p a e s → AnswersOk (.deskSet c p a) c s [] (s.onDesk fun d => { d with
    tcpen := (e.flag? "tcp").getD d.tcpen, cdcen := (e.flag? "cdc").getD d.cdcen, morning := (e.flag? "morning").getD d.morning
    tcpPort := match e.nat? "port" with | some n => BitVec.ofNat 16 n | none => d.tcpPort })) ∧
  (∀ c p a e s k, Passes deskClaimV c p a e s → c.origin = .sess k → (∀ x ∈ s.desk.claims, x.1 ≠ e.word "obj") →
    AnswersOk (.deskClaim c p a) c s [] (s.onDesk fun d => { d with claims := d.claims ++ [(e.word "obj", k)] })) ∧
  (∀ n tag cut p a s o m, canRun (.sess n) s = true → Level.keeper.rank ≤ (s.levelOf (.sess n)).rank → keyIsWord a "obj" o = true →
    (o, m) ∈ s.desk.claims → m ≠ n → Refuses (.deskClaim ⟨.sess n, tag, cut⟩ p a) ⟨.sess n, tag, cut⟩ s 21 "" ∧
    (hasWord a "force" = false → Refuses (.deskRelease ⟨.sess n, tag, cut⟩ p a) ⟨.sess n, tag, cut⟩ s 21 "")) ∧
  (∀ c p a e s k, Passes deskReleaseV c p a e s → c.origin = .sess k →
    AnswersOk (.deskRelease c p a) c s [] (s.onDesk fun d => { d with claims := d.claims.filter fun x => x.1 != e.word "obj" }))

/-- `unlock` with the passphrase of a level gives the session that level and clears the part's failure count; a wrong one is denied,
counted in the session and in the part, and the 5th holds the session off; `lock` returns to VISITOR; the hold-off and, after an hour
of powered time, the lockout end; `desk.pass` requests the commit its reply waits for. -/
def Obligations.Levels : Prop :=
  (∀ c p a e s k, Passes unlockV c p a e s → c.origin = .sess k → e.word "level" = "owner" →
    e.word "passphrase" = s.ldg.passO.getD "" → AnswersOk (.unlock c p a) c s []
      ((s.onSess k fun x => { x with level := .owner }).onLdg fun d => { d with unlockFails := 0, lockTicks := 0 })) ∧
  (∀ c p a e s k, Passes unlockV c p a e s → c.origin = .sess k → e.word "level" = "keeper" →
    e.word "passphrase" = s.ldg.passK.getD "" → AnswersOk (.unlock c p a) c s []
      ((s.onSess k fun x => { x with level := .keeper }).onLdg fun d => { d with unlockFails := 0, lockTicks := 0 })) ∧
  (∀ c p a e s k, Passes unlockV c p a e s → c.origin = .sess k → e.word "level" = "owner" →
    e.word "passphrase" ≠ s.ldg.passO.getD "" → exec (.unlock c p a) s = .next (deliver c (.err 20 ""
      ((s.onSess k fun x => { x with fails := x.fails + 1, held := decide (5 ≤ x.fails + 1) }).onLdg fun d =>
        { d with unlockFails := satInc d.unlockFails })))) ∧
  (∀ c p a s k, canRun c.origin s = true → c.origin = .sess k → ((s.sess k).held = true ∨ 20 ≤ s.ldg.unlockFails.toNat) →
    Refuses (.unlock c p a) c s 21 "") ∧
  (∀ c p a e s k, Passes lockV c p a e s → c.origin = .sess k →
    AnswersOk (.lock c p a) c s [] (s.onSess k fun x => { x with level := .visitor })) ∧
  (∀ (k : Nat) (s : State), k < 4 → (s.sess k).held = true →
    exec (.unlockHoldoffEnd k) s = .next (s.onSess k fun x => { x with held := false, fails := 0 })) ∧
  (∀ s : State, s.on 2 = true → 20 ≤ s.ldg.unlockFails.toNat → 360000 ≤ s.ldg.lockTicks →
    exec .unlockLockoutEnd s = .next (s.onLdg fun d => { d with unlockFails := 0, lockTicks := 0 })) ∧
  (∀ c p a e s, Passes deskPassV c p a e s → s.pwr.pfail = false → Begins (.deskPass c p a) c s fun u => u =
    s.onLdg fun d => { d with queue := d.queue ++ [
      { pages := [], upd := .pass (if e.word "level" == "owner" then .owner else .keeper) (e.word "new"), who := .line c.origin }] })

/-- `ping` answers ok and changes nothing; `help` lists the objects, or an object's verbs; `peek` returns the words at its address
and `poke` writes them, both over the whole of usable memory; an unaligned address is refused as a bad value. -/
def Obligations.BareVerbs : Prop :=
  (∀ c p a e s, Passes pingV c p a e s → AnswersOk (.ping c p a) c s [] s) ∧
  (∀ c p a e s, Passes helpV c p a e s → e.word? "object" = none → AnswersWith (.help c p a) c s fun ls u => u = s ∧
    ls.length = 30) ∧
  (∀ c p a e s, Passes peekV c p a e s → e.nat? "n" = none → e.nat "address" % 4 = 0 → s.mem.valid = true →
    e.nat "address" + 4 ≤ s.usable → e.nat "address" + 4 ≤ 0x800000000 →
    AnswersOk (.peek c p a) c s [hexS 8 (s.ram.readW (e.nat "address")).toNat]
      (s.onSys fun y => { y with readData := [s.ram.readW (e.nat "address")] })) ∧
  (∀ c p a e s v, Passes pokeV c p a e s → e.allNums "value" = [v] → e.nat "address" % 4 = 0 → s.mem.valid = true →
    e.nat "address" + 4 ≤ s.usable → e.nat "address" + 4 ≤ 0x800000000 → (∀ x ∈ s.desk.deferred, x.1 ≠ 4) →
    AnswersOk (.poke c p a) c s [] { s with ram := s.ram.writeW (e.nat "address") (BitVec.ofNat 32 v) }) ∧
  (∀ c p a e s, Passes peekV c p a e s → e.nat "address" % 4 ≠ 0 → Refuses (.peek c p a) c s 13 "") ∧
  (∀ c p a e s, Passes pokeV c p a e s → e.nat "address" % 4 ≠ 0 → Refuses (.poke c p a) c s 13 "")

/-- The morning script. 0x03 within the first second skips it and serves the sessions; its next line runs at the line's number, its
end serves the sessions with `!desk.ready`; after its time limit it stops; the verbs that edit it request their commits, and
`morning.run` is answered at once and starts it at its first line. -/
def Obligations.MorningScript : Prop :=
  (∀ s : State, s.on 2 = true → s.sys.pd2Frames < 100 → s.desk.ready = false → s.desk.script ≠ .idle → s.sys.booted = true →
    Gives .morningSkip s fun t => t.desk.ready = true ∧ t.desk.script = .idle) ∧
  (∀ (cut : Bool) (l : Nat) (s : State), s.on 2 = true → s.sys.booted = true → s.desk.script = .running l .no →
    s.desk.ready = false → s.desk.morning = true → nextScript l s.ldg = none → Gives (.morningLine cut) s fun t =>
      t.desk.ready = true ∧ t.desk.script = .idle) ∧
  (∀ (cut : Bool) (l n : Nat) (s : State), s.on 2 = true → s.sys.booted = true → s.desk.script = .running l .no →
    s.desk.ready = false → s.desk.morning = true → nextScript l s.ldg = some (n, "ping") → Gives (.morningLine cut) s fun t =>
      t.desk.script = .running (n + 1) .no ∧ t.desk.ready = false ∧ t.ldg = s.ldg) ∧
  (∀ (l : Nat) (w : ScriptWait) (s : State), s.desk.script = .running l w → s.desk.ready = false → Gives .morningTimeout s fun t =>
    t.desk.script = .idle ∧ t.desk.ready = true) ∧
  (∀ c p a e s, Passes morningShowV c p a e s → AnswersOk (.morningShow c p a) c s (numbered 64 s.ldg.lines) s) ∧
  (∀ c p a e s n x, Passes morningSetV c p a e s → e.nat? "line" = some n → e.word? "text" = some x → e.word? "onerr" = none →
    lineFits x (tget s.ldg.lines n) s.ldg = true → s.pwr.pfail = false → Begins (.morningSet c p a) c s fun u => u =
      s.onLdg fun d => { d with queue := d.queue ++ [{ pages := [], upd := .line n (some x) none, who := .line c.origin }] }) ∧
  (∀ c p a e s, Passes morningDelV c p a e s → s.pwr.pfail = false → Begins (.morningDel c p a) c s fun u => u =
    s.onLdg fun d => { d with queue := d.queue ++ [
      { pages := [], upd := .line (e.nat "line") none none, who := .line c.origin }] }) ∧
  (∀ c p a e s, Passes morningClearV c p a e s → s.pwr.pfail = false → Begins (.morningClear c p a) c s fun u => u =
    s.onLdg fun d => { d with queue := d.queue ++ [{ pages := [], upd := .clearLines, who := .line c.origin }] }) ∧
  (∀ c p a e s k, Passes morningRunV c p a e s → c.origin = .sess k → s.desk.script = .idle →
    AnswersOk (.morningRun c p a) c s [] (s.onDesk fun d => { d with script := .running 1 .no }))

/-- Keyword macros. The oldest keyword's line runs with the keyword's stamp and is reported in `!desk.macro`; a slot without a line
runs nothing; the verbs that edit the lines request their commits. A route's line is taken from its buffer, which is free again. -/
def Obligations.MacrosAndRouteLines : Prop :=
  (∀ (cut : Bool) (w : Keyword) (r : List Keyword) (s : State), s.on 2 = true → s.desk.ready = true → s.desk.kwq = w :: r →
    (tget s.ldg.words w.slot = none → exec (.keywordMacroRun cut) s = .next (s.onDesk fun d => { d with kwq := r })) ∧
    (tget s.ldg.words w.slot = some "ping" → Gives (.keywordMacroRun cut) s fun t => t =
      notify "desk" ("macro " ++ kn "slot" w.slot) (s.onDesk fun d => { d with kwq := r }))) ∧
  (∀ c p a e s, Passes macroSetV c p a e s → s.pwr.pfail = false →
    lineFits (e.word "text") (tget s.ldg.words (e.nat "slot")) s.ldg = true → Begins (.macroSet c p a) c s fun u => u =
      s.onLdg fun d => { d with queue := d.queue ++ [
        { pages := [], upd := .keyword (e.nat "slot") (some (e.word "text")), who := .line c.origin }] }) ∧
  (∀ c p a e s, Passes macroClearV c p a e s → s.pwr.pfail = false → Begins (.macroClear c p a) c s fun u => u =
    s.onLdg fun d => { d with queue := d.queue ++ [
      { pages := [], upd := .keyword (e.nat "slot") none, who := .line c.origin }] }) ∧
  (∀ c p a e s, Passes macroShowV c p a e s → AnswersOk (.macroShow c p a) c s (numbered 31 s.ldg.words) s) ∧
  (∀ (r : Nat) (msn : BitVec 16) (bs : List Byte) (l : List (BitVec 16 × List Byte)) (cut : Bool) (s : State), s.on 2 = true →
    s.desk.ready = true → (s.route r).bind = .desk → (s.route r).state = .opened → (s.route r).lines = (msn, bs) :: l →
    bs = [0x70, 0x69, 0x6E, 0x67] → (s.route r).reply = false → Gives (.deskRouteLine r cut) s fun t => t =
      s.onRoute r fun x => { x with lines := l, pool := x.pool + 1 })


/-! ### Formats, plans and the weave engine (spec 04, 05) -/

/-- `fmt.show` lists the thirteen formats or the one it names; `fmt.conv` converts one value and changes nothing, and answers the
worked examples of chapter 4 with their codes, values and counts; a G6 source without its exponent is refused as a missing key. -/
def Obligations.FormatVerbs : Prop :=
  (∀ c p a e s, Passes fmtShowV c p a e s → AnswersWith (.fmtShow c p a) c s fun ls u => u = s ∧
    ls.length = (if e.word? "fmt" = none then 13 else 1)) ∧
  (∀ c p a e s i x, Passes fmtConvV c p a e s → fmtNames.idxOf (e.word "from") ≠ 9 → fmtNames.idxOf (e.word "to") ≠ 9 →
    (e.raw? "value").map valItems = some [i] → convSource (fmtNames.idxOf (e.word "from")) (e.nat "z") (e.nat "e") i = some x →
    AnswersWith (.fmtConv c p a) c s fun ls u => u = s ∧ ls.length = 1) ∧
  (∀ c p v w s, canRun c.origin s = true →
    Refuses (.fmtConv c p [⟨"from", .item (.word "G6")⟩, ⟨"to", v⟩, ⟨"value", w⟩]) c s 14 "e") ∧
  (∀ c s, canRun c.origin s = true →
    AnswersOk (.fmtConv c .none [⟨"from", .item (.word "F32")⟩, ⟨"to", .item (.word "E4M3")⟩, ⟨"value", .item (.num false 3 1 "")⟩]) c s
      ["code=0x2A value=0.3125 clip=0 nan=0"] s ∧
    AnswersOk (.fmtConv c .none [⟨"from", .item (.word "F32")⟩, ⟨"to", .item (.word "S8")⟩, ⟨"value", .item (.num false 210 1 "")⟩,
      ⟨"sexp", .item (.num true 3 0 "")⟩]) c s ["code=0x7F value=15.875 clip=1 nan=0"] s ∧
    AnswersOk (.fmtConv c .none [⟨"from", .item (.word "F32")⟩, ⟨"to", .item (.word "G6")⟩,
      ⟨"value", .list [.num false 75 2 "", .num true 3 1 "", .num false 15625 6 ""]⟩]) c s
      ["e=0x7A codes=24,-10,1 values=0.75,-0.3125,0.03125 clip=0 nan=0"] s)

/-- `plan.load` of an image that the part accepts places the plan at its base: it is loaded, its stores alone change, and the line that
reports it is the answer; what its placement lacks, a name in use, an image of a wrong magic, and a bad signature under enforcement are
refused. -/
def Obligations.PlanLoad : Prop :=
  (∀ c p a e s x q b, Passes planLoadV c p a e s → loadImage e s = .ok x →
    placeFail e (if e.has "as" then e.plan "as" else e.plan "name") x s = none → x.magicOk = true →
    checkImage (if e.has "as" then e.plan "as" else e.plan "name") (e.plan "name") x s = .ok (q, false) →
    placeBase e q.stakes s = some b → q.hops = [] →
    AnswersWith (.planLoad c p a) c s fun ls u => ls = [planLine { q with base := b }] ∧
      u.weave.plans = s.weave.plans ++ [{ q with base := b }] ∧ u.inn = s.inn ∧ u.tly = s.tly ∧ u.weave.stakes = s.weave.stakes ∧
      (∀ k, (∀ j < q.stakes, k < stakeBase (b + j) ∨ stakeBase (b + j) + 0x200000 ≤ k) → u.ram.read k = s.ram.read k)) ∧
  (∀ c p a e s x n k, Passes planLoadV c p a e s → loadImage e s = .ok x → e.has "as" = false →
    placeFail e (e.plan "name") x s = some (n, k) → Refuses (.planLoad c p a) c s n k) ∧
  (∀ c p a e s x q, Passes planLoadV c p a e s → loadImage e s = .ok x → e.has "as" = false → e.nat? "base" = none →
    (∀ k < 48, s.on (12 + k / 12) = true) → s.plan? (e.plan "name") = some q → Refuses (.planLoad c p a) c s 30 "name") ∧
  (∀ c p a e s x, Passes planLoadV c p a e s → loadImage e s = .ok x → e.has "as" = false → s.plan? (e.plan "name") = none →
    x.le 0 4 ≠ 0x50575641 → Refuses (.planLoad c p a) c s 61 "") ∧
  (∀ c p a e s x, Passes planLoadV c p a e s → loadImage e s = .ok x → e.has "as" = false → placeFail e (e.plan "name") x s = none →
    x.magicOk = true → s.sys.sigenf = true → s.sys.keyprog.getLsbD x.slot = false → Refuses (.planLoad c p a) c s 60 "")

/-- `plan.unload` frees the plan's stakes and clears their FAULT; one with a row in the rounds is refused busy. `plan.show` changes
nothing. `plan.hop` binds an open route that nothing else uses: an outgoing hop takes the peer's key, an incoming hop answers its own
window's. `stk.show` changes nothing; `stk.set drift=clear` clears the layer's DRIFT and no more. -/
def Obligations.PlansAndStakes : Prop :=
  (∀ c p a e s q, Passes planUnloadV c p a e s → s.plan? (e.plan "name") = some q → s.rowsOf q.name Guest.inRounds = [] →
    (q.quar = true ∨ s.rowsOf q.name (fun x => x.state == .away) = []) → AnswersWith (.planUnload c p a) c s fun ls u => ls = [] ∧
      u.plan? q.name = none ∧ (∀ j < q.stakes, (u.stake (q.base + j)).fault = false) ∧ u.tly = s.tly ∧ u.pwr = s.pwr) ∧
  (∀ c p a e s q, Passes planUnloadV c p a e s → s.plan? (e.plan "name") = some q → s.rowsOf q.name Guest.inRounds ≠ [] →
    Refuses (.planUnload c p a) c s 30 "") ∧
  (∀ c p a e s, Passes planShowV c p a e s → e.has "name" = false → AnswersWith (.planShow c p a) c s fun ls u => u = s ∧
    ls.length = max 1 s.weave.plans.length) ∧
  (∀ c p a e s q h, Passes planHopV c p a e s → s.plan? (e.plan "name") = some q →
    q.hops.find? (fun h => h.def_.hop == e.nat "hop") = some h → h.def_.pchip = q.chip → e.has "key" = true →
    (s.route (e.nat "route")).state = .opened → (s.route (e.nat "route")).bind = .none → s.rowsOf q.name Guest.isHeld = [] →
    AnswersWith (.planHop c p a) c s fun ls u => ls.length = 1 ∧ u = s.onPlan q.name fun y => { y with
      hops := y.hops.map fun x => if x.def_.hop = h.def_.hop then
        { x with route := some (e.nat "route"), key := some (BitVec.ofNat 32 (e.nat "key")) } else x }) ∧
  (∀ c p a e s q h w, Passes planHopV c p a e s → s.plan? (e.plan "name") = some q →
    q.hops.find? (fun h => h.def_.hop == e.nat "hop") = some h → h.def_.pchip ≠ q.chip → h.win = some w →
    (s.route (e.nat "route")).state = .opened → (s.route (e.nat "route")).bind = .none → s.rowsOf q.name Guest.isHeld = [] →
    AnswersWith (.planHop c p a) c s fun ls u => ls.length = 1 ∧ (u.win w).route = some (e.nat "route") ∧
      u.weave.plans = (s.onPlan q.name fun y => { y with hops := y.hops.map fun x => if x.def_.hop = h.def_.hop then
        { x with route := some (e.nat "route") } else x }).weave.plans) ∧
  (∀ c p a e s, Passes stkShowV c p a e s → s.on (12 + e.nat "k" / 12) = true → AnswersWith (.stkShow c p a) c s fun ls u => u = s ∧
    ls ≠ []) ∧
  (∀ c p a e s, Passes stkShowV c p a e s → s.on (12 + e.nat "k" / 12) = false → Refuses (.stkShow c p a) c s 40 "k") ∧
  (∀ c p a e s q i ly st, Passes stkSetV c p a e s → s.on (12 + e.nat "k" / 12) = true →
    ((List.range 8).filterMap fun j => slotLayer (e.nat "k") j s).find? (fun x => x.1.body.first + x.2.1 == e.nat "layer") =
      some (q, i, ly, st) → AnswersOk (.stkSet c p a) c s [] (s.onPlan q.name fun y => { y with
        sets := lmod y.sets i fun z => { z with drift := false } }))

/-- `plan.set` of a layer and of a hop post their events when the plan carries what they name and the layer was compiled for the mode;
another mode is refused. -/
def Obligations.PlanSettings : Prop :=
  (∀ c p a e s q ly t, Passes planSetV c p a e s → s.plan? (e.plan "name") = some q → q.body.first ≤ e.nat "layer" →
    q.body.layers[e.nat "layer" - q.body.first]? = some ly → (e.word? "smode").all (fun w => modeAllowed ly (smodeOf w)) = true →
    (e.word? "smode" ≠ none ∨ e.has "win" = true ∨ e.has "hr" = true ∨ e.has "exp" = true) →
    let eff := Effect.scale q.name (e.nat "layer") ((e.word? "smode").map smodeOf) (e.nat? "win") (e.nat? "hr") (e.int? "exp")
    Acceptable c p eff t s → Stages (.planSet c p a) c p eff t s) ∧
  (∀ c p a e s q ly w, Passes planSetV c p a e s → s.plan? (e.plan "name") = some q → q.body.first ≤ e.nat "layer" →
    q.body.layers[e.nat "layer" - q.body.first]? = some ly → e.word? "smode" = some w → modeAllowed ly (smodeOf w) = false →
    Refuses (.planSet c p a) c s 13 "smode") ∧
  (∀ c p a e s q t, Passes planSetHopV c p a e s → s.plan? (e.plan "name") = some q → (∃ h ∈ q.hops, h.def_.hop = e.nat "hop") →
    let eff := Effect.hopLate q.name (e.nat "hop") (lateOf (e.word "late"))
    Acceptable c p eff t s → Stages (.planSetHop c p a) c p eff t s) ∧
  (∀ c p a e s q, Passes planSetHopV c p a e s → s.plan? (e.plan "name") = some q → (∀ h ∈ q.hops, h.def_.hop ≠ e.nat "hop") →
    Refuses (.planSetHop c p a) c s 13 "hop")

/-- A round starts for the present tally while PD10, its clock and the stakes run, and no round starts otherwise; an event due then is
applied. The job a stake is at completes and counts its corrected errors, and no other does; what is not complete in time is abandoned,
with one overrun of its stake for each row; a double-bit error sets the stake's FAULT, leaves every row of the job unfinished, a completed
one included, gives the stake's bank port back, and puts its bundle up for quarantine with cause 1. -/
def Obligations.Rounds : Prop :=
  (∀ s : State, roundsRun s = true → Gives .roundStart s fun t => t.weave.round = true ∧
    t.inn.round = BitVec.ofNat 32 s.tly.now.toNat) ∧
  (∀ s : State, roundsRun s = false → exec .roundStart s = .next s) ∧
  (∀ (s : State) (g : Nat) (x : Guest) (on_ : Bool) (ev : Event), roundsRun s = true → s.weave.plans = [] → s.weave.todo = [] →
    s.weave.abandoned = [] → s.inn.guests = [(g, x)] → x.state = .registered → s.inn.quarG = [] → s.inn.lastAband = [] →
    s.inn.hotShed = false → s.cch.routes = [] → s.ldr.store = [] → s.evq.entries = [ev] → s.evq.held = [] → ev.due = s.tly.now → ev.eff = .mute g on_ →
    Gives .roundStart s fun t => (t.guest g).mute = on_ ∧ t.evq.entries = []) ∧
  (∀ (k j r n : Nat) (s : State), s.weave.todo.find? (fun e => e.1 == k) = some (k, j, r) → Gives (.rowJobComplete k j r n) s fun t =>
    t.weave.todo = s.weave.todo.filter (fun e => e != (k, j, r)) ∧ (t.stake k).sec = satAdd (s.stake k).sec n ∧
    (t.stake k).ovr = (s.stake k).ovr ∧ t.tly = s.tly ∧ t.pwr = s.pwr) ∧
  (∀ (k j r n : Nat) (s : State), s.weave.todo.find? (fun e => e.1 == k) ≠ some (k, j, r) → exec (.rowJobComplete k j r n) s = .next s) ∧
  (∀ s : State, Gives .rowAbandon s fun t => t.weave.todo = [] ∧ t.inn = { s.inn with ports := [] } ∧ t.tly = s.tly ∧ t.weave.plans = s.weave.plans) ∧
  (∀ (k j r : Nat) (s : State), s.weave.todo = [(k, j, r)] → Gives .rowAbandon s fun t => (t.stake k).ovr = satInc (s.stake k).ovr) ∧
  (∀ (k j : Nat) (s : State), k < 48 → s.on (12 + k / 12) = true → Gives (.stakeDoubleBitError k j) s fun t =>
    (t.stake k).fault = true ∧ (t.stake k).ded = satInc (s.stake k).ded ∧
    t.weave.todo = s.weave.todo.filter (fun e => !(e.1 == k && e.2.1 == j)) ∧ t.inn.rooms = s.inn.rooms ∧
    (∀ q, s.planAt k = some q → ∀ e ∈ t.inn.ports, e.2.1 ≠ k) ∧
    (∀ q i ly g old, s.planAt k = some q → (layersOn q (k - q.base))[j]? = some (i, ly) → s.weave.undo = [(k, j, g, old)] →
      (s.guest g).inRounds = true → (t.guest g).layers = (s.guest g).layers.set i old) ∧
    (∀ q, s.planAt k = some q → q.quar = false → q.pendQuar = none → ∃ z ∈ t.weave.plans, z.name = q.name ∧ z.pendQuar = some 1))

/-! ### Guests, rooms and the Innkeeper (spec 06) -/

/-- `guest.register` makes a FREE or REGISTERED guest REGISTERED with what the line gives (MAIN, D 1, one input and one output where it
gives nothing), and `drop` makes a REGISTERED one FREE with its registers at reset; any other guest is refused. `guest.reopen` and
`bundle.reopen` return quarantined guests to REGISTERED, the rooms they held free once they are zeroed; a stake with FAULT refuses the
bundle, and reopening a bundle ends its quarantine. -/
def Obligations.Registrations : Prop :=
  (∀ c p a e s, Passes guestRegisterV c p a e s → ((s.guest (e.nat "id")).state = .free ∨ (s.guest (e.nat "id")).state = .registered) →
    AnswersWith (.guestRegister c p a) c s fun ls u => ls = [] ∧ (u.guest (e.nat "id")).state = .registered ∧
      (u.guest (e.nat "id")).cls = ((e.word? "class").map classOf).getD .main ∧
      (u.guest (e.nat "id")).div = (e.nat? "div").getD 1 ∧ (u.guest (e.nat "id")).nin = (e.nat? "in").getD 1 ∧
      (u.guest (e.nat "id")).nout = (e.nat? "out").getD 1 ∧ (∀ h, h ≠ e.nat "id" → u.guest h = s.guest h) ∧
      u.weave = s.weave ∧ u.inn.rooms = s.inn.rooms ∧ u.evq = s.evq) ∧
  (∀ c p a e s, Passes guestRegisterV c p a e s → (s.guest (e.nat "id")).state = .quarantined →
    Refuses (.guestRegister c p a) c s 51 "") ∧
  (∀ c p a e s, Passes guestRegisterV c p a e s → (s.guest (e.nat "id")).state = .staying →
    Refuses (.guestRegister c p a) c s 40 "") ∧
  (∀ c p a e s, Passes guestDropV c p a e s → (s.guest (e.nat "id")).state = .registered →
    AnswersWith (.guestRegisterDrop c p a) c s fun ls u => ls = [] ∧ u.guest (e.nat "id") = {} ∧
      (∀ h, h ≠ e.nat "id" → u.guest h = s.guest h)) ∧
  (∀ c p a e s, Passes guestReopenV c p a e s → (s.guest (e.nat "id")).state = .quarantined →
    AnswersWith (.guestReopen c p a) c s fun ls u => ls = [] ∧ (u.guest (e.nat "id")).state = .registered ∧
      (∀ r ∈ heldRooms (e.nat "id") s, tget u.inn.rooms r = none ∧ tget u.inn.inUse r = some .zeroing) ∧ u.ram = s.ram) ∧
  (∀ c p a e s, Passes guestReopenV c p a e s → (s.guest (e.nat "id")).state ≠ .quarantined →
    Refuses (.guestReopen c p a) c s 40 "") ∧
  (∀ c p a e s q, Passes bundleReopenV c p a e s → s.plan? (e.plan "plan") = some q → planFault q s = true →
    Refuses (.bundleReopen c p a) c s 50 "") ∧
  (∀ c p a e s q, Passes bundleReopenV c p a e s → s.plan? (e.plan "plan") = some q → planFault q s = false →
    AnswersWith (.bundleReopen c p a) c s fun ls u => ls = [] ∧
      (∀ g, (s.guest g).state = .quarantined → (s.guest g).plan = q.name → (u.guest g).state = .registered) ∧
      (∃ z, u.plan? q.name = some z ∧ z.quar = false))

/-- The event commands of the guests and bundles are accepted and staged when their effect would be taken now; one whose effect would
fail is refused with the code it fails with, and a check-in outside FULL is one. -/
def Obligations.GuestEvents : Prop :=
  (∀ c p a e s t w, Passes guestCheckinV c p a e s → e.word? "prec" = some w →
    let eff := Effect.checkin (e.nat "id") (e.plan "plan") (if w == "match" then .match_ else .wide)
      ((e.word? "class").map classOf) (e.word "phase" == "fixed")
    Acceptable c p eff t s → Stages (.guestCheckin c p a) c p eff t s) ∧
  (∀ c a e s, Passes guestCheckinV c .none a e s → s.on 3 = true → s.pwr.house ≠ .full → c.origin = .sess 0 →
    firstOpen c.cut s < 2 ^ 64 → Refuses (.guestCheckin c .none a) c s 40 "") ∧
  (∀ c p a e s t, Passes guestCheckoutV c p a e s → Acceptable c p (.checkout (e.nat "id")) t s →
    Stages (.guestCheckout c p a) c p (.checkout (e.nat "id")) t s) ∧
  (∀ c p a e s t, Passes guestAwayV c p a e s → Acceptable c p (.away (e.nat "id")) t s →
    Stages (.guestAway c p a) c p (.away (e.nat "id")) t s) ∧
  (∀ c p a e s t, Passes guestReturnV c p a e s → Acceptable c p (.back (e.nat "id")) t s →
    Stages (.guestReturn c p a) c p (.back (e.nat "id")) t s) ∧
  (∀ c p a e s t, Passes guestStepV c p a e s → Acceptable c p (.step (e.nat "id") (stepOf (e.word "step"))) t s →
    Stages (.guestSetStep c p a) c p (.step (e.nat "id") (stepOf (e.word "step"))) t s) ∧
  (∀ c p a e s t, Passes guestClassV c p a e s → Acceptable c p (.gclass (e.nat "id") (classOf (e.word "class"))) t s →
    Stages (.guestSetClass c p a) c p (.gclass (e.nat "id") (classOf (e.word "class"))) t s) ∧
  (∀ c p a e s t ch, Passes bundleSetV c p a e s → (e.raw? "hearth").bind hearthVal = some ch →
    Acceptable c p (.bind (e.plan "plan") ch) t s → Stages (.bundleSet c p a) c p (.bind (e.plan "plan") ch) t s)

/-- What the guest events do at their tally `t`. A check-in of a REGISTERED guest of divisor 1 into a loaded plan that fits takes the
lowest free row and the lowest free aligned run of rooms, each with a check-in's zeroing asked for, and starts with code
RESET; END makes a STAYING guest LEAVING; a check-out of an AWAY guest discards its image and zeroes its slot; the class, bypass, mute
and map events set what they name. Each fails for a guest in another state. What `bypass=` does beyond being recorded the spec does not
say (log entry 5). -/
def Obligations.GuestEffects : Prop :=
  (∀ (e : Event) (t g : Nat) (prec : Prec) (s : State) (q : Plan) (n row r : Nat),
    e.eff = .checkin g q.name prec none false → (s.guest g).div = 1 → s.plan? q.name = some q → admission s g q.name prec 0 = none →
    roomsNeeded q prec = some n → freeRow s q = some row → findRooms s n = some r →
    ∃ u, applyEffect e t s = .ok u ∧ (u.guest g).state = .staying ∧ (u.guest g).row = row ∧ (u.guest g).room = r ∧
      (u.guest g).join = n ∧ (u.guest g).c = t ∧ (u.guest g).code = .reset ∧ (u.guest g).plan = q.name ∧
      (∀ i < n, tget u.inn.rooms (r + i) = some g ∧ tget u.inn.inUse (r + i) = some .zeroing ∧ (⟨r + i, true, 0⟩ : ZeroJob) ∈ u.inn.zeroq) ∧
      (∀ h, h ≠ g → u.guest h = s.guest h) ∧ u.ram = s.ram) ∧
  (∀ (e : Event) (t g : Nat) (code : StepCode) (s : State), e.eff = .step g code →
    ((s.guest g).state = .staying → ∃ u, applyEffect e t s = .ok u ∧ (u.guest g).code = code ∧
      (u.guest g).state = (if code = .stop then .leaving else .staying) ∧ u.inn.rooms = s.inn.rooms ∧ u.ram = s.ram ∧
      (∀ h, h ≠ g → u.guest h = s.guest h)) ∧
    ((s.guest g).state = .quarantined → applyEffect e t s = .error (51, "")) ∧
    ((s.guest g).state = .registered → applyEffect e t s = .error (40, ""))) ∧
  (∀ (e : Event) (t g : Nat) (s : State), e.eff = .checkout g →
    ((s.guest g).state = .staying → ∃ u, applyEffect e t s = .ok u ∧ (u.guest g).state = .leaving ∧ (u.guest g).code = .stop ∧
      (u.guest g).leaveTo = .registered ∧ u.ram = s.ram) ∧
    ((s.guest g).state = .away → ∃ u, applyEffect e t s = .ok u ∧ (u.guest g).state = .registered ∧
      (∀ k, cellarSlot s g ≤ k → k < cellarSlot s g + 0x40000 → u.ram.read k = 0) ∧
      (∀ k, k < cellarSlot s g ∨ cellarSlot s g + 0x40000 ≤ k → u.ram.read k = s.ram.read k))) ∧
  (∀ (e : Event) (t g : Nat) (s : State), e.eff = .away g → (s.guest g).state = .staying →
    (s.mem.valid = true → ∃ u, applyEffect e t s = .ok u ∧ (u.guest g).state = .leaving ∧ (u.guest g).leaveTo = .away) ∧
    (s.mem.valid = false → applyEffect e t s = .error (40, ""))) ∧
  (∀ (e : Event) (t g : Nat) (cls : GClass) (s : State), e.eff = .gclass g cls → (s.guest g).state = .staying →
    applyEffect e t s = .ok (s.onGuest g fun x => { x with cls := cls })) ∧
  (∀ (e : Event) (t g : Nat) (b : Bool) (s : State), e.eff = .bypass g b → (s.guest g).state = .staying →
    applyEffect e t s = .ok (s.onGuest g fun x => { x with bypass := b })) ∧
  (∀ (e : Event) (t g : Nat) (b : Bool) (s : State), e.eff = .mute g b → (s.guest g).state = .registered →
    applyEffect e t s = .ok (s.onGuest g fun x => { x with mute := b })) ∧
  (∀ (e : Event) (t g : Nat) (i o : List Nat) (s : State), e.eff = .map g i o → (s.guest g).state = .registered →
    mapFail s g i o = none → applyEffect e t s = .ok (s.onGuest g fun x => { x with ins := i, outs := o }))

/-- The show verbs of rooms, guests, bundles and the Innkeeper change nothing; `inn.set` sets what it names; a write of the cellar base
is taken unless a guest is AWAY, LEAVING or returning. -/
def Obligations.InnkeeperVerbs : Prop :=
  (∀ c p a e s, Passes guestShowV c p a e s → AnswersWith (.guestShow c p a) c s fun _ u => u = s) ∧
  (∀ c p a e s, Passes roomShowV c p a e s → s.on 10 = true → AnswersWith (.roomShow c p a) c s fun _ u => u = s) ∧
  (∀ c p a e s, Passes innShowV c p a e s → s.on 10 = true → AnswersWith (.innShow c p a) c s fun _ u => u = s) ∧
  (∀ c p a e s, Passes bundleShowV c p a e s → e.has "plan" = false → AnswersWith (.bundleShow c p a) c s fun _ u => u = s) ∧
  (∀ c p a e s, Passes innSetV c p a e s → s.on 10 = true → AnswersOk (.innSet c p a) c s [] (s.onInn fun i => { i with
    ovrn := ((e.nat? "ovrn").map (BitVec.ofNat 5)).getD i.ovrn, enable := (e.flag? "shed").getD i.enable })) ∧
  (∀ c p a e s, Passes innSetV c p a e s → s.on 10 = false → Refuses (.innSet c p a) c s 40 "") ∧
  (∀ (v : W32) (s : State), s.on 10 = true → cellarFixed s = false →
    (Gives (.innCellarWrite false v) s fun t => t = s.onInn fun i => { i with cellarLo := v.extractLsb' 20 12 }) ∧
    (Gives (.innCellarWrite true v) s fun t => t = s.onInn fun i => { i with cellarHi := v.extractLsb' 0 16 })) ∧
  (∀ (h : Bool) (v : W32) (s : State), cellarFixed s = true → exec (.innCellarWrite h v) s = .next s)

/-- The room its bank's engine is zeroing, a check-in's before any other, reads as zero when the zeroing ends and is no longer in use; no
other byte changes, and no other room's zeroing ends. The guest whose last room of a write-back has been zeroed is AWAY and holds no room
more. A channel that has written a room of a departing guest has copied it into the guest's cellar slot, and the room stays held and is to
be zeroed. A swap-in that ends copies the slot's next room into the guest's; the last ends the return, and a poisoned one is counted and
puts the guest up for quarantine with cause 5. With PD10 off none of them changes anything. -/
def Obligations.RoomsAndCellar : Prop :=
  (∀ (r : Nat) (s : State), s.on 10 = true → (zeroNow (r / 4) s).map (·.room) = some r → Gives (.roomZeroed r) s fun t =>
    tget t.inn.inUse r = none ∧ (∀ j ∈ t.inn.zeroq, j.room ≠ r) ∧ (∀ k, roomBase r ≤ k → k < roomBase r + 0x10000 → t.ram.read k = 0) ∧
    (∀ k, k < roomBase r ∨ roomBase r + 0x10000 ≤ k → t.ram.read k = s.ram.read k)) ∧
  (∀ (r : Nat) (s : State), (zeroNow (r / 4) s).map (·.room) ≠ some r → exec (.roomZeroed r) s = .next s) ∧
  (∀ (b : Nat) (j : ZeroJob) (s : State), zeroNow b s = some j → j ∈ s.inn.zeroq ∧ j.room / 4 = b ∧
    ((∃ k ∈ s.inn.zeroq, k.room / 4 = b ∧ k.checkin = true) → j.checkin = true)) ∧
  (∀ (g : Nat) (x : Guest) (j : ZeroJob) (s : State), s.on 10 = true → s.inn.guests = [(g, x)] → x.writing = true →
    s.inn.zeroq = [j] → s.inn.inUse = [(j.room, .zeroing)] → Gives (.roomZeroed j.room) s fun t =>
      (t.guest g).state = .away ∧ (t.guest g).writing = false ∧ (t.guest g).join = x.join ∧ (t.guest g).image = x.image ∧
      (∀ k ∈ x.run, tget t.inn.rooms k ≠ some g)) ∧
  (∀ (g r : Nat) (l : List Nat) (s : State), s.on 10 = true → s.memOk → (∃ c, (c, g) ∈ s.inn.chans) →
    roomsToWrite s (s.guest g) = r :: l → Gives (.cellarWritebackDone g) s fun t =>
      t.inn.rooms = s.inn.rooms ∧ tget t.inn.inUse r = some .zeroing ∧ (∃ j ∈ t.inn.zeroq, j.room = r ∧ j.checkin = false) ∧
      (∀ k, k < 0x10000 → t.ram.read (slotRoom s g (r - (s.guest g).room) + k) = s.ram.read (roomBase r + k)) ∧
      (∀ k, k < slotRoom s g (r - (s.guest g).room) ∨ slotRoom s g (r - (s.guest g).room) + 0x10000 ≤ k → t.ram.read k = s.ram.read k)) ∧
  (∀ (g : Nat) (ecc : Ecc) (s : State), s.on 10 = true → s.memOk → (∃ c, (c, g) ∈ s.inn.chans) → (s.guest g).swapping = true →
    Gives (.swapInDone g ecc) s fun t =>
      (∀ k, k < 0x10000 → t.ram.read (roomBase ((s.guest g).room + (s.guest g).filled) + k) =
        s.ram.read (slotRoom s g (s.guest g).filled + k)) ∧
      (∀ k, k < roomBase ((s.guest g).room + (s.guest g).filled) ∨ roomBase ((s.guest g).room + (s.guest g).filled) + 0x10000 ≤ k →
        t.ram.read k = s.ram.read k) ∧
      ((s.guest g).filled + 1 < (s.guest g).join → (t.guest g).filled = (s.guest g).filled + 1 ∧ (t.guest g).swapping = true) ∧
      ((s.guest g).join ≤ (s.guest g).filled + 1 → (t.guest g).filled = 0 ∧ (t.guest g).swapping = false ∧ (t.guest g).image = []) ∧
      (ecc = .ok → t.mem = s.mem ∧ t.inn.quarG = s.inn.quarG) ∧
      (∀ k, ecc = .ded k → t.inn.quarG = s.inn.quarG ++ [(g, 5)] ∧ t.mem.ded = satInc s.mem.ded ∧ t.mem.erra = BitVec.ofNat 48 k)) ∧
  (∀ (r g : Nat) (ecc : Ecc) (s : State), s.on 10 = false → exec (.roomZeroed r) s = .next s ∧ exec (.cellarWritebackDone g) s = .next s ∧
    exec (.swapInDone g ecc) s = .next s)

/-- The guest to shed: a candidate of the lowest class present (SPARE, then SIDE, then MAIN), within the class one of the latest
check-in or return tally, and among those the highest number; never a KEEP guest, and none only where every candidate is KEEP. A
thermal emergency asks for one shed at the next round start, and nothing else asks for one on that command. -/
def Obligations.ShedChoice : Prop :=
  (∀ (l : List (Nat × Guest)) (b : Nat × Guest), shedChoice l = some b → b ∈ l ∧ b.2.cls ≠ .keep ∧
    ∀ e ∈ l, e.2.cls ≠ .keep → classNum e.2.cls < classNum b.2.cls ∨ (e.2.cls = b.2.cls ∧
      (e.2.c < b.2.c ∨ (e.2.c = b.2.c ∧ e.1 ≤ b.1)))) ∧
  (∀ l : List (Nat × Guest), shedChoice l = none ↔ ∀ e ∈ l, e.2.cls = .keep) ∧
  (∀ s : State, s.inn.thermal = true → exec .thermalShed s = .next (s.onInn fun i => { i with hotShed := true })) ∧
  (∀ s : State, s.inn.thermal = false → exec .thermalShed s = .next s)

/-- A revoked lease is counted and given back, and its owner is put up for quarantine at the next round start: a port's bundle with cause 2,
a cellar channel's guest with cause 4 (it keeps no channel), a fetch slot's bundle with cause 3; a slot of a route quarantines nothing.
The deliveries that waited on a slot are misses. What is not leased is not revoked. -/
def Obligations.Leases : Prop :=
  (∀ (b k z : Nat) (q : Plan) (s : State), s.on 10 = true → tget s.inn.ports (4 * b + k) = some (z, q.name) → s.plan? q.name = some q →
    q.quar = false → q.pendQuar = none → Gives (.leaseRevoke (.port b k)) s fun t => t.inn.cRevoke = satInc s.inn.cRevoke ∧
      (t.plan? q.name).bind (·.pendQuar) = some 2 ∧ (∀ e ∈ t.inn.ports, e.2.2 ≠ q.name) ∧ t.inn.guests = s.inn.guests ∧ t.ram = s.ram) ∧
  (∀ (ch g : Nat) (s : State), s.on 10 = true → tget s.inn.chans ch = some g → Gives (.leaseRevoke (.cellar ch)) s fun t =>
    t.inn.cRevoke = satInc s.inn.cRevoke ∧ t.inn.quarG = s.inn.quarG ++ [(g, 4)] ∧ (∀ e ∈ t.inn.chans, e.2 ≠ g) ∧
    t.inn.guests = s.inn.guests ∧ t.weave = s.weave) ∧
  (∀ (n : Nat) (f : Fetch) (s : State), s.on 10 = true → s.ldr.slots = [(n, f)] → s.ldr.serving = [] → s.ldr.store = [] →
    s.evq.held = [] → s.cch.routes = [] → Gives (.leaseRevoke (.slot n)) s fun t => t.inn.cRevoke = satInc s.inn.cRevoke ∧ t.ldr.slots = [] ∧
      t.ldr.cMiss = s.ldr.cMiss ∧ (f.route ≠ none → t.weave = s.weave) ∧
      (∀ q, f.route = none → s.plan? (s.guest f.guest).plan = some q → q.quar = false → q.pendQuar = none →
        (t.plan? q.name).bind (·.pendQuar) = some 3)) ∧
  (∀ (n : Nat) (f : Fetch) (x : Serve) (s : State), s.on 10 = true → s.ldr.slots = [(n, f)] → s.ldr.serving = [x] →
    x.req.table = f.table → x.wait = [f.row] → s.ldr.store = [] → s.evq.held = [] → s.cch.routes = [] → Gives (.leaseRevoke (.slot n)) s fun t =>
      t.ldr.serving = [] ∧ t.ldr.slots = [] ∧ t.ldr.cMiss = satAdd s.ldr.cMiss 1) ∧
  (∀ (b k ch n : Nat) (s : State), (tget s.inn.ports (4 * b + k) = none → exec (.leaseRevoke (.port b k)) s = .next s) ∧
    (tget s.inn.chans ch = none → exec (.leaseRevoke (.cellar ch)) s = .next s) ∧
    (tget s.ldr.slots n = none → exec (.leaseRevoke (.slot n)) s = .next s)) ∧
  (∀ (l : Lease) (s : State), s.on 10 = false → exec (.leaseRevoke l) s = .next s)

/-! ### The Larder and memory (spec 07) -/

/-- `ldr.set` that its checks accept puts the descriptor in force, over a standing one or as a new one, drops the cached lines of that
table and pins a LOCAL table whole; a key a new table lacks is named, and a table on which a request waits is busy. `ldr.load` writes the
table's bytes, from memory or from the image of the boot flash that has the table's name. `ldr.bind` binds an open route with its buffers
taken from the pool, changes nothing of a bound one, and `off` gives them back when nothing waits to be posted. `ldr.inval` drops every
cached line of the table. `ldr.show` changes nothing. -/
def Obligations.LarderTables : Prop :=
  (∀ c p a e s, Passes ldrSetV c p a e s →
    let t := e.nat "table"
    let d := ldrDescr e ((tget s.ldr.tables t).getD ⟨"", true, 0, 0, 0, 0, 1, 64, 12, 1, 0, false, false⟩)
    ldrBad e d = none → s.on 11 = true →
    (d.local_ = true → s.mem.valid = true ∧ localOverlap s d (tdel s.ldr.tables t) = false) → tableBusy s t = false →
    (d.local_ = true → ((tdel s.ldr.tables t).map fun x => if x.2.local_ then x.2.bytes else 0).sum + d.bytes ≤ 24 * 2 ^ 30) →
    (d.pin = true → maxPin (tset (tdel s.ldr.tables t) t d) ≤ 8) →
    AnswersWith (.ldrSet c p a) c s fun ls u => ls = [] ∧ tget u.ldr.tables t = some d ∧
      (∀ k, k ≠ t → tget u.ldr.tables k = tget s.ldr.tables k) ∧ (∀ x ∈ u.ldr.cache, x.table ≠ t) ∧
      (t ∈ u.ldr.whole ↔ d.pin = true ∧ d.local_ = true) ∧ u.ram = s.ram ∧ u.cch = s.cch) ∧
  (∀ c p a s k, canRun c.origin s = true → Level.keeper.rank ≤ (s.levelOf c.origin).rank → s.desk.claims = [] →
    missingKey ldrSetV.keys a = none → ldrSetV.lacks a s = some k → Refuses (.ldrSet c p a) c s 14 k) ∧
  (∀ c p a e s d, Passes ldrSetV c p a e s → tget s.ldr.tables (e.nat "table") = some d → ldrBad e (ldrDescr e d) = none → s.on 11 = true →
    (ldrDescr e d).local_ = false → tableBusy s (e.nat "table") = true → Refuses (.ldrSet c p a) c s 30 "table") ∧
  (∀ c p a e s d, Passes ldrLoadV c p a e s → tget s.ldr.tables (e.nat "table") = some d → d.local_ = true → s.on 11 = true →
    s.mem.valid = true → tableBusy s (e.nat "table") = false →
    (∀ k, e.nat? "addr" = some k → inUsable k d.bytes s = true → AnswersWith (.ldrLoad c p a) c s fun ls u => ls.length = 1 ∧
      u = { s with ram := s.ram.writeN d.addr (s.ram.readN k d.bytes) }) ∧
    (∀ f x, e.nat? "addr" = none → s.sys.flash = some f → dirEntry 3 d.name s = some x → d.bytes ≤ x.length →
      AnswersWith (.ldrLoad c p a) c s fun ls u => ls.length = 1 ∧
        u = { s with ram := s.ram.writeN d.addr ((List.range d.bytes).map fun k => flashByte f (x.offset + k)) })) ∧
  (∀ c p a e s, Passes ldrBindV c p a e s →
    let r := e.nat "route"
    s.on 8 = true → s.on 11 = true → (s.route r).state = .opened →
    ((s.route r).bind = .none → (boundRoutes s).length < 16 → (s.route r).rq ≤ s.cch.poolFree →
      AnswersWith (.ldrBind c p a) c s fun ls u => ls = [] ∧ (u.route r).bind = .larder ∧ (u.route r).pool = (s.route r).rq ∧
        u.cch.poolFree = s.cch.poolFree - (s.route r).rq ∧ u.ldr.lastB = BitVec.ofNat 9 r ∧ (∀ k, k ≠ r → u.route k = s.route k)) ∧
    ((s.route r).bind = .larder → AnswersOk (.ldrBind c p a) c s [] s)) ∧
  (∀ c p a e s, Passes ldrUnbindV c p a e s →
    let r := e.nat "route"
    s.on 8 = true → s.on 11 = true → (s.route r).bind = .larder → (s.route r).pending = [] →
    AnswersWith (.ldrUnbind c p a) c s fun ls u => ls = [] ∧ (u.route r).bind = .none ∧ (u.route r).pool = 0 ∧
      u.cch.poolFree = s.cch.poolFree + (s.route r).rq ∧ r ∉ u.ldr.unbind ∧ (∀ k, k ≠ r → u.route k = s.route k)) ∧
  (∀ c p a e s d, Passes ldrInvalV c p a e s → tget s.ldr.tables (e.nat "table") = some d → s.on 11 = true →
    AnswersOk (.ldrInval c p a) c s [] (s.onLdr fun l => { l with
      cache := l.cache.filter fun x => x.table != e.nat "table", whole := l.whole.filter (· != e.nat "table") })) ∧
  (∀ c p a e s, Passes ldrShowV c p a e s → s.on 11 = true → AnswersWith (.ldrShow c p a) c s fun ls u => u = s ∧
    ls.length = (if e.nat? "table" = none then 2 else 1))

/-- `ldr.req` accepted for a tally waits for its service with the request it names, and a malformed one is refused; `ldr.put` stages
its values. Service in order takes one request on: an uncached row of a LOCAL table takes the lowest free slot. The row that arrives
frees its slot and completes the request, whose result, in F32, enters the delivery store; an uncorrectable error discards it and is
counted. A delivery written in time is queued as a Larder event of the request's tally. -/
def Obligations.LarderRequests : Prop :=
  (∀ c p a e s t, Passes ldrReqV c p a e s → e.word "op" ≠ "lerp" → (e.word "op" = "sum" ∨ e.word "op" = "mean") →
    e.has "w" = false →
    let r : LdrReq := ⟨e.nat "guest", e.nat "port", e.nat "table", bagOfName (e.word "op"), 0, e.nums "idx"⟩
    badRequest s r = false → s.on 11 = true → s.mem.valid = true → Acceptable c p (.request r) t s →
    AnswersOk (.ldrReq c p a) c s (eventReply c t s) ((bumpSeq c.origin s).onLdr fun l => { l with queue := l.queue ++
      [{ src := (eventSource c.origin s).1, seq := (eventSource c.origin s).2, stamp := BitVec.ofNat 64 t, named := BitVec.ofNat 64 t,
         req := r, rows := [], wait := [] }] })) ∧
  (∀ c p a e s, Passes ldrReqV c p a e s → e.word "op" = "sum" → e.has "w" = false →
    badRequest s ⟨e.nat "guest", e.nat "port", e.nat "table", .sum, 0, e.nums "idx"⟩ = true → Refuses (.ldrReq c p a) c s 13 "") ∧
  (∀ c p a e s t l, Passes ldrPutV c p a e s → (e.raw? "val").bind (fun v => allSome ((valItems v).map itemF32)) = some l →
    l ≠ [] → l.length ≤ 8 → s.on 11 = true → Acceptable c p (.put (e.nat "guest") (e.nat "port") l) t s →
    Stages (.ldrPut c p a) c p (.put (e.nat "guest") (e.nat "port") l) t s) ∧
  (∀ (x : Serve) (d : TableD) (i : Nat) (s : State), s.on 11 = true → s.ldr.queue = [x] → s.ldr.serving = [] → s.ldr.slots = [] →
    s.evq.held = [] → s.cch.routes = [] → tget s.ldr.tables x.req.table = some d → d.local_ = true → d.pf = false →
    badRequest s x.req = false → x.req.idx = [i] → x.wait = [] → x.rows = [] → rowCached s x.req.table d i = false →
    Gives .larderServe s fun t => t.ldr.queue = [] ∧ t.ldr.serving = [{ x with wait := [i] }] ∧
      t.ldr.slots = [(0, { table := x.req.table, row := i, prefetch := false, route := none, guest := x.req.guest })] ∧
      t.ram = s.ram) ∧
  (∀ s : State, s.ldr.queue = [] → s.ldr.serving = [] → s.ldr.store = [] → s.ldr.pinNext = [] → s.evq.held = [] →
    s.cch.routes = [] → exec .larderServe s = .next s) ∧
  (∀ (n : Nat) (f : Fetch) (x : Serve) (d : TableD) (s : State), s.on 11 = true → s.mem.valid = true → s.ldr.slots = [(n, f)] →
    f.route = none → f.poison = false → tget s.ldr.tables f.table = some d → d.local_ = true → s.ldr.serving = [x] → s.ldr.store = [] →
    x.req.table = f.table → x.req.idx = [f.row] → x.req.op = .sum → x.wait = [f.row] → x.rows = [] → s.evq.held = [] →
    s.cch.routes = [] → d.elems ≤ 8191 →
    (Gives (.rowFetchDone n .ok) s fun t => t.ldr.slots = [] ∧ t.ldr.serving = [] ∧ t.mem = s.mem ∧
      t.ldr.store = [{ guest := x.req.guest, port := x.req.port, src := x.src, seq := x.seq, stamp := x.stamp, named := x.named,
                       req := x.req, vals := (rowF32 d (localRow s d f.row)).map (·.toNat) }]) ∧
    (∀ k, Gives (.rowFetchDone n (.ded k)) s fun t => t.ldr.slots = [] ∧ t.ldr.serving = [] ∧ t.ldr.store = [] ∧
      t.ldr.cEcc = satAdd s.ldr.cEcc 1 ∧ t.mem.ded = satInc s.mem.ded ∧ t.mem.erra = BitVec.ofNat 48 k)) ∧
  (∀ (d : Delivery) (cut : Bool) (s : State), s.on 11 = true → s.on 3 = true → s.ldr.store = [d] → d.posted = false → s.ldr.serving = [] →
    s.ldr.queue = [] → s.evq.entries = [] → s.evq.held = [] → s.cch.routes = [] → d.stamp.toNat ≤ s.tly.now.toNat + 1 →
    onTime d.stamp.toNat cut s = true → Gives (.deliveryWrite d.guest d.port cut) s fun t => t.ldr.store = [] ∧
      t.evq.larderSeq = s.evq.larderSeq + 1 ∧
      t.evq.entries = [{ src := .larder, seq := s.evq.larderSeq, stamp := d.stamp, due := d.stamp, late := false, by_ := none,
                         eff := .deliver d.guest d.port d.src d.seq d.stamp d.vals }])

/-! ### Coach (spec 08, 09) -/

/-- `route.open` opens a CLOSED route with the context the line gives and takes its internal buffers from the pool; without a peer, or
or a peer route, and on a route that is not CLOSED, it is refused. `route.close` makes an OPEN or ERROR route CLOSING, and what then closes it drops its
context. `route.set` changes LATE, LEVEL and REPLY of an OPEN route and no other field; `route.recv` posts a buffer and `route.post` a
waybill at the end of its queue with a ring entry reserved. `route.show` changes nothing. -/
def Obligations.Routes : Prop :=
  (∀ c p a e s, Passes routeOpenV c p a e s →
    let r := e.nat "r"
    let x := routeWith e (closedContext r s)
    let taken := if x.bind = .none then 0 else x.rq
    (e.has "vlan" = true → vlanOf e ≠ none) → s.on 8 = true → (s.route r).state = .closed → depthSum s + x.sq + x.rq ≤ 32768 →
    ringUsed x.rring (s.onRoute r fun _ => { x with state := .opened }) ≤ 1024 → taken ≤ s.cch.poolFree →
    (x.bind = .larder → (boundRoutes s).length < 16) →
    AnswersWith (.routeOpen c p a) c s fun ls u => ls = [kn "r" r ++ " state=OPEN"] ∧
      u.route r = { x with state := .opened, rate := 65536, pool := taken } ∧ u.cch.poolFree = s.cch.poolFree - taken ∧
      (∀ k, k ≠ r → u.route k = s.route k) ∧ u.ram = s.ram) ∧
  (∀ c p a s k, canRun c.origin s = true → Level.keeper.rank ≤ (s.levelOf c.origin).rank → s.desk.claims = [] →
    missingKey routeOpenV.keys a = none → routeOpenV.lacks a s = some k → Refuses (.routeOpen c p a) c s 14 k) ∧
  (∀ c p a e s, Passes routeOpenV c p a e s → (s.route (e.nat "r")).state ≠ .closed →
    (e.has "vlan" = true → vlanOf e ≠ none) → s.on 8 = true → Refuses (.routeOpen c p a) c s 30 "r") ∧
  (∀ c p a e s, Passes routeCloseV c p a e s → ((s.route (e.nat "r")).state = .opened ∨ (s.route (e.nat "r")).state = .error) →
    AnswersWith (.routeClose c p a) c s fun ls u => ls = [kn "r" (e.nat "r") ++ " state=CLOSING"] ∧
      (u.route (e.nat "r")).state = .closing) ∧
  (∀ (r : Nat) (x : Route) (s : State), s.cch.routes = [(r, x)] → x.state = .closing → x.sendq = [] → x.recvq = [] →
    Gives (.routeClosed r) s fun t => t.cch.routes = [] ∧ t.route r = {} ∧
      t.cch.poolFree = s.cch.poolFree + (if x.bind = .none then 0 else x.rq) ∧ t.ram = s.ram) ∧
  (∀ c p a e s, Passes routeSetV c p a e s → s.on 8 = true → (s.route (e.nat "r")).state = .opened →
    (∀ k ∈ ["port", "peer", "peerport", "peerroute", "vlan", "dscp", "rel", "sq", "rq", "sring", "rring", "bind"], e.has k = false) →
    AnswersOk (.routeSet c p a) c s [] (s.onRoute (e.nat "r") fun x => { x with
      level := match e.word? "level" with | some w => if w = "keeper" then .keeper else .visitor | none => x.level,
      reply := (e.flag? "reply").getD x.reply,
      rejLate := match e.word? "late" with | some w => w == "reject-late" | none => x.rejLate })) ∧
  (∀ c p a e s, Passes routeSetV c p a e s → s.on 8 = true → (s.route (e.nat "r")).state = .opened → e.has "peer" = true →
    (e.has "vlan" = true → vlanOf e ≠ none) → Refuses (.routeSet c p a) c s 30 "r") ∧
  (∀ c p a e s, Passes routeRecvV c p a e s → inUsable (e.nat "addr") (e.nat "len") s = true → (s.route (e.nat "r")).state = .opened →
    (s.route (e.nat "r")).bind = .none → (s.route (e.nat "r")).recvq.length < (s.route (e.nat "r")).rq →
    AnswersOk (.routeRecv c p a) c s [] (s.onRoute (e.nat "r") fun x => { x with
      recvq := x.recvq ++ [(e.nat "addr", e.nat "len")] })) ∧
  (∀ c p a e s, Passes routePostV c p a e s → waybillValid (lineWaybill e) s = true → s.on 8 = true →
    (s.route (e.nat "r")).state = .opened → postRoom (e.nat "r") (lineWaybill e) s = true →
    AnswersWith (.routePost c p a) c s fun ls u => ls = [] ∧ u.ram = s.ram ∧
      (u.route (e.nat "r")).sendq = (s.route (e.nat "r")).sendq ++ [{ lineWaybill e with post := s.cch.posted + 1 }] ∧
      (u.ring (s.route (e.nat "r")).sring).reserved = (s.ring (s.route (e.nat "r")).sring).reserved + 1 ∧
      (∀ k, k ≠ e.nat "r" → u.route k = s.route k)) ∧
  (∀ c p a e s, Passes routePostV c p a e s → waybillValid (lineWaybill e) s = true → s.on 8 = true →
    (s.route (e.nat "r")).state = .opened → postRoom (e.nat "r") (lineWaybill e) s = false → Refuses (.routePost c p a) c s 30 "") ∧
  (∀ c p a e s, Passes routeShowV c p a e s → s.on 8 = true → AnswersWith (.routeShow c p a) c s fun _ u => u = s)

/-- `win.open` opens a CLOSED window under the next tag and answers its key; `win.close` closes it and keeps the tag, but for a window
of a boundary hop. `cch.ring` reports the oldest receipts of a ring and frees them, as a write of its tail register does; the doorbell
posts the staged waybill and sets ACCEPTED, or sets REFUSED and posts nothing. The show verbs change nothing. -/
def Obligations.WindowsAndRings : Prop :=
  (∀ c p a e s, Passes winOpenV c p a e s →
    let w := e.nat "w"
    inUsable (e.nat "addr") (e.nat "len") s = true → inCellar (e.nat "addr") (e.nat "len") s = false → s.on 8 = true →
    (s.win w).opened = false → AnswersWith (.winOpen c p a) c s fun ls u =>
      ls = [kn "w" w ++ " " ++ kv "key" (hexS 8 (((s.win w).tag + 1) ++ BitVec.ofNat 10 w : W32).toNat)] ∧
      (u.win w).opened = true ∧ (u.win w).tag = (s.win w).tag + 1 ∧ (u.win w).addr = e.nat "addr" ∧ (u.win w).len = e.nat "len" ∧
      (u.win w).rd = (e.wordsOf "rights").contains "rd" ∧ (u.win w).wr = (e.wordsOf "rights").contains "wr" ∧
      (u.win w).route = e.nat? "route" ∧ (∀ k, k ≠ w → u.win k = s.win k) ∧ u.ram = s.ram) ∧
  (∀ c p a e s, Passes winCloseV c p a e s → (s.win (e.nat "w")).opened = true → (s.win (e.nat "w")).hop = none →
    AnswersWith (.winClose c p a) c s fun ls u => ls = [] ∧ (u.win (e.nat "w")).opened = false ∧
      (u.win (e.nat "w")).tag = (s.win (e.nat "w")).tag ∧ (∀ k, k ≠ e.nat "w" → u.win k = s.win k)) ∧
  (∀ c p a e s, Passes winCloseV c p a e s → (s.win (e.nat "w")).opened = false → Refuses (.winClose c p a) c s 40 "w") ∧
  (∀ c p a e s, Passes winShowV c p a e s → s.on 8 = true → AnswersWith (.winShow c p a) c s fun _ u => u = s) ∧
  (∀ c p a e s, Passes cchShowV c p a e s → s.on 8 = true → AnswersWith (.cchShow c p a) c s fun ls u => u = s ∧ ls.length = 1) ∧
  (∀ c p a e s, Passes cchRingV c p a e s → s.on 8 = true → AnswersWith (.cchRing c p a) c s fun ls u =>
    let n := e.nat "n"
    let l := (s.ring n).entries.take ((e.nat? "count").getD 1)
    ls = (if l.isEmpty then ["none"] else l.map receiptLine) ∧ (u.ring n).entries = (s.ring n).entries.drop l.length ∧
      (u.ring n).tail = ((s.ring n).tail + l.length) % 1024 ∧ (u.ring n).head = (s.ring n).head ∧
      (∀ k, k ≠ n → u.ring k = s.ring k)) ∧
  (∀ (v : W32) (s : State), s.on 8 = true → (s.route (fld v 0 9)).state = .opened → postRoom (fld v 0 9) (stagedWaybill s) s = true →
    Gives (.cchDoorbell v) s fun t => t.cch.accepted = true ∧ t.cch.refused = false ∧
      (t.route (fld v 0 9)).sendq.length = (s.route (fld v 0 9)).sendq.length + 1) ∧
  (∀ (v : W32) (s : State), s.on 8 = true → ((s.route (fld v 0 9)).state ≠ .opened ∨ postRoom (fld v 0 9) (stagedWaybill s) s = false) →
    exec (.cchDoorbell v) s = .next (s.onCch fun c => { c with accepted := false, refused := true })) ∧
  (∀ (v : W32) (s : State), s.on 8 = true → (s.ring s.cch.ringsel.toNat).tail = 0 →
    fld v 0 10 ≤ (s.ring s.cch.ringsel.toNat).entries.length → Gives (.cchRingTailWrite v) s fun t =>
      (t.ring s.cch.ringsel.toNat).tail = fld v 0 10 ∧
      (t.ring s.cch.ringsel.toNat).entries = (s.ring s.cch.ringsel.toNat).entries.drop (fld v 0 10))

/-- The next waybill of an OPEN route with nothing before it is issued by the command of its operation: a WRITE, WRITE_IMM, READ, SEND or
FLUSH that may leave takes the next PSNs; a WAIT completes at once where its counter has been reached and blocks otherwise; an ARM
that has not fired blocks. A WRITE, WRITE_IMM or SEND whose last byte has left completes and is counted in CC_OUT, on a closing route too.
A command of another operation leaves it. -/
def Obligations.Issuing : Prop :=
  (∀ (n r : Nat) (i : Nat → Instr) (w : Waybill) (s : State),
    ((n = 0 ∧ i = Instr.issueWrite) ∨ (n = 1 ∧ i = Instr.issueWriteImm) ∨ (n = 2 ∧ i = Instr.issueRead) ∨ (n = 3 ∧ i = Instr.issueSend) ∨
      (n = 4 ∧ i = Instr.issueFlush)) → s.on 8 = true → (s.route r).state = .opened → (s.route r).sendq = [w] → w.issued = false →
    waybillValid w s = true → (w.op = n → mayLeave r w s = true → Gives (i r) s fun t =>
      (t.route r).sendq = [{ w with issued := true, psn := (s.route r).psn, psns := wayPsns r w s, msn := (s.route r).msn }] ∧
      (t.route r).psn = ((s.route r).psn + wayPsns r w s) % 2 ^ 24 ∧
      (t.route r).msn = (if n = 1 ∨ n = 3 then (s.route r).msn + 1 else (s.route r).msn) ∧ (t.route r).ccOut = (s.route r).ccOut ∧
      t.ram = s.ram) ∧ (w.op ≠ n → exec (i r) s = .next s)) ∧
  (∀ (r q : Nat) (w : Waybill) (s : State), s.on 8 = true → (s.route r).state = .opened → (s.route r).sendq = [w] → w.issued = false →
    waybillValid w s = true → w.op = 5 → w.wroute = q → w.flags = 0 → q ≠ r → w.hop = false → w.larder = none → w.data = none →
    (∀ e ∈ s.cch.routes, e.1 ≠ r → e.2.sendq = []) →
    (((s.route q).ccOut - w.wcount).toNat < 2 ^ 31 → Gives (.issueWait r) s fun t => (t.route r).sendq = [] ∧
      (t.route r).ccOut = (s.route r).ccOut + 1) ∧
    (2 ^ 31 ≤ ((s.route q).ccOut - w.wcount).toNat → (s.route q).state = .opened → Gives (.issueWait r) s fun t =>
      (t.route r).sendq = [{ w with issued := true }] ∧ (t.route r).ccOut = (s.route r).ccOut)) ∧
  (∀ (r : Nat) (w : Waybill) (s : State), s.on 8 = true → (s.route r).state = .opened → (s.route r).sendq = [w] → w.issued = false →
    waybillValid w s = true → w.op = 6 → w.armed = false → Gives (.issueArm r) s fun t => (t.route r).sendq = [{ w with issued := true }]) ∧
  (∀ (r : Nat) (w : Waybill) (s : State), s.on 8 = true → ((s.route r).state = .opened ∨ (s.route r).state = .closing) →
    (s.route r).sendq = [w] → w.issued = true → (w.op = 0 ∨ w.op = 1 ∨ w.op = 3) → (∀ e ∈ s.cch.routes, e.1 ≠ r → e.2.sendq = []) → Gives (.waybillComplete r) s fun t =>
      (t.route r).sendq = [] ∧ (t.route r).ccOut = (s.route r).ccOut + 1 ∧ t.ram = s.ram)

/-- A request packet accepted in sequence. A WRITE whose key opens a window for it is placed and one whose key does not is refused with
nothing placed and KEYFAIL counted; the last packet of a WRITE_IMM or SEND writes a target receipt and counts in CC_IN; a SEND takes the
oldest receive buffer; a READ request and a FLUSH place nothing. Each advances the expected PSN by the PSNs it takes. A packet with a
wrong frame check or checksum, or of another version, is dropped and counted. -/
def Obligations.Requests : Prop :=
  (∀ (k : Packet) (s : State), portUp k.port s = true → s.on 8 = true → k.kind = 0 → k.fcsOk = false →
    exec (.receiveWrite k) s = .next (s.onNet k.port fun n => { n with cFcs := satInc n.cFcs })) ∧
  (∀ (k : Packet) (s : State), portUp k.port s = true → s.on 8 = true → k.kind = 0 → k.fcsOk = true → k.fecUnc = false → k.csumOk = false →
    exec (.receiveWrite k) s = .next (s.onNet k.port fun n => { n with cCsum := satInc n.cCsum })) ∧
  (∀ (k : Packet) (s : State), portUp k.port s = true → s.on 8 = true → k.kind = 0 → k.fcsOk = true → k.fecUnc = false → k.csumOk = true →
    k.ver ≠ 1 → exec (.receiveWrite k) s = .next (s.onNet k.port fun n => { n with cDisc := satInc n.cDisc })) ∧
  (∀ (n : Nat) (k : Packet) (s : State), n ≤ 4 → portUp k.port s = true → s.on 8 = true → k.kind = n → k.fcsOk = true →
    k.fecUnc = false → k.csumOk = true → k.ver = 1 → k.rsvd = 0 → k.droute < 512 → (s.route k.droute).state = .opened → fromPeer k (s.route k.droute) = true → k.ce = false →
    takePacket n k s = (some k.droute, s)) ∧
  (∀ (k : Packet) (r : Nat) (s : State), takePacket 0 k s = (some r, s) → (s.route r).state = .opened → k.psn = (s.route r).epsn →
    (∀ w, windowFor r false k.rkey k.roff k.payload.length s = some w → (s.win w).hop = none → Gives (.receiveWrite k) s fun t =>
      t.ram = s.ram.writeN ((s.win w).addr + k.roff) k.payload ∧ (t.route r).epsn = ((s.route r).epsn + 1) % 2 ^ 24 ∧
      (t.route r).nakSent = false ∧ (t.route r).ccIn = (s.route r).ccIn) ∧
    (windowFor r false k.rkey k.roff k.payload.length s = none → Gives (.receiveWrite k) s fun t =>
      t.ram = s.ram ∧ t.cch.cKey = satInc s.cch.cKey ∧ t.route r = s.route r)) ∧
  (∀ (k : Packet) (r w : Nat) (s : State), takePacket 1 k s = (some r, s) → (s.route r).state = .opened → k.psn = (s.route r).epsn →
    k.pos = 0 → windowFor r false k.rkey k.roff k.payload.length s = some w → (s.win w).hop = none → targetFree r s = true →
    (s.route r).rring < 56 → (∀ e ∈ s.cch.routes, e.2.sendq = []) → Gives (.receiveWriteImm k) s fun t =>
      t.ram = s.ram.writeN ((s.win w).addr + k.roff) k.payload ∧ (t.route r).epsn = ((s.route r).epsn + 1) % 2 ^ 24 ∧
      (t.route r).ccIn = (s.route r).ccIn + 1 ∧
      (t.ring (s.route r).rring).entries.length = (s.ring (s.route r).rring).entries.length + 1) ∧
  (∀ (k : Packet) (r w : Nat) (s : State), takePacket 2 k s = (some r, s) → (s.route r).state = .opened → k.psn = (s.route r).epsn →
    windowFor r true k.rkey k.roff k.len s = some w → Gives (.receiveReadReq k .ok) s fun t => t.ram = s.ram ∧ t.mem = s.mem ∧
      (t.route r).epsn = ((s.route r).epsn + max 1 ((k.len + s.pmax (s.route r).port - 1) / s.pmax (s.route r).port)) % 2 ^ 24) ∧
  (∀ (k : Packet) (r b n : Nat) (q : List (Nat × Nat)) (cut : Bool) (s : State), takePacket 3 k s = (some r, s) → (s.route r).state = .opened →
    k.psn = (s.route r).epsn → k.pos = 0 → (s.route r).bind = .none → (s.route r).recvq = (b, n) :: q → k.payload.length ≤ n →
    targetFree r s = true → (s.route r).rring < 56 → (∀ e ∈ s.cch.routes, e.2.sendq = []) → Gives (.receiveSend ⟨k, cut⟩) s fun t =>
      t.ram = s.ram.writeN b k.payload ∧ (t.route r).recvq = q ∧ (t.route r).ccIn = (s.route r).ccIn + 1 ∧
      (t.route r).epsn = ((s.route r).epsn + 1) % 2 ^ 24 ∧
      (t.ring (s.route r).rring).entries.length = (s.ring (s.route r).rring).entries.length + 1) ∧
  (∀ (k : Packet) (r : Nat) (s : State), takePacket 4 k s = (some r, s) → (s.route r).state = .opened → k.psn = (s.route r).epsn →
    Gives (.receiveFlush k) s fun t => t.ram = s.ram ∧ (t.route r).epsn = ((s.route r).epsn + 1) % 2 ^ 24)

/-- Answers and timers. A READ response packet is placed at its offset and the last completes the READ; an ACK frees the store up to its
PSN; a NAK of SEQ sends again, one of RNR waits, and one of ACCESS, LENGTH or PEER-CLOSED puts the route in ERROR with its queue
flushed, as the ninth time-out and the ninth RNR do; an EASE cuts the rate; the timers acknowledge, retry and raise the rate; the hop
deadline seals the coming tally's half. -/
def Obligations.AnswersAndTimers : Prop :=
  (∀ (k : Packet) (r : Nat) (w : Waybill) (s : State), takePacket 5 k s = (some r, s) → (s.route r).state = .opened →
    (s.route r).sendq = [w] → w.op = 2 → w.issued = true → w.got = 0 → w.psn = k.psn → w.psn < 2 ^ 24 → w.larder = none →
    w.hop = false → w.data = none → w.poison = false → k.status = 0 → (∀ e ∈ s.cch.routes, e.1 ≠ r → e.2.sendq = []) →
    (2 ≤ w.psns → Gives (.receiveReadResp k) s fun t => t.ram = s.ram.writeN w.laddr k.payload ∧
      (t.route r).sendq = [{ w with got := 1 }]) ∧
    (w.psns = 1 → Gives (.receiveReadResp k) s fun t => t.ram = s.ram.writeN w.laddr k.payload ∧ (t.route r).sendq = [] ∧
      (t.route r).ccOut = (s.route r).ccOut + 1)) ∧
  (∀ (k : Packet) (r : Nat) (s : State), takePacket 0x10 k s = (some r, s) → (∀ e ∈ s.cch.routes, e.2.sendq = []) →
    (s.route r).ackd = 0 → k.apsn < (s.route r).psn → (s.route r).psn < 2 ^ 23 → Gives (.receiveAck k) s fun t =>
      (t.route r).ackd = k.apsn + 1 ∧ (t.route r).retries = 0 ∧ (∀ e ∈ (t.route r).retx, e.1 < 2 ^ 23 → k.apsn < e.1) ∧ t.ram = s.ram) ∧
  (∀ (k : Packet) (r : Nat) (s : State), takePacket 0x11 k s = (some r, s) →
    (k.status = 0x10 → Gives (.receiveNak k) s fun t => t.route r = s.route r ∧
      (t.net (s.route r).port).cGoB = satInc (s.net (s.route r).port).cGoB) ∧
    (k.status = 7 → ¬((s.route r).rnrPsn = some k.apsn ∧ 8 ≤ (s.route r).rnr) → Gives (.receiveNak k) s fun t =>
      (t.route r).rnrWait = true ∧ (t.route r).rnrPsn = some k.apsn) ∧
    (k.status = 7 → (s.route r).rnrPsn = some k.apsn → 8 ≤ (s.route r).rnr → (s.route r).state = .opened → Gives (.receiveNak k) s fun t =>
      (t.route r).state = .error ∧ (t.route r).status = 7 ∧ (t.route r).sendq = []) ∧
    ((k.status = 2 ∨ k.status = 3 ∨ k.status = 8) → (s.route r).state = .opened → Gives (.receiveNak k) s fun t =>
      (t.route r).state = .error ∧ (t.route r).status = k.status ∧ (t.route r).sendq = [])) ∧
  (∀ (k : Packet) (r : Nat) (s : State), takePacket 0x12 k s = (some r, s) → carriesHop r s = false → (s.route r).easeIn = false →
    Gives (.receiveEase k) s fun t => (t.route r).easeIn = true ∧
      (t.route r).rate = max ((s.net (s.route r).port).ccRmin.toNat * 256)
        ((s.route r).rate * (256 - (s.net (s.route r).port).ccCut.toNat) / 256) ∧
      (t.net (s.route r).port).cEaseR = satInc (s.net (s.route r).port).cEaseR) ∧
  (∀ (r : Nat) (s : State), s.on 8 = true → (s.route r).state = .opened →
    (0 < (s.route r).unacked → Gives (.ackTimer r) s fun t => (t.route r).unacked = 0 ∧ (t.route r).epsn = (s.route r).epsn) ∧
    (∀ e l, (s.route r).retx = e :: l → (s.route r).retries < 8 → Gives (.retransmitTimeout r) s fun t =>
      (t.route r).retries = (s.route r).retries + 1 ∧ (t.route r).state = .opened ∧
      (t.net (s.route r).port).cTmo = satInc (s.net (s.route r).port).cTmo) ∧
    (∀ e l, (s.route r).retx = e :: l → 8 ≤ (s.route r).retries → Gives (.retransmitTimeout r) s fun t =>
      (t.route r).state = .error ∧ (t.route r).status = 4) ∧
    (∀ n, (s.route r).rnrPsn = some n → (s.route r).rnrWait = true → Gives (.rnrRetry r) s fun t =>
      (t.route r).rnr = (s.route r).rnr + 1 ∧ (t.route r).rnrWait = false ∧ (t.route r).state = .opened) ∧
    (Gives (.ccTimer r) s fun t => (t.route r).easeIn = false ∧ (t.route r).easeOut = false ∧
      (t.route r).rate = (if (s.route r).easeIn then (s.route r).rate
        else min 65536 ((s.route r).rate + (s.net (s.route r).port).ccStep.toNat * 256)))) ∧
  (∀ s : State, s.on 3 = true → s.tly.now.toNat + 1 ∉ s.cch.sealed →
    exec .hopDeadline s = .next (s.onCch fun c => { c with sealed := c.sealed ++ [s.tly.now.toNat + 1] }))

/-! ### The network ports (spec 09) -/

/-- A PFC frame pauses or resumes the priorities it names and is counted when it pauses; a port asks its peer to stop once fewer than
12 KiB of its FIFO are free. LINK stands with block lock and the FEC the port is set to. A port that is up answers an ARP request, a
solicitation, an echo and an IGMP query for what is its own, and nothing else. A write of NET_CTL under an OPEN route that would change
SPEED, FEC or MTU changes nothing. The net and ptp verbs set what they name; the show verbs change nothing but the count of free values
drawn (log entry 5). -/
def Obligations.NetworkPorts : Prop :=
  (∀ (p vec free : Nat) (s : State), portUp p s = true →
    (Gives (.pfcFrameReceived p vec true free) s fun t => (t.net p).paused = (s.net p).paused ||| BitVec.ofNat 8 vec ∧
      (t.net p).cXoffR = satInc (s.net p).cXoffR) ∧
    (Gives (.pfcFrameReceived p vec false free) s fun t => (t.net p).paused = (s.net p).paused &&& ~~~(BitVec.ofNat 8 vec) ∧
      (t.net p).cXoffR = (s.net p).cXoffR) ∧
    (free < 12288 → (s.net p).xoff = false → Gives (.pfcFrameReceived p vec true free) s fun t => (t.net p).xoff = true ∧
      (t.net p).cXoffT = satInc (s.net p).cXoffT ∧ (t.net p).tx = .pfc (2 ^ (s.net p).pfcpri.toNat) true :: (s.net p).tx)) ∧
  (∀ (p : Nat) (l f m : Bool) (s : State), s.on (portDom p) = true → (s.net p).fec ≠ 0 → Gives (.linkChange p l f m) s fun t =>
    (t.net p).link = ((s.net p).en && l && f) ∧ (t.net p).modp = m ∧ (t.net p).fecok = ((s.net p).en && f)) ∧
  (∀ (p : Nat) (a b : String) (s : State), portUp p s = true → (s.net p).ip4 ≠ 0 →
    (ip4Word a = (s.net p).ip4 → Gives (.arpRequest p a b) s fun t => (t.net p).tx = .arp b :: (s.net p).tx) ∧
    (ip4Word a ≠ (s.net p).ip4 → exec (.arpRequest p a b) s = .next s)) ∧
  (∀ (p : Nat) (a b : String) (s : State), portUp p s = true → (s.net p).ip6 ≠ "" → lowerS a = (s.net p).ip6 →
    Gives (.ndpSolicitation p a b) s fun t => (t.net p).tx = .ndp b :: (s.net p).tx) ∧
  (∀ (p : Nat) (a b : String) (s : State), ((s.net p).ip6 = "" ∨ lowerS a ≠ (s.net p).ip6) →
    lowerS a ≠ Config.linkLocal (s.net p).mac → exec (.ndpSolicitation p a b) s = .next s) ∧
  (∀ (p : Nat) (a b : String) (d : List Byte) (s : State), portUp p s = true → lowerS a ∈ portAddrs p s →
    Gives (.icmpEcho p a b d) s fun t => (t.net p).tx = .echo b d :: (s.net p).tx) ∧
  (∀ (p : Nat) (a b : String) (d : List Byte) (s : State), lowerS a ∉ portAddrs p s → exec (.icmpEcho p a b d) s = .next s) ∧
  (∀ (v : Nat) (f : Flow) (s : State), portUp 0 s = true → s.on 3 = true → s.aud.rx = [f] → f.en = true → f.portB = false →
    isGroup f.addr = true → Gives (.igmpQuery 0 v) s fun t => (t.net 0).tx = .igmp (v != 2) [f.addr] :: (s.net 0).tx) ∧
  (∀ (p v : Nat) (s : State), (∀ f ∈ s.aud.rx, f.en = true → isGroup f.addr = false) → exec (.igmpQuery p v) s = .next s) ∧
  (∀ (p : Nat) (v : W32) (s : State), s.on (portDom p) = true →
    (portRouted p s = false → fld v 4 2 ≤ 1 → Gives (.netCtlWrite p v) s fun t => (t.net p).en = v.getLsbD 0 ∧
      (t.net p).speed = v.getLsbD 1 ∧ (t.net p).fec = BitVec.ofNat 2 (fld v 4 2) ∧ (t.net p).mtu = v.getLsbD 8 ∧
      (t.net p).ect = v.getLsbD 15 ∧ (t.net p).pfcpri = BitVec.ofNat 3 (fld v 12 3)) ∧
    (portRouted p s = true → (v.getLsbD 8 ≠ (s.net p).mtu ∨ v.getLsbD 1 ≠ (s.net p).speed ∨
      (fld v 4 2 ≤ 1 ∧ BitVec.ofNat 2 (fld v 4 2) ≠ (s.net p).fec)) → exec (.netCtlWrite p v) s = .next s)) ∧
  (∀ c p a e s, Passes netSetV c p a e s → (e.word? "ip4").any isV6 = false → e.word? "ip6" = none →
    (netWith e (s.net (portOfName e))).fec ≠ 2 → s.on (portDom (portOfName e)) = true → portRouted (portOfName e) s = false →
    AnswersOk (.netSet c p a) c s [] (s.onNet (portOfName e) (netWith e))) ∧
  (∀ c p a e s, Passes netShowV c p a e s → (e.has "port" = true → s.on (portDom (portOfName e)) = true) →
    AnswersWith (.netShow c p a) c s fun ls u => u = { s with fresh := u.fresh } ∧ ls.length = (if e.has "port" then 1 else 2)) ∧
  (∀ c p a e s, Passes ptpSetV c p a e s → s.on (portDom (portOfName e)) = true →
    AnswersWith (.ptpSet c p a) c s fun ls u => ls = [] ∧
      (u.net (portOfName e)).domain = (e.nat? "domain").getD (s.net (portOfName e)).domain ∧
      (u.net (portOfName e)).prio1 = (e.nat? "prio1").getD (s.net (portOfName e)).prio1 ∧
      (u.net (portOfName e)).ip4 = (s.net (portOfName e)).ip4 ∧ u.tly = s.tly) ∧
  (∀ c p a e s, Passes ptpShowV c p a e s → (e.has "port" = true → s.on (portDom (portOfName e)) = true) →
    AnswersWith (.ptpShow c p a) c s fun ls u => u = s ∧ ls.length = (if e.has "port" then 1 else 2))

/-! ### Audio and USB (spec 10) -/

/-- Slave ports lock on their FSYNC phase and lose the lock when it slips, which is counted. `aud.set` sets the port it names and
`aud.dry` the guest's dry policy and fade; a port that a staying guest maps is busy; `aud.map` and `aud.mute` stage their events;
`aud.show` changes nothing. -/
def Obligations.AudioPorts : Prop :=
  (∀ (p ph m : Nat) (s : State), p < s.aud.ports.length → s.on 3 = true → (s.aud.ports.getD p {}).en = true →
    (s.aud.ports.getD p {}).master = false → (s.aud.ports.getD p {}).lock = false → Gives (.slavePortLock p ph m) s fun t =>
      t.aud.ports.getD p {} = { s.aud.ports.getD p {} with
        lock := true, phase := BitVec.ofNat 2 (ph % divOf (s.aud.ports.getD p {}).div), phasem := BitVec.ofNat 8 m } ∧
      t.inn = s.inn ∧ t.aud.rx = s.aud.rx ∧ t.aud.tx = s.aud.tx) ∧
  (∀ (p : Nat) (s : State), p < s.aud.ports.length → s.on 3 = true → (s.aud.ports.getD p {}).en = true →
    (s.aud.ports.getD p {}).master = false → (s.aud.ports.getD p {}).lock = true → Gives (.fsyncSlip p) s fun t =>
      (t.aud.ports.getD p {}).lock = false ∧ (t.aud.ports.getD p {}).slip = satInc (s.aud.ports.getD p {}).slip ∧
      t.tly = s.tly) ∧
  (∀ c p a e s k, Passes audSetV c p a e s → k = tdmNames.idxOf (e.word "port") → k < s.aud.ports.length → e.has "phase" = false →
    s.on 3 = true → slotsOk ((e.nat? "slots").getD ((s.aud.ports.getD k {}).slots.toNat + 1)) (divOf (s.aud.ports.getD k {}).div) s = true →
    e.nat? "div" = none → (∀ x ∈ s.inn.guests, x.2.state.inRounds = false) → AnswersWith (.audSet c p a) c s fun ls u => ls = [] ∧
      (u.aud.ports.getD k {}).en = (e.flag? "en").getD true ∧
      (u.aud.ports.getD k {}).master = (e.flag? "master").getD (s.aud.ports.getD k {}).master ∧
      (u.aud.ports.getD k {}).slots = BitVec.ofNat 4 ((e.nat? "slots").getD ((s.aud.ports.getD k {}).slots.toNat + 1) - 1) ∧
      (∀ j, j ≠ k → u.aud.ports.getD j {} = s.aud.ports.getD j {}) ∧ u.tly = s.tly) ∧
  (∀ c p a e s k, Passes audSetV c p a e s → k = tdmNames.idxOf (e.word "port") → e.has "phase" = false →
    s.on 3 = true → slotsOk ((e.nat? "slots").getD ((s.aud.ports.getD k {}).slots.toNat + 1)) (divOf (s.aud.ports.getD k {}).div) s = true →
    e.nat? "div" = none → mapsStaying (fun x => decide (0x40 ≤ x) && decide (x < 0x80) && x / 16 % 4 == k) s = true →
    Refuses (.audSet c p a) c s 30 "port") ∧
  (∀ c p a e s, Passes audDryV c p a e s → s.on 3 = true → (e.has "policy" = true ∨ e.has "fade" = true) →
    AnswersOk (.audDry c p a) c s [] (s.onGuest (e.nat "guest") fun x => { x with
      thru := match e.word? "policy" with | some w => w == "thru" | none => x.thru, fade := (e.nat? "fade").getD x.fade })) ∧
  (∀ c p a e s t i o, Passes audMapV c p a e s → allSome ((e.words "in").map codeOf) = some i →
    allSome ((e.words "out").map codeOf) = some o → Acceptable c p (.map (e.nat "guest") i o) t s →
    Stages (.audMap c p a) c p (.map (e.nat "guest") i o) t s) ∧
  (∀ c p a e s t, Passes audMuteV c p a e s → Acceptable c p (.mute (e.nat "guest") (e.word "state" == "on")) t s →
    Stages (.audMute c p a) c p (.mute (e.nat "guest") (e.word "state" == "on")) t s) ∧
  (∀ c p a e s, Passes audShowV c p a e s → s.on 3 = true → AnswersWith (.audShow c p a) c s fun ls u => u = s ∧ ls ≠ [])

/-- AES67 flows. `aes.set` with `en=on` puts a disabled receive flow into WAIT with its settings and its buffers empty, and `en=off` a
flow into IDLE. A packet of a running flow in sequence is placed in the jitter buffer when it is in time, and counted LATE and discarded
otherwise; one ahead of the sequence counts a loss; a flow that is IDLE or in WAIT discards what it receives; 100 ms without a packet
lose the flow. A complete packet of a running transmit flow leaves with the next sequence number. `aes.show` changes nothing. -/
def Obligations.AudioFlows : Prop :=
  (∀ c p a e s k, Passes aesSetV c p a e s → k = flowNames.idxOf (e.word "flow") → k < 8 → k < s.aud.rx.length →
    let n := flowWith e (s.aud.rx.getD k {})
    e.has "ptime" = false → (e.word? "addr").any isV6 = false → (e.word? "filter").any isV6 = false → n.ch * flowP n * 3 ≤ 1440 →
    flowP n ≤ n.playout.toNat → n.playout.toNat + flowP n ≤ 16384 / n.ch → n.addr ≠ "" → n.udp ≠ 0 → s.on 3 = true →
    (e.flag? "en" = some true → (s.aud.rx.getD k {}).en = false → AnswersWith (.aesSet c p a) c s fun ls u => ls = [] ∧
      u.aud.rx.getD k {} = { n with en := true, state := .wait, jitter := [], acc := [], ready := [], seq := none, good := 0 } ∧
      u.aud.tx = s.aud.tx ∧ u.inn = s.inn) ∧
    (e.flag? "en" = some false → AnswersWith (.aesSet c p a) c s fun ls u => ls = [] ∧
      u.aud.rx.getD k {} = { n with en := false, state := .idle, jitter := [], acc := [], ready := [], seq := none, good := 0 })) ∧
  (∀ (k q ts : Nat) (l : List (List W32)) (s : State), k < s.aud.rx.length → s.on 3 = true → (s.aud.rx.getD k {}).state = .run →
    portUp (s.aud.rx.getD k {}).net s = true → (s.aud.rx.getD k {}).seq = some q → q < 65536 → (s.aud.rx.getD k {}).jitter = [] →
    let f := s.aud.rx.getD k {}
    let ahead := (ts + f.playout.toNat + 2 * 2 ^ 32 - f.tsoff.toNat - s.tly.now.toNat / max 1 (flowDiv s f) % 2 ^ 32) % 2 ^ 32
    (1 ≤ ahead ∧ ahead < 2 ^ 31 ∧ ahead + l.length ≤ 16384 / max 1 f.ch + 1 → Gives (.aes67Receive k q ts l) s fun t =>
      (t.aud.rx.getD k {}).seq = some ((q + 1) % 65536) ∧ (t.aud.rx.getD k {}).late = f.late ∧ (t.aud.rx.getD k {}).loss = f.loss ∧
      (t.aud.rx.getD k {}).jitter = ((List.range l.length).zip l).map fun e => ((ts + e.1) % 2 ^ 32, e.2)) ∧
    (ahead = 0 ∨ 2 ^ 31 ≤ ahead → Gives (.aes67Receive k q ts l) s fun t =>
      (t.aud.rx.getD k {}).late = satInc f.late ∧ (t.aud.rx.getD k {}).loss = f.loss ∧ (t.aud.rx.getD k {}).jitter = []) ∧
    (Gives (.aes67Receive k ((q + 1) % 65536) ts l) s fun t => (t.aud.rx.getD k {}).loss = satInc f.loss)) ∧
  (∀ (k q ts : Nat) (l : List (List W32)) (s : State), ((s.aud.rx.getD k {}).state = .idle ∨ (s.aud.rx.getD k {}).state = .wait) →
    exec (.aes67Receive k q ts l) s = .next s) ∧
  (∀ (k : Nat) (s : State), k < s.aud.rx.length → s.on 3 = true → (s.aud.rx.getD k {}).state = .run →
    Gives (.aes67FlowLost k) s fun t => (t.aud.rx.getD k {}).state = .lost ∧ (t.aud.rx.getD k {}).good = 0 ∧ t.aud.tx = s.aud.tx) ∧
  (∀ (k q ts : Nat) (l : List (List W32)) (r : List (Nat × List (List W32))) (s : State), k < s.aud.tx.length → s.on 3 = true →
    (s.aud.tx.getD k {}).state = .run → (s.aud.tx.getD k {}).ready = (ts, l) :: r → (s.aud.tx.getD k {}).seq = some q →
    portUp (s.aud.tx.getD k {}).net s = true →
    let f := s.aud.tx.getD k {}
    Gives (.aes67Transmit k) s fun t => (t.aud.tx.getD k {}).ready = r ∧ (t.aud.tx.getD k {}).seq = some ((q + 1) % 65536) ∧
      (t.net f.net).tx = .rtp f.addr f.udp f.dscp q (BitVec.ofNat 32 ts) f.ssrc f.pt l :: (s.net f.net).tx) ∧
  (∀ c p a e s, Passes aesShowV c p a e s → s.on 3 = true → AnswersWith (.aesShow c p a) c s fun ls u => u = s ∧ ls ≠ [])

/-- The USB device. A bus reset of an attached device puts it in DEFAULT without address, counts, ends S1, and counts a control transfer
that it cuts off; the control requests set the address, the configuration and the alternate settings in the states that allow them, and
an unsupported one is stalled; a suspended device keeps the state it resumes to; loss of VBUS detaches, and VBUS attaches while ATTACH
is 1. The microframes of the OUT interface enter its FIFO with the feedback value. `usb.set` sets what it names and `usb.show` changes
nothing. -/
def Obligations.UsbDevice : Prop :=
  (∀ (g : CtlStage) (hs : Bool) (s : State), s.on 5 = true → s.usb.pullup = true → (∀ e ∈ s.desk.deferred, e.1 ≠ 1 ∧ e.1 ≠ 4) →
    Gives (.busReset g hs) s fun t =>
    t.usb.state = .default_ ∧ t.usb.addr = 0 ∧ t.usb.altOut = 0 ∧ t.usb.altIn = 0 ∧ t.usb.hs = (hs && s.usb.hsen) ∧
    t.usb.cReset = satInc s.usb.cReset ∧ t.usb.cAband = (if g = .idle then s.usb.cAband else satInc s.usb.cAband) ∧
    (t.sess 1).opened = false ∧ t.evq.entries.length = s.evq.entries.length) ∧
  (∀ (a : Nat) (s : State), s.on 5 = true → s.usb.pullup = true → (s.usb.state = .default_ ∨ s.usb.state = .address) → 0 < a → a < 128 →
    exec (.controlRequest (.setAddress a)) s = .next (s.onUsb fun u => { u with addr := BitVec.ofNat 7 a, state := .address })) ∧
  (∀ s : State, s.on 5 = true → s.usb.pullup = true → (s.usb.state = .address ∨ s.usb.state = .configured) →
    exec (.controlRequest (.setConfig 1)) s = .next (s.onUsb fun u => { u with
      state := .configured, altOut := 0, altIn := 0, inReset := false })) ∧
  (∀ (k : Nat) (s : State), s.on 5 = true → s.usb.pullup = true → s.usb.state = .configured → s.usb.hs = true → s.usb.uacen = true → k ≤ 2 →
    exec (.controlRequest (.setInterface 3 k)) s = .next (s.onUsb fun u => { u with altOut := BitVec.ofNat 2 k })) ∧
  (∀ s : State, s.on 5 = true → s.usb.pullup = true → s.usb.state = .configured →
    exec (.controlRequest .setRate) s = .next (s.onUsb fun u => { u with stalls := u.stalls + 1 })) ∧
  (∀ s : State, s.on 5 = true → s.usb.pullup = true → s.usb.state ≠ .suspended →
    (∀ e ∈ s.desk.deferred, e.1 ≠ 1 ∧ e.1 ≠ 4) → Gives .suspend s fun t =>
    t.usb.state = .suspended ∧ t.usb.resumeTo = s.usb.state ∧ t.usb.cSusp = satInc s.usb.cSusp ∧ (t.sess 1).opened = false) ∧
  (∀ s : State, s.on 5 = true → s.usb.pullup = true → s.usb.state = .suspended →
    exec .resume s = .next (s.onUsb fun u => { u with state := u.resumeTo })) ∧
  (∀ (g : CtlStage) (s : State), s.on 5 = true → s.usb.vbus = true → (∀ e ∈ s.desk.deferred, e.1 ≠ 1 ∧ e.1 ≠ 4) →
    Gives (.vbusLoss g) s fun t => t.usb.vbus = false ∧
    t.usb.pullup = false ∧ t.usb.state = .detached ∧ (t.sess 1).opened = false) ∧
  (∀ s : State, s.on 5 = true → s.usb.attach = true → s.usb.pullup = false →
    exec .vbusAttach s = .next (s.onUsb fun u => { u with vbus := true, pullup := true, state := .powered })) ∧
  (∀ (l : List (List W32)) (fb : W32) (s : State), usbOutOn s = true → s.on 3 = true → s.usb.altOut = 1 → s.usb.fifoIn = [] →
    l.length ≤ usbFifoDepth s → exec (.uac2OutPacket l fb) s = .next (s.onUsb fun u => { u with
      fifoIn := l.map (fun x => x.take 16), fb := fb })) ∧
  (∀ c p a e s, Passes usbSetV c p a e s → s.on 5 = true → e.flag? "attach" = none → AnswersOk (.usbSet c p a) c s []
    (s.onUsb fun u => { u with uacen := (e.flag? "uac").getD u.uacen, bulken := (e.flag? "bulk").getD u.bulken,
                               hsen := (e.flag? "hs").getD u.hsen })) ∧
  (∀ c p a e s, Passes usbShowV c p a e s → s.on 5 = true → AnswersWith (.usbShow c p a) c s fun ls u => u = s ∧ ls.length = 1)

/-! ### The Porter (spec 11) -/

/-- The island's supply, its gauge and WAKE_OUT. Loss of VAON moves the island to VBAT, or stops it where VBAT cannot carry it; VAON
brings it back and ends a LOW or EMPTY outcome; a cold start puts every register of the island at its reset value; a fall of VBAT stops
an island that runs on it. A check reads GOOD, GAUGE_DISAGREE, LOW and EMPTY by its voltage; a new cell clears the tally. In VAULT
WAKE_IN asserts WAKE_OUT, and without main power it is released after its time. What voltage `por.gauge check` reads is free (log
entry 5). -/
def Obligations.PorterSupply : Prop :=
  (∀ s : State, s.por.running = true →
    (s.por.vbatOk = true → Gives .vaonFall s fun t => t.pwr.vaon = false ∧ t.por.onVbat = true ∧ t.por.running = true ∧
      t.por.tally = s.por.tally) ∧
    (s.por.vbatOk = false → Gives .vaonFall s fun t => t.pwr.vaon = false ∧ t.por.running = false) ∧
    (Gives .vaonReturn s fun t => t.pwr.vaon = true ∧ t.por.onVbat = false ∧ t.por.ovr = none ∧ t.por.running = true) ∧
    (s.por.onVbat = true → Gives .vbatFall s fun t => t.por.vbatOk = false ∧ t.por.running = false) ∧
    (s.por.onVbat = false → Gives .vbatFall s fun t => t.por.vbatOk = false ∧ t.por.running = true)) ∧
  (∀ s : State, s.pwr.vaon = true → Gives .islandColdStart s fun t => t.por.mode = .listen ∧ t.por.cold = true ∧ t.por.tally = 0 ∧
    t.por.gain = 2 ∧ t.por.refract = 4 ∧ t.por.mu = 0x40 ∧ t.por.delay = 0x10 ∧ t.por.tmo = 0x14 ∧ t.por.nom = 0xE1 ∧ t.por.wakeOut = false ∧
    t.por.slots = factorySlots ∧ t.por.vlog = [] ∧ t.por.running = true ∧ t.pwr = s.pwr ∧ t.desk = s.desk) ∧
  (∀ s : State, s.por.running = true → s.pwr.vaon = true → exec .cellRemoved s =
    .next (s.onPor fun p => { p with removed := true, vbatOk := false })) ∧
  (∀ s : State, s.por.running = true → s.por.removed = true → Gives .cellReturn s fun t => t.por.tally = 0 ∧
    t.por.est = 10 * s.por.nom.toNat ∧ t.por.removed = false ∧ t.por.vbatOk = true) ∧
  (∀ (mv : Nat) (s : State), s.por.running = true → mv < 4096 → s.por.onVbat = false → Gives (.gaugeCheck mv) s fun t =>
    t.por.mv = BitVec.ofNat 12 mv ∧ (mv < 2200 → t.por.gauge = .empty) ∧ (2200 ≤ mv → mv < 2400 → t.por.gauge = .low) ∧
    (2400 ≤ mv → s.por.est * tenthUnits ≤ s.por.tally.toNat → t.por.gauge = .disagree) ∧
    (2400 ≤ mv → s.por.tally.toNat + 40 < s.por.est * tenthUnits → t.por.gauge = .good ∧ t.por.est = s.por.est)) ∧
  (∀ c p a e s, Passes porGaugeCheckV c p a e s → AnswersWith (.porGaugeCheck c p a) c s fun ls u => ls = [] ∧
    u.fresh = s.fresh + 1 ∧ u.por.mv = (Config.freeWord s.fresh).extractLsb' 0 12 ∧ u.por.lastChk = s.por.ticks) ∧
  (∀ c p a e s, Passes porGaugeNewV c p a e s → AnswersOk (.porGaugeNew c p a) c s []
    (s.onPor fun p => { p with tally := 0, est := 10 * p.nom.toNat })) ∧
  (∀ c p a e s, Passes porGaugeUsedV c p a e s → e.nat "used" ≤ 152000 → AnswersOk (.porGaugeUsed c p a) c s []
    (s.onPor fun p => { p with tally := BitVec.ofNat 40 (e.nat "used" * tenthUnits) })) ∧
  (∀ c p a e s, Passes porWakeReleaseV c p a e s → AnswersOk (.porWakeRelease c p a) c s []
    (s.onPor fun p => { p with wakeOut := false, hold := false, wakeWord := false })) ∧
  (∀ c p a e s, Passes porWakeHoldV c p a e s → AnswersOk (.porWakeHold c p a) c s []
    (s.onPor fun p => { p with wakeOut := true, hold := true })) ∧
  (∀ s : State, s.por.running = true → s.on 2 = false → Gives .wakeInAssert s fun t => t.por.wakeOut = true ∧ t.pwr.woken = true ∧
    t.por.vlog = s.por.vlog) ∧
  (∀ s : State, s.por.running = true → s.por.wakeOut = true → s.pwr.vaon = false → s.por.hold = false → Gives .wakeTimeout s fun t =>
    t.por.wakeOut = false ∧ t.por.vlog.length = s.por.vlog.length ∧ t.por.cWords = s.por.cWords) ∧
  (∀ s : State, exec .refractoryEnd s = .next (s.onPor fun p => { p with refr := false }) ∧
    exec .pathChangeHoldEnd s = .next (s.onPor fun p => { p with pathHold := false }) ∧
    exec .dozeReturn s = .next (s.onPor fun p => { p with dozing := true }))

/-- Listening. Every frame advances the island's clock. The code of a band is 16 × log2(E_b / E_ref) to the nearest whole number, from 0 to 255
(R453), and a frame that is sensed leaves the codes of its bands. An embedding that is a
template of a user slot has similarity 255/256 to it (R455; the nearest code and its largest value are the model's choice, log entry 64). A word whose third embedding in a row reaches its threshold fires: in VAULT it
asserts WAKE_OUT and enters the word log with its RTC time, from HUSH up it becomes a keyword event with the next sequence, and either
way the refractory time begins. The slot check marks user slots only. The por verbs set what they name, and a change of a slot is a
commit of the Ledger. -/
def Obligations.PorterListening : Prop :=
  (∀ (f : Feature) (s : State), s.por.running = true → Gives (.featureFrame f) s fun t => t.por.ticks = s.por.ticks + 1) ∧
  (∀ (f : Feature) (s : State), s.por.running = false → exec (.featureFrame f) s = .next s) ∧
  (∀ e c : Nat, 0 < c → c < 255 →
    (featureCode e = c ↔ 2 ^ (2 * c - 1) * 65536 ^ 32 ≤ e ^ 32 ∧ e ^ 32 < 2 ^ (2 * c + 1) * 65536 ^ 32)) ∧
  (∀ e : Nat, featureCode e ≤ 255 ∧ (featureCode e = 0 ↔ e ^ 32 < 2 * 65536 ^ 32)) ∧
  (∀ (f : Feature) (s : State), s.por.running = true → s.por.mode = .listen → s.por.onVbat = false →
    Gives (.featureFrame f) s fun t => t.por.codes = (f.bands.take 16).map featureCode) ∧
  (∀ (f : Feature) (k n : Nat) (x : Slot) (s : State), s.por.running = true → s.por.mode = .listen → s.por.enrol = none → s.por.pend = none →
    s.por.onVbat = false → s.por.refr = false → s.por.pathHold = false → k < 32 → slotSims f.emb f.fac s = [(k, n)] → s.por.slots = [(k, x)] →
    x.en = true → x.crcbad = false → 0 < x.n → x.wake = true → x.thr.toNat ≤ n → s.por.quals = [(k, 2)] →
    (s.on 2 = false → s.por.vlog.length < 8 → Gives (.featureFrame f) s fun t => t.por.wakeOut = true ∧ t.pwr.woken = true ∧
      t.por.refr = true ∧ t.por.vlog = s.por.vlog ++ [⟨k, (s.por.ticks + 1) / 100, false, s.por.seq⟩] ∧
      t.por.cWords = satInc s.por.cWords ∧ t.por.cVault = satInc s.por.cVault ∧ t.por.seq = s.por.seq + 1) ∧
    (s.on 2 = true → s.por.held = [] → shareFull .porter s = false → s.desk.kwq.length < 8 → Gives (.featureFrame f) s fun t =>
      t.desk.kwq = s.desk.kwq ++ [⟨k, s.por.seq, if s.on 3 then some s.tly.now else none, none⟩] ∧ t.por.refr = true ∧
      t.por.wakeOut = s.por.wakeOut ∧ t.por.seq = s.por.seq + 1)) ∧
  (∀ (f : Feature) (s : State), s.por.running = true → s.por.mode = .listen → s.por.onVbat = false → slotSims f.emb f.fac s = [] →
    Gives (.featureFrame f) s fun t => t.por.cWords = s.por.cWords ∧ t.por.quals = [] ∧ t.por.wakeOut = s.por.wakeOut) ∧
  (∀ (v : List Nat) (k : Nat) (fac : List (Nat × Nat)) (s : State), 8 ≤ k → k < 32 → v ∈ (tgetD s.por.slots k {}).tpl.take
    (tgetD s.por.slots k {}).n → (∃ c ∈ v, h16Int c ≠ some 0) → (∀ c ∈ v, h16Int c ≠ none) → (k, 255) ∈ slotSims v fac s) ∧
  (∀ (l : List Nat) (s : State), s.por.running = true → Gives (.slotCrcCheck l) s fun t =>
    (∀ k ∈ l, 8 ≤ k → k < 32 → (tgetD t.por.slots k {}).crcbad = true) ∧
    (∀ k, k < 8 → tgetD t.por.slots k {} = tgetD s.por.slots k {})) ∧
  (∀ c p a e s, Passes porSetV c p a e s → e.has "bias" = false → e.nat? "refract" = none → e.has "ref" = false →
    e.nat? "cell" = none → AnswersWith (.porSet c p a) c s fun ls u => ls = [] ∧
      u.por.mode = ((e.word? "mode").map pmodeOf).getD s.por.mode ∧ u.por.cancel = (e.flag? "cancel").getD s.por.cancel ∧
      u.por.gain = ((e.nat? "gain").map fun v => BitVec.ofNat 3 (v / 6)).getD s.por.gain ∧
      u.por.mu = ((e.nat? "mu").map (BitVec.ofNat 8)).getD s.por.mu ∧ u.por.digital = (s.on 3 && u.por.cancel) ∧
      u.por.refract = s.por.refract ∧ u.por.slots = s.por.slots ∧ u.por.tally = s.por.tally) ∧
  (∀ c p a e s, Passes porSlotV c p a e s → e.has "thr" = true → e.flag? "en" ≠ some true → s.pwr.pfail = false →
    Begins (.porSlot c p a) c s fun u => u = s.onLdg fun d => { d with queue := d.queue ++ [⟨[], .slot (e.nat "slot")
      { tgetD s.por.slots (e.nat "slot") {} with
        en := (e.flag? "en").getD (tgetD s.por.slots (e.nat "slot") {}).en,
        wake := (e.flag? "wake").getD (tgetD s.por.slots (e.nat "slot") {}).wake,
        thr := match e.nat? "thr" with | some v => BitVec.ofNat 8 v | none => (tgetD s.por.slots (e.nat "slot") {}).thr },
      .line c.origin⟩] }) ∧
  (∀ c p a e s, Passes porSlotClearV c p a e s → 8 ≤ e.nat "slot" → s.pwr.pfail = false → Begins (.porSlotClear c p a) c s fun u =>
    u = s.onLdg fun d => { d with queue := d.queue ++ [{ pages := [], upd := .slot (e.nat "slot") {}, who := .line c.origin }] }) ∧
  (∀ c p a e s, Passes porSlotClearV c p a e s → e.nat "slot" < 8 → Refuses (.porSlotClear c p a) c s 13 "slot") ∧
  (∀ c p a e s, Passes porShowV c p a e s → AnswersWith (.porShow c p a) c s fun ls u => u = s ∧ ls.length = 2)

/-- Enrolment. `por.enrol` of a user slot begins one while none is in progress; a take without a fault joins it, one with a fault does
not, and the fifth requests the commit; `done` after three takes requests it too; `abort` and the time-out end it; `when=wake` leaves it
pending. A factory slot is a bad value. -/
def Obligations.Enrolment : Prop :=
  (∀ c p a e s, Passes porEnrolV c p a e s → 8 ≤ e.nat "slot" → s.por.enrol = none → AnswersWith (.porEnrol c p a) c s fun ls u =>
    ls = [] ∧ u.por.enrol = some ⟨e.nat "slot", [], []⟩ ∧ u.por.pend = none ∧ u.ldg.queue = s.ldg.queue) ∧
  (∀ c p a e s, Passes porEnrolV c p a e s → e.nat "slot" < 8 → Refuses (.porEnrol c p a) c s 13 "slot") ∧
  (∀ c p a e s, Passes porEnrolV c p a e s → 8 ≤ e.nat "slot" → s.por.enrol ≠ none → Refuses (.porEnrol c p a) c s 41 "") ∧
  (∀ (x : Take) (e : Enrol) (s : State), s.por.enrol = some e → enrolBusy s = false →
    (takeFault x e s = none → Gives (.enrolTake x) s fun t =>
      t.por.enrol = some { e with takes := e.takes ++ [x.template], sims := e.sims ++ e.takes.map (cosSim x.template) }) ∧
    (takeFault x e s = none → e.takes.length < 4 → Gives (.enrolTake x) s fun t => t.ldg.queue = s.ldg.queue) ∧
    (takeFault x e s = none → e.takes.length = 4 → Gives (.enrolTake x) s fun t => ∃ j, t.ldg.queue = s.ldg.queue ++ [j] ∧ j.who = .enrolSelf) ∧
    (takeFault x e s ≠ none → Gives (.enrolTake x) s fun t => t.por = s.por ∧ t.ldg = s.ldg) ∧
    (Gives .enrolTimeout s fun t => t.por.enrol = none)) ∧
  (∀ c p a e s x, Passes porEnrolDoneV c p a e s → s.por.enrol = some x → x.slot = e.nat "slot" → 3 ≤ x.takes.length →
    s.pwr.pfail = false → enrolBusy s = false → Begins (.porEnrolDone c p a) c s fun u => u = s.onLdg fun d => { d with
      queue := d.queue ++ [{ pages := [], upd := enrolSlot x s, who := .enrolDone c.origin }] }) ∧
  (∀ c p a e s x, Passes porEnrolDoneV c p a e s → s.por.enrol = some x → x.takes.length < 3 → Refuses (.porEnrolDone c p a) c s 40 "") ∧
  (∀ c p a e s x, Passes porEnrolAbortV c p a e s → s.por.enrol = some x → x.slot = e.nat "slot" → enrolBusy s = false →
    AnswersWith (.porEnrolAbort c p a) c s fun ls u => ls = [] ∧ u.por.enrol = none ∧ u.por.slots = s.por.slots) ∧
  (∀ c p a e s, Passes porEnrolWakeV c p a e s → 8 ≤ e.nat "slot" → s.por.enrol = none → AnswersOk (.porEnrolWake c p a) c s []
    (s.onPor fun p => { p with pend := some (e.nat "slot") }))

/-! ### The Ledger (spec 12) -/

/-- Batches, reads, passwords and the user Slate. A batch is opened, put to, committed or thrown away by its session; a second `begin` is
err 41, and without a batch a put and a commit are err 40 and an abort changes nothing. A put changes the staged copy alone, a 17th page is
err 33; a read changes nothing, and with `dst=` copies the committed page. A right password is held and clears the count, a wrong one is
counted, the eighth in a row locks the partition for 15 minutes of powered time, and a locked partition answers err 21. A put, a read and a
change of passwords without the password that guards them are err 20. A password set is held by nobody. The words of a Slate write take effect, and no other byte of the Slate does. -/
def Obligations.LedgerCommands : Prop :=
  (∀ c p a e s n, Passes ldgBatchBeginV c p a e s → c.origin = .sess n →
    ((s.sess n).batch = none → AnswersOk (.ldgBatchBegin c p a) c s [] (s.onSess n fun x => { x with batch := some ⟨[]⟩ })) ∧
    ((s.sess n).batch ≠ none → Refuses (.ldgBatchBegin c p a) c s 41 "")) ∧
  (∀ c p a e s n b v bs, Passes ldgPutV c p a e s → c.origin = .sess n → (e.nat "part" = 0 ∨ 4 ≤ e.nat "part") →
    mayUse c.origin (e.nat "part") true s = true → e.raw? "data" = some v → hexBytes v = some bs → e.has "off" = true →
    e.has "src" = false → e.nat "page" < partSize (e.nat "part") → e.nat "off" + bs.length ≤ 256 → (s.sess n).batch = some b →
    (∀ x ∈ b.pages, x.1 ≠ partBase (e.nat "part") + e.nat "page") →
    (b.pages.length = 16 → Refuses (.ldgPut c p a) c s 33 "") ∧
    (∀ old, b.pages.length < 16 → pageBytes (partBase (e.nat "part") + e.nat "page") s = some old →
      AnswersOk (.ldgPut c p a) c s [kn "staged" (b.pages.length + 1)] (s.onSess n fun x => { x with batch := some ⟨b.pages ++
        [(partBase (e.nat "part") + e.nat "page", overlay old (e.nat "off") bs,
          tgetD s.ldg.commits (partBase (e.nat "part") + e.nat "page") 0)]⟩ }))) ∧
  (∀ c p a e s n b, Passes ldgBatchCommitV c p a e s → c.origin = .sess n → (s.sess n).batch = some b → s.pwr.pfail = false →
    (b.pages = [] → AnswersOk (.ldgBatchCommit c p a) c s ["pages=0"] (s.onSess n fun x => { x with batch := none })) ∧
    (b.pages ≠ [] → Begins (.ldgBatchCommit c p a) c s fun u => u = (s.onSess n fun x => { x with batch := none }).onLdg fun d =>
      { d with queue := d.queue ++ [⟨b.pages, .none, .batch n⟩] })) ∧
  (∀ c p a e s n, Passes ldgBatchAbortV c p a e s → c.origin = .sess n →
    AnswersOk (.ldgBatchAbort c p a) c s [] (s.onSess n fun x => { x with batch := none }) ∧
    ((s.sess n).batch = none → AnswersOk (.ldgBatchAbort c p a) c s [] s)) ∧
  (∀ c p a e s n, Passes ldgBatchCommitV c p a e s → c.origin = .sess n → (s.sess n).batch = none →
    Refuses (.ldgBatchCommit c p a) c s 40 "") ∧
  (∀ c p a e s n v bs, Passes ldgPutV c p a e s → c.origin = .sess n → (e.nat "part" = 0 ∨ 4 ≤ e.nat "part") →
    mayUse c.origin (e.nat "part") true s = true → e.raw? "data" = some v → hexBytes v = some bs → e.has "off" = true →
    e.has "src" = false → e.nat "page" < partSize (e.nat "part") → e.nat "off" + bs.length ≤ 256 → (s.sess n).batch = none →
    Refuses (.ldgPut c p a) c s 40 "") ∧
  (∀ c p a e s bs, Passes ldgReadV c p a e s → (e.nat "part" = 0 ∨ 3 ≤ e.nat "part") → mayUse c.origin (e.nat "part") false s = true →
    e.nat "page" < partSize (e.nat "part") → pageBytes (partBase (e.nat "part") + e.nat "page") s = some bs →
    (e.has "dst" = false → e.nat "off" + (e.nat? "n").getD 64 ≤ 256 → AnswersWith (.ldgRead c p a) c s fun _ u => u = s) ∧
    (e.has "dst" = true → e.has "off" = false → e.has "n" = false → inUsable (e.nat "dst") 256 s = true →
      AnswersOk (.ldgRead c p a) c s [] { s with ram := s.ram.writeN (e.nat "dst") bs })) ∧
  (∀ c p a e s n v, Passes ldgKeyV c p a e s → c.origin = .sess n → e.has "drop" = false → e.nat? "rpw" = some v →
    e.has "wpw" = false → (s.part (e.nat "part")).rpw ≠ 0 →
    ((s.part (e.nat "part")).rpw = BitVec.ofNat 64 v →
      AnswersWith (.ldgKey c p a) c s fun ls u => ls = [] ∧ (u.part (e.nat "part")).fails = 0 ∧ (u.part (e.nat "part")).locks = 0 ∧
        (e.nat "part", false) ∈ (u.sess n).keys) ∧
    ((s.part (e.nat "part")).rpw ≠ BitVec.ofNat 64 v →
      ∃ u, exec (.ldgKey c p a) s = .next (deliver c (.err 20 "part" u)) ∧ (u.sess n).keys = (s.sess n).keys ∧
        (u.part (e.nat "part")).fails = satInc (s.part (e.nat "part")).fails ∧
        ((s.part (e.nat "part")).locks = 0 → (s.part (e.nat "part")).fails.toNat < 7 →
          (u.part (e.nat "part")).locked = (s.part (e.nat "part")).locked) ∧
        ((s.part (e.nat "part")).locks = 0 → (s.part (e.nat "part")).fails = 7 → (u.part (e.nat "part")).locked = true ∧
          (u.part (e.nat "part")).endAt = s.ldg.powered + 15 * perMinute) ∧
        ((s.part (e.nat "part")).locks = 1 → (u.part (e.nat "part")).locked = true ∧
          (u.part (e.nat "part")).endAt = s.ldg.powered + 30 * perMinute))) ∧
  (∀ c p a s n k, canRun c.origin s = true → c.origin = .sess n → argNat? a "part" = some k → k < 8 → (s.part k).locked = true →
    Refuses (.ldgKey c p a) c s 21 "") ∧
  (∀ c p a s k, canRun c.origin s = true → argNat? a "part" = some k → k < 8 →
    (mayUse c.origin k true s = false → Refuses (.ldgPut c p a) c s 20 "" ∧ Refuses (.ldgPass c p a) c s 20 "") ∧
    (mayUse c.origin k false s = false → Refuses (.ldgRead c p a) c s 20 "")) ∧
  (∀ (k : Nat) (s : State), s.on 1 = true → Gives (.partitionLockoutEnd k) s fun t => (t.part k).locked = false ∧
    (t.part k).fails = (s.part k).fails ∧ ∀ j, j ≠ k → t.part j = s.part j) ∧
  (∀ c p a e s v w, Passes ldgPassV c p a e s → mayUse c.origin (e.nat "part") true s = true → e.nat? "rpw" = some v →
    e.nat? "wpw" = some w → AnswersWith (.ldgPass c p a) c s fun ls u => ls = [] ∧
      (u.part (e.nat "part")).rpw = BitVec.ofNat 64 v ∧ (u.part (e.nat "part")).wpw = BitVec.ofNat 64 w ∧
      ∀ n x, (e.nat "part", x) ∉ (u.sess n).keys) ∧
  (∀ c p a e s, Passes ldgSlateV c p a e s → 4 ≤ e.nat "part" → e.nat "off" % 4 = 0 →
    (e.has "val" = false → e.nat "off" + 4 * (e.nat? "n").getD 1 ≤ 512 → AnswersWith (.ldgSlate c p a) c s fun ls u =>
      u = s ∧ ls.length = 1) ∧
    (e.has "val" = true → e.has "n" = false → mayUse c.origin (e.nat "part") true s = true →
      e.nat "off" + 4 * (e.nums "val").length ≤ 512 → s.ldg.user.wf = true → AnswersWith (.ldgSlate c p a) c s fun ls u => ls = [] ∧
        (∀ k, k < (e.nums "val").length → u.ldg.user.readW (512 * (e.nat "part" - 4) + e.nat "off" + 4 * k) =
          BitVec.ofNat 32 ((e.nums "val").getD k 0)) ∧
        (∀ k, (k < 512 * (e.nat "part" - 4) + e.nat "off" ∨
            512 * (e.nat "part" - 4) + e.nat "off" + 4 * (e.nums "val").length ≤ k) → u.ldg.user.read k = s.ldg.user.read k) ∧
        u.ldg.phys = s.ldg.phys ∧ u.ldg.map = s.ldg.map))

/-- The event log, wiping and refresh. A log commit takes the entries it can from the buffer into the log; `log.clear` drops the buffer
and requests the clearing of the log; `log.tail` gives no more entries than asked; `ldg.wipe` requests a wipe; each of the three is err 20
without the password of its partition. `ldg.refresh` starts a run and keeps its time; the run ends with the pages it rewrote counted, none
where every page reads well. -/
def Obligations.LogAndRefresh : Prop :=
  (∀ s : State, s.on 1 = true → s.pwr.pfail = false → s.ldg.queue = [] → 0 < logTake s.ldg →
    (logImages (logTake s.ldg) s.ldg).length ≤ 16 → 16 ≤ roleCount .pool s → Gives (.logBufferCommit []) s fun t =>
      t.ldg.log = logAfter (logTake s.ldg) s.ldg ∧ t.ldg.buffer = s.ldg.buffer.drop (logTake s.ldg) ∧
      t.ldg.cCommits = satInc s.ldg.cCommits ∧ t.ldg.user = s.ldg.user ∧ t.ram = s.ram) ∧
  (∀ (l : List Nat) (s : State), s.ldg.queue = [] → s.ldg.buffer = [] → exec (.logBufferCommit l) s = .next s) ∧
  (∀ c p a e s, Passes logTailV c p a e s → e.has "src" = false → mayUse c.origin 3 false s = true →
    (∀ x ∈ s.ldg.log, pageBytes (partBase 3 + x.lseq / 8 % 1024) s ≠ none) → AnswersWith (.logTail c p a) c s fun ls u => u = s ∧
      ls.length = min ((e.nat? "n").getD 8) (s.ldg.log.length + s.ldg.buffer.length)) ∧
  (∀ c p a s, canRun c.origin s = true →
    (mayUse c.origin 3 false s = false → Refuses (.logTail c p a) c s 20 "") ∧
    (mayUse c.origin 3 true s = false → Refuses (.logClear c p a) c s 20 "")) ∧
  (∀ c p a e s, Passes logClearV c p a e s → mayUse c.origin 3 true s = true → s.pwr.pfail = false →
    Begins (.logClear c p a) c s fun u => u.ldg.buffer = [] ∧ u.ldg.log = s.ldg.log ∧
      ∃ q, u.ldg.queue = q ++ [⟨[], .clearLog, .line c.origin⟩]) ∧
  (∀ c p a e s, Passes ldgWipeV c p a e s → mayUse c.origin (e.nat "part") true s = true → s.pwr.pfail = false →
    Begins (.ldgWipe c p a) c s fun u => u = s.onLdg fun d => { d with queue := d.queue ++ [⟨[], .wipe (e.nat "part"), .line c.origin⟩] }) ∧
  (∀ c p a s k, canRun c.origin s = true → argNat? a "part" = some k → k < 8 → mayUse c.origin k true s = false →
    Refuses (.ldgWipe c p a) c s 20 "") ∧
  (∀ c p a e s, Passes ldgRefreshV c p a e s → AnswersOk (.ldgRefresh c p a) c s [] (s.onLdg fun d => { d with
    refresh := true, lastRef := s.rtc, sinceRef := 0, rewritten := 0, refCut := false })) ∧
  (∀ s : State, s.on 1 = true → s.pwr.pfail = false → s.ldg.queue = [] → s.ldg.refresh = true →
    (∀ l, l < 2048 → (s.phys (s.physOf l)).bad = false) → Gives (.refreshRun [] [] [] []) s fun t => t.ldg.refresh = false ∧
      t.ldg.rewritten = 0 ∧ t.ldg.phys = s.ldg.phys ∧ t.ldg.map = s.ldg.map ∧ t.ldg.lastRef = s.ldg.lastRef) ∧
  (∀ (w x y z : List Nat) (s : State), s.ldg.refresh = false → refreshDue s = false → exec (.refreshRun w x y z) s = .next s) ∧
  (∀ c p a e s, Passes ldgShowV c p a e s → AnswersWith (.ldgShow c p a) c s fun ls u => u = s ∧ ls.length = 1) ∧
  (∀ c p a e s, Passes logShowV c p a e s → AnswersWith (.logShow c p a) c s fun ls u => u = s ∧ ls.length = 1)

/-- A batch reads back entirely old or entirely new. In a Ledger whose logical pages are served by pages of that role and whose
unused spares are spares: a commit cut before its commit word is written leaves every logical page as it read; a commit that runs to its
end, with pages enough in the pool, verifies that succeed, and staged pages that no other batch has committed since, gives every page of
its batch its new content and leaves every other page as it read. -/
def Obligations.CommitsAreAtomic : Prop :=
  ∀ (j : LJob) (r : List LJob) (n : Nat) (s : State), s.on 1 = true → s.ldg.ready = true → s.ldg.queue = j :: r → j.upd = .none →
    j.who = .batch n → (∀ l, l < 2048 → (s.phys (s.physOf l)).role = .serves) →
    (∀ k, k < physCount → 2080 + s.ldg.sparesUsed ≤ k → (s.phys k).role = .spare) →
    (∀ (fails : List Nat) (residue : Bool) (upto : CommitEnd), upto = .beforeJournal ∨ upto = .beforeWord →
      Gives (.ledgerCommit fails upto residue) s fun t => ∀ l, l < 2048 → pageBytes l t = pageBytes l s) ∧
    ((j.pages.map (·.1)).Nodup → (∀ p ∈ j.pages, p.1 < 2048 ∧ tgetD s.ldg.commits p.1 0 = p.2.2) → j.pages.length ≤ 16 →
      j.pages.length ≤ roleCount .pool s → (∀ k l, k < 2048 → l < 2048 → s.physOf k = s.physOf l → k = l) →
      Gives (.ledgerCommit [] .complete false) s fun t => (∀ p ∈ j.pages, pageBytes p.1 t = some (pad256 p.2.1)) ∧
        (∀ l, l < 2048 → (∀ p ∈ j.pages, p.1 ≠ l) → pageBytes l t = pageBytes l s) ∧ t.ldg.queue = r)

/-! ### The Hearth (spec 13) -/

/-- The loop and the states of a channel. The pin voltages give V_SUP and, with SHUNT and DIV, a channel's V_L and I. A channel that waits is
given a token where the budget allows and enters PROBE, and waits on where the budget does not; PROBE ends in RAMP from a target of 0; RAMP
moves the target on at the channel's rate, makes the channel READY once R reaches 0.90 × RHOT, and ends in RUN, which returns the token. A
sag holds the ramping channels; HOLD ends in PARK, PARK in BACKOFF with one retry counted, the fourth in RAMPFAIL, and BACKOFF in WAIT. In
every period a channel that is not driven has its gate low, and one driven in a PWM mode a duty at which its mean current stays within the
clamp, which is at most ILIM, and its RMS voltage, where it regulates voltage, within the aim; the duty of a steady load is the model's
reading (log entry 67). The watchdog forces every gate low and leaves the states. How long the measured conditions have held is the
command's operand (log entry 26). -/
def Obligations.HearthLoop : Prop :=
  (∀ (ms : List HMeas) (sns mean n : Nat) (m : HMeas) (s : State), s.on 4 = true → s.clk.stat.getLsbD 10 = true →
    s.hth.chans.length = 8 → ms.length = 8 → ms[n]? = some m →
    let vsup := supplyMv sns s.hth.ratio
    let vref := supplyMv mean s.hth.ratio
    let vl := (s.chan n).loadMv vsup m.hv
    let i := (s.chan n).loadMa m.hsp m.hsn
    (m.over1ms = false ∧ m.open20 = false ∧ m.fet100 = false ∧ m.adc1ms = false ∧ -500 ≤ vl) →
    (∀ k, k < 8 → k ≠ n → (s.chan k).state = .off ∧ (s.chan k).token = false) → (s.chan n).mode ≠ .off → s.hth.sag = false →
    s.hth.suplow = false → s.hth.frozen = 0 → 4500 ≤ vsup → vsup < 65536 → vref < 65536 → 92 * vref ≤ 100 * vsup →
    ((s.chan n).state = .wait → (s.chan n).token = false → s.hth.tokens ≠ 0 → (s.chan n).ilim.toNat ≤ s.hth.imax.toNat →
      Gives (.controlLoopPeriod ms sns mean false false false false) s fun t => (t.chan n).state = .probe ∧
        (t.chan n).token = true ∧ (t.chan n).gate = true ∧ t.hth.period = s.hth.period + 1 ∧ t.hth.vsup.toNat = vsup) ∧
    ((s.chan n).state = .wait → s.hth.imax.toNat < (s.chan n).ilim.toNat →
      Gives (.controlLoopPeriod ms sns mean false false false false) s fun t => (t.chan n).state = .wait) ∧
    ((s.chan n).state = .ramp → Gives (.controlLoopPeriod ms sns mean false false false false) s fun t =>
      (t.chan n).v = satOf 16 vl.toNat ∧ (t.chan n).i = satOf 16 i ∧
      (t.chan n).present = min ((s.chan n).target.toNat * 1000000)
        ((s.chan n).present + rampStep (s.chan n).target.toNat 0 (s.chan n).ramp.toNat) ∧
      ((t.chan n).present = (s.chan n).target.toNat * 1000000 → m.below10 = true → i < (s.chan n).ilim.toNat →
        (t.chan n).state = .run ∧ (t.chan n).token = false) ∧
      ((t.chan n).present < (s.chan n).target.toNat * 1000000 → (t.chan n).state = .ramp) ∧
      (0 < i → (s.chan n).ilim.toNat ≤ 50 * i → (s.chan n).rhot ≠ 0 → (s.chan n).ready = false →
        90 * (s.chan n).rhot.toNat ≤ 100 * min 65535 (nearDiv (100 * vl.toNat) i) → (t.chan n).ready = true))) ∧
  (∀ (ms : List HMeas) (sns mean n : Nat) (m : HMeas) (s : State), s.on 4 = true → s.clk.stat.getLsbD 10 = true →
    s.hth.chans.length = 8 → ms.length = 8 → ms[n]? = some m →
    let vsup := supplyMv sns s.hth.ratio
    let vref := supplyMv mean s.hth.ratio
    (m.over1ms = false ∧ m.open20 = false ∧ m.fet100 = false ∧ m.adc1ms = false ∧ m.below10 = false ∧
      -500 ≤ (s.chan n).loadMv vsup m.hv) →
    (∀ k, k < 8 → k ≠ n → (s.chan k).state = .off) → (s.chan n).mode ≠ .off → (s.chan n).state = .ramp → s.hth.sag = false →
    s.hth.suplow = false → s.hth.frozen = 0 → 4500 ≤ vsup → vsup < 65536 → vref < 65536 → 100 * vsup < 92 * vref →
    Gives (.controlLoopPeriod ms sns mean false false false false) s fun t => t.hth.sag = true ∧ (t.chan n).state = .hold ∧
      (t.chan n).token = (s.chan n).token) ∧
  (∀ (ms : List HMeas) (v w : Nat) (b1 b2 b3 b4 : Bool) (s : State), s.on 4 = false →
    exec (.controlLoopPeriod ms v w b1 b2 b3 b4) s = .next s) ∧
  (∀ (ms : List HMeas) (v w : Nat) (b1 b2 b3 b4 : Bool) (s : State), s.on 4 = true → s.clk.stat.getLsbD 10 = true →
    Gives (.controlLoopPeriod ms v w b1 b2 b3 b4) s fun t => ∀ k,
      ((t.chan k).state.driven = false → (t.chan k).gate = false ∧ (t.chan k).duty = 0 ∧ (t.chan k).drive = 0) ∧
      ((t.chan k).state.driven = true → (t.chan k).gate = true ∧ (t.chan k).clamp ≤ (t.chan k).ilim.toNat ∧
        ((t.chan k).mode ≠ .linear → (t.chan k).duty ≤ (t.chan k).pwmSteps ∧
          (t.chan k).duty * (t.chan k).i.toNat ≤ (t.chan k).clamp * (t.chan k).pwmSteps ∧
          ((t.chan k).state = .run → (t.chan k).reg = false →
            (t.chan k).duty * ((t.chan k).v.toNat * (t.chan k).v.toNat) ≤ (t.chan k).aim * (t.chan k).aim * (t.chan k).pwmSteps)))) ∧
  (∀ (ch hv : Nat) (hsp hsn : Int) (tamb : Nat) (s : State), s.on 4 = true → (s.chan ch).state = .probe →
    let i := (s.chan ch).loadMa hsp hsn
    0 < i → (s.chan ch).ilim.toNat ≤ 50 * i →
    Gives (.probeEnd ch hv ⟨hsp, hsn⟩ tamb) s fun t => (t.chan ch).state = .ramp ∧ (t.chan ch).present = 0 ∧ (t.chan ch).tamb = tamb ∧
      (t.chan ch).rcold = min 65535 (nearDiv (100 * ((s.chan ch).loadMv s.hth.vsup.toNat hv).toNat) i) ∧
      (t.chan ch).token = (s.chan ch).token ∧ ∀ k, k ≠ ch → t.chan k = s.chan k) ∧
  (∀ s : State, s.hth.sag = true → Gives .holdTimeout s fun t => ∀ n, n < 8 →
    ((s.chan n).state = .hold → (t.chan n).state = .park) ∧ ((s.chan n).state ≠ .hold → t.chan n = s.chan n)) ∧
  (∀ (cut : Bool) (s : State), s.hth.sag = true → Gives (.parkTimeout cut) s fun t => ∀ n, n < 8 →
    ((s.chan n).state = .park → (s.chan n).retries.toNat < 3 → (t.chan n).state = .backoff ∧
      (t.chan n).retries = (s.chan n).retries + 1 ∧ (t.chan n).token = false) ∧
    ((s.chan n).state = .park → 3 ≤ (s.chan n).retries.toNat → (t.chan n).state = .fault ∧ (t.chan n).fault = .rampfail) ∧
    ((s.chan n).state ≠ .park → t.chan n = s.chan n)) ∧
  (∀ (ch : Nat) (s : State), (s.chan ch).state = .backoff → Gives (.backoffEnd ch) s fun t => (t.chan ch).state = .wait ∧
    (t.chan ch).asked = s.hth.period ∧ ∀ k, k ≠ ch → t.chan k = s.chan k) ∧
  (∀ s : State, Gives .gateWatchdog s fun t => ∀ n, (t.chan n).gate = false ∧ (t.chan n).duty = 0 ∧ (t.chan n).state = (s.chan n).state)

/-- Faults, and the ways out of them. A short latches SHORT with the gate low and the token returned, counts the trip and freezes VREF, and
changes no other channel; with AUTORETRY set it returns to WAIT, without it the retry changes nothing. A budget excess takes one driven
channel, lamps before heaters and the highest number first; a supply fault latches every channel that is not idle. `hth.clear`, and a
write of CLEAR, return a channel from FAULT to WAIT, or to OFF where its mode is OFF, with its counts cleared, and change nothing of
another. A write of MODE other than OFF while SHUNT or ILIM is 0 leaves MODE, and one of SHUNT, DIV or RATIO while a channel is not in OFF
leaves the register. -/
def Obligations.HearthFaults : Prop :=
  (∀ (ch v : Nat) (cut : Bool) (s : State), s.on 4 = true → (s.chan ch).idle = false → Gives (.shortTrip ch v cut) s fun t =>
    (t.chan ch).state = .fault ∧ (t.chan ch).fault = .short ∧ (t.chan ch).gate = false ∧ (t.chan ch).token = false ∧
    (t.chan ch).ready = false ∧ (t.chan ch).shorts = satInc (s.chan ch).shorts ∧
    (s.hth.frozen = 0 → t.hth.vref = satOf 16 (supplyMv v s.hth.ratio) ∧ t.hth.frozen = 400) ∧ (s.hth.frozen ≠ 0 → t.hth.vref = s.hth.vref) ∧
    ∀ k, k ≠ ch → t.chan k = s.chan k) ∧
  (∀ (ch v : Nat) (cut : Bool) (s : State), (s.chan ch).idle = true → exec (.shortTrip ch v cut) s = .next s) ∧
  (∀ (ch : Nat) (s : State), s.on 4 = true → (s.chan ch).state = .fault → (s.chan ch).fault = .short →
    ((s.chan ch).autoretry = true → (s.chan ch).autos < 5 → (s.chan ch).mode ≠ .off → Gives (.autoRetry ch) s fun t =>
      (t.chan ch).state = .wait ∧ (t.chan ch).fault = .none ∧ (t.chan ch).autos = (s.chan ch).autos + 1) ∧
    (((s.chan ch).autoretry = false ∨ 5 ≤ (s.chan ch).autos) → exec (.autoRetry ch) s = .next s)) ∧
  (∀ (cut : Bool) (s : State), s.on 4 = true → s.hth.imax.toNat < (s.hth.chans.map fun c => c.i.toNat).sum →
    (∃ k, k < 8 ∧ (s.chan k).state.driven = true) → Gives (.budgetExcess cut) s fun t => ∃ n, n < 8 ∧
      (s.chan n).state.driven = true ∧ (t.chan n).state = .fault ∧ (t.chan n).fault = .budget ∧ (t.chan n).gate = false ∧
      (∀ m, m < 8 → (s.chan m).state.driven = true → ((s.chan m).mode = .lamp → (s.chan n).mode = .lamp) ∧
        (((s.chan m).mode = .lamp ↔ (s.chan n).mode = .lamp) → m ≤ n)) ∧
      ∀ m, m ≠ n → t.chan m = s.chan m) ∧
  (∀ (vg cut : Bool) (s : State), s.on 4 = true → Gives (.hearthSupplyFault vg cut) s fun t =>
    (vg = true → t.hth.vglow = true) ∧ (vg = false → t.hth.suphigh = true) ∧ ∀ n, n < 8 →
      ((s.chan n).idle = false → (t.chan n).state = .fault ∧ (t.chan n).fault = .supply ∧ (t.chan n).gate = false) ∧
      ((s.chan n).idle = true → t.chan n = s.chan n)) ∧
  (∀ c p a e s, Passes hthClearV c p a e s → s.on 4 = true →
    ((s.chan (e.nat "ch")).state = .fault → AnswersWith (.hthClear c p a) c s fun ls u => ls = [] ∧
      (u.chan (e.nat "ch")).state = (if (s.chan (e.nat "ch")).mode = .off then .off else .wait) ∧
      (u.chan (e.nat "ch")).fault = .none ∧ (u.chan (e.nat "ch")).retries = 0 ∧ (u.chan (e.nat "ch")).autos = 0 ∧
      ∀ k, k ≠ e.nat "ch" → u.chan k = s.chan k) ∧
    ((s.chan (e.nat "ch")).state ≠ .fault → AnswersOk (.hthClear c p a) c s [] s)) ∧
  (∀ c p a e s, Passes hthClearV c p a e s → s.on 4 = false → Refuses (.hthClear c p a) c s 40 "") ∧
  (∀ (ch : Nat) (v : W32) (s : State), s.on 4 = true → ch < 8 →
    (v.getLsbD 15 = true → (s.chan ch).state = .fault → Gives (.hthStatClearWrite ch v) s fun t => (t.chan ch).fault = .none ∧
      (t.chan ch).state = (if (s.chan ch).mode = .off then .off else .wait) ∧ ∀ k, k ≠ ch → t.chan k = s.chan k) ∧
    ((v.getLsbD 15 = false ∨ (s.chan ch).state ≠ .fault) → exec (.hthStatClearWrite ch v) s = .next s) ∧
    (fld v 0 3 ≠ 0 → ((s.chan ch).shunt = 0 ∨ (s.chan ch).ilim = 0) → Gives (.hthModeWrite ch v) s fun t =>
      (t.chan ch).mode = (s.chan ch).mode ∧ (t.chan ch).state = (s.chan ch).state) ∧
    (fld v 0 3 = 3 → (s.chan ch).shunt ≠ 0 → (s.chan ch).ilim ≠ 0 → (s.chan ch).state = .off → (s.chan ch).mode ≠ .lamp →
      Gives (.hthModeWrite ch v) s fun t => (t.chan ch).mode = .lamp ∧ (t.chan ch).state = .wait ∧
        (t.chan ch).autoretry = v.getLsbD 4 ∧ ∀ k, k ≠ ch → t.chan k = s.chan k)) ∧
  (∀ (ch : Nat) (v : W32) (s : State), ch < 8 → allChansOff s = false → (∀ e ∈ s.desk.deferred, e.1 ≠ 4) →
    exec (.registerWrite (csrBase + 0xF010C + 0x20 * ch) v) s = .next s ∧ exec (.registerWrite (csrBase + 0xF0010) v) s = .next s)

/-- `hth.set` sets what it names and nothing of another channel; a mode takes the channel through OFF to WAIT; a target or another value that
breaks a limit is err 13; a channel's key needs `ch`. `hth.show` changes nothing. Values are taken to the nearest step of their field, which
is the model's reading (log entry 28). -/
def Obligations.HearthCommands : Prop :=
  (∀ c p a e s n, Passes hthSetV c p a e s → e.nat? "ch" = some n → s.on 4 = true → s.hth.chans.length = 8 → n < 8 →
    hthBad e (s.chan n) (chanWith e (s.chan n)) s = none → allChansOff s = true →
    (e.word? "mode" = none → AnswersWith (.hthSet c p a) c s fun ls u => ls = [] ∧ u.chan n = chanWith e (s.chan n) ∧
      u.hth.imax = w16 (e.nat? "imax") s.hth.imax ∧ u.hth.ratio = w16 (e.nat? "ratio") s.hth.ratio ∧
      ∀ k, k ≠ n → u.chan k = s.chan k) ∧
    (∀ w, e.word? "mode" = some w → (s.chan n).mode ≠ hmodeWord w → AnswersWith (.hthSet c p a) c s fun ls u => ls = [] ∧
      (u.chan n).mode = hmodeWord w ∧ (u.chan n).state = (if hmodeWord w = .off then .off else .wait) ∧
      (u.chan n).retries = 0 ∧ (u.chan n).ilim = (chanWith e (s.chan n)).ilim ∧ (u.chan n).target = (chanWith e (s.chan n)).target ∧
      ∀ k, k ≠ n → u.chan k = s.chan k)) ∧
  (∀ c p a e s n k, Passes hthSetV c p a e s → e.nat? "ch" = some n → hthBad e (s.chan n) (chanWith e (s.chan n)) s = some k →
    Refuses (.hthSet c p a) c s 13 k) ∧
  (∀ c p a s, canRun c.origin s = true → 1 ≤ (s.levelOf c.origin).rank → claimBars hthSetV c.origin a s = false → hasKey a "ch" = false →
    (∃ k, k ∈ hthChanKeys ∧ hasKey a k = true) → Refuses (.hthSet c p a) c s 14 "ch") ∧
  (∀ c p a e s, Passes hthShowV c p a e s → s.on 4 = true → AnswersWith (.hthShow c p a) c s fun ls u => u = s ∧
    ls.length = (if e.nat? "ch" = none then 9 else 1))

/-! ### Power domains, house states and governors (spec 14) -/

/-- The moves between house states, memory training, power failure and the resets that pass through VAULT. A move up switches the
domains of the state it reaches on, those of PD4 to PD15 where they are configured; a move down switches them off; a quadrant
comes on when its ramp ends; training accepts a capacity of 2 to 16 GiB a channel; a configuration written takes effect in the present
state unless it lacks a domain that another needs; power failure, a pin reset and TESTMODE take every domain but PD0 off.
Part of what a move does outside its domains is the model's choice (log entry 29). -/
def Obligations.HouseMoves : Prop :=
  (∀ c p a e s k, Passes houseSetV c p a e s → c.origin = .sess k → s.pwr.therm = .none → s.clk.stat.getLsbD 0 = true →
    (s.pwr.goal ≠ none → Refuses (.houseSet c p a) c s 41 "") ∧
    (s.pwr.goal = none → houseOf (e.word "state") = s.pwr.house → AnswersOk (.houseSet c p a) c s [] s) ∧
    (s.pwr.goal = none → houseOf (e.word "state") ≠ s.pwr.house → s.pwr.house ≠ .full → houseOf (e.word "state") ≠ .vault →
      (wantsDom (houseOf (e.word "state")) s.pwr.cfg (sessDom k s) = true → AnswersOk (.houseSet c p a) c s []
        (s.onPwr fun p => { p with goal := some (houseOf (e.word "state")) })) ∧
      (wantsDom (houseOf (e.word "state")) s.pwr.cfg (sessDom k s) = false → AnswersOk (.houseSet c p a) c s []
        ((s.onPwr fun p => { p with goal := some (houseOf (e.word "state")) }).onDesk fun d => { d with
          deferred := d.deferred ++ [(k, .house (houseOf (e.word "state")))] }))) ∧
    (s.pwr.goal = none → s.pwr.house = .full → houseOf (e.word "state") ≠ .full → AnswersWith (.houseSet c p a) c s fun ls u => ls = [] ∧
      u.pwr.goal = some (houseOf (e.word "state")) ∧ ∀ x ∈ u.inn.guests, x.2.inRounds = true → x.2.fading = true)) ∧
  (∀ c p a e s, Passes houseSetV c p a e s → houseNum s.pwr.house < houseNum (houseOf (e.word "state")) → s.clk.stat.getLsbD 0 = false →
    Refuses (.houseSet c p a) c s 40 "state") ∧
  (∀ s : State, s.pwr.house = .vault → s.pwr.goal = some .hush → s.pwr.vaon = true → s.sys.testmode = false → s.on 1 = false →
    s.on 2 = false → Gives .moveVaultToHush s fun t => t.pwr.house = .hush ∧ t.pwr.goal = none ∧ t.on 1 = true ∧ t.on 2 = true ∧
      t.ldg.ready = true ∧ (∀ d, 3 ≤ d → t.on d = s.on d) ∧ t.ram = s.ram) ∧
  (∀ s : State, s.pwr.house ≠ .vault → exec .moveVaultToHush s = .next s) ∧
  (∀ s : State, s.pwr.house = .hush → s.pwr.goal = some .lobby → Gives .moveHushToLobby s fun t => t.pwr.house = .lobby ∧
    t.pwr.goal = none ∧ t.on 3 = true ∧ (∀ d ∈ [5, 6, 7, 8], t.on d = (s.on d || s.cfgOn d)) ∧ t.on 4 = s.on 4) ∧
  (∀ s : State, s.pwr.house = .lobby → s.pwr.goal = some .full → s.pwr.rising = false → s.on 9 = false →
    (s.cfgOn 9 = true → Gives .moveLobbyToFull s fun t => t.on 9 = true ∧ t.pwr.rising = true ∧ t.pwr.house = .lobby ∧
      t.mem.trained = false ∧ t.mem.eccNext = s.mem.ctlEcc) ∧
    (s.pwr.cfg = 0 → s.pwr.ramping = none → Gives .moveLobbyToFull s fun t => t.pwr.house = .full ∧ t.pwr.goal = none)) ∧
  (∀ (n : Nat) (s : State), 16 ≤ n → n ≤ 128 → n % 2 = 0 → s.on 9 = true → s.mem.trained = false → s.mem.fail = false →
    Gives (.memTrainDone n) s fun t =>
    t.mem.trained = true ∧ t.mem.valid = true ∧ t.mem.eccOn = s.mem.eccNext ∧ t.mem.installed = BitVec.ofNat 8 n ∧
    t.mem.usable = BitVec.ofNat 8 (if s.mem.eccNext then n * 15 / 16 else n) ∧
    (s.pwr.rising = true → s.pwr.goal = some .full → (∀ d ∈ [10, 11, 4], s.cfgOn d = true → t.on d = true) ∧
      ((∀ q, q < 4 → s.cfgOn (12 + q) = false) → s.pwr.ramping = none → t.pwr.house = .full) ∧
      (s.cfgOn 12 = true → s.on 12 = false → s.pwr.ramping = none → t.pwr.ramping = some 0 ∧ t.pwr.house = s.pwr.house))) ∧
  (∀ (n : Nat) (s : State), (n < 16 ∨ 128 < n ∨ n % 2 = 1) → exec (.memTrainDone n) s = .next s) ∧
  (∀ s : State, s.on 9 = true → s.mem.trained = false → s.mem.fail = false → Gives .memTrainFail s fun t => t.mem.fail = true ∧
    t.mem.trained = false) ∧
  (∀ (q : Nat) (s : State), q < 4 → s.pwr.ramping = some q → Gives (.quadrantRampEnd q) s fun t => t.on (12 + q) = true) ∧
  (∀ (q : Nat) (s : State), s.pwr.ramping ≠ some q → exec (.quadrantRampEnd q) s = .next s) ∧
  (∀ s : State, s.pwr.house = .full → s.pwr.goal = some .lobby → fadesEnded s = true → Gives .moveFullToLobby s fun t =>
    t.pwr.house = .lobby ∧ t.pwr.goal = none ∧ (∀ d ∈ [4, 9, 10, 11, 12, 13, 14, 15], t.on d = false) ∧
    (∀ d ∈ [1, 2, 3, 5, 6, 7, 8], t.on d = s.on d) ∧ (∀ n, n < 8 → (t.chan n).state = .off) ∧ t.pwr.lc = 0) ∧
  (∀ s : State, s.pwr.house = .lobby → s.pwr.rising = false → s.pwr.goal = some .hush → s.desk.deferred = [] →
    Gives .moveLobbyToHush s fun t => t.pwr.house = .hush ∧ t.pwr.goal = none ∧ (∀ d ∈ [3, 5, 6, 7, 8], t.on d = false) ∧
      t.on 1 = s.on 1 ∧ t.on 2 = s.on 2) ∧
  (∀ (mv : Nat) (s : State), s.pwr.house = .hush → s.pwr.goal = some .vault → s.desk.deferred = [] → s.on 2 = true →
    Gives (.moveHushToVault mv) s fun t => t.pwr.house = .vault ∧ t.on 1 = false ∧ t.on 2 = false ∧ t.pwr.resetV = s.pwr.resetV + 1 ∧
      t.pwr.byFail = false ∧ t.por.wakeOut = false ∧ ∀ k, (t.sess k).opened = false) ∧
  (∀ (r : Nat) (s : State), (s.pwr.house ≠ .vault → Gives (.pwrfail r) s fun t => t.pwr.house = .vault ∧ t.pwr.byFail = true ∧
      t.pwr.goal = none ∧ t.pwr.resetV = s.pwr.resetV + 1 ∧ ∀ d, 1 ≤ d → d < 16 → t.on d = false) ∧
    (s.pwr.house = .vault → exec (.pwrfail r) s = .next s)) ∧
  (∀ (b : BitVec 3) (s : State), s.pwr.house = .vault → s.pwr.vaon = true → s.sys.testmode = false → s.pwr.goal = none →
    (s.pwr.byFail = true ∨ s.pwr.woken = true → Gives (.vaonWake b) s fun t => t.pwr.goal = some .hush ∧ t.sys.strap = b ∧
      t.sys.rCold = true ∧ t.sys.rPin = false ∧ t.sys.warms = 0) ∧
    (s.pwr.byFail = false → s.pwr.woken = false → exec (.vaonWake b) s = .next s)) ∧
  (∀ (b : BitVec 3) (s : State), Gives (.pinReset b) s fun t => t.pwr.house = .vault ∧ t.pwr.goal = some .hush ∧ t.sys.rPin = true ∧
    t.sys.rCold = false ∧ t.sys.strap = b ∧ t.sys.testmode = false ∧ ∀ d, 1 ≤ d → d < 16 → t.on d = false) ∧
  (∀ s : State, Gives .testmodeHigh s fun t => t.sys.testmode = true ∧ t.pwr.goal = none ∧ ∀ d, 1 ≤ d → d < 16 → t.on d = false) ∧
  (∀ (v : W32) (s : State), s.on 2 = true → s.desk.deferred = [] →
    (cfgBad (BitVec.ofNat 12 (fld v 4 12)) = false → s.pwr.rising = false →
      (∀ d ∈ cfgDrops (BitVec.ofNat 12 (fld v 4 12)) s, domHolds d s = false) → Gives (.pwrDomcfgWrite v) s fun t =>
        t.pwr.cfg = BitVec.ofNat 12 (fld v 4 12) ∧ (∀ d, 4 ≤ d → d < 12 → t.on d = wantsDom s.pwr.house (BitVec.ofNat 12 (fld v 4 12)) d) ∧
        (∀ d, d < 4 → t.on d = s.on d)) ∧
    (cfgBad (BitVec.ofNat 12 (fld v 4 12)) = true → exec (.pwrDomcfgWrite v) s = .next s)) ∧
  (∀ c p a e s, Passes houseShowV c p a e s → AnswersWith (.houseShow c p a) c s fun ls u => u = s ∧ ls.length = 1)

/-- The governors of power. The thermal level rises at once to what the temperature enters and never falls from TRIP by itself; EMERGENCY
asks for shedding and TRIP stops CORE; the thermal cap moves a point at a time. In DIE-MIN sensing the target stands while the
lowest sentinel reads V_point, rises 10 mV where it reads 20 mV or more below it and falls 5 mV where 10 mV or more above, within V_point
to 0.85 V. An acknowledged Voltage write is recorded; three failed frames in
a row set AVSFAIL. A hundred light-load samples above 25 mV raise a crack and cap the point; `pwr.crack clear` takes both back. -/
def Obligations.PowerGovernors : Prop :=
  (∀ (tj : Int) (b : Bool) (s : State), s.on 2 = true → Gives (.thermalSample tj b) s fun t => t.pwr.tj = tj ∧
    (s.tjMax + 10 ≤ tj → t.pwr.therm = .trip ∧ (s.pwr.therm ≠ .trip → t.pwr.coreStop = true)) ∧
    (s.pwr.therm = .trip → t.pwr.therm = .trip) ∧
    (s.tjMax ≤ tj → tj < s.tjMax + 10 → s.pwr.therm ≠ .trip → t.pwr.therm = .emergency) ∧
    (s.tjMax ≤ tj → tj < s.tjMax + 10 → thermNum s.pwr.therm < 3 → t.inn.thermal = true) ∧
    (s.pwr.therm = .none → s.tjMax - 10 ≤ tj → tj < s.tjMax - 5 → t.pwr.therm = .warn) ∧
    (s.pwr.therm = .warn → s.tjMax - 12 ≤ tj → tj < s.tjMax - 5 → t.pwr.therm = .warn) ∧
    (s.pwr.therm = .warn → tj < s.tjMax - 12 → t.pwr.therm = .none) ∧
    (thermNum s.pwr.therm < 2 → s.tjMax - 5 ≤ tj → tj < s.tjMax → t.pwr.therm = .derate) ∧
    (s.pwr.therm = .derate → tj < s.tjMax - 8 → s.tjMax - 12 ≤ tj → b = true → t.pwr.therm = .warn) ∧
    (s.pwr.therm = .derate → tj < s.tjMax → b = false → t.pwr.therm = .derate)) ∧
  (∀ s : State, s.on 2 = true → Gives .thermalCapStep s fun t => t.pwr.therm = s.pwr.therm ∧
    (s.tjMax - 5 ≤ s.pwr.tj → t.pwr.capT.toNat = min 5 (s.pwr.capT.toNat + 1)) ∧
    (s.pwr.tj < s.tjMax - 5 → thermNum s.pwr.therm < 2 → t.pwr.capT.toNat = s.pwr.capT.toNat - 1) ∧
    (s.pwr.tj < s.tjMax - 5 → 2 ≤ thermNum s.pwr.therm → t.pwr.capT = s.pwr.capT)) ∧
  (∀ (lows : List Nat) (s : State), s.on 2 = true → s.pwr.remote = false → s.pwr.avsfail = false → s.pwr.raiseTo = none →
    pointV s.pwr.eff.toNat ≤ s.pwr.wtgt → s.pwr.wtgt ≤ 850 → Gives (.sentinelRead lows false) s fun t =>
      t.pwr.vmin = satOf 16 (lows.foldl min (lows.headD 0)) ∧
      (lows.foldl min (lows.headD 0) = pointV s.pwr.eff.toNat → t.pwr.wtgt = s.pwr.wtgt) ∧
      (lows.foldl min (lows.headD 0) + 20 ≤ pointV s.pwr.eff.toNat → t.pwr.wtgt = min 850 (s.pwr.wtgt + 10)) ∧
      (pointV s.pwr.eff.toNat + 10 ≤ lows.foldl min (lows.headD 0) → t.pwr.wtgt = max (pointV s.pwr.eff.toNat) (s.pwr.wtgt - 5))) ∧
  (∀ s : State, s.on 2 = true → Gives (.droop true) s fun t => t.pwr.half = true ∧
    t.pwr.cDroop = (if s.pwr.half then s.pwr.cDroop else satInc s.pwr.cDroop)) ∧
  (∀ s : State, s.on 2 = true → Gives (.droop false) s fun t => t.pwr.half = false ∧ t.pwr.cDroop = s.pwr.cDroop) ∧
  (∀ s : State, s.on 2 = true → Gives (.avsbusFrame true true false) s fun t => t.pwr.vtgt = satOf 16 s.pwr.wtgt ∧
    t.pwr.acked = true ∧ t.pwr.avsBad = 0 ∧ t.pwr.avsfail = s.pwr.avsfail) ∧
  (∀ s : State, s.on 2 = true → s.pwr.avsfail = false → Gives (.avsbusFrame false true false) s fun t =>
    t.pwr.cAvs = satInc s.pwr.cAvs ∧ (s.pwr.avsBad < 2 → t.pwr.avsfail = false ∧ t.pwr.avsBad = s.pwr.avsBad + 1) ∧
    (s.pwr.avsBad = 2 → t.pwr.avsfail = true ∧ t.pwr.capA = BitVec.ofNat 3 (pointFor s.pwr.vtgt.toNat))) ∧
  (∀ s : State, Gives .pointRaise s fun t => t.pwr.raiseOk = s.pwr.raiseTo.isSome ∧ t.pwr.eff = s.pwr.eff) ∧
  (∀ (volts means : List Nat) (s : State), s.on 2 = true → s.pwr.zones.length = 8 → s.pwr.lc.toNat ≤ 1 →
    let drop (z : Nat) : Int := (volts.getD z 0 : Int) - means.getD z 0 - (s.pwr.zones.getD z {}).zbase
    ((∀ z, z < 8 → drop z ≤ 250) → Gives (.zoneSample volts means) s fun t => t.pwr.capC = s.pwr.capC ∧ ∀ z, z < 8 →
      (t.pwr.zones.getD z {}).drop = drop z ∧ (t.pwr.zones.getD z {}).lightN = 0 ∧
      (t.pwr.zones.getD z {}).raised = (s.pwr.zones.getD z {}).raised) ∧
    (∀ z, z < 8 → 250 < drop z → (∀ k, k < 8 → k ≠ z → drop k ≤ 250) → (s.pwr.zones.getD z {}).raised = false →
      ((s.pwr.zones.getD z {}).lightN < 99 → Gives (.zoneSample volts means) s fun t => t.pwr.capC = s.pwr.capC ∧
        (t.pwr.zones.getD z {}).lightN = (s.pwr.zones.getD z {}).lightN + 1 ∧ (t.pwr.zones.getD z {}).raised = false) ∧
      ((s.pwr.zones.getD z {}).lightN = 99 → Gives (.zoneSample volts means) s fun t => (t.pwr.zones.getD z {}).raised = true ∧
        t.pwr.capC.toNat = min 5 (if s.pwr.zones.any (·.raised) then s.pwr.capC.toNat + 1 else s.pwr.eff.toNat + 1)))) ∧
  (∀ (volts means : List Nat) (s : State), 1 < s.pwr.lc.toNat → exec (.zoneSample volts means) s = .next s) ∧
  (∀ c p a e s, Passes pwrCrackV c p a e s → AnswersWith (.pwrCrackClear c p a) c s fun ls u => ls = [] ∧ u.pwr.capC = 0 ∧
    (∀ z ∈ u.pwr.zones, z.raised = false) ∧ u.pwr.zones.map (·.zbase) = s.pwr.zones.map (·.zbase)) ∧
  (∀ (v : W32) (s : State), s.on 2 = true →
    (roundsRun s = false → Gives (.pwrSenseWrite v) s fun t => t.pwr.remote = v.getLsbD 0 ∧ t.pwr.remoteN = none) ∧
    (roundsRun s = true → Gives (.pwrSenseWrite v) s fun t => t.pwr.remote = s.pwr.remote ∧ t.pwr.remoteN = some (v.getLsbD 0))) ∧
  (∀ c p a e s, Passes pwrSetV c p a e s → e.has "domains" = false → e.has "therm" = false → e.has "rail" = false →
    (∀ x ∈ s.desk.deferred, x.1 ≠ 4) → e.has "sense" = false → (e.word? "point" = none ∨ e.has "force" = true) → AnswersWith (.pwrSet c p a) c s fun ls u => ls = [] ∧
      u.pwr.set = (match e.word? "point" with
        | some w => BitVec.ofNat 3 (["p0", "p1", "p2", "p3", "p4", "p5"].idxOf w)
        | none => s.pwr.set) ∧
      u.pwr.lcen = (e.flag? "lcen").getD s.pwr.lcen ∧ (e.has "vmax" = true → u.pwr.vmax = false ∧ u.pwr.capV = 0) ∧
      u.pwr.rail = s.pwr.rail ∧ u.pwr.cfg = s.pwr.cfg ∧ u.pwr.dom = s.pwr.dom) ∧
  (∀ c p a e s, Passes pwrSetV c p a e s → e.has "domains" = false → e.has "therm" = false → e.has "rail" = true →
    stakesOn s = true → Refuses (.pwrSet c p a) c s 30 "rail") ∧
  (∀ c p a e s, Passes pwrShowV c p a e s → e.has "what" = false → AnswersWith (.pwrShow c p a) c s fun ls u => u = s ∧ ls.length = 1)

/-! ### Bring-up, resets and the system's own commands (spec 15, 16) -/

/-- Boot and resets. BOOT takes the source the strap names: ROM for 4 and above, with BADSTRAP from 5; from flash, the valid directory
copy chosen and the first PATCH entry's patch, or ROM with FALLBACK where no copy is valid; USB and NET wait with PD5 or PD6 on, and a
wait that ends without a patch goes on as for ROM. The watchdog's first expiry is a warm reset, a second before `!desk.ready` a pin
reset. A write of SYS_RESET acts only with its key. What a patch's signature is and what the flash holds are the commands' operands
(log entry 4). -/
def Obligations.BootAndResets : Prop :=
  (∀ (f : Flash) (s : State), s.on 2 = true → s.sys.booted = false → s.sys.waiting = false →
    (4 ≤ s.sys.strap.toNat → Gives (.boot f) s fun t => t.sys.booted = true ∧ t.sys.source = 4 ∧
      t.sys.badstrap = decide (5 ≤ s.sys.strap.toNat) ∧ t.sys.patch = 0 ∧ t.sys.store = false ∧ t.pwr.dom = s.pwr.dom) ∧
    (s.sys.strap = 0 → chooseDir f = none → Gives (.boot f) s fun t => t.sys.booted = true ∧ t.sys.source = 4 ∧
      t.sys.fallback = true ∧ t.sys.store = false) ∧
    (∀ b, s.sys.strap = 0 → chooseDir f = some b → Gives (.boot f) s fun t => t.sys.booted = true ∧ t.sys.source = 0 ∧
      t.sys.store = true ∧ t.sys.dir = b ∧ t.sys.flash = some f ∧
      t.sys.dirOf = some (flashLe f (dirBase b + 8) 4, (dirEntries f (dirBase b)).filter (entryOk f)) ∧
      (((dirEntries f (dirBase b)).filter (entryOk f)).find? (fun e => e.type == 1) = none → t.sys.patch = 0 ∧ t.sys.fallback = false) ∧
      (∀ e v ok, ((dirEntries f (dirBase b)).filter (entryOk f)).find? (fun e => e.type == 1) = some e →
        tget f.patches e.offset = some (v, ok) →
        (sigVerifies 0 ok s = true → t.sys.patch = BitVec.ofNat 16 v ∧ t.sys.unsigned = false) ∧
        (sigVerifies 0 ok s = false → s.sys.sigenf = false → t.sys.patch = BitVec.ofNat 16 v ∧ t.sys.unsigned = true) ∧
        (sigVerifies 0 ok s = false → s.sys.sigenf = true → t.sys.patch = 0 ∧ t.sys.fallback = true))) ∧
    (s.sys.strap = 2 → Gives (.boot f) s fun t => t.sys.waiting = true ∧ t.sys.booted = false ∧ t.on 5 = true ∧ t.sys.source = 2) ∧
    (s.sys.strap = 3 → Gives (.boot f) s fun t => t.sys.waiting = true ∧ t.sys.booted = false ∧ t.on 6 = true ∧ t.neta.en = true)) ∧
  (∀ (f : Flash) (s : State), s.sys.booted = true → exec (.boot f) s = .next s) ∧
  (∀ s : State, s.sys.waiting = true → s.pwr.house = .hush → Gives .bootWaitTimeout s fun t => t.sys.waiting = false ∧
    t.sys.booted = true ∧ t.sys.source = 4 ∧ t.sys.fallback = true ∧ t.on 5 = false ∧ t.on 6 = false) ∧
  (∀ s : State, s.sys.waiting = false → exec .bootWaitTimeout s = .next s) ∧
  (∀ (v : Nat) (ok : Bool) (s : State), s.sys.waiting = true → s.sys.source = 3 → sigVerifies 0 ok s = true →
    Gives (.netBootPatchReceived (some (v, ok))) s fun t => t.sys.waiting = false ∧ t.sys.booted = true ∧ t.sys.source = 3 ∧
      t.sys.patch = BitVec.ofNat 16 v ∧ t.sys.unsigned = false) ∧
  (∀ s : State, s.on 2 = true → s.sys.wdogEn = true →
    (s.sys.wdogHit = false → s.desk.deferred = [] → Gives .watchdogExpiry s fun t => t.sys.rWdog = true ∧ t.sys.wdogHit = true ∧
      t.sys.warms = satInc s.sys.warms ∧ t.pwr.dom = s.pwr.dom ∧ t.desk.claims = []) ∧
    (s.sys.wdogHit = true → s.desk.ready = false → Gives .watchdogExpiry s fun t => t.sys.rWdog2 = true ∧ t.sys.rPin = true ∧
      t.pwr.house = .vault ∧ t.pwr.goal = some .hush ∧ t.on 2 = false)) ∧
  (∀ s : State, s.sys.wdogEn = false → exec .watchdogExpiry s = .next s) ∧
  (∀ (v : W32) (s : State), s.on 2 = true →
    (fld v 0 16 ≠ 0xA55A → exec (.sysResetWriteWarm v) s = .next s ∧ exec (.sysResetWriteFull v) s = .next s) ∧
    (fld v 0 16 = 0xA55A → v.getLsbD 16 = true → v.getLsbD 17 = false → s.desk.deferred = [] → Gives (.sysResetWriteWarm v) s fun t =>
      t.sys.rWarm = true ∧ t.sys.warms = satInc s.sys.warms ∧ t.pwr.dom = s.pwr.dom ∧ t.pwr.house = s.pwr.house ∧
      t.desk.claims = [] ∧ t.desk.ready = false ∧ ∀ k, k ≠ 0 → (t.sess k).opened = false) ∧
    (fld v 0 16 = 0xA55A → v.getLsbD 17 = true → Gives (.sysResetWriteFull v) s fun t => t.sys.rSoft = true ∧ t.sys.rPin = true ∧
      t.sys.strap = s.sys.strap ∧ t.pwr.house = .vault ∧ t.pwr.goal = some .hush ∧ t.on 2 = false)) ∧
  (∀ c p a e s k, c.origin = .sess k →
    (Passes sysResetWarmV c p a e s → AnswersOk (.sysResetWarm c p a) c s []
      (s.onDesk fun d => { d with deferred := d.deferred ++ [(k, .resetWarm)] })) ∧
    (Passes sysResetFullV c p a e s → AnswersOk (.sysResetFull c p a) c s []
      (s.onDesk fun d => { d with deferred := d.deferred ++ [(k, .resetFull)] }))) ∧
  (∀ s : State, s.on 2 = true →
    (∀ k : Clk, k ≠ .refclk → k ≠ .deskrc → Gives (.clockLoss k) s fun t => t.clk.stat.getLsbD (clkBit k) = false ∧
      (s.clk.stat.getLsbD (clkBit k) = true → t.clk.fault.getLsbD (clkBit k) = true) ∧
      (roundsRun s = true → k ≠ .core → t.pwr = s.pwr ∧ t.desk = s.desk)) ∧
    (s.on 3 = true → Gives (.clockReturn .aud) s fun t => t.clk.stat.getLsbD 8 = true ∧ t.clk.fault = s.clk.fault))

/-- The commands of the system, the fuses, the boot flash and the memory. Reports change nothing. A fuse is blown once, from 1 s after
PD2's power-on. An erase or a write of the boot flash changes the bytes it names and no others, and one that meets what is in use is
err 30. `mem.set` sets what the next training takes, and MR4 polling sets HOT. -/
def Obligations.SystemCommands : Prop :=
  (∀ c p a e s, Passes sysCapsV c p a e s →
    AnswersOk (.sysCaps c p a) c s ["member=9 stakes=48 rooms=32 netports=2 netrate=25g mem=lpddr5x memch=2"] s) ∧
  (∀ c p a e s, Passes sysShowV c p a e s → AnswersWith (.sysShow c p a) c s fun ls u => u = s ∧ ls.length = 1) ∧
  (∀ c p a e s, Passes sysMapV c p a e s → AnswersWith (.sysMap c p a) c s fun ls u => u = s ∧ ls.length = 3) ∧
  (∀ c p a e s, Passes sysModesV c p a e s → AnswersWith (.sysModes c p a) c s fun ls u => u = s ∧ ls.length = 3) ∧
  (∀ c p a e s, Passes sysHealthV c p a e s → AnswersWith (.sysHealth c p a) c s fun ls u => u = s ∧ ls.length = 1) ∧
  (∀ c p a e s, Passes sysBootV c p a e s → AnswersWith (.sysBoot c p a) c s fun ls u => u = s ∧ ls.length = 1) ∧
  (∀ c p a e s, Passes fuseV c p a e s → e.word? "fuse" = some "sigenf" → e.has "key" = false → e.has "keyrev" = false →
    e.has "src" = false →
    (s.sys.pd2Frames < 100 → Refuses (.pwrFuse c p a) c s 40 "") ∧
    (100 ≤ s.sys.pd2Frames → s.sys.sigenf = true → Refuses (.pwrFuse c p a) c s 30 "") ∧
    (100 ≤ s.sys.pd2Frames → s.sys.sigenf = false →
      AnswersOk (.pwrFuse c p a) c s [] (s.onSys fun y => { y with sigenf := true }))) ∧
  (∀ c p a e s k x, Passes fuseV c p a e s → e.has "fuse" = false → e.has "keyrev" = false → e.nat? "key" = some k → k < 4 →
    e.nat? "src" = some x → s.mem.valid = true → inUsable x 32 s = true → 100 ≤ s.sys.pd2Frames → s.sys.keyprog.getLsbD k = false →
    AnswersWith (.pwrFuse c p a) c s fun ls u => ls = [] ∧ u.sys.keyprog.getLsbD k = true ∧
      tget u.sys.keys k = some (s.ram.readN x 32) ∧ u.sys.keyrev = s.sys.keyrev ∧ u.ram = s.ram) ∧
  (∀ c p a e s, Passes flashShowV c p a e s → AnswersWith (.sysFlashShow c p a) c s fun ls u => u = s ∧ ls.length = 1) ∧
  (∀ c p a e s f, Passes flashEraseV c p a e s → s.sys.flash = some f →
    (flashRefuses f (e.nat "off") (e.nat "len") s = none → AnswersWith (.sysFlashErase c p a) c s fun ls u => ls = [] ∧
      ∃ g, u.sys.flash = some g ∧ (∀ k, e.nat "off" ≤ k → k < e.nat "off" + e.nat "len" → flashByte g k = 0xFF) ∧
        ∀ k, (k < e.nat "off" ∨ e.nat "off" + e.nat "len" ≤ k) → flashByte g k = flashByte f k) ∧
    (∀ n k, flashRefuses f (e.nat "off") (e.nat "len") s = some (n, k) → Refuses (.sysFlashErase c p a) c s n k)) ∧
  (∀ c p a e s f, Passes flashWriteV c p a e s → s.sys.flash = some f → inUsable (e.nat "src") (e.nat "len") s = true →
    flashRefuses f (e.nat "off") (e.nat "len") s = none → s.memOk → AnswersWith (.sysFlashWrite c p a) c s fun ls u => ls = [] ∧
      u.ram = s.ram ∧ ∃ g, u.sys.flash = some g ∧
        (∀ k, k < e.nat "len" → flashByte g (e.nat "off" + k) = s.ram.read (e.nat "src" + k)) ∧
        ∀ k, (k < e.nat "off" ∨ e.nat "off" + e.nat "len" ≤ k) → flashByte g k = flashByte f k) ∧
  (∀ c p a e s f, Passes flashRescanV c p a e s → s.sys.flash = some f → AnswersWith (.sysFlashRescan c p a) c s fun ls u =>
    ls.length = 1 ∧ (chooseDir f = none → u.sys.store = false ∧ u.sys.dirOf = none) ∧
    (∀ b, chooseDir f = some b → u.sys.store = true ∧ u.sys.dir = b) ∧ u.sys.flash = s.sys.flash) ∧
  (∀ c p a e s, Passes flashRescanV c p a e s → s.sys.flash = none → Refuses (.sysFlashRescan c p a) c s 40 "") ∧
  (∀ (hot : Bool) (s : State), s.on 9 = true → s.mem.trained = true → Gives (.mr4Poll hot) s fun t => t.mem.hot = hot ∧ t.ram = s.ram) ∧
  (∀ (hot : Bool) (s : State), s.mem.trained = false → exec (.mr4Poll hot) s = .next s) ∧
  (∀ c p a e s, Passes memShowV c p a e s → s.on 9 = true → AnswersWith (.memShow c p a) c s fun ls u => u = s ∧ ls.length = 1) ∧
  (∀ c p a e s, Passes memSetV c p a e s → s.on 9 = true → AnswersWith (.memSet c p a) c s fun ls u => ls = [] ∧
    u.mem.ctlRate = (match e.nat? "rate" with | some 6400 => 0 | some 7500 => 1 | some _ => 2 | none => s.mem.ctlRate) ∧
    u.mem.ctlEcc = (e.flag? "ecc").getD s.mem.ctlEcc ∧ u.mem.rate = s.mem.rate ∧ u.mem.eccOn = s.mem.eccOn ∧ u.ram = s.ram)

/-- Access from outside the Desk. A register write acts by its field's access code where the block's domain is on, and not elsewhere. Each
JTAG instruction selects its register; EXTEST and CLAMP drive the pins from the boundary-scan register, DEBUG reads and writes the
address map until JTAGLOCK is blown, and what SAMPLE reads is free (log entry 5). A vendor bulk transfer moves bytes of the usable memory
and is answered with its status. -/
def Obligations.OutsideAccess : Prop :=
  (∀ (v : W32) (s : State), s.on 2 = true → (∀ e ∈ s.desk.deferred, e.1 ≠ 4) → Gives (.registerWrite (csrBase + 0x14) v) s fun t => t.sys.wdogEn = v.getLsbD 8 ∧
    t.sys.wdogTmo = (if fld v 0 8 = 0 then s.sys.wdogTmo else BitVec.ofNat 8 (fld v 0 8)) ∧ t.pwr = s.pwr ∧ t.ram = s.ram) ∧
  (∀ (v : W32) (s : State), s.on 2 = true → (∀ e ∈ s.desk.deferred, e.1 ≠ 4) → Gives (.registerWrite (csrBase + 0x10) v) s fun t =>
    t.sys.rCold = (s.sys.rCold && !v.getLsbD 0) ∧ t.sys.rPin = (s.sys.rPin && !v.getLsbD 1) ∧ t.sys.warms = s.sys.warms) ∧
  (∀ (v : W32) (s : State), (∀ e ∈ s.desk.deferred, e.1 ≠ 4) → exec (.registerWrite (csrBase + 0xFFFC) v) s = .next s) ∧
  (∀ (b off : Nat) (v : W32) (s : State), b < 16 → b ≠ 13 → off < 0x10000 → s.on (blockDom b) = false →
    (∀ e ∈ s.desk.deferred, e.1 ≠ 4) → exec (.registerWrite (csrBase + 0x10000 * b + off) v) s = .next s) ∧
  (∀ (addr : Nat) (v : W32) (s : State), (addr % 4 ≠ 0 ∨ addr < csrBase) → exec (.registerWrite addr v) s = .next s) ∧
  (∀ (v : List Bool) (s : State), s.on 2 = true →
    (exec (.extest v) s = .next (s.onJtag fun _ => ⟨0x00, v, some v, 0⟩)) ∧
    (exec .idcode s = .next (s.onJtag fun j => ⟨0x01, j.dr, none, 0xA48323B3⟩)) ∧
    (exec .clamp s = .next (s.onJtag fun j => ⟨0x04, j.dr, some j.dr, 0⟩)) ∧
    (exec .highz s = .next (s.onJtag fun j => ⟨0x05, j.dr, some [], 0⟩)) ∧
    (exec .bypass s = .next (s.onJtag fun j => ⟨0x3F, j.dr, none, 0⟩)) ∧
    (Gives (.samplePreload v) s fun t => t.jtag = ⟨0x02, v, none, Config.freeWord s.fresh⟩ ∧ t.fresh = s.fresh + 1 ∧ t.ram = s.ram)) ∧
  (∀ (w : Bool) (a : Nat) (v : W32) (s : State), s.on 2 = true → s.sys.jtaglock = true →
    exec (.debug w a v) s = .next (s.onJtag fun j => ⟨0x3F, j.dr, none, 0⟩)) ∧
  (∀ (a : Nat) (v : W32) (s : State), s.on 2 = true → s.sys.jtaglock = false → a % 4 = 0 → a + 4 ≤ 2 ^ 35 → s.mem.valid = true →
    a + 4 ≤ s.usable → (∀ e ∈ s.desk.deferred, e.1 ≠ 4) →
    (Gives (.debug false a v) s fun t => t.jtag.out = s.ram.readW a ∧ t.jtag.ir = 0x10 ∧ t.ram = s.ram) ∧
    (Gives (.debug true a v) s fun t => t.ram = s.ram.writeW a v ∧ t.jtag.ir = 0x10 ∧ t.sys = s.sys)) ∧
  (∀ (h : BulkHdr) (data : List Byte) (b : Option PlanBody) (s : State), bulkUp s = true →
    (s.usb.bulken = false → Gives (.vendorBulkWrite h data b) s fun t => t.ram = s.ram ∧
      t.usb.bulkIn = (natLe 2 20 ++ [0, 0] ++ natLe 4 0) :: s.usb.bulkIn ∧ t.usb.cBulk = satInc s.usb.cBulk) ∧
    (s.usb.bulken = true → bulkBad h = true → Gives (.vendorBulkWrite h data b) s fun t => t.ram = s.ram ∧
      t.usb.bulkIn = (natLe 2 10 ++ [0, 0] ++ natLe 4 0) :: s.usb.bulkIn) ∧
    (s.usb.bulken = true → bulkBad h = false → h.op = 1 → s.sys.waiting = false → s.mem.valid = true → inUsable h.addr h.len s = true →
      inCellar h.addr h.len s = false → data.length = h.len → Gives (.vendorBulkWrite h data b) s fun t =>
        t.ram = s.ram.writeN h.addr data ∧ t.usb.bulkIn = (natLe 2 0 ++ [0, 0] ++ natLe 4 h.len) :: s.usb.bulkIn ∧
        t.usb.cBulk = s.usb.cBulk) ∧
    (s.usb.bulken = true → bulkBad h = false → h.op = 2 → 0 < h.len → h.addr % 4 = 0 → h.addr + h.len ≤ 2 ^ 35 → s.mem.valid = true →
      h.addr + h.len ≤ s.usable → Gives (.vendorBulkRead h) s fun t =>
        t.ram = s.ram ∧ t.usb.bulkIn = (s.ram.readN h.addr h.len ++ natLe 2 0 ++ [0, 0] ++ natLe 4 h.len) :: s.usb.bulkIn)) ∧
  (∀ (n : Nat) (q : Option (Nat × Bool)) (s : State), bulkUp s = true → s.usb.bulken = true →
    (s.sys.waiting = true → s.sys.source = 2 → Gives (.vendorBulkEndWait 0 q) s fun t => t.sys.waiting = false ∧ t.sys.booted = true) ∧
    (s.sys.waiting = false → Gives (.vendorBulkEndWait n q) s fun t => t.sys = s.sys ∧
      t.usb.bulkIn = (natLe 2 10 ++ [0, 0] ++ natLe 4 0) :: s.usb.bulkIn))

/-! ### Reset and form -/

/-- The part right after reset: in HUSH with PD0 to PD2 on, no command waiting, memory with nothing listed, the fuses' slot 0 programmed,
and the registers at the values Tables 2.3 to 15.12 give them. -/
def Obligations.ResetState : Prop :=
  State.reset.Ok ∧ State.reset.pending = [] ∧ State.reset.ram = [] ∧ State.reset.pwr.house = .hush ∧ State.reset.pwr.dom = 0x0007 ∧
  State.reset.pwr.cfg = 0xFFF ∧ State.reset.pwr.guard = 0x14 ∧ State.reset.pwr.eff = 4 ∧ State.reset.pwr.vtgt = 0x2EE ∧
  State.reset.hth.tokens = 2 ∧ State.reset.hth.imax = 0xBB8 ∧ State.reset.hth.ratio = 0xE00 ∧
  (∀ n, (State.reset.chan n).state = .off ∧ (State.reset.chan n).ramp = 0x14 ∧ (State.reset.chan n).pdmax = 0x14) ∧
  State.reset.desk.tcpPort = 0x139F ∧ State.reset.desk.baud = 0x1C200 ∧ State.reset.desk.claims = [] ∧
  State.reset.sys.wdogEn = true ∧ State.reset.sys.wdogTmo = 0x14 ∧ State.reset.sys.rCold = true ∧ State.reset.sys.keyprog.getLsbD 0 = true ∧
  State.reset.por.mode = .listen ∧ State.reset.por.gain = 2 ∧ State.reset.por.refract = 4 ∧ State.reset.mem.ctlRate = 2 ∧
  State.reset.mem.ctlEcc = true ∧ State.reset.ldg.refen = true ∧ State.reset.evq.entries = [] ∧ State.reset.inn.guests = []

/-- Every step keeps the form of the state: the memory and the user Slate stay in their canonical form, the Hearth has its eight
channels and the part its eight zones. -/
def Obligations.StepKeepsForm : Prop :=
  ∀ s t : State, step s = .next t → s.Ok → t.Ok
end

