-- ==== Sys2Proof/Laws/State.lean ====
section
/-! SUPPORT. What each update of a part of the state leaves in each field: one lemma per field per update. -/

namespace Sys2Proof.Machine

variable (s : State)


/-! ### onClk -/

@[simp] theorem State.onClk_clk (f : ClkSt → ClkSt) : (s.onClk f).clk = f s.clk := rfl
@[simp] theorem State.onClk_tly (f : ClkSt → ClkSt) : (s.onClk f).tly = s.tly := rfl
@[simp] theorem State.onClk_evq (f : ClkSt → ClkSt) : (s.onClk f).evq = s.evq := rfl
@[simp] theorem State.onClk_desk (f : ClkSt → ClkSt) : (s.onClk f).desk = s.desk := rfl
@[simp] theorem State.onClk_weave (f : ClkSt → ClkSt) : (s.onClk f).weave = s.weave := rfl
@[simp] theorem State.onClk_inn (f : ClkSt → ClkSt) : (s.onClk f).inn = s.inn := rfl
@[simp] theorem State.onClk_ldr (f : ClkSt → ClkSt) : (s.onClk f).ldr = s.ldr := rfl
@[simp] theorem State.onClk_mem (f : ClkSt → ClkSt) : (s.onClk f).mem = s.mem := rfl
@[simp] theorem State.onClk_cch (f : ClkSt → ClkSt) : (s.onClk f).cch = s.cch := rfl
@[simp] theorem State.onClk_neta (f : ClkSt → ClkSt) : (s.onClk f).neta = s.neta := rfl
@[simp] theorem State.onClk_netb (f : ClkSt → ClkSt) : (s.onClk f).netb = s.netb := rfl
@[simp] theorem State.onClk_aud (f : ClkSt → ClkSt) : (s.onClk f).aud = s.aud := rfl
@[simp] theorem State.onClk_usb (f : ClkSt → ClkSt) : (s.onClk f).usb = s.usb := rfl
@[simp] theorem State.onClk_por (f : ClkSt → ClkSt) : (s.onClk f).por = s.por := rfl
@[simp] theorem State.onClk_ldg (f : ClkSt → ClkSt) : (s.onClk f).ldg = s.ldg := rfl
@[simp] theorem State.onClk_hth (f : ClkSt → ClkSt) : (s.onClk f).hth = s.hth := rfl
@[simp] theorem State.onClk_pwr (f : ClkSt → ClkSt) : (s.onClk f).pwr = s.pwr := rfl
@[simp] theorem State.onClk_jtag (f : ClkSt → ClkSt) : (s.onClk f).jtag = s.jtag := rfl
@[simp] theorem State.onClk_sys (f : ClkSt → ClkSt) : (s.onClk f).sys = s.sys := rfl
@[simp] theorem State.onClk_ram (f : ClkSt → ClkSt) : (s.onClk f).ram = s.ram := rfl
@[simp] theorem State.onClk_fresh (f : ClkSt → ClkSt) : (s.onClk f).fresh = s.fresh := rfl
@[simp] theorem State.onClk_pending (f : ClkSt → ClkSt) : (s.onClk f).pending = s.pending := rfl

/-! ### onTly -/

@[simp] theorem State.onTly_clk (f : TlySt → TlySt) : (s.onTly f).clk = s.clk := rfl
@[simp] theorem State.onTly_tly (f : TlySt → TlySt) : (s.onTly f).tly = f s.tly := rfl
@[simp] theorem State.onTly_evq (f : TlySt → TlySt) : (s.onTly f).evq = s.evq := rfl
@[simp] theorem State.onTly_desk (f : TlySt → TlySt) : (s.onTly f).desk = s.desk := rfl
@[simp] theorem State.onTly_weave (f : TlySt → TlySt) : (s.onTly f).weave = s.weave := rfl
@[simp] theorem State.onTly_inn (f : TlySt → TlySt) : (s.onTly f).inn = s.inn := rfl
@[simp] theorem State.onTly_ldr (f : TlySt → TlySt) : (s.onTly f).ldr = s.ldr := rfl
@[simp] theorem State.onTly_mem (f : TlySt → TlySt) : (s.onTly f).mem = s.mem := rfl
@[simp] theorem State.onTly_cch (f : TlySt → TlySt) : (s.onTly f).cch = s.cch := rfl
@[simp] theorem State.onTly_neta (f : TlySt → TlySt) : (s.onTly f).neta = s.neta := rfl
@[simp] theorem State.onTly_netb (f : TlySt → TlySt) : (s.onTly f).netb = s.netb := rfl
@[simp] theorem State.onTly_aud (f : TlySt → TlySt) : (s.onTly f).aud = s.aud := rfl
@[simp] theorem State.onTly_usb (f : TlySt → TlySt) : (s.onTly f).usb = s.usb := rfl
@[simp] theorem State.onTly_por (f : TlySt → TlySt) : (s.onTly f).por = s.por := rfl
@[simp] theorem State.onTly_ldg (f : TlySt → TlySt) : (s.onTly f).ldg = s.ldg := rfl
@[simp] theorem State.onTly_hth (f : TlySt → TlySt) : (s.onTly f).hth = s.hth := rfl
@[simp] theorem State.onTly_pwr (f : TlySt → TlySt) : (s.onTly f).pwr = s.pwr := rfl
@[simp] theorem State.onTly_jtag (f : TlySt → TlySt) : (s.onTly f).jtag = s.jtag := rfl
@[simp] theorem State.onTly_sys (f : TlySt → TlySt) : (s.onTly f).sys = s.sys := rfl
@[simp] theorem State.onTly_ram (f : TlySt → TlySt) : (s.onTly f).ram = s.ram := rfl
@[simp] theorem State.onTly_fresh (f : TlySt → TlySt) : (s.onTly f).fresh = s.fresh := rfl
@[simp] theorem State.onTly_pending (f : TlySt → TlySt) : (s.onTly f).pending = s.pending := rfl

/-! ### onEvq -/

@[simp] theorem State.onEvq_clk (f : EvqSt → EvqSt) : (s.onEvq f).clk = s.clk := rfl
@[simp] theorem State.onEvq_tly (f : EvqSt → EvqSt) : (s.onEvq f).tly = s.tly := rfl
@[simp] theorem State.onEvq_evq (f : EvqSt → EvqSt) : (s.onEvq f).evq = f s.evq := rfl
@[simp] theorem State.onEvq_desk (f : EvqSt → EvqSt) : (s.onEvq f).desk = s.desk := rfl
@[simp] theorem State.onEvq_weave (f : EvqSt → EvqSt) : (s.onEvq f).weave = s.weave := rfl
@[simp] theorem State.onEvq_inn (f : EvqSt → EvqSt) : (s.onEvq f).inn = s.inn := rfl
@[simp] theorem State.onEvq_ldr (f : EvqSt → EvqSt) : (s.onEvq f).ldr = s.ldr := rfl
@[simp] theorem State.onEvq_mem (f : EvqSt → EvqSt) : (s.onEvq f).mem = s.mem := rfl
@[simp] theorem State.onEvq_cch (f : EvqSt → EvqSt) : (s.onEvq f).cch = s.cch := rfl
@[simp] theorem State.onEvq_neta (f : EvqSt → EvqSt) : (s.onEvq f).neta = s.neta := rfl
@[simp] theorem State.onEvq_netb (f : EvqSt → EvqSt) : (s.onEvq f).netb = s.netb := rfl
@[simp] theorem State.onEvq_aud (f : EvqSt → EvqSt) : (s.onEvq f).aud = s.aud := rfl
@[simp] theorem State.onEvq_usb (f : EvqSt → EvqSt) : (s.onEvq f).usb = s.usb := rfl
@[simp] theorem State.onEvq_por (f : EvqSt → EvqSt) : (s.onEvq f).por = s.por := rfl
@[simp] theorem State.onEvq_ldg (f : EvqSt → EvqSt) : (s.onEvq f).ldg = s.ldg := rfl
@[simp] theorem State.onEvq_hth (f : EvqSt → EvqSt) : (s.onEvq f).hth = s.hth := rfl
@[simp] theorem State.onEvq_pwr (f : EvqSt → EvqSt) : (s.onEvq f).pwr = s.pwr := rfl
@[simp] theorem State.onEvq_jtag (f : EvqSt → EvqSt) : (s.onEvq f).jtag = s.jtag := rfl
@[simp] theorem State.onEvq_sys (f : EvqSt → EvqSt) : (s.onEvq f).sys = s.sys := rfl
@[simp] theorem State.onEvq_ram (f : EvqSt → EvqSt) : (s.onEvq f).ram = s.ram := rfl
@[simp] theorem State.onEvq_fresh (f : EvqSt → EvqSt) : (s.onEvq f).fresh = s.fresh := rfl
@[simp] theorem State.onEvq_pending (f : EvqSt → EvqSt) : (s.onEvq f).pending = s.pending := rfl

/-! ### onDesk -/

@[simp] theorem State.onDesk_clk (f : DeskSt → DeskSt) : (s.onDesk f).clk = s.clk := rfl
@[simp] theorem State.onDesk_tly (f : DeskSt → DeskSt) : (s.onDesk f).tly = s.tly := rfl
@[simp] theorem State.onDesk_evq (f : DeskSt → DeskSt) : (s.onDesk f).evq = s.evq := rfl
@[simp] theorem State.onDesk_desk (f : DeskSt → DeskSt) : (s.onDesk f).desk = f s.desk := rfl
@[simp] theorem State.onDesk_weave (f : DeskSt → DeskSt) : (s.onDesk f).weave = s.weave := rfl
@[simp] theorem State.onDesk_inn (f : DeskSt → DeskSt) : (s.onDesk f).inn = s.inn := rfl
@[simp] theorem State.onDesk_ldr (f : DeskSt → DeskSt) : (s.onDesk f).ldr = s.ldr := rfl
@[simp] theorem State.onDesk_mem (f : DeskSt → DeskSt) : (s.onDesk f).mem = s.mem := rfl
@[simp] theorem State.onDesk_cch (f : DeskSt → DeskSt) : (s.onDesk f).cch = s.cch := rfl
@[simp] theorem State.onDesk_neta (f : DeskSt → DeskSt) : (s.onDesk f).neta = s.neta := rfl
@[simp] theorem State.onDesk_netb (f : DeskSt → DeskSt) : (s.onDesk f).netb = s.netb := rfl
@[simp] theorem State.onDesk_aud (f : DeskSt → DeskSt) : (s.onDesk f).aud = s.aud := rfl
@[simp] theorem State.onDesk_usb (f : DeskSt → DeskSt) : (s.onDesk f).usb = s.usb := rfl
@[simp] theorem State.onDesk_por (f : DeskSt → DeskSt) : (s.onDesk f).por = s.por := rfl
@[simp] theorem State.onDesk_ldg (f : DeskSt → DeskSt) : (s.onDesk f).ldg = s.ldg := rfl
@[simp] theorem State.onDesk_hth (f : DeskSt → DeskSt) : (s.onDesk f).hth = s.hth := rfl
@[simp] theorem State.onDesk_pwr (f : DeskSt → DeskSt) : (s.onDesk f).pwr = s.pwr := rfl
@[simp] theorem State.onDesk_jtag (f : DeskSt → DeskSt) : (s.onDesk f).jtag = s.jtag := rfl
@[simp] theorem State.onDesk_sys (f : DeskSt → DeskSt) : (s.onDesk f).sys = s.sys := rfl
@[simp] theorem State.onDesk_ram (f : DeskSt → DeskSt) : (s.onDesk f).ram = s.ram := rfl
@[simp] theorem State.onDesk_fresh (f : DeskSt → DeskSt) : (s.onDesk f).fresh = s.fresh := rfl
@[simp] theorem State.onDesk_pending (f : DeskSt → DeskSt) : (s.onDesk f).pending = s.pending := rfl

/-! ### onWeave -/

@[simp] theorem State.onWeave_clk (f : WeaveSt → WeaveSt) : (s.onWeave f).clk = s.clk := rfl
@[simp] theorem State.onWeave_tly (f : WeaveSt → WeaveSt) : (s.onWeave f).tly = s.tly := rfl
@[simp] theorem State.onWeave_evq (f : WeaveSt → WeaveSt) : (s.onWeave f).evq = s.evq := rfl
@[simp] theorem State.onWeave_desk (f : WeaveSt → WeaveSt) : (s.onWeave f).desk = s.desk := rfl
@[simp] theorem State.onWeave_weave (f : WeaveSt → WeaveSt) : (s.onWeave f).weave = f s.weave := rfl
@[simp] theorem State.onWeave_inn (f : WeaveSt → WeaveSt) : (s.onWeave f).inn = s.inn := rfl
@[simp] theorem State.onWeave_ldr (f : WeaveSt → WeaveSt) : (s.onWeave f).ldr = s.ldr := rfl
@[simp] theorem State.onWeave_mem (f : WeaveSt → WeaveSt) : (s.onWeave f).mem = s.mem := rfl
@[simp] theorem State.onWeave_cch (f : WeaveSt → WeaveSt) : (s.onWeave f).cch = s.cch := rfl
@[simp] theorem State.onWeave_neta (f : WeaveSt → WeaveSt) : (s.onWeave f).neta = s.neta := rfl
@[simp] theorem State.onWeave_netb (f : WeaveSt → WeaveSt) : (s.onWeave f).netb = s.netb := rfl
@[simp] theorem State.onWeave_aud (f : WeaveSt → WeaveSt) : (s.onWeave f).aud = s.aud := rfl
@[simp] theorem State.onWeave_usb (f : WeaveSt → WeaveSt) : (s.onWeave f).usb = s.usb := rfl
@[simp] theorem State.onWeave_por (f : WeaveSt → WeaveSt) : (s.onWeave f).por = s.por := rfl
@[simp] theorem State.onWeave_ldg (f : WeaveSt → WeaveSt) : (s.onWeave f).ldg = s.ldg := rfl
@[simp] theorem State.onWeave_hth (f : WeaveSt → WeaveSt) : (s.onWeave f).hth = s.hth := rfl
@[simp] theorem State.onWeave_pwr (f : WeaveSt → WeaveSt) : (s.onWeave f).pwr = s.pwr := rfl
@[simp] theorem State.onWeave_jtag (f : WeaveSt → WeaveSt) : (s.onWeave f).jtag = s.jtag := rfl
@[simp] theorem State.onWeave_sys (f : WeaveSt → WeaveSt) : (s.onWeave f).sys = s.sys := rfl
@[simp] theorem State.onWeave_ram (f : WeaveSt → WeaveSt) : (s.onWeave f).ram = s.ram := rfl
@[simp] theorem State.onWeave_fresh (f : WeaveSt → WeaveSt) : (s.onWeave f).fresh = s.fresh := rfl
@[simp] theorem State.onWeave_pending (f : WeaveSt → WeaveSt) : (s.onWeave f).pending = s.pending := rfl

/-! ### onInn -/

@[simp] theorem State.onInn_clk (f : InnSt → InnSt) : (s.onInn f).clk = s.clk := rfl
@[simp] theorem State.onInn_tly (f : InnSt → InnSt) : (s.onInn f).tly = s.tly := rfl
@[simp] theorem State.onInn_evq (f : InnSt → InnSt) : (s.onInn f).evq = s.evq := rfl
@[simp] theorem State.onInn_desk (f : InnSt → InnSt) : (s.onInn f).desk = s.desk := rfl
@[simp] theorem State.onInn_weave (f : InnSt → InnSt) : (s.onInn f).weave = s.weave := rfl
@[simp] theorem State.onInn_inn (f : InnSt → InnSt) : (s.onInn f).inn = f s.inn := rfl
@[simp] theorem State.onInn_ldr (f : InnSt → InnSt) : (s.onInn f).ldr = s.ldr := rfl
@[simp] theorem State.onInn_mem (f : InnSt → InnSt) : (s.onInn f).mem = s.mem := rfl
@[simp] theorem State.onInn_cch (f : InnSt → InnSt) : (s.onInn f).cch = s.cch := rfl
@[simp] theorem State.onInn_neta (f : InnSt → InnSt) : (s.onInn f).neta = s.neta := rfl
@[simp] theorem State.onInn_netb (f : InnSt → InnSt) : (s.onInn f).netb = s.netb := rfl
@[simp] theorem State.onInn_aud (f : InnSt → InnSt) : (s.onInn f).aud = s.aud := rfl
@[simp] theorem State.onInn_usb (f : InnSt → InnSt) : (s.onInn f).usb = s.usb := rfl
@[simp] theorem State.onInn_por (f : InnSt → InnSt) : (s.onInn f).por = s.por := rfl
@[simp] theorem State.onInn_ldg (f : InnSt → InnSt) : (s.onInn f).ldg = s.ldg := rfl
@[simp] theorem State.onInn_hth (f : InnSt → InnSt) : (s.onInn f).hth = s.hth := rfl
@[simp] theorem State.onInn_pwr (f : InnSt → InnSt) : (s.onInn f).pwr = s.pwr := rfl
@[simp] theorem State.onInn_jtag (f : InnSt → InnSt) : (s.onInn f).jtag = s.jtag := rfl
@[simp] theorem State.onInn_sys (f : InnSt → InnSt) : (s.onInn f).sys = s.sys := rfl
@[simp] theorem State.onInn_ram (f : InnSt → InnSt) : (s.onInn f).ram = s.ram := rfl
@[simp] theorem State.onInn_fresh (f : InnSt → InnSt) : (s.onInn f).fresh = s.fresh := rfl
@[simp] theorem State.onInn_pending (f : InnSt → InnSt) : (s.onInn f).pending = s.pending := rfl

/-! ### onLdr -/

@[simp] theorem State.onLdr_clk (f : LdrSt → LdrSt) : (s.onLdr f).clk = s.clk := rfl
@[simp] theorem State.onLdr_tly (f : LdrSt → LdrSt) : (s.onLdr f).tly = s.tly := rfl
@[simp] theorem State.onLdr_evq (f : LdrSt → LdrSt) : (s.onLdr f).evq = s.evq := rfl
@[simp] theorem State.onLdr_desk (f : LdrSt → LdrSt) : (s.onLdr f).desk = s.desk := rfl
@[simp] theorem State.onLdr_weave (f : LdrSt → LdrSt) : (s.onLdr f).weave = s.weave := rfl
@[simp] theorem State.onLdr_inn (f : LdrSt → LdrSt) : (s.onLdr f).inn = s.inn := rfl
@[simp] theorem State.onLdr_ldr (f : LdrSt → LdrSt) : (s.onLdr f).ldr = f s.ldr := rfl
@[simp] theorem State.onLdr_mem (f : LdrSt → LdrSt) : (s.onLdr f).mem = s.mem := rfl
@[simp] theorem State.onLdr_cch (f : LdrSt → LdrSt) : (s.onLdr f).cch = s.cch := rfl
@[simp] theorem State.onLdr_neta (f : LdrSt → LdrSt) : (s.onLdr f).neta = s.neta := rfl
@[simp] theorem State.onLdr_netb (f : LdrSt → LdrSt) : (s.onLdr f).netb = s.netb := rfl
@[simp] theorem State.onLdr_aud (f : LdrSt → LdrSt) : (s.onLdr f).aud = s.aud := rfl
@[simp] theorem State.onLdr_usb (f : LdrSt → LdrSt) : (s.onLdr f).usb = s.usb := rfl
@[simp] theorem State.onLdr_por (f : LdrSt → LdrSt) : (s.onLdr f).por = s.por := rfl
@[simp] theorem State.onLdr_ldg (f : LdrSt → LdrSt) : (s.onLdr f).ldg = s.ldg := rfl
@[simp] theorem State.onLdr_hth (f : LdrSt → LdrSt) : (s.onLdr f).hth = s.hth := rfl
@[simp] theorem State.onLdr_pwr (f : LdrSt → LdrSt) : (s.onLdr f).pwr = s.pwr := rfl
@[simp] theorem State.onLdr_jtag (f : LdrSt → LdrSt) : (s.onLdr f).jtag = s.jtag := rfl
@[simp] theorem State.onLdr_sys (f : LdrSt → LdrSt) : (s.onLdr f).sys = s.sys := rfl
@[simp] theorem State.onLdr_ram (f : LdrSt → LdrSt) : (s.onLdr f).ram = s.ram := rfl
@[simp] theorem State.onLdr_fresh (f : LdrSt → LdrSt) : (s.onLdr f).fresh = s.fresh := rfl
@[simp] theorem State.onLdr_pending (f : LdrSt → LdrSt) : (s.onLdr f).pending = s.pending := rfl

/-! ### onMem -/

@[simp] theorem State.onMem_clk (f : MemSt → MemSt) : (s.onMem f).clk = s.clk := rfl
@[simp] theorem State.onMem_tly (f : MemSt → MemSt) : (s.onMem f).tly = s.tly := rfl
@[simp] theorem State.onMem_evq (f : MemSt → MemSt) : (s.onMem f).evq = s.evq := rfl
@[simp] theorem State.onMem_desk (f : MemSt → MemSt) : (s.onMem f).desk = s.desk := rfl
@[simp] theorem State.onMem_weave (f : MemSt → MemSt) : (s.onMem f).weave = s.weave := rfl
@[simp] theorem State.onMem_inn (f : MemSt → MemSt) : (s.onMem f).inn = s.inn := rfl
@[simp] theorem State.onMem_ldr (f : MemSt → MemSt) : (s.onMem f).ldr = s.ldr := rfl
@[simp] theorem State.onMem_mem (f : MemSt → MemSt) : (s.onMem f).mem = f s.mem := rfl
@[simp] theorem State.onMem_cch (f : MemSt → MemSt) : (s.onMem f).cch = s.cch := rfl
@[simp] theorem State.onMem_neta (f : MemSt → MemSt) : (s.onMem f).neta = s.neta := rfl
@[simp] theorem State.onMem_netb (f : MemSt → MemSt) : (s.onMem f).netb = s.netb := rfl
@[simp] theorem State.onMem_aud (f : MemSt → MemSt) : (s.onMem f).aud = s.aud := rfl
@[simp] theorem State.onMem_usb (f : MemSt → MemSt) : (s.onMem f).usb = s.usb := rfl
@[simp] theorem State.onMem_por (f : MemSt → MemSt) : (s.onMem f).por = s.por := rfl
@[simp] theorem State.onMem_ldg (f : MemSt → MemSt) : (s.onMem f).ldg = s.ldg := rfl
@[simp] theorem State.onMem_hth (f : MemSt → MemSt) : (s.onMem f).hth = s.hth := rfl
@[simp] theorem State.onMem_pwr (f : MemSt → MemSt) : (s.onMem f).pwr = s.pwr := rfl
@[simp] theorem State.onMem_jtag (f : MemSt → MemSt) : (s.onMem f).jtag = s.jtag := rfl
@[simp] theorem State.onMem_sys (f : MemSt → MemSt) : (s.onMem f).sys = s.sys := rfl
@[simp] theorem State.onMem_ram (f : MemSt → MemSt) : (s.onMem f).ram = s.ram := rfl
@[simp] theorem State.onMem_fresh (f : MemSt → MemSt) : (s.onMem f).fresh = s.fresh := rfl
@[simp] theorem State.onMem_pending (f : MemSt → MemSt) : (s.onMem f).pending = s.pending := rfl

/-! ### onCch -/

@[simp] theorem State.onCch_clk (f : CchSt → CchSt) : (s.onCch f).clk = s.clk := rfl
@[simp] theorem State.onCch_tly (f : CchSt → CchSt) : (s.onCch f).tly = s.tly := rfl
@[simp] theorem State.onCch_evq (f : CchSt → CchSt) : (s.onCch f).evq = s.evq := rfl
@[simp] theorem State.onCch_desk (f : CchSt → CchSt) : (s.onCch f).desk = s.desk := rfl
@[simp] theorem State.onCch_weave (f : CchSt → CchSt) : (s.onCch f).weave = s.weave := rfl
@[simp] theorem State.onCch_inn (f : CchSt → CchSt) : (s.onCch f).inn = s.inn := rfl
@[simp] theorem State.onCch_ldr (f : CchSt → CchSt) : (s.onCch f).ldr = s.ldr := rfl
@[simp] theorem State.onCch_mem (f : CchSt → CchSt) : (s.onCch f).mem = s.mem := rfl
@[simp] theorem State.onCch_cch (f : CchSt → CchSt) : (s.onCch f).cch = f s.cch := rfl
@[simp] theorem State.onCch_neta (f : CchSt → CchSt) : (s.onCch f).neta = s.neta := rfl
@[simp] theorem State.onCch_netb (f : CchSt → CchSt) : (s.onCch f).netb = s.netb := rfl
@[simp] theorem State.onCch_aud (f : CchSt → CchSt) : (s.onCch f).aud = s.aud := rfl
@[simp] theorem State.onCch_usb (f : CchSt → CchSt) : (s.onCch f).usb = s.usb := rfl
@[simp] theorem State.onCch_por (f : CchSt → CchSt) : (s.onCch f).por = s.por := rfl
@[simp] theorem State.onCch_ldg (f : CchSt → CchSt) : (s.onCch f).ldg = s.ldg := rfl
@[simp] theorem State.onCch_hth (f : CchSt → CchSt) : (s.onCch f).hth = s.hth := rfl
@[simp] theorem State.onCch_pwr (f : CchSt → CchSt) : (s.onCch f).pwr = s.pwr := rfl
@[simp] theorem State.onCch_jtag (f : CchSt → CchSt) : (s.onCch f).jtag = s.jtag := rfl
@[simp] theorem State.onCch_sys (f : CchSt → CchSt) : (s.onCch f).sys = s.sys := rfl
@[simp] theorem State.onCch_ram (f : CchSt → CchSt) : (s.onCch f).ram = s.ram := rfl
@[simp] theorem State.onCch_fresh (f : CchSt → CchSt) : (s.onCch f).fresh = s.fresh := rfl
@[simp] theorem State.onCch_pending (f : CchSt → CchSt) : (s.onCch f).pending = s.pending := rfl

/-! ### onAud -/

@[simp] theorem State.onAud_clk (f : AudSt → AudSt) : (s.onAud f).clk = s.clk := rfl
@[simp] theorem State.onAud_tly (f : AudSt → AudSt) : (s.onAud f).tly = s.tly := rfl
@[simp] theorem State.onAud_evq (f : AudSt → AudSt) : (s.onAud f).evq = s.evq := rfl
@[simp] theorem State.onAud_desk (f : AudSt → AudSt) : (s.onAud f).desk = s.desk := rfl
@[simp] theorem State.onAud_weave (f : AudSt → AudSt) : (s.onAud f).weave = s.weave := rfl
@[simp] theorem State.onAud_inn (f : AudSt → AudSt) : (s.onAud f).inn = s.inn := rfl
@[simp] theorem State.onAud_ldr (f : AudSt → AudSt) : (s.onAud f).ldr = s.ldr := rfl
@[simp] theorem State.onAud_mem (f : AudSt → AudSt) : (s.onAud f).mem = s.mem := rfl
@[simp] theorem State.onAud_cch (f : AudSt → AudSt) : (s.onAud f).cch = s.cch := rfl
@[simp] theorem State.onAud_neta (f : AudSt → AudSt) : (s.onAud f).neta = s.neta := rfl
@[simp] theorem State.onAud_netb (f : AudSt → AudSt) : (s.onAud f).netb = s.netb := rfl
@[simp] theorem State.onAud_aud (f : AudSt → AudSt) : (s.onAud f).aud = f s.aud := rfl
@[simp] theorem State.onAud_usb (f : AudSt → AudSt) : (s.onAud f).usb = s.usb := rfl
@[simp] theorem State.onAud_por (f : AudSt → AudSt) : (s.onAud f).por = s.por := rfl
@[simp] theorem State.onAud_ldg (f : AudSt → AudSt) : (s.onAud f).ldg = s.ldg := rfl
@[simp] theorem State.onAud_hth (f : AudSt → AudSt) : (s.onAud f).hth = s.hth := rfl
@[simp] theorem State.onAud_pwr (f : AudSt → AudSt) : (s.onAud f).pwr = s.pwr := rfl
@[simp] theorem State.onAud_jtag (f : AudSt → AudSt) : (s.onAud f).jtag = s.jtag := rfl
@[simp] theorem State.onAud_sys (f : AudSt → AudSt) : (s.onAud f).sys = s.sys := rfl
@[simp] theorem State.onAud_ram (f : AudSt → AudSt) : (s.onAud f).ram = s.ram := rfl
@[simp] theorem State.onAud_fresh (f : AudSt → AudSt) : (s.onAud f).fresh = s.fresh := rfl
@[simp] theorem State.onAud_pending (f : AudSt → AudSt) : (s.onAud f).pending = s.pending := rfl

/-! ### onUsb -/

@[simp] theorem State.onUsb_clk (f : UsbSt → UsbSt) : (s.onUsb f).clk = s.clk := rfl
@[simp] theorem State.onUsb_tly (f : UsbSt → UsbSt) : (s.onUsb f).tly = s.tly := rfl
@[simp] theorem State.onUsb_evq (f : UsbSt → UsbSt) : (s.onUsb f).evq = s.evq := rfl
@[simp] theorem State.onUsb_desk (f : UsbSt → UsbSt) : (s.onUsb f).desk = s.desk := rfl
@[simp] theorem State.onUsb_weave (f : UsbSt → UsbSt) : (s.onUsb f).weave = s.weave := rfl
@[simp] theorem State.onUsb_inn (f : UsbSt → UsbSt) : (s.onUsb f).inn = s.inn := rfl
@[simp] theorem State.onUsb_ldr (f : UsbSt → UsbSt) : (s.onUsb f).ldr = s.ldr := rfl
@[simp] theorem State.onUsb_mem (f : UsbSt → UsbSt) : (s.onUsb f).mem = s.mem := rfl
@[simp] theorem State.onUsb_cch (f : UsbSt → UsbSt) : (s.onUsb f).cch = s.cch := rfl
@[simp] theorem State.onUsb_neta (f : UsbSt → UsbSt) : (s.onUsb f).neta = s.neta := rfl
@[simp] theorem State.onUsb_netb (f : UsbSt → UsbSt) : (s.onUsb f).netb = s.netb := rfl
@[simp] theorem State.onUsb_aud (f : UsbSt → UsbSt) : (s.onUsb f).aud = s.aud := rfl
@[simp] theorem State.onUsb_usb (f : UsbSt → UsbSt) : (s.onUsb f).usb = f s.usb := rfl
@[simp] theorem State.onUsb_por (f : UsbSt → UsbSt) : (s.onUsb f).por = s.por := rfl
@[simp] theorem State.onUsb_ldg (f : UsbSt → UsbSt) : (s.onUsb f).ldg = s.ldg := rfl
@[simp] theorem State.onUsb_hth (f : UsbSt → UsbSt) : (s.onUsb f).hth = s.hth := rfl
@[simp] theorem State.onUsb_pwr (f : UsbSt → UsbSt) : (s.onUsb f).pwr = s.pwr := rfl
@[simp] theorem State.onUsb_jtag (f : UsbSt → UsbSt) : (s.onUsb f).jtag = s.jtag := rfl
@[simp] theorem State.onUsb_sys (f : UsbSt → UsbSt) : (s.onUsb f).sys = s.sys := rfl
@[simp] theorem State.onUsb_ram (f : UsbSt → UsbSt) : (s.onUsb f).ram = s.ram := rfl
@[simp] theorem State.onUsb_fresh (f : UsbSt → UsbSt) : (s.onUsb f).fresh = s.fresh := rfl
@[simp] theorem State.onUsb_pending (f : UsbSt → UsbSt) : (s.onUsb f).pending = s.pending := rfl

/-! ### onPor -/

@[simp] theorem State.onPor_clk (f : PorSt → PorSt) : (s.onPor f).clk = s.clk := rfl
@[simp] theorem State.onPor_tly (f : PorSt → PorSt) : (s.onPor f).tly = s.tly := rfl
@[simp] theorem State.onPor_evq (f : PorSt → PorSt) : (s.onPor f).evq = s.evq := rfl
@[simp] theorem State.onPor_desk (f : PorSt → PorSt) : (s.onPor f).desk = s.desk := rfl
@[simp] theorem State.onPor_weave (f : PorSt → PorSt) : (s.onPor f).weave = s.weave := rfl
@[simp] theorem State.onPor_inn (f : PorSt → PorSt) : (s.onPor f).inn = s.inn := rfl
@[simp] theorem State.onPor_ldr (f : PorSt → PorSt) : (s.onPor f).ldr = s.ldr := rfl
@[simp] theorem State.onPor_mem (f : PorSt → PorSt) : (s.onPor f).mem = s.mem := rfl
@[simp] theorem State.onPor_cch (f : PorSt → PorSt) : (s.onPor f).cch = s.cch := rfl
@[simp] theorem State.onPor_neta (f : PorSt → PorSt) : (s.onPor f).neta = s.neta := rfl
@[simp] theorem State.onPor_netb (f : PorSt → PorSt) : (s.onPor f).netb = s.netb := rfl
@[simp] theorem State.onPor_aud (f : PorSt → PorSt) : (s.onPor f).aud = s.aud := rfl
@[simp] theorem State.onPor_usb (f : PorSt → PorSt) : (s.onPor f).usb = s.usb := rfl
@[simp] theorem State.onPor_por (f : PorSt → PorSt) : (s.onPor f).por = f s.por := rfl
@[simp] theorem State.onPor_ldg (f : PorSt → PorSt) : (s.onPor f).ldg = s.ldg := rfl
@[simp] theorem State.onPor_hth (f : PorSt → PorSt) : (s.onPor f).hth = s.hth := rfl
@[simp] theorem State.onPor_pwr (f : PorSt → PorSt) : (s.onPor f).pwr = s.pwr := rfl
@[simp] theorem State.onPor_jtag (f : PorSt → PorSt) : (s.onPor f).jtag = s.jtag := rfl
@[simp] theorem State.onPor_sys (f : PorSt → PorSt) : (s.onPor f).sys = s.sys := rfl
@[simp] theorem State.onPor_ram (f : PorSt → PorSt) : (s.onPor f).ram = s.ram := rfl
@[simp] theorem State.onPor_fresh (f : PorSt → PorSt) : (s.onPor f).fresh = s.fresh := rfl
@[simp] theorem State.onPor_pending (f : PorSt → PorSt) : (s.onPor f).pending = s.pending := rfl

/-! ### onLdg -/

@[simp] theorem State.onLdg_clk (f : LdgSt → LdgSt) : (s.onLdg f).clk = s.clk := rfl
@[simp] theorem State.onLdg_tly (f : LdgSt → LdgSt) : (s.onLdg f).tly = s.tly := rfl
@[simp] theorem State.onLdg_evq (f : LdgSt → LdgSt) : (s.onLdg f).evq = s.evq := rfl
@[simp] theorem State.onLdg_desk (f : LdgSt → LdgSt) : (s.onLdg f).desk = s.desk := rfl
@[simp] theorem State.onLdg_weave (f : LdgSt → LdgSt) : (s.onLdg f).weave = s.weave := rfl
@[simp] theorem State.onLdg_inn (f : LdgSt → LdgSt) : (s.onLdg f).inn = s.inn := rfl
@[simp] theorem State.onLdg_ldr (f : LdgSt → LdgSt) : (s.onLdg f).ldr = s.ldr := rfl
@[simp] theorem State.onLdg_mem (f : LdgSt → LdgSt) : (s.onLdg f).mem = s.mem := rfl
@[simp] theorem State.onLdg_cch (f : LdgSt → LdgSt) : (s.onLdg f).cch = s.cch := rfl
@[simp] theorem State.onLdg_neta (f : LdgSt → LdgSt) : (s.onLdg f).neta = s.neta := rfl
@[simp] theorem State.onLdg_netb (f : LdgSt → LdgSt) : (s.onLdg f).netb = s.netb := rfl
@[simp] theorem State.onLdg_aud (f : LdgSt → LdgSt) : (s.onLdg f).aud = s.aud := rfl
@[simp] theorem State.onLdg_usb (f : LdgSt → LdgSt) : (s.onLdg f).usb = s.usb := rfl
@[simp] theorem State.onLdg_por (f : LdgSt → LdgSt) : (s.onLdg f).por = s.por := rfl
@[simp] theorem State.onLdg_ldg (f : LdgSt → LdgSt) : (s.onLdg f).ldg = f s.ldg := rfl
@[simp] theorem State.onLdg_hth (f : LdgSt → LdgSt) : (s.onLdg f).hth = s.hth := rfl
@[simp] theorem State.onLdg_pwr (f : LdgSt → LdgSt) : (s.onLdg f).pwr = s.pwr := rfl
@[simp] theorem State.onLdg_jtag (f : LdgSt → LdgSt) : (s.onLdg f).jtag = s.jtag := rfl
@[simp] theorem State.onLdg_sys (f : LdgSt → LdgSt) : (s.onLdg f).sys = s.sys := rfl
@[simp] theorem State.onLdg_ram (f : LdgSt → LdgSt) : (s.onLdg f).ram = s.ram := rfl
@[simp] theorem State.onLdg_fresh (f : LdgSt → LdgSt) : (s.onLdg f).fresh = s.fresh := rfl
@[simp] theorem State.onLdg_pending (f : LdgSt → LdgSt) : (s.onLdg f).pending = s.pending := rfl

/-! ### onHth -/

@[simp] theorem State.onHth_clk (f : HthSt → HthSt) : (s.onHth f).clk = s.clk := rfl
@[simp] theorem State.onHth_tly (f : HthSt → HthSt) : (s.onHth f).tly = s.tly := rfl
@[simp] theorem State.onHth_evq (f : HthSt → HthSt) : (s.onHth f).evq = s.evq := rfl
@[simp] theorem State.onHth_desk (f : HthSt → HthSt) : (s.onHth f).desk = s.desk := rfl
@[simp] theorem State.onHth_weave (f : HthSt → HthSt) : (s.onHth f).weave = s.weave := rfl
@[simp] theorem State.onHth_inn (f : HthSt → HthSt) : (s.onHth f).inn = s.inn := rfl
@[simp] theorem State.onHth_ldr (f : HthSt → HthSt) : (s.onHth f).ldr = s.ldr := rfl
@[simp] theorem State.onHth_mem (f : HthSt → HthSt) : (s.onHth f).mem = s.mem := rfl
@[simp] theorem State.onHth_cch (f : HthSt → HthSt) : (s.onHth f).cch = s.cch := rfl
@[simp] theorem State.onHth_neta (f : HthSt → HthSt) : (s.onHth f).neta = s.neta := rfl
@[simp] theorem State.onHth_netb (f : HthSt → HthSt) : (s.onHth f).netb = s.netb := rfl
@[simp] theorem State.onHth_aud (f : HthSt → HthSt) : (s.onHth f).aud = s.aud := rfl
@[simp] theorem State.onHth_usb (f : HthSt → HthSt) : (s.onHth f).usb = s.usb := rfl
@[simp] theorem State.onHth_por (f : HthSt → HthSt) : (s.onHth f).por = s.por := rfl
@[simp] theorem State.onHth_ldg (f : HthSt → HthSt) : (s.onHth f).ldg = s.ldg := rfl
@[simp] theorem State.onHth_hth (f : HthSt → HthSt) : (s.onHth f).hth = f s.hth := rfl
@[simp] theorem State.onHth_pwr (f : HthSt → HthSt) : (s.onHth f).pwr = s.pwr := rfl
@[simp] theorem State.onHth_jtag (f : HthSt → HthSt) : (s.onHth f).jtag = s.jtag := rfl
@[simp] theorem State.onHth_sys (f : HthSt → HthSt) : (s.onHth f).sys = s.sys := rfl
@[simp] theorem State.onHth_ram (f : HthSt → HthSt) : (s.onHth f).ram = s.ram := rfl
@[simp] theorem State.onHth_fresh (f : HthSt → HthSt) : (s.onHth f).fresh = s.fresh := rfl
@[simp] theorem State.onHth_pending (f : HthSt → HthSt) : (s.onHth f).pending = s.pending := rfl

/-! ### onPwr -/

@[simp] theorem State.onPwr_clk (f : PwrSt → PwrSt) : (s.onPwr f).clk = s.clk := rfl
@[simp] theorem State.onPwr_tly (f : PwrSt → PwrSt) : (s.onPwr f).tly = s.tly := rfl
@[simp] theorem State.onPwr_evq (f : PwrSt → PwrSt) : (s.onPwr f).evq = s.evq := rfl
@[simp] theorem State.onPwr_desk (f : PwrSt → PwrSt) : (s.onPwr f).desk = s.desk := rfl
@[simp] theorem State.onPwr_weave (f : PwrSt → PwrSt) : (s.onPwr f).weave = s.weave := rfl
@[simp] theorem State.onPwr_inn (f : PwrSt → PwrSt) : (s.onPwr f).inn = s.inn := rfl
@[simp] theorem State.onPwr_ldr (f : PwrSt → PwrSt) : (s.onPwr f).ldr = s.ldr := rfl
@[simp] theorem State.onPwr_mem (f : PwrSt → PwrSt) : (s.onPwr f).mem = s.mem := rfl
@[simp] theorem State.onPwr_cch (f : PwrSt → PwrSt) : (s.onPwr f).cch = s.cch := rfl
@[simp] theorem State.onPwr_neta (f : PwrSt → PwrSt) : (s.onPwr f).neta = s.neta := rfl
@[simp] theorem State.onPwr_netb (f : PwrSt → PwrSt) : (s.onPwr f).netb = s.netb := rfl
@[simp] theorem State.onPwr_aud (f : PwrSt → PwrSt) : (s.onPwr f).aud = s.aud := rfl
@[simp] theorem State.onPwr_usb (f : PwrSt → PwrSt) : (s.onPwr f).usb = s.usb := rfl
@[simp] theorem State.onPwr_por (f : PwrSt → PwrSt) : (s.onPwr f).por = s.por := rfl
@[simp] theorem State.onPwr_ldg (f : PwrSt → PwrSt) : (s.onPwr f).ldg = s.ldg := rfl
@[simp] theorem State.onPwr_hth (f : PwrSt → PwrSt) : (s.onPwr f).hth = s.hth := rfl
@[simp] theorem State.onPwr_pwr (f : PwrSt → PwrSt) : (s.onPwr f).pwr = f s.pwr := rfl
@[simp] theorem State.onPwr_jtag (f : PwrSt → PwrSt) : (s.onPwr f).jtag = s.jtag := rfl
@[simp] theorem State.onPwr_sys (f : PwrSt → PwrSt) : (s.onPwr f).sys = s.sys := rfl
@[simp] theorem State.onPwr_ram (f : PwrSt → PwrSt) : (s.onPwr f).ram = s.ram := rfl
@[simp] theorem State.onPwr_fresh (f : PwrSt → PwrSt) : (s.onPwr f).fresh = s.fresh := rfl
@[simp] theorem State.onPwr_pending (f : PwrSt → PwrSt) : (s.onPwr f).pending = s.pending := rfl

/-! ### onJtag -/

@[simp] theorem State.onJtag_clk (f : JtagSt → JtagSt) : (s.onJtag f).clk = s.clk := rfl
@[simp] theorem State.onJtag_tly (f : JtagSt → JtagSt) : (s.onJtag f).tly = s.tly := rfl
@[simp] theorem State.onJtag_evq (f : JtagSt → JtagSt) : (s.onJtag f).evq = s.evq := rfl
@[simp] theorem State.onJtag_desk (f : JtagSt → JtagSt) : (s.onJtag f).desk = s.desk := rfl
@[simp] theorem State.onJtag_weave (f : JtagSt → JtagSt) : (s.onJtag f).weave = s.weave := rfl
@[simp] theorem State.onJtag_inn (f : JtagSt → JtagSt) : (s.onJtag f).inn = s.inn := rfl
@[simp] theorem State.onJtag_ldr (f : JtagSt → JtagSt) : (s.onJtag f).ldr = s.ldr := rfl
@[simp] theorem State.onJtag_mem (f : JtagSt → JtagSt) : (s.onJtag f).mem = s.mem := rfl
@[simp] theorem State.onJtag_cch (f : JtagSt → JtagSt) : (s.onJtag f).cch = s.cch := rfl
@[simp] theorem State.onJtag_neta (f : JtagSt → JtagSt) : (s.onJtag f).neta = s.neta := rfl
@[simp] theorem State.onJtag_netb (f : JtagSt → JtagSt) : (s.onJtag f).netb = s.netb := rfl
@[simp] theorem State.onJtag_aud (f : JtagSt → JtagSt) : (s.onJtag f).aud = s.aud := rfl
@[simp] theorem State.onJtag_usb (f : JtagSt → JtagSt) : (s.onJtag f).usb = s.usb := rfl
@[simp] theorem State.onJtag_por (f : JtagSt → JtagSt) : (s.onJtag f).por = s.por := rfl
@[simp] theorem State.onJtag_ldg (f : JtagSt → JtagSt) : (s.onJtag f).ldg = s.ldg := rfl
@[simp] theorem State.onJtag_hth (f : JtagSt → JtagSt) : (s.onJtag f).hth = s.hth := rfl
@[simp] theorem State.onJtag_pwr (f : JtagSt → JtagSt) : (s.onJtag f).pwr = s.pwr := rfl
@[simp] theorem State.onJtag_jtag (f : JtagSt → JtagSt) : (s.onJtag f).jtag = f s.jtag := rfl
@[simp] theorem State.onJtag_sys (f : JtagSt → JtagSt) : (s.onJtag f).sys = s.sys := rfl
@[simp] theorem State.onJtag_ram (f : JtagSt → JtagSt) : (s.onJtag f).ram = s.ram := rfl
@[simp] theorem State.onJtag_fresh (f : JtagSt → JtagSt) : (s.onJtag f).fresh = s.fresh := rfl
@[simp] theorem State.onJtag_pending (f : JtagSt → JtagSt) : (s.onJtag f).pending = s.pending := rfl

/-! ### onSys -/

@[simp] theorem State.onSys_clk (f : SysSt → SysSt) : (s.onSys f).clk = s.clk := rfl
@[simp] theorem State.onSys_tly (f : SysSt → SysSt) : (s.onSys f).tly = s.tly := rfl
@[simp] theorem State.onSys_evq (f : SysSt → SysSt) : (s.onSys f).evq = s.evq := rfl
@[simp] theorem State.onSys_desk (f : SysSt → SysSt) : (s.onSys f).desk = s.desk := rfl
@[simp] theorem State.onSys_weave (f : SysSt → SysSt) : (s.onSys f).weave = s.weave := rfl
@[simp] theorem State.onSys_inn (f : SysSt → SysSt) : (s.onSys f).inn = s.inn := rfl
@[simp] theorem State.onSys_ldr (f : SysSt → SysSt) : (s.onSys f).ldr = s.ldr := rfl
@[simp] theorem State.onSys_mem (f : SysSt → SysSt) : (s.onSys f).mem = s.mem := rfl
@[simp] theorem State.onSys_cch (f : SysSt → SysSt) : (s.onSys f).cch = s.cch := rfl
@[simp] theorem State.onSys_neta (f : SysSt → SysSt) : (s.onSys f).neta = s.neta := rfl
@[simp] theorem State.onSys_netb (f : SysSt → SysSt) : (s.onSys f).netb = s.netb := rfl
@[simp] theorem State.onSys_aud (f : SysSt → SysSt) : (s.onSys f).aud = s.aud := rfl
@[simp] theorem State.onSys_usb (f : SysSt → SysSt) : (s.onSys f).usb = s.usb := rfl
@[simp] theorem State.onSys_por (f : SysSt → SysSt) : (s.onSys f).por = s.por := rfl
@[simp] theorem State.onSys_ldg (f : SysSt → SysSt) : (s.onSys f).ldg = s.ldg := rfl
@[simp] theorem State.onSys_hth (f : SysSt → SysSt) : (s.onSys f).hth = s.hth := rfl
@[simp] theorem State.onSys_pwr (f : SysSt → SysSt) : (s.onSys f).pwr = s.pwr := rfl
@[simp] theorem State.onSys_jtag (f : SysSt → SysSt) : (s.onSys f).jtag = s.jtag := rfl
@[simp] theorem State.onSys_sys (f : SysSt → SysSt) : (s.onSys f).sys = f s.sys := rfl
@[simp] theorem State.onSys_ram (f : SysSt → SysSt) : (s.onSys f).ram = s.ram := rfl
@[simp] theorem State.onSys_fresh (f : SysSt → SysSt) : (s.onSys f).fresh = s.fresh := rfl
@[simp] theorem State.onSys_pending (f : SysSt → SysSt) : (s.onSys f).pending = s.pending := rfl

/-! ### onSess -/

@[simp] theorem State.onSess_clk (n : Nat) (f : Session → Session) : (s.onSess n f).clk = s.clk := rfl
@[simp] theorem State.onSess_tly (n : Nat) (f : Session → Session) : (s.onSess n f).tly = s.tly := rfl
@[simp] theorem State.onSess_evq (n : Nat) (f : Session → Session) : (s.onSess n f).evq = s.evq := rfl
@[simp] theorem State.onSess_desk (n : Nat) (f : Session → Session) : (s.onSess n f).desk = s.desk.setSess n (f (s.desk.sess n)) := rfl
@[simp] theorem State.onSess_weave (n : Nat) (f : Session → Session) : (s.onSess n f).weave = s.weave := rfl
@[simp] theorem State.onSess_inn (n : Nat) (f : Session → Session) : (s.onSess n f).inn = s.inn := rfl
@[simp] theorem State.onSess_ldr (n : Nat) (f : Session → Session) : (s.onSess n f).ldr = s.ldr := rfl
@[simp] theorem State.onSess_mem (n : Nat) (f : Session → Session) : (s.onSess n f).mem = s.mem := rfl
@[simp] theorem State.onSess_cch (n : Nat) (f : Session → Session) : (s.onSess n f).cch = s.cch := rfl
@[simp] theorem State.onSess_neta (n : Nat) (f : Session → Session) : (s.onSess n f).neta = s.neta := rfl
@[simp] theorem State.onSess_netb (n : Nat) (f : Session → Session) : (s.onSess n f).netb = s.netb := rfl
@[simp] theorem State.onSess_aud (n : Nat) (f : Session → Session) : (s.onSess n f).aud = s.aud := rfl
@[simp] theorem State.onSess_usb (n : Nat) (f : Session → Session) : (s.onSess n f).usb = s.usb := rfl
@[simp] theorem State.onSess_por (n : Nat) (f : Session → Session) : (s.onSess n f).por = s.por := rfl
@[simp] theorem State.onSess_ldg (n : Nat) (f : Session → Session) : (s.onSess n f).ldg = s.ldg := rfl
@[simp] theorem State.onSess_hth (n : Nat) (f : Session → Session) : (s.onSess n f).hth = s.hth := rfl
@[simp] theorem State.onSess_pwr (n : Nat) (f : Session → Session) : (s.onSess n f).pwr = s.pwr := rfl
@[simp] theorem State.onSess_jtag (n : Nat) (f : Session → Session) : (s.onSess n f).jtag = s.jtag := rfl
@[simp] theorem State.onSess_sys (n : Nat) (f : Session → Session) : (s.onSess n f).sys = s.sys := rfl
@[simp] theorem State.onSess_ram (n : Nat) (f : Session → Session) : (s.onSess n f).ram = s.ram := rfl
@[simp] theorem State.onSess_fresh (n : Nat) (f : Session → Session) : (s.onSess n f).fresh = s.fresh := rfl
@[simp] theorem State.onSess_pending (n : Nat) (f : Session → Session) : (s.onSess n f).pending = s.pending := rfl

/-! ### onGuest -/

@[simp] theorem State.onGuest_clk (g : Nat) (f : Guest → Guest) : (s.onGuest g f).clk = s.clk := rfl
@[simp] theorem State.onGuest_tly (g : Nat) (f : Guest → Guest) : (s.onGuest g f).tly = s.tly := rfl
@[simp] theorem State.onGuest_evq (g : Nat) (f : Guest → Guest) : (s.onGuest g f).evq = s.evq := rfl
@[simp] theorem State.onGuest_desk (g : Nat) (f : Guest → Guest) : (s.onGuest g f).desk = s.desk := rfl
@[simp] theorem State.onGuest_weave (g : Nat) (f : Guest → Guest) : (s.onGuest g f).weave = s.weave := rfl
@[simp] theorem State.onGuest_inn (g : Nat) (f : Guest → Guest) : (s.onGuest g f).inn = { s.inn with guests := tmod s.inn.guests g {} f } := rfl
@[simp] theorem State.onGuest_ldr (g : Nat) (f : Guest → Guest) : (s.onGuest g f).ldr = s.ldr := rfl
@[simp] theorem State.onGuest_mem (g : Nat) (f : Guest → Guest) : (s.onGuest g f).mem = s.mem := rfl
@[simp] theorem State.onGuest_cch (g : Nat) (f : Guest → Guest) : (s.onGuest g f).cch = s.cch := rfl
@[simp] theorem State.onGuest_neta (g : Nat) (f : Guest → Guest) : (s.onGuest g f).neta = s.neta := rfl
@[simp] theorem State.onGuest_netb (g : Nat) (f : Guest → Guest) : (s.onGuest g f).netb = s.netb := rfl
@[simp] theorem State.onGuest_aud (g : Nat) (f : Guest → Guest) : (s.onGuest g f).aud = s.aud := rfl
@[simp] theorem State.onGuest_usb (g : Nat) (f : Guest → Guest) : (s.onGuest g f).usb = s.usb := rfl
@[simp] theorem State.onGuest_por (g : Nat) (f : Guest → Guest) : (s.onGuest g f).por = s.por := rfl
@[simp] theorem State.onGuest_ldg (g : Nat) (f : Guest → Guest) : (s.onGuest g f).ldg = s.ldg := rfl
@[simp] theorem State.onGuest_hth (g : Nat) (f : Guest → Guest) : (s.onGuest g f).hth = s.hth := rfl
@[simp] theorem State.onGuest_pwr (g : Nat) (f : Guest → Guest) : (s.onGuest g f).pwr = s.pwr := rfl
@[simp] theorem State.onGuest_jtag (g : Nat) (f : Guest → Guest) : (s.onGuest g f).jtag = s.jtag := rfl
@[simp] theorem State.onGuest_sys (g : Nat) (f : Guest → Guest) : (s.onGuest g f).sys = s.sys := rfl
@[simp] theorem State.onGuest_ram (g : Nat) (f : Guest → Guest) : (s.onGuest g f).ram = s.ram := rfl
@[simp] theorem State.onGuest_fresh (g : Nat) (f : Guest → Guest) : (s.onGuest g f).fresh = s.fresh := rfl
@[simp] theorem State.onGuest_pending (g : Nat) (f : Guest → Guest) : (s.onGuest g f).pending = s.pending := rfl

/-! ### onStake -/

@[simp] theorem State.onStake_clk (k : Nat) (f : Stake → Stake) : (s.onStake k f).clk = s.clk := rfl
@[simp] theorem State.onStake_tly (k : Nat) (f : Stake → Stake) : (s.onStake k f).tly = s.tly := rfl
@[simp] theorem State.onStake_evq (k : Nat) (f : Stake → Stake) : (s.onStake k f).evq = s.evq := rfl
@[simp] theorem State.onStake_desk (k : Nat) (f : Stake → Stake) : (s.onStake k f).desk = s.desk := rfl
@[simp] theorem State.onStake_weave (k : Nat) (f : Stake → Stake) : (s.onStake k f).weave = { s.weave with stakes := tmod s.weave.stakes k {} f } := rfl
@[simp] theorem State.onStake_inn (k : Nat) (f : Stake → Stake) : (s.onStake k f).inn = s.inn := rfl
@[simp] theorem State.onStake_ldr (k : Nat) (f : Stake → Stake) : (s.onStake k f).ldr = s.ldr := rfl
@[simp] theorem State.onStake_mem (k : Nat) (f : Stake → Stake) : (s.onStake k f).mem = s.mem := rfl
@[simp] theorem State.onStake_cch (k : Nat) (f : Stake → Stake) : (s.onStake k f).cch = s.cch := rfl
@[simp] theorem State.onStake_neta (k : Nat) (f : Stake → Stake) : (s.onStake k f).neta = s.neta := rfl
@[simp] theorem State.onStake_netb (k : Nat) (f : Stake → Stake) : (s.onStake k f).netb = s.netb := rfl
@[simp] theorem State.onStake_aud (k : Nat) (f : Stake → Stake) : (s.onStake k f).aud = s.aud := rfl
@[simp] theorem State.onStake_usb (k : Nat) (f : Stake → Stake) : (s.onStake k f).usb = s.usb := rfl
@[simp] theorem State.onStake_por (k : Nat) (f : Stake → Stake) : (s.onStake k f).por = s.por := rfl
@[simp] theorem State.onStake_ldg (k : Nat) (f : Stake → Stake) : (s.onStake k f).ldg = s.ldg := rfl
@[simp] theorem State.onStake_hth (k : Nat) (f : Stake → Stake) : (s.onStake k f).hth = s.hth := rfl
@[simp] theorem State.onStake_pwr (k : Nat) (f : Stake → Stake) : (s.onStake k f).pwr = s.pwr := rfl
@[simp] theorem State.onStake_jtag (k : Nat) (f : Stake → Stake) : (s.onStake k f).jtag = s.jtag := rfl
@[simp] theorem State.onStake_sys (k : Nat) (f : Stake → Stake) : (s.onStake k f).sys = s.sys := rfl
@[simp] theorem State.onStake_ram (k : Nat) (f : Stake → Stake) : (s.onStake k f).ram = s.ram := rfl
@[simp] theorem State.onStake_fresh (k : Nat) (f : Stake → Stake) : (s.onStake k f).fresh = s.fresh := rfl
@[simp] theorem State.onStake_pending (k : Nat) (f : Stake → Stake) : (s.onStake k f).pending = s.pending := rfl

/-! ### onPlan -/

@[simp] theorem State.onPlan_clk (n : String) (f : Plan → Plan) : (s.onPlan n f).clk = s.clk := rfl
@[simp] theorem State.onPlan_tly (n : String) (f : Plan → Plan) : (s.onPlan n f).tly = s.tly := rfl
@[simp] theorem State.onPlan_evq (n : String) (f : Plan → Plan) : (s.onPlan n f).evq = s.evq := rfl
@[simp] theorem State.onPlan_desk (n : String) (f : Plan → Plan) : (s.onPlan n f).desk = s.desk := rfl
@[simp] theorem State.onPlan_weave (n : String) (f : Plan → Plan) : (s.onPlan n f).weave = { s.weave with plans := s.weave.plans.map fun p => if p.name == n then f p else p } := rfl
@[simp] theorem State.onPlan_inn (n : String) (f : Plan → Plan) : (s.onPlan n f).inn = s.inn := rfl
@[simp] theorem State.onPlan_ldr (n : String) (f : Plan → Plan) : (s.onPlan n f).ldr = s.ldr := rfl
@[simp] theorem State.onPlan_mem (n : String) (f : Plan → Plan) : (s.onPlan n f).mem = s.mem := rfl
@[simp] theorem State.onPlan_cch (n : String) (f : Plan → Plan) : (s.onPlan n f).cch = s.cch := rfl
@[simp] theorem State.onPlan_neta (n : String) (f : Plan → Plan) : (s.onPlan n f).neta = s.neta := rfl
@[simp] theorem State.onPlan_netb (n : String) (f : Plan → Plan) : (s.onPlan n f).netb = s.netb := rfl
@[simp] theorem State.onPlan_aud (n : String) (f : Plan → Plan) : (s.onPlan n f).aud = s.aud := rfl
@[simp] theorem State.onPlan_usb (n : String) (f : Plan → Plan) : (s.onPlan n f).usb = s.usb := rfl
@[simp] theorem State.onPlan_por (n : String) (f : Plan → Plan) : (s.onPlan n f).por = s.por := rfl
@[simp] theorem State.onPlan_ldg (n : String) (f : Plan → Plan) : (s.onPlan n f).ldg = s.ldg := rfl
@[simp] theorem State.onPlan_hth (n : String) (f : Plan → Plan) : (s.onPlan n f).hth = s.hth := rfl
@[simp] theorem State.onPlan_pwr (n : String) (f : Plan → Plan) : (s.onPlan n f).pwr = s.pwr := rfl
@[simp] theorem State.onPlan_jtag (n : String) (f : Plan → Plan) : (s.onPlan n f).jtag = s.jtag := rfl
@[simp] theorem State.onPlan_sys (n : String) (f : Plan → Plan) : (s.onPlan n f).sys = s.sys := rfl
@[simp] theorem State.onPlan_ram (n : String) (f : Plan → Plan) : (s.onPlan n f).ram = s.ram := rfl
@[simp] theorem State.onPlan_fresh (n : String) (f : Plan → Plan) : (s.onPlan n f).fresh = s.fresh := rfl
@[simp] theorem State.onPlan_pending (n : String) (f : Plan → Plan) : (s.onPlan n f).pending = s.pending := rfl

/-! ### onRoute -/

@[simp] theorem State.onRoute_clk (r : Nat) (f : Route → Route) : (s.onRoute r f).clk = s.clk := rfl
@[simp] theorem State.onRoute_tly (r : Nat) (f : Route → Route) : (s.onRoute r f).tly = s.tly := rfl
@[simp] theorem State.onRoute_evq (r : Nat) (f : Route → Route) : (s.onRoute r f).evq = s.evq := rfl
@[simp] theorem State.onRoute_desk (r : Nat) (f : Route → Route) : (s.onRoute r f).desk = s.desk := rfl
@[simp] theorem State.onRoute_weave (r : Nat) (f : Route → Route) : (s.onRoute r f).weave = s.weave := rfl
@[simp] theorem State.onRoute_inn (r : Nat) (f : Route → Route) : (s.onRoute r f).inn = s.inn := rfl
@[simp] theorem State.onRoute_ldr (r : Nat) (f : Route → Route) : (s.onRoute r f).ldr = s.ldr := rfl
@[simp] theorem State.onRoute_mem (r : Nat) (f : Route → Route) : (s.onRoute r f).mem = s.mem := rfl
@[simp] theorem State.onRoute_cch (r : Nat) (f : Route → Route) : (s.onRoute r f).cch = { s.cch with routes := tmod s.cch.routes r {} f } := rfl
@[simp] theorem State.onRoute_neta (r : Nat) (f : Route → Route) : (s.onRoute r f).neta = s.neta := rfl
@[simp] theorem State.onRoute_netb (r : Nat) (f : Route → Route) : (s.onRoute r f).netb = s.netb := rfl
@[simp] theorem State.onRoute_aud (r : Nat) (f : Route → Route) : (s.onRoute r f).aud = s.aud := rfl
@[simp] theorem State.onRoute_usb (r : Nat) (f : Route → Route) : (s.onRoute r f).usb = s.usb := rfl
@[simp] theorem State.onRoute_por (r : Nat) (f : Route → Route) : (s.onRoute r f).por = s.por := rfl
@[simp] theorem State.onRoute_ldg (r : Nat) (f : Route → Route) : (s.onRoute r f).ldg = s.ldg := rfl
@[simp] theorem State.onRoute_hth (r : Nat) (f : Route → Route) : (s.onRoute r f).hth = s.hth := rfl
@[simp] theorem State.onRoute_pwr (r : Nat) (f : Route → Route) : (s.onRoute r f).pwr = s.pwr := rfl
@[simp] theorem State.onRoute_jtag (r : Nat) (f : Route → Route) : (s.onRoute r f).jtag = s.jtag := rfl
@[simp] theorem State.onRoute_sys (r : Nat) (f : Route → Route) : (s.onRoute r f).sys = s.sys := rfl
@[simp] theorem State.onRoute_ram (r : Nat) (f : Route → Route) : (s.onRoute r f).ram = s.ram := rfl
@[simp] theorem State.onRoute_fresh (r : Nat) (f : Route → Route) : (s.onRoute r f).fresh = s.fresh := rfl
@[simp] theorem State.onRoute_pending (r : Nat) (f : Route → Route) : (s.onRoute r f).pending = s.pending := rfl

/-! ### onWin -/

@[simp] theorem State.onWin_clk (w : Nat) (f : Window → Window) : (s.onWin w f).clk = s.clk := rfl
@[simp] theorem State.onWin_tly (w : Nat) (f : Window → Window) : (s.onWin w f).tly = s.tly := rfl
@[simp] theorem State.onWin_evq (w : Nat) (f : Window → Window) : (s.onWin w f).evq = s.evq := rfl
@[simp] theorem State.onWin_desk (w : Nat) (f : Window → Window) : (s.onWin w f).desk = s.desk := rfl
@[simp] theorem State.onWin_weave (w : Nat) (f : Window → Window) : (s.onWin w f).weave = s.weave := rfl
@[simp] theorem State.onWin_inn (w : Nat) (f : Window → Window) : (s.onWin w f).inn = s.inn := rfl
@[simp] theorem State.onWin_ldr (w : Nat) (f : Window → Window) : (s.onWin w f).ldr = s.ldr := rfl
@[simp] theorem State.onWin_mem (w : Nat) (f : Window → Window) : (s.onWin w f).mem = s.mem := rfl
@[simp] theorem State.onWin_cch (w : Nat) (f : Window → Window) : (s.onWin w f).cch = { s.cch with wins := tmod s.cch.wins w {} f } := rfl
@[simp] theorem State.onWin_neta (w : Nat) (f : Window → Window) : (s.onWin w f).neta = s.neta := rfl
@[simp] theorem State.onWin_netb (w : Nat) (f : Window → Window) : (s.onWin w f).netb = s.netb := rfl
@[simp] theorem State.onWin_aud (w : Nat) (f : Window → Window) : (s.onWin w f).aud = s.aud := rfl
@[simp] theorem State.onWin_usb (w : Nat) (f : Window → Window) : (s.onWin w f).usb = s.usb := rfl
@[simp] theorem State.onWin_por (w : Nat) (f : Window → Window) : (s.onWin w f).por = s.por := rfl
@[simp] theorem State.onWin_ldg (w : Nat) (f : Window → Window) : (s.onWin w f).ldg = s.ldg := rfl
@[simp] theorem State.onWin_hth (w : Nat) (f : Window → Window) : (s.onWin w f).hth = s.hth := rfl
@[simp] theorem State.onWin_pwr (w : Nat) (f : Window → Window) : (s.onWin w f).pwr = s.pwr := rfl
@[simp] theorem State.onWin_jtag (w : Nat) (f : Window → Window) : (s.onWin w f).jtag = s.jtag := rfl
@[simp] theorem State.onWin_sys (w : Nat) (f : Window → Window) : (s.onWin w f).sys = s.sys := rfl
@[simp] theorem State.onWin_ram (w : Nat) (f : Window → Window) : (s.onWin w f).ram = s.ram := rfl
@[simp] theorem State.onWin_fresh (w : Nat) (f : Window → Window) : (s.onWin w f).fresh = s.fresh := rfl
@[simp] theorem State.onWin_pending (w : Nat) (f : Window → Window) : (s.onWin w f).pending = s.pending := rfl

/-! ### onRing -/

@[simp] theorem State.onRing_clk (k : Nat) (f : Ring → Ring) : (s.onRing k f).clk = s.clk := rfl
@[simp] theorem State.onRing_tly (k : Nat) (f : Ring → Ring) : (s.onRing k f).tly = s.tly := rfl
@[simp] theorem State.onRing_evq (k : Nat) (f : Ring → Ring) : (s.onRing k f).evq = s.evq := rfl
@[simp] theorem State.onRing_desk (k : Nat) (f : Ring → Ring) : (s.onRing k f).desk = s.desk := rfl
@[simp] theorem State.onRing_weave (k : Nat) (f : Ring → Ring) : (s.onRing k f).weave = s.weave := rfl
@[simp] theorem State.onRing_inn (k : Nat) (f : Ring → Ring) : (s.onRing k f).inn = s.inn := rfl
@[simp] theorem State.onRing_ldr (k : Nat) (f : Ring → Ring) : (s.onRing k f).ldr = s.ldr := rfl
@[simp] theorem State.onRing_mem (k : Nat) (f : Ring → Ring) : (s.onRing k f).mem = s.mem := rfl
@[simp] theorem State.onRing_cch (k : Nat) (f : Ring → Ring) : (s.onRing k f).cch = { s.cch with rings := tmod s.cch.rings k {} f } := rfl
@[simp] theorem State.onRing_neta (k : Nat) (f : Ring → Ring) : (s.onRing k f).neta = s.neta := rfl
@[simp] theorem State.onRing_netb (k : Nat) (f : Ring → Ring) : (s.onRing k f).netb = s.netb := rfl
@[simp] theorem State.onRing_aud (k : Nat) (f : Ring → Ring) : (s.onRing k f).aud = s.aud := rfl
@[simp] theorem State.onRing_usb (k : Nat) (f : Ring → Ring) : (s.onRing k f).usb = s.usb := rfl
@[simp] theorem State.onRing_por (k : Nat) (f : Ring → Ring) : (s.onRing k f).por = s.por := rfl
@[simp] theorem State.onRing_ldg (k : Nat) (f : Ring → Ring) : (s.onRing k f).ldg = s.ldg := rfl
@[simp] theorem State.onRing_hth (k : Nat) (f : Ring → Ring) : (s.onRing k f).hth = s.hth := rfl
@[simp] theorem State.onRing_pwr (k : Nat) (f : Ring → Ring) : (s.onRing k f).pwr = s.pwr := rfl
@[simp] theorem State.onRing_jtag (k : Nat) (f : Ring → Ring) : (s.onRing k f).jtag = s.jtag := rfl
@[simp] theorem State.onRing_sys (k : Nat) (f : Ring → Ring) : (s.onRing k f).sys = s.sys := rfl
@[simp] theorem State.onRing_ram (k : Nat) (f : Ring → Ring) : (s.onRing k f).ram = s.ram := rfl
@[simp] theorem State.onRing_fresh (k : Nat) (f : Ring → Ring) : (s.onRing k f).fresh = s.fresh := rfl
@[simp] theorem State.onRing_pending (k : Nat) (f : Ring → Ring) : (s.onRing k f).pending = s.pending := rfl

/-! ### onChan -/

@[simp] theorem State.onChan_clk (k : Nat) (f : Chan → Chan) : (s.onChan k f).clk = s.clk := rfl
@[simp] theorem State.onChan_tly (k : Nat) (f : Chan → Chan) : (s.onChan k f).tly = s.tly := rfl
@[simp] theorem State.onChan_evq (k : Nat) (f : Chan → Chan) : (s.onChan k f).evq = s.evq := rfl
@[simp] theorem State.onChan_desk (k : Nat) (f : Chan → Chan) : (s.onChan k f).desk = s.desk := rfl
@[simp] theorem State.onChan_weave (k : Nat) (f : Chan → Chan) : (s.onChan k f).weave = s.weave := rfl
@[simp] theorem State.onChan_inn (k : Nat) (f : Chan → Chan) : (s.onChan k f).inn = s.inn := rfl
@[simp] theorem State.onChan_ldr (k : Nat) (f : Chan → Chan) : (s.onChan k f).ldr = s.ldr := rfl
@[simp] theorem State.onChan_mem (k : Nat) (f : Chan → Chan) : (s.onChan k f).mem = s.mem := rfl
@[simp] theorem State.onChan_cch (k : Nat) (f : Chan → Chan) : (s.onChan k f).cch = s.cch := rfl
@[simp] theorem State.onChan_neta (k : Nat) (f : Chan → Chan) : (s.onChan k f).neta = s.neta := rfl
@[simp] theorem State.onChan_netb (k : Nat) (f : Chan → Chan) : (s.onChan k f).netb = s.netb := rfl
@[simp] theorem State.onChan_aud (k : Nat) (f : Chan → Chan) : (s.onChan k f).aud = s.aud := rfl
@[simp] theorem State.onChan_usb (k : Nat) (f : Chan → Chan) : (s.onChan k f).usb = s.usb := rfl
@[simp] theorem State.onChan_por (k : Nat) (f : Chan → Chan) : (s.onChan k f).por = s.por := rfl
@[simp] theorem State.onChan_ldg (k : Nat) (f : Chan → Chan) : (s.onChan k f).ldg = s.ldg := rfl
@[simp] theorem State.onChan_hth (k : Nat) (f : Chan → Chan) : (s.onChan k f).hth = { s.hth with chans := lmod s.hth.chans k f } := rfl
@[simp] theorem State.onChan_pwr (k : Nat) (f : Chan → Chan) : (s.onChan k f).pwr = s.pwr := rfl
@[simp] theorem State.onChan_jtag (k : Nat) (f : Chan → Chan) : (s.onChan k f).jtag = s.jtag := rfl
@[simp] theorem State.onChan_sys (k : Nat) (f : Chan → Chan) : (s.onChan k f).sys = s.sys := rfl
@[simp] theorem State.onChan_ram (k : Nat) (f : Chan → Chan) : (s.onChan k f).ram = s.ram := rfl
@[simp] theorem State.onChan_fresh (k : Nat) (f : Chan → Chan) : (s.onChan k f).fresh = s.fresh := rfl
@[simp] theorem State.onChan_pending (k : Nat) (f : Chan → Chan) : (s.onChan k f).pending = s.pending := rfl

/-! ### onNet -/

@[simp] theorem State.onNet_clk (p : Nat) (f : NetSt → NetSt) : (s.onNet p f).clk = s.clk := by
  unfold State.onNet; split <;> rfl
@[simp] theorem State.onNet_tly (p : Nat) (f : NetSt → NetSt) : (s.onNet p f).tly = s.tly := by
  unfold State.onNet; split <;> rfl
@[simp] theorem State.onNet_evq (p : Nat) (f : NetSt → NetSt) : (s.onNet p f).evq = s.evq := by
  unfold State.onNet; split <;> rfl
@[simp] theorem State.onNet_desk (p : Nat) (f : NetSt → NetSt) : (s.onNet p f).desk = s.desk := by
  unfold State.onNet; split <;> rfl
@[simp] theorem State.onNet_weave (p : Nat) (f : NetSt → NetSt) : (s.onNet p f).weave = s.weave := by
  unfold State.onNet; split <;> rfl
@[simp] theorem State.onNet_inn (p : Nat) (f : NetSt → NetSt) : (s.onNet p f).inn = s.inn := by
  unfold State.onNet; split <;> rfl
@[simp] theorem State.onNet_ldr (p : Nat) (f : NetSt → NetSt) : (s.onNet p f).ldr = s.ldr := by
  unfold State.onNet; split <;> rfl
@[simp] theorem State.onNet_mem (p : Nat) (f : NetSt → NetSt) : (s.onNet p f).mem = s.mem := by
  unfold State.onNet; split <;> rfl
@[simp] theorem State.onNet_cch (p : Nat) (f : NetSt → NetSt) : (s.onNet p f).cch = s.cch := by
  unfold State.onNet; split <;> rfl
@[simp] theorem State.onNet_aud (p : Nat) (f : NetSt → NetSt) : (s.onNet p f).aud = s.aud := by
  unfold State.onNet; split <;> rfl
@[simp] theorem State.onNet_usb (p : Nat) (f : NetSt → NetSt) : (s.onNet p f).usb = s.usb := by
  unfold State.onNet; split <;> rfl
@[simp] theorem State.onNet_por (p : Nat) (f : NetSt → NetSt) : (s.onNet p f).por = s.por := by
  unfold State.onNet; split <;> rfl
@[simp] theorem State.onNet_ldg (p : Nat) (f : NetSt → NetSt) : (s.onNet p f).ldg = s.ldg := by
  unfold State.onNet; split <;> rfl
@[simp] theorem State.onNet_hth (p : Nat) (f : NetSt → NetSt) : (s.onNet p f).hth = s.hth := by
  unfold State.onNet; split <;> rfl
@[simp] theorem State.onNet_pwr (p : Nat) (f : NetSt → NetSt) : (s.onNet p f).pwr = s.pwr := by
  unfold State.onNet; split <;> rfl
@[simp] theorem State.onNet_jtag (p : Nat) (f : NetSt → NetSt) : (s.onNet p f).jtag = s.jtag := by
  unfold State.onNet; split <;> rfl
@[simp] theorem State.onNet_sys (p : Nat) (f : NetSt → NetSt) : (s.onNet p f).sys = s.sys := by
  unfold State.onNet; split <;> rfl
@[simp] theorem State.onNet_ram (p : Nat) (f : NetSt → NetSt) : (s.onNet p f).ram = s.ram := by
  unfold State.onNet; split <;> rfl
@[simp] theorem State.onNet_fresh (p : Nat) (f : NetSt → NetSt) : (s.onNet p f).fresh = s.fresh := by
  unfold State.onNet; split <;> rfl
@[simp] theorem State.onNet_pending (p : Nat) (f : NetSt → NetSt) : (s.onNet p f).pending = s.pending := by
  unfold State.onNet; split <;> rfl
@[simp] theorem State.onNet_net (p : Nat) (f : NetSt → NetSt) : (s.onNet p f).net p = f (s.net p) := by
  by_cases h : p = 0 <;> simp [State.onNet, State.net, h]
theorem State.onNet_net_ne (p q : Nat) (f : NetSt → NetSt) (hp : p < 2) (hq : q < 2) (h : q ≠ p) : (s.onNet p f).net q = s.net q := by
  have : (p = 0 ∧ q = 1) ∨ (p = 1 ∧ q = 0) := by omega
  rcases this with ⟨rfl, rfl⟩ | ⟨rfl, rfl⟩ <;> simp [State.onNet, State.net]


/-! ### draw -/

@[simp] theorem State.draw_clk : s.draw.2.clk = s.clk := rfl
@[simp] theorem State.draw_tly : s.draw.2.tly = s.tly := rfl
@[simp] theorem State.draw_evq : s.draw.2.evq = s.evq := rfl
@[simp] theorem State.draw_desk : s.draw.2.desk = s.desk := rfl
@[simp] theorem State.draw_weave : s.draw.2.weave = s.weave := rfl
@[simp] theorem State.draw_inn : s.draw.2.inn = s.inn := rfl
@[simp] theorem State.draw_ldr : s.draw.2.ldr = s.ldr := rfl
@[simp] theorem State.draw_mem : s.draw.2.mem = s.mem := rfl
@[simp] theorem State.draw_cch : s.draw.2.cch = s.cch := rfl
@[simp] theorem State.draw_neta : s.draw.2.neta = s.neta := rfl
@[simp] theorem State.draw_netb : s.draw.2.netb = s.netb := rfl
@[simp] theorem State.draw_aud : s.draw.2.aud = s.aud := rfl
@[simp] theorem State.draw_usb : s.draw.2.usb = s.usb := rfl
@[simp] theorem State.draw_por : s.draw.2.por = s.por := rfl
@[simp] theorem State.draw_ldg : s.draw.2.ldg = s.ldg := rfl
@[simp] theorem State.draw_hth : s.draw.2.hth = s.hth := rfl
@[simp] theorem State.draw_pwr : s.draw.2.pwr = s.pwr := rfl
@[simp] theorem State.draw_jtag : s.draw.2.jtag = s.jtag := rfl
@[simp] theorem State.draw_sys : s.draw.2.sys = s.sys := rfl
@[simp] theorem State.draw_ram : s.draw.2.ram = s.ram := rfl
@[simp] theorem State.draw_fresh : s.draw.2.fresh = s.fresh + 1 := rfl
@[simp] theorem State.draw_pending : s.draw.2.pending = s.pending := rfl
@[simp] theorem State.drawRandom_clk : s.drawRandom.2.clk = s.clk := rfl
@[simp] theorem State.drawRandom_tly : s.drawRandom.2.tly = s.tly := rfl
@[simp] theorem State.drawRandom_evq : s.drawRandom.2.evq = s.evq := rfl
@[simp] theorem State.drawRandom_desk : s.drawRandom.2.desk = s.desk := rfl
@[simp] theorem State.drawRandom_weave : s.drawRandom.2.weave = s.weave := rfl
@[simp] theorem State.drawRandom_inn : s.drawRandom.2.inn = s.inn := rfl
@[simp] theorem State.drawRandom_ldr : s.drawRandom.2.ldr = s.ldr := rfl
@[simp] theorem State.drawRandom_mem : s.drawRandom.2.mem = s.mem := rfl
@[simp] theorem State.drawRandom_cch : s.drawRandom.2.cch = s.cch := rfl
@[simp] theorem State.drawRandom_neta : s.drawRandom.2.neta = s.neta := rfl
@[simp] theorem State.drawRandom_netb : s.drawRandom.2.netb = s.netb := rfl
@[simp] theorem State.drawRandom_aud : s.drawRandom.2.aud = s.aud := rfl
@[simp] theorem State.drawRandom_usb : s.drawRandom.2.usb = s.usb := rfl
@[simp] theorem State.drawRandom_por : s.drawRandom.2.por = s.por := rfl
@[simp] theorem State.drawRandom_ldg : s.drawRandom.2.ldg = s.ldg := rfl
@[simp] theorem State.drawRandom_hth : s.drawRandom.2.hth = s.hth := rfl
@[simp] theorem State.drawRandom_pwr : s.drawRandom.2.pwr = s.pwr := rfl
@[simp] theorem State.drawRandom_jtag : s.drawRandom.2.jtag = s.jtag := rfl
@[simp] theorem State.drawRandom_sys : s.drawRandom.2.sys = s.sys := rfl
@[simp] theorem State.drawRandom_ram : s.drawRandom.2.ram = s.ram := rfl
@[simp] theorem State.drawRandom_fresh : s.drawRandom.2.fresh = s.fresh + 1 := rfl
@[simp] theorem State.drawRandom_pending : s.drawRandom.2.pending = s.pending := rfl

/-! ### Readers -/

@[simp] theorem DeskSt.sess_setSess (d : DeskSt) (n : Nat) (x : Session) (h : n < 4) : (d.setSess n x).sess n = x := by
  interval_cases n <;> rfl

/-- A session is not changed by writing another. -/
@[simp] theorem DeskSt.sess_setSess_ne (d : DeskSt) (n m : Nat) (x : Session) (hn : n < 4) (hm : m < 4) (h : m ≠ n) :
    (d.setSess n x).sess m = d.sess m := by
  interval_cases n <;> interval_cases m <;> first | rfl | exact (h rfl).elim

@[simp] theorem State.when_true (f : State → State) : s.when true f = f s := rfl
@[simp] theorem State.when_false (f : State → State) : s.when false f = s := rfl
@[simp] theorem State.forEach_nil {α : Type} (f : α → State → State) : s.forEach [] f = s := rfl
@[simp] theorem State.forEach_cons {α : Type} (a : α) (l : List α) (f : α → State → State) :
    s.forEach (a :: l) f = (f a s).forEach l f := rfl

/-- What each pass keeps, the whole keeps. -/
theorem State.forEach_keeps {α β : Type} (p : State → β) (l : List α) (f : α → State → State) (h : ∀ a t, p (f a t) = p t) :
    p (s.forEach l f) = p s := by
  induction l generalizing s with
  | nil => rfl
  | cons a l ih => rw [State.forEach_cons, ih, h]

/-- A property each pass keeps, the whole keeps. -/
theorem State.forEach_inv {α : Type} (p : State → Prop) (l : List α) (f : α → State → State) (h : ∀ a t, p t → p (f a t)) (hs : p s) :
    p (s.forEach l f) := by
  induction l generalizing s with
  | nil => exact hs
  | cons a l ih => exact ih _ (h _ _ hs)

theorem State.when_keeps {β : Type} (p : State → β) (c : Bool) (f : State → State) (h : ∀ t, p (f t) = p t) :
    p (s.when c f) = p s := by cases c <;> simp [h]

end Sys2Proof.Machine
end

