-- ==== Sys2Proof/Laws/Desk.lean ====
section
/-! SUPPORT. What the Desk's output operations, the notices and the event log can change: the Desk's own state alone, or the
Ledger's alone. -/

namespace Sys2Proof.Machine

/-- Two states that differ in the Desk alone. -/
def OnlyDesk (s t : State) : Prop := t = s.onDesk fun _ => t.desk

theorem OnlyDesk.refl (s : State) : OnlyDesk s s := rfl

theorem OnlyDesk.trans {s t u : State} (h : OnlyDesk s t) (k : OnlyDesk t u) : OnlyDesk s u := by
  unfold OnlyDesk at *; rw [k, h]; rfl

theorem OnlyDesk.onDesk (s : State) (f : DeskSt → DeskSt) : OnlyDesk s (s.onDesk f) := rfl

theorem OnlyDesk.onSess (s : State) (n : Nat) (f : Session → Session) : OnlyDesk s (s.onSess n f) := rfl

/-- Two states that differ in the Ledger alone. -/
def OnlyLdg (s t : State) : Prop := t = s.onLdg fun _ => t.ldg

theorem OnlyLdg.onLdg (s : State) (f : LdgSt → LdgSt) : OnlyLdg s (s.onLdg f) := rfl

theorem pushOut_only (k : Nat) (kind : OutKind) (text : String) (s : State) : OnlyDesk s (pushOut k kind text s) := by
  unfold pushOut
  simp only
  repeat' split
  all_goals rfl

theorem sayTo_only (k : Nat) (obj text : String) (s : State) : OnlyDesk s (sayTo k obj text s) := by
  unfold sayTo
  simp only
  split
  · exact pushOut_only _ _ _ _
  · exact OnlyDesk.refl s

theorem notify_only (obj rest : String) (s : State) : OnlyDesk s (notify obj rest s) := by
  unfold notify
  exact (((sayTo_only _ _ _ _).trans (sayTo_only _ _ _ _)).trans (sayTo_only _ _ _ _)).trans (sayTo_only _ _ _ _)

theorem notifyOne_only (k : Nat) (obj rest : String) (s : State) : OnlyDesk s (notifyOne k obj rest s) := sayTo_only _ _ _ _

theorem refill_only (fuel k : Nat) (s : State) : OnlyDesk s (refill fuel k s) := by
  induction fuel generalizing s with
  | zero => exact OnlyDesk.refl s
  | succ f ih =>
    unfold refill
    simp only
    repeat' split
    all_goals first
      | exact (OnlyDesk.onSess _ _ _).trans (ih _)
      | exact OnlyDesk.onSess _ _ _
      | exact OnlyDesk.refl _

theorem sessReply_only (n : Nat) (text : String) (s : State) : OnlyDesk s (sessReply n text s) := by
  unfold sessReply
  simp only
  split
  · exact pushOut_only _ _ _ _
  · exact (pushOut_only _ _ _ _).trans (pushOut_only _ _ _ _)

theorem sessAnswer_only (n : Nat) (tag : Option Nat) (r : Except (Nat × String) (List String)) (s : State) :
    OnlyDesk s (sessAnswer n tag r s) := by
  unfold sessAnswer
  simp only
  split
  · exact sessReply_only _ _ _
  · exact OnlyDesk.refl s

theorem finishSess_only (n : Nat) (r : Except (Nat × String) (List String)) (s : State) : OnlyDesk s (finishSess n r s) := by
  unfold finishSess
  simp only
  split
  · exact (OnlyDesk.onSess _ _ _).trans (sessAnswer_only _ _ _ _)
  · exact OnlyDesk.refl s

theorem noteTag_only (o : Origin) (tag : Option Nat) (s : State) : OnlyDesk s (noteTag o tag s) := by
  unfold noteTag
  split
  · exact OnlyDesk.onSess _ _ _
  · exact OnlyDesk.refl s

theorem holdLine_only (o : Origin) (tag : Option Nat) (s : State) : OnlyDesk s (holdLine o tag s) := by
  unfold holdLine
  split
  · exact OnlyDesk.onSess _ _ _
  · exact OnlyDesk.onDesk _ _
  · exact OnlyDesk.refl s

theorem switchMode_only (o : Origin) (s : State) : OnlyDesk s (switchMode o s) := by
  unfold switchMode
  split
  · exact OnlyDesk.onSess _ _ _
  · exact OnlyDesk.refl s

theorem pushLog_only (e : LogEntry) (s : State) : OnlyLdg s (pushLog e s) := rfl
theorem logEv_only (src code evseq arg arg2 : Nat) (s : State) : OnlyLdg s (logEv src code evseq arg arg2 s) := rfl
theorem logAt_only (t : Tally) (late : Bool) (src code evseq arg arg2 : Nat) (s : State) :
    OnlyLdg s (logAt t late src code evseq arg arg2 s) := rfl

theorem OnlyDesk.clk {s t : State} (h : OnlyDesk s t) : t.clk = s.clk :=
  (congrArg State.clk h : t.clk = (s.onDesk fun _ => t.desk).clk)
theorem OnlyDesk.tly {s t : State} (h : OnlyDesk s t) : t.tly = s.tly :=
  (congrArg State.tly h : t.tly = (s.onDesk fun _ => t.desk).tly)
theorem OnlyDesk.evq {s t : State} (h : OnlyDesk s t) : t.evq = s.evq :=
  (congrArg State.evq h : t.evq = (s.onDesk fun _ => t.desk).evq)
theorem OnlyDesk.weave {s t : State} (h : OnlyDesk s t) : t.weave = s.weave :=
  (congrArg State.weave h : t.weave = (s.onDesk fun _ => t.desk).weave)
theorem OnlyDesk.inn {s t : State} (h : OnlyDesk s t) : t.inn = s.inn :=
  (congrArg State.inn h : t.inn = (s.onDesk fun _ => t.desk).inn)
theorem OnlyDesk.ldr {s t : State} (h : OnlyDesk s t) : t.ldr = s.ldr :=
  (congrArg State.ldr h : t.ldr = (s.onDesk fun _ => t.desk).ldr)
theorem OnlyDesk.mem {s t : State} (h : OnlyDesk s t) : t.mem = s.mem :=
  (congrArg State.mem h : t.mem = (s.onDesk fun _ => t.desk).mem)
theorem OnlyDesk.cch {s t : State} (h : OnlyDesk s t) : t.cch = s.cch :=
  (congrArg State.cch h : t.cch = (s.onDesk fun _ => t.desk).cch)
theorem OnlyDesk.neta {s t : State} (h : OnlyDesk s t) : t.neta = s.neta :=
  (congrArg State.neta h : t.neta = (s.onDesk fun _ => t.desk).neta)
theorem OnlyDesk.netb {s t : State} (h : OnlyDesk s t) : t.netb = s.netb :=
  (congrArg State.netb h : t.netb = (s.onDesk fun _ => t.desk).netb)
theorem OnlyDesk.aud {s t : State} (h : OnlyDesk s t) : t.aud = s.aud :=
  (congrArg State.aud h : t.aud = (s.onDesk fun _ => t.desk).aud)
theorem OnlyDesk.usb {s t : State} (h : OnlyDesk s t) : t.usb = s.usb :=
  (congrArg State.usb h : t.usb = (s.onDesk fun _ => t.desk).usb)
theorem OnlyDesk.por {s t : State} (h : OnlyDesk s t) : t.por = s.por :=
  (congrArg State.por h : t.por = (s.onDesk fun _ => t.desk).por)
theorem OnlyDesk.ldg {s t : State} (h : OnlyDesk s t) : t.ldg = s.ldg :=
  (congrArg State.ldg h : t.ldg = (s.onDesk fun _ => t.desk).ldg)
theorem OnlyDesk.hth {s t : State} (h : OnlyDesk s t) : t.hth = s.hth :=
  (congrArg State.hth h : t.hth = (s.onDesk fun _ => t.desk).hth)
theorem OnlyDesk.pwr {s t : State} (h : OnlyDesk s t) : t.pwr = s.pwr :=
  (congrArg State.pwr h : t.pwr = (s.onDesk fun _ => t.desk).pwr)
theorem OnlyDesk.jtag {s t : State} (h : OnlyDesk s t) : t.jtag = s.jtag :=
  (congrArg State.jtag h : t.jtag = (s.onDesk fun _ => t.desk).jtag)
theorem OnlyDesk.sys {s t : State} (h : OnlyDesk s t) : t.sys = s.sys :=
  (congrArg State.sys h : t.sys = (s.onDesk fun _ => t.desk).sys)
theorem OnlyDesk.ram {s t : State} (h : OnlyDesk s t) : t.ram = s.ram :=
  (congrArg State.ram h : t.ram = (s.onDesk fun _ => t.desk).ram)
theorem OnlyDesk.fresh {s t : State} (h : OnlyDesk s t) : t.fresh = s.fresh :=
  (congrArg State.fresh h : t.fresh = (s.onDesk fun _ => t.desk).fresh)
theorem OnlyDesk.pending {s t : State} (h : OnlyDesk s t) : t.pending = s.pending :=
  (congrArg State.pending h : t.pending = (s.onDesk fun _ => t.desk).pending)

/-! ### pushOut -/

@[simp] theorem pushOut_clk (k : Nat) (kind : OutKind) (text : String) (s : State) : (pushOut k kind text s).clk = s.clk := (pushOut_only k kind text s).clk
@[simp] theorem pushOut_tly (k : Nat) (kind : OutKind) (text : String) (s : State) : (pushOut k kind text s).tly = s.tly := (pushOut_only k kind text s).tly
@[simp] theorem pushOut_evq (k : Nat) (kind : OutKind) (text : String) (s : State) : (pushOut k kind text s).evq = s.evq := (pushOut_only k kind text s).evq
@[simp] theorem pushOut_weave (k : Nat) (kind : OutKind) (text : String) (s : State) : (pushOut k kind text s).weave = s.weave := (pushOut_only k kind text s).weave
@[simp] theorem pushOut_inn (k : Nat) (kind : OutKind) (text : String) (s : State) : (pushOut k kind text s).inn = s.inn := (pushOut_only k kind text s).inn
@[simp] theorem pushOut_ldr (k : Nat) (kind : OutKind) (text : String) (s : State) : (pushOut k kind text s).ldr = s.ldr := (pushOut_only k kind text s).ldr
@[simp] theorem pushOut_mem (k : Nat) (kind : OutKind) (text : String) (s : State) : (pushOut k kind text s).mem = s.mem := (pushOut_only k kind text s).mem
@[simp] theorem pushOut_cch (k : Nat) (kind : OutKind) (text : String) (s : State) : (pushOut k kind text s).cch = s.cch := (pushOut_only k kind text s).cch
@[simp] theorem pushOut_neta (k : Nat) (kind : OutKind) (text : String) (s : State) : (pushOut k kind text s).neta = s.neta := (pushOut_only k kind text s).neta
@[simp] theorem pushOut_netb (k : Nat) (kind : OutKind) (text : String) (s : State) : (pushOut k kind text s).netb = s.netb := (pushOut_only k kind text s).netb
@[simp] theorem pushOut_aud (k : Nat) (kind : OutKind) (text : String) (s : State) : (pushOut k kind text s).aud = s.aud := (pushOut_only k kind text s).aud
@[simp] theorem pushOut_usb (k : Nat) (kind : OutKind) (text : String) (s : State) : (pushOut k kind text s).usb = s.usb := (pushOut_only k kind text s).usb
@[simp] theorem pushOut_por (k : Nat) (kind : OutKind) (text : String) (s : State) : (pushOut k kind text s).por = s.por := (pushOut_only k kind text s).por
@[simp] theorem pushOut_ldg (k : Nat) (kind : OutKind) (text : String) (s : State) : (pushOut k kind text s).ldg = s.ldg := (pushOut_only k kind text s).ldg
@[simp] theorem pushOut_hth (k : Nat) (kind : OutKind) (text : String) (s : State) : (pushOut k kind text s).hth = s.hth := (pushOut_only k kind text s).hth
@[simp] theorem pushOut_pwr (k : Nat) (kind : OutKind) (text : String) (s : State) : (pushOut k kind text s).pwr = s.pwr := (pushOut_only k kind text s).pwr
@[simp] theorem pushOut_jtag (k : Nat) (kind : OutKind) (text : String) (s : State) : (pushOut k kind text s).jtag = s.jtag := (pushOut_only k kind text s).jtag
@[simp] theorem pushOut_sys (k : Nat) (kind : OutKind) (text : String) (s : State) : (pushOut k kind text s).sys = s.sys := (pushOut_only k kind text s).sys
@[simp] theorem pushOut_ram (k : Nat) (kind : OutKind) (text : String) (s : State) : (pushOut k kind text s).ram = s.ram := (pushOut_only k kind text s).ram
@[simp] theorem pushOut_fresh (k : Nat) (kind : OutKind) (text : String) (s : State) : (pushOut k kind text s).fresh = s.fresh := (pushOut_only k kind text s).fresh
@[simp] theorem pushOut_pending (k : Nat) (kind : OutKind) (text : String) (s : State) : (pushOut k kind text s).pending = s.pending := (pushOut_only k kind text s).pending

/-! ### sayTo -/

@[simp] theorem sayTo_clk (k : Nat) (obj text : String) (s : State) : (sayTo k obj text s).clk = s.clk := (sayTo_only k obj text s).clk
@[simp] theorem sayTo_tly (k : Nat) (obj text : String) (s : State) : (sayTo k obj text s).tly = s.tly := (sayTo_only k obj text s).tly
@[simp] theorem sayTo_evq (k : Nat) (obj text : String) (s : State) : (sayTo k obj text s).evq = s.evq := (sayTo_only k obj text s).evq
@[simp] theorem sayTo_weave (k : Nat) (obj text : String) (s : State) : (sayTo k obj text s).weave = s.weave := (sayTo_only k obj text s).weave
@[simp] theorem sayTo_inn (k : Nat) (obj text : String) (s : State) : (sayTo k obj text s).inn = s.inn := (sayTo_only k obj text s).inn
@[simp] theorem sayTo_ldr (k : Nat) (obj text : String) (s : State) : (sayTo k obj text s).ldr = s.ldr := (sayTo_only k obj text s).ldr
@[simp] theorem sayTo_mem (k : Nat) (obj text : String) (s : State) : (sayTo k obj text s).mem = s.mem := (sayTo_only k obj text s).mem
@[simp] theorem sayTo_cch (k : Nat) (obj text : String) (s : State) : (sayTo k obj text s).cch = s.cch := (sayTo_only k obj text s).cch
@[simp] theorem sayTo_neta (k : Nat) (obj text : String) (s : State) : (sayTo k obj text s).neta = s.neta := (sayTo_only k obj text s).neta
@[simp] theorem sayTo_netb (k : Nat) (obj text : String) (s : State) : (sayTo k obj text s).netb = s.netb := (sayTo_only k obj text s).netb
@[simp] theorem sayTo_aud (k : Nat) (obj text : String) (s : State) : (sayTo k obj text s).aud = s.aud := (sayTo_only k obj text s).aud
@[simp] theorem sayTo_usb (k : Nat) (obj text : String) (s : State) : (sayTo k obj text s).usb = s.usb := (sayTo_only k obj text s).usb
@[simp] theorem sayTo_por (k : Nat) (obj text : String) (s : State) : (sayTo k obj text s).por = s.por := (sayTo_only k obj text s).por
@[simp] theorem sayTo_ldg (k : Nat) (obj text : String) (s : State) : (sayTo k obj text s).ldg = s.ldg := (sayTo_only k obj text s).ldg
@[simp] theorem sayTo_hth (k : Nat) (obj text : String) (s : State) : (sayTo k obj text s).hth = s.hth := (sayTo_only k obj text s).hth
@[simp] theorem sayTo_pwr (k : Nat) (obj text : String) (s : State) : (sayTo k obj text s).pwr = s.pwr := (sayTo_only k obj text s).pwr
@[simp] theorem sayTo_jtag (k : Nat) (obj text : String) (s : State) : (sayTo k obj text s).jtag = s.jtag := (sayTo_only k obj text s).jtag
@[simp] theorem sayTo_sys (k : Nat) (obj text : String) (s : State) : (sayTo k obj text s).sys = s.sys := (sayTo_only k obj text s).sys
@[simp] theorem sayTo_ram (k : Nat) (obj text : String) (s : State) : (sayTo k obj text s).ram = s.ram := (sayTo_only k obj text s).ram
@[simp] theorem sayTo_fresh (k : Nat) (obj text : String) (s : State) : (sayTo k obj text s).fresh = s.fresh := (sayTo_only k obj text s).fresh
@[simp] theorem sayTo_pending (k : Nat) (obj text : String) (s : State) : (sayTo k obj text s).pending = s.pending := (sayTo_only k obj text s).pending

/-! ### notify -/

@[simp] theorem notify_clk (obj rest : String) (s : State) : (notify obj rest s).clk = s.clk := (notify_only obj rest s).clk
@[simp] theorem notify_tly (obj rest : String) (s : State) : (notify obj rest s).tly = s.tly := (notify_only obj rest s).tly
@[simp] theorem notify_evq (obj rest : String) (s : State) : (notify obj rest s).evq = s.evq := (notify_only obj rest s).evq
@[simp] theorem notify_weave (obj rest : String) (s : State) : (notify obj rest s).weave = s.weave := (notify_only obj rest s).weave
@[simp] theorem notify_inn (obj rest : String) (s : State) : (notify obj rest s).inn = s.inn := (notify_only obj rest s).inn
@[simp] theorem notify_ldr (obj rest : String) (s : State) : (notify obj rest s).ldr = s.ldr := (notify_only obj rest s).ldr
@[simp] theorem notify_mem (obj rest : String) (s : State) : (notify obj rest s).mem = s.mem := (notify_only obj rest s).mem
@[simp] theorem notify_cch (obj rest : String) (s : State) : (notify obj rest s).cch = s.cch := (notify_only obj rest s).cch
@[simp] theorem notify_neta (obj rest : String) (s : State) : (notify obj rest s).neta = s.neta := (notify_only obj rest s).neta
@[simp] theorem notify_netb (obj rest : String) (s : State) : (notify obj rest s).netb = s.netb := (notify_only obj rest s).netb
@[simp] theorem notify_aud (obj rest : String) (s : State) : (notify obj rest s).aud = s.aud := (notify_only obj rest s).aud
@[simp] theorem notify_usb (obj rest : String) (s : State) : (notify obj rest s).usb = s.usb := (notify_only obj rest s).usb
@[simp] theorem notify_por (obj rest : String) (s : State) : (notify obj rest s).por = s.por := (notify_only obj rest s).por
@[simp] theorem notify_ldg (obj rest : String) (s : State) : (notify obj rest s).ldg = s.ldg := (notify_only obj rest s).ldg
@[simp] theorem notify_hth (obj rest : String) (s : State) : (notify obj rest s).hth = s.hth := (notify_only obj rest s).hth
@[simp] theorem notify_pwr (obj rest : String) (s : State) : (notify obj rest s).pwr = s.pwr := (notify_only obj rest s).pwr
@[simp] theorem notify_jtag (obj rest : String) (s : State) : (notify obj rest s).jtag = s.jtag := (notify_only obj rest s).jtag
@[simp] theorem notify_sys (obj rest : String) (s : State) : (notify obj rest s).sys = s.sys := (notify_only obj rest s).sys
@[simp] theorem notify_ram (obj rest : String) (s : State) : (notify obj rest s).ram = s.ram := (notify_only obj rest s).ram
@[simp] theorem notify_fresh (obj rest : String) (s : State) : (notify obj rest s).fresh = s.fresh := (notify_only obj rest s).fresh
@[simp] theorem notify_pending (obj rest : String) (s : State) : (notify obj rest s).pending = s.pending := (notify_only obj rest s).pending

/-! ### notifyOne -/

@[simp] theorem notifyOne_clk (k : Nat) (obj rest : String) (s : State) : (notifyOne k obj rest s).clk = s.clk := (notifyOne_only k obj rest s).clk
@[simp] theorem notifyOne_tly (k : Nat) (obj rest : String) (s : State) : (notifyOne k obj rest s).tly = s.tly := (notifyOne_only k obj rest s).tly
@[simp] theorem notifyOne_evq (k : Nat) (obj rest : String) (s : State) : (notifyOne k obj rest s).evq = s.evq := (notifyOne_only k obj rest s).evq
@[simp] theorem notifyOne_weave (k : Nat) (obj rest : String) (s : State) : (notifyOne k obj rest s).weave = s.weave := (notifyOne_only k obj rest s).weave
@[simp] theorem notifyOne_inn (k : Nat) (obj rest : String) (s : State) : (notifyOne k obj rest s).inn = s.inn := (notifyOne_only k obj rest s).inn
@[simp] theorem notifyOne_ldr (k : Nat) (obj rest : String) (s : State) : (notifyOne k obj rest s).ldr = s.ldr := (notifyOne_only k obj rest s).ldr
@[simp] theorem notifyOne_mem (k : Nat) (obj rest : String) (s : State) : (notifyOne k obj rest s).mem = s.mem := (notifyOne_only k obj rest s).mem
@[simp] theorem notifyOne_cch (k : Nat) (obj rest : String) (s : State) : (notifyOne k obj rest s).cch = s.cch := (notifyOne_only k obj rest s).cch
@[simp] theorem notifyOne_neta (k : Nat) (obj rest : String) (s : State) : (notifyOne k obj rest s).neta = s.neta := (notifyOne_only k obj rest s).neta
@[simp] theorem notifyOne_netb (k : Nat) (obj rest : String) (s : State) : (notifyOne k obj rest s).netb = s.netb := (notifyOne_only k obj rest s).netb
@[simp] theorem notifyOne_aud (k : Nat) (obj rest : String) (s : State) : (notifyOne k obj rest s).aud = s.aud := (notifyOne_only k obj rest s).aud
@[simp] theorem notifyOne_usb (k : Nat) (obj rest : String) (s : State) : (notifyOne k obj rest s).usb = s.usb := (notifyOne_only k obj rest s).usb
@[simp] theorem notifyOne_por (k : Nat) (obj rest : String) (s : State) : (notifyOne k obj rest s).por = s.por := (notifyOne_only k obj rest s).por
@[simp] theorem notifyOne_ldg (k : Nat) (obj rest : String) (s : State) : (notifyOne k obj rest s).ldg = s.ldg := (notifyOne_only k obj rest s).ldg
@[simp] theorem notifyOne_hth (k : Nat) (obj rest : String) (s : State) : (notifyOne k obj rest s).hth = s.hth := (notifyOne_only k obj rest s).hth
@[simp] theorem notifyOne_pwr (k : Nat) (obj rest : String) (s : State) : (notifyOne k obj rest s).pwr = s.pwr := (notifyOne_only k obj rest s).pwr
@[simp] theorem notifyOne_jtag (k : Nat) (obj rest : String) (s : State) : (notifyOne k obj rest s).jtag = s.jtag := (notifyOne_only k obj rest s).jtag
@[simp] theorem notifyOne_sys (k : Nat) (obj rest : String) (s : State) : (notifyOne k obj rest s).sys = s.sys := (notifyOne_only k obj rest s).sys
@[simp] theorem notifyOne_ram (k : Nat) (obj rest : String) (s : State) : (notifyOne k obj rest s).ram = s.ram := (notifyOne_only k obj rest s).ram
@[simp] theorem notifyOne_fresh (k : Nat) (obj rest : String) (s : State) : (notifyOne k obj rest s).fresh = s.fresh := (notifyOne_only k obj rest s).fresh
@[simp] theorem notifyOne_pending (k : Nat) (obj rest : String) (s : State) : (notifyOne k obj rest s).pending = s.pending := (notifyOne_only k obj rest s).pending

/-! ### refill -/

@[simp] theorem refill_clk (fuel k : Nat) (s : State) : (refill fuel k s).clk = s.clk := (refill_only fuel k s).clk
@[simp] theorem refill_tly (fuel k : Nat) (s : State) : (refill fuel k s).tly = s.tly := (refill_only fuel k s).tly
@[simp] theorem refill_evq (fuel k : Nat) (s : State) : (refill fuel k s).evq = s.evq := (refill_only fuel k s).evq
@[simp] theorem refill_weave (fuel k : Nat) (s : State) : (refill fuel k s).weave = s.weave := (refill_only fuel k s).weave
@[simp] theorem refill_inn (fuel k : Nat) (s : State) : (refill fuel k s).inn = s.inn := (refill_only fuel k s).inn
@[simp] theorem refill_ldr (fuel k : Nat) (s : State) : (refill fuel k s).ldr = s.ldr := (refill_only fuel k s).ldr
@[simp] theorem refill_mem (fuel k : Nat) (s : State) : (refill fuel k s).mem = s.mem := (refill_only fuel k s).mem
@[simp] theorem refill_cch (fuel k : Nat) (s : State) : (refill fuel k s).cch = s.cch := (refill_only fuel k s).cch
@[simp] theorem refill_neta (fuel k : Nat) (s : State) : (refill fuel k s).neta = s.neta := (refill_only fuel k s).neta
@[simp] theorem refill_netb (fuel k : Nat) (s : State) : (refill fuel k s).netb = s.netb := (refill_only fuel k s).netb
@[simp] theorem refill_aud (fuel k : Nat) (s : State) : (refill fuel k s).aud = s.aud := (refill_only fuel k s).aud
@[simp] theorem refill_usb (fuel k : Nat) (s : State) : (refill fuel k s).usb = s.usb := (refill_only fuel k s).usb
@[simp] theorem refill_por (fuel k : Nat) (s : State) : (refill fuel k s).por = s.por := (refill_only fuel k s).por
@[simp] theorem refill_ldg (fuel k : Nat) (s : State) : (refill fuel k s).ldg = s.ldg := (refill_only fuel k s).ldg
@[simp] theorem refill_hth (fuel k : Nat) (s : State) : (refill fuel k s).hth = s.hth := (refill_only fuel k s).hth
@[simp] theorem refill_pwr (fuel k : Nat) (s : State) : (refill fuel k s).pwr = s.pwr := (refill_only fuel k s).pwr
@[simp] theorem refill_jtag (fuel k : Nat) (s : State) : (refill fuel k s).jtag = s.jtag := (refill_only fuel k s).jtag
@[simp] theorem refill_sys (fuel k : Nat) (s : State) : (refill fuel k s).sys = s.sys := (refill_only fuel k s).sys
@[simp] theorem refill_ram (fuel k : Nat) (s : State) : (refill fuel k s).ram = s.ram := (refill_only fuel k s).ram
@[simp] theorem refill_fresh (fuel k : Nat) (s : State) : (refill fuel k s).fresh = s.fresh := (refill_only fuel k s).fresh
@[simp] theorem refill_pending (fuel k : Nat) (s : State) : (refill fuel k s).pending = s.pending := (refill_only fuel k s).pending

/-! ### sessReply -/

@[simp] theorem sessReply_clk (n : Nat) (text : String) (s : State) : (sessReply n text s).clk = s.clk := (sessReply_only n text s).clk
@[simp] theorem sessReply_tly (n : Nat) (text : String) (s : State) : (sessReply n text s).tly = s.tly := (sessReply_only n text s).tly
@[simp] theorem sessReply_evq (n : Nat) (text : String) (s : State) : (sessReply n text s).evq = s.evq := (sessReply_only n text s).evq
@[simp] theorem sessReply_weave (n : Nat) (text : String) (s : State) : (sessReply n text s).weave = s.weave := (sessReply_only n text s).weave
@[simp] theorem sessReply_inn (n : Nat) (text : String) (s : State) : (sessReply n text s).inn = s.inn := (sessReply_only n text s).inn
@[simp] theorem sessReply_ldr (n : Nat) (text : String) (s : State) : (sessReply n text s).ldr = s.ldr := (sessReply_only n text s).ldr
@[simp] theorem sessReply_mem (n : Nat) (text : String) (s : State) : (sessReply n text s).mem = s.mem := (sessReply_only n text s).mem
@[simp] theorem sessReply_cch (n : Nat) (text : String) (s : State) : (sessReply n text s).cch = s.cch := (sessReply_only n text s).cch
@[simp] theorem sessReply_neta (n : Nat) (text : String) (s : State) : (sessReply n text s).neta = s.neta := (sessReply_only n text s).neta
@[simp] theorem sessReply_netb (n : Nat) (text : String) (s : State) : (sessReply n text s).netb = s.netb := (sessReply_only n text s).netb
@[simp] theorem sessReply_aud (n : Nat) (text : String) (s : State) : (sessReply n text s).aud = s.aud := (sessReply_only n text s).aud
@[simp] theorem sessReply_usb (n : Nat) (text : String) (s : State) : (sessReply n text s).usb = s.usb := (sessReply_only n text s).usb
@[simp] theorem sessReply_por (n : Nat) (text : String) (s : State) : (sessReply n text s).por = s.por := (sessReply_only n text s).por
@[simp] theorem sessReply_ldg (n : Nat) (text : String) (s : State) : (sessReply n text s).ldg = s.ldg := (sessReply_only n text s).ldg
@[simp] theorem sessReply_hth (n : Nat) (text : String) (s : State) : (sessReply n text s).hth = s.hth := (sessReply_only n text s).hth
@[simp] theorem sessReply_pwr (n : Nat) (text : String) (s : State) : (sessReply n text s).pwr = s.pwr := (sessReply_only n text s).pwr
@[simp] theorem sessReply_jtag (n : Nat) (text : String) (s : State) : (sessReply n text s).jtag = s.jtag := (sessReply_only n text s).jtag
@[simp] theorem sessReply_sys (n : Nat) (text : String) (s : State) : (sessReply n text s).sys = s.sys := (sessReply_only n text s).sys
@[simp] theorem sessReply_ram (n : Nat) (text : String) (s : State) : (sessReply n text s).ram = s.ram := (sessReply_only n text s).ram
@[simp] theorem sessReply_fresh (n : Nat) (text : String) (s : State) : (sessReply n text s).fresh = s.fresh := (sessReply_only n text s).fresh
@[simp] theorem sessReply_pending (n : Nat) (text : String) (s : State) : (sessReply n text s).pending = s.pending := (sessReply_only n text s).pending

/-! ### sessAnswer -/

@[simp] theorem sessAnswer_clk (n : Nat) (tag : Option Nat) (r : Except (Nat × String) (List String)) (s : State) : (sessAnswer n tag r s).clk = s.clk := (sessAnswer_only n tag r s).clk
@[simp] theorem sessAnswer_tly (n : Nat) (tag : Option Nat) (r : Except (Nat × String) (List String)) (s : State) : (sessAnswer n tag r s).tly = s.tly := (sessAnswer_only n tag r s).tly
@[simp] theorem sessAnswer_evq (n : Nat) (tag : Option Nat) (r : Except (Nat × String) (List String)) (s : State) : (sessAnswer n tag r s).evq = s.evq := (sessAnswer_only n tag r s).evq
@[simp] theorem sessAnswer_weave (n : Nat) (tag : Option Nat) (r : Except (Nat × String) (List String)) (s : State) : (sessAnswer n tag r s).weave = s.weave := (sessAnswer_only n tag r s).weave
@[simp] theorem sessAnswer_inn (n : Nat) (tag : Option Nat) (r : Except (Nat × String) (List String)) (s : State) : (sessAnswer n tag r s).inn = s.inn := (sessAnswer_only n tag r s).inn
@[simp] theorem sessAnswer_ldr (n : Nat) (tag : Option Nat) (r : Except (Nat × String) (List String)) (s : State) : (sessAnswer n tag r s).ldr = s.ldr := (sessAnswer_only n tag r s).ldr
@[simp] theorem sessAnswer_mem (n : Nat) (tag : Option Nat) (r : Except (Nat × String) (List String)) (s : State) : (sessAnswer n tag r s).mem = s.mem := (sessAnswer_only n tag r s).mem
@[simp] theorem sessAnswer_cch (n : Nat) (tag : Option Nat) (r : Except (Nat × String) (List String)) (s : State) : (sessAnswer n tag r s).cch = s.cch := (sessAnswer_only n tag r s).cch
@[simp] theorem sessAnswer_neta (n : Nat) (tag : Option Nat) (r : Except (Nat × String) (List String)) (s : State) : (sessAnswer n tag r s).neta = s.neta := (sessAnswer_only n tag r s).neta
@[simp] theorem sessAnswer_netb (n : Nat) (tag : Option Nat) (r : Except (Nat × String) (List String)) (s : State) : (sessAnswer n tag r s).netb = s.netb := (sessAnswer_only n tag r s).netb
@[simp] theorem sessAnswer_aud (n : Nat) (tag : Option Nat) (r : Except (Nat × String) (List String)) (s : State) : (sessAnswer n tag r s).aud = s.aud := (sessAnswer_only n tag r s).aud
@[simp] theorem sessAnswer_usb (n : Nat) (tag : Option Nat) (r : Except (Nat × String) (List String)) (s : State) : (sessAnswer n tag r s).usb = s.usb := (sessAnswer_only n tag r s).usb
@[simp] theorem sessAnswer_por (n : Nat) (tag : Option Nat) (r : Except (Nat × String) (List String)) (s : State) : (sessAnswer n tag r s).por = s.por := (sessAnswer_only n tag r s).por
@[simp] theorem sessAnswer_ldg (n : Nat) (tag : Option Nat) (r : Except (Nat × String) (List String)) (s : State) : (sessAnswer n tag r s).ldg = s.ldg := (sessAnswer_only n tag r s).ldg
@[simp] theorem sessAnswer_hth (n : Nat) (tag : Option Nat) (r : Except (Nat × String) (List String)) (s : State) : (sessAnswer n tag r s).hth = s.hth := (sessAnswer_only n tag r s).hth
@[simp] theorem sessAnswer_pwr (n : Nat) (tag : Option Nat) (r : Except (Nat × String) (List String)) (s : State) : (sessAnswer n tag r s).pwr = s.pwr := (sessAnswer_only n tag r s).pwr
@[simp] theorem sessAnswer_jtag (n : Nat) (tag : Option Nat) (r : Except (Nat × String) (List String)) (s : State) : (sessAnswer n tag r s).jtag = s.jtag := (sessAnswer_only n tag r s).jtag
@[simp] theorem sessAnswer_sys (n : Nat) (tag : Option Nat) (r : Except (Nat × String) (List String)) (s : State) : (sessAnswer n tag r s).sys = s.sys := (sessAnswer_only n tag r s).sys
@[simp] theorem sessAnswer_ram (n : Nat) (tag : Option Nat) (r : Except (Nat × String) (List String)) (s : State) : (sessAnswer n tag r s).ram = s.ram := (sessAnswer_only n tag r s).ram
@[simp] theorem sessAnswer_fresh (n : Nat) (tag : Option Nat) (r : Except (Nat × String) (List String)) (s : State) : (sessAnswer n tag r s).fresh = s.fresh := (sessAnswer_only n tag r s).fresh
@[simp] theorem sessAnswer_pending (n : Nat) (tag : Option Nat) (r : Except (Nat × String) (List String)) (s : State) : (sessAnswer n tag r s).pending = s.pending := (sessAnswer_only n tag r s).pending

/-! ### finishSess -/

@[simp] theorem finishSess_clk (n : Nat) (r : Except (Nat × String) (List String)) (s : State) : (finishSess n r s).clk = s.clk := (finishSess_only n r s).clk
@[simp] theorem finishSess_tly (n : Nat) (r : Except (Nat × String) (List String)) (s : State) : (finishSess n r s).tly = s.tly := (finishSess_only n r s).tly
@[simp] theorem finishSess_evq (n : Nat) (r : Except (Nat × String) (List String)) (s : State) : (finishSess n r s).evq = s.evq := (finishSess_only n r s).evq
@[simp] theorem finishSess_weave (n : Nat) (r : Except (Nat × String) (List String)) (s : State) : (finishSess n r s).weave = s.weave := (finishSess_only n r s).weave
@[simp] theorem finishSess_inn (n : Nat) (r : Except (Nat × String) (List String)) (s : State) : (finishSess n r s).inn = s.inn := (finishSess_only n r s).inn
@[simp] theorem finishSess_ldr (n : Nat) (r : Except (Nat × String) (List String)) (s : State) : (finishSess n r s).ldr = s.ldr := (finishSess_only n r s).ldr
@[simp] theorem finishSess_mem (n : Nat) (r : Except (Nat × String) (List String)) (s : State) : (finishSess n r s).mem = s.mem := (finishSess_only n r s).mem
@[simp] theorem finishSess_cch (n : Nat) (r : Except (Nat × String) (List String)) (s : State) : (finishSess n r s).cch = s.cch := (finishSess_only n r s).cch
@[simp] theorem finishSess_neta (n : Nat) (r : Except (Nat × String) (List String)) (s : State) : (finishSess n r s).neta = s.neta := (finishSess_only n r s).neta
@[simp] theorem finishSess_netb (n : Nat) (r : Except (Nat × String) (List String)) (s : State) : (finishSess n r s).netb = s.netb := (finishSess_only n r s).netb
@[simp] theorem finishSess_aud (n : Nat) (r : Except (Nat × String) (List String)) (s : State) : (finishSess n r s).aud = s.aud := (finishSess_only n r s).aud
@[simp] theorem finishSess_usb (n : Nat) (r : Except (Nat × String) (List String)) (s : State) : (finishSess n r s).usb = s.usb := (finishSess_only n r s).usb
@[simp] theorem finishSess_por (n : Nat) (r : Except (Nat × String) (List String)) (s : State) : (finishSess n r s).por = s.por := (finishSess_only n r s).por
@[simp] theorem finishSess_ldg (n : Nat) (r : Except (Nat × String) (List String)) (s : State) : (finishSess n r s).ldg = s.ldg := (finishSess_only n r s).ldg
@[simp] theorem finishSess_hth (n : Nat) (r : Except (Nat × String) (List String)) (s : State) : (finishSess n r s).hth = s.hth := (finishSess_only n r s).hth
@[simp] theorem finishSess_pwr (n : Nat) (r : Except (Nat × String) (List String)) (s : State) : (finishSess n r s).pwr = s.pwr := (finishSess_only n r s).pwr
@[simp] theorem finishSess_jtag (n : Nat) (r : Except (Nat × String) (List String)) (s : State) : (finishSess n r s).jtag = s.jtag := (finishSess_only n r s).jtag
@[simp] theorem finishSess_sys (n : Nat) (r : Except (Nat × String) (List String)) (s : State) : (finishSess n r s).sys = s.sys := (finishSess_only n r s).sys
@[simp] theorem finishSess_ram (n : Nat) (r : Except (Nat × String) (List String)) (s : State) : (finishSess n r s).ram = s.ram := (finishSess_only n r s).ram
@[simp] theorem finishSess_fresh (n : Nat) (r : Except (Nat × String) (List String)) (s : State) : (finishSess n r s).fresh = s.fresh := (finishSess_only n r s).fresh
@[simp] theorem finishSess_pending (n : Nat) (r : Except (Nat × String) (List String)) (s : State) : (finishSess n r s).pending = s.pending := (finishSess_only n r s).pending

/-! ### noteTag -/

@[simp] theorem noteTag_clk (o : Origin) (tag : Option Nat) (s : State) : (noteTag o tag s).clk = s.clk := (noteTag_only o tag s).clk
@[simp] theorem noteTag_tly (o : Origin) (tag : Option Nat) (s : State) : (noteTag o tag s).tly = s.tly := (noteTag_only o tag s).tly
@[simp] theorem noteTag_evq (o : Origin) (tag : Option Nat) (s : State) : (noteTag o tag s).evq = s.evq := (noteTag_only o tag s).evq
@[simp] theorem noteTag_weave (o : Origin) (tag : Option Nat) (s : State) : (noteTag o tag s).weave = s.weave := (noteTag_only o tag s).weave
@[simp] theorem noteTag_inn (o : Origin) (tag : Option Nat) (s : State) : (noteTag o tag s).inn = s.inn := (noteTag_only o tag s).inn
@[simp] theorem noteTag_ldr (o : Origin) (tag : Option Nat) (s : State) : (noteTag o tag s).ldr = s.ldr := (noteTag_only o tag s).ldr
@[simp] theorem noteTag_mem (o : Origin) (tag : Option Nat) (s : State) : (noteTag o tag s).mem = s.mem := (noteTag_only o tag s).mem
@[simp] theorem noteTag_cch (o : Origin) (tag : Option Nat) (s : State) : (noteTag o tag s).cch = s.cch := (noteTag_only o tag s).cch
@[simp] theorem noteTag_neta (o : Origin) (tag : Option Nat) (s : State) : (noteTag o tag s).neta = s.neta := (noteTag_only o tag s).neta
@[simp] theorem noteTag_netb (o : Origin) (tag : Option Nat) (s : State) : (noteTag o tag s).netb = s.netb := (noteTag_only o tag s).netb
@[simp] theorem noteTag_aud (o : Origin) (tag : Option Nat) (s : State) : (noteTag o tag s).aud = s.aud := (noteTag_only o tag s).aud
@[simp] theorem noteTag_usb (o : Origin) (tag : Option Nat) (s : State) : (noteTag o tag s).usb = s.usb := (noteTag_only o tag s).usb
@[simp] theorem noteTag_por (o : Origin) (tag : Option Nat) (s : State) : (noteTag o tag s).por = s.por := (noteTag_only o tag s).por
@[simp] theorem noteTag_ldg (o : Origin) (tag : Option Nat) (s : State) : (noteTag o tag s).ldg = s.ldg := (noteTag_only o tag s).ldg
@[simp] theorem noteTag_hth (o : Origin) (tag : Option Nat) (s : State) : (noteTag o tag s).hth = s.hth := (noteTag_only o tag s).hth
@[simp] theorem noteTag_pwr (o : Origin) (tag : Option Nat) (s : State) : (noteTag o tag s).pwr = s.pwr := (noteTag_only o tag s).pwr
@[simp] theorem noteTag_jtag (o : Origin) (tag : Option Nat) (s : State) : (noteTag o tag s).jtag = s.jtag := (noteTag_only o tag s).jtag
@[simp] theorem noteTag_sys (o : Origin) (tag : Option Nat) (s : State) : (noteTag o tag s).sys = s.sys := (noteTag_only o tag s).sys
@[simp] theorem noteTag_ram (o : Origin) (tag : Option Nat) (s : State) : (noteTag o tag s).ram = s.ram := (noteTag_only o tag s).ram
@[simp] theorem noteTag_fresh (o : Origin) (tag : Option Nat) (s : State) : (noteTag o tag s).fresh = s.fresh := (noteTag_only o tag s).fresh
@[simp] theorem noteTag_pending (o : Origin) (tag : Option Nat) (s : State) : (noteTag o tag s).pending = s.pending := (noteTag_only o tag s).pending

/-! ### holdLine -/

@[simp] theorem holdLine_clk (o : Origin) (tag : Option Nat) (s : State) : (holdLine o tag s).clk = s.clk := (holdLine_only o tag s).clk
@[simp] theorem holdLine_tly (o : Origin) (tag : Option Nat) (s : State) : (holdLine o tag s).tly = s.tly := (holdLine_only o tag s).tly
@[simp] theorem holdLine_evq (o : Origin) (tag : Option Nat) (s : State) : (holdLine o tag s).evq = s.evq := (holdLine_only o tag s).evq
@[simp] theorem holdLine_weave (o : Origin) (tag : Option Nat) (s : State) : (holdLine o tag s).weave = s.weave := (holdLine_only o tag s).weave
@[simp] theorem holdLine_inn (o : Origin) (tag : Option Nat) (s : State) : (holdLine o tag s).inn = s.inn := (holdLine_only o tag s).inn
@[simp] theorem holdLine_ldr (o : Origin) (tag : Option Nat) (s : State) : (holdLine o tag s).ldr = s.ldr := (holdLine_only o tag s).ldr
@[simp] theorem holdLine_mem (o : Origin) (tag : Option Nat) (s : State) : (holdLine o tag s).mem = s.mem := (holdLine_only o tag s).mem
@[simp] theorem holdLine_cch (o : Origin) (tag : Option Nat) (s : State) : (holdLine o tag s).cch = s.cch := (holdLine_only o tag s).cch
@[simp] theorem holdLine_neta (o : Origin) (tag : Option Nat) (s : State) : (holdLine o tag s).neta = s.neta := (holdLine_only o tag s).neta
@[simp] theorem holdLine_netb (o : Origin) (tag : Option Nat) (s : State) : (holdLine o tag s).netb = s.netb := (holdLine_only o tag s).netb
@[simp] theorem holdLine_aud (o : Origin) (tag : Option Nat) (s : State) : (holdLine o tag s).aud = s.aud := (holdLine_only o tag s).aud
@[simp] theorem holdLine_usb (o : Origin) (tag : Option Nat) (s : State) : (holdLine o tag s).usb = s.usb := (holdLine_only o tag s).usb
@[simp] theorem holdLine_por (o : Origin) (tag : Option Nat) (s : State) : (holdLine o tag s).por = s.por := (holdLine_only o tag s).por
@[simp] theorem holdLine_ldg (o : Origin) (tag : Option Nat) (s : State) : (holdLine o tag s).ldg = s.ldg := (holdLine_only o tag s).ldg
@[simp] theorem holdLine_hth (o : Origin) (tag : Option Nat) (s : State) : (holdLine o tag s).hth = s.hth := (holdLine_only o tag s).hth
@[simp] theorem holdLine_pwr (o : Origin) (tag : Option Nat) (s : State) : (holdLine o tag s).pwr = s.pwr := (holdLine_only o tag s).pwr
@[simp] theorem holdLine_jtag (o : Origin) (tag : Option Nat) (s : State) : (holdLine o tag s).jtag = s.jtag := (holdLine_only o tag s).jtag
@[simp] theorem holdLine_sys (o : Origin) (tag : Option Nat) (s : State) : (holdLine o tag s).sys = s.sys := (holdLine_only o tag s).sys
@[simp] theorem holdLine_ram (o : Origin) (tag : Option Nat) (s : State) : (holdLine o tag s).ram = s.ram := (holdLine_only o tag s).ram
@[simp] theorem holdLine_fresh (o : Origin) (tag : Option Nat) (s : State) : (holdLine o tag s).fresh = s.fresh := (holdLine_only o tag s).fresh
@[simp] theorem holdLine_pending (o : Origin) (tag : Option Nat) (s : State) : (holdLine o tag s).pending = s.pending := (holdLine_only o tag s).pending

/-! ### switchMode -/

@[simp] theorem switchMode_clk (o : Origin) (s : State) : (switchMode o s).clk = s.clk := (switchMode_only o s).clk
@[simp] theorem switchMode_tly (o : Origin) (s : State) : (switchMode o s).tly = s.tly := (switchMode_only o s).tly
@[simp] theorem switchMode_evq (o : Origin) (s : State) : (switchMode o s).evq = s.evq := (switchMode_only o s).evq
@[simp] theorem switchMode_weave (o : Origin) (s : State) : (switchMode o s).weave = s.weave := (switchMode_only o s).weave
@[simp] theorem switchMode_inn (o : Origin) (s : State) : (switchMode o s).inn = s.inn := (switchMode_only o s).inn
@[simp] theorem switchMode_ldr (o : Origin) (s : State) : (switchMode o s).ldr = s.ldr := (switchMode_only o s).ldr
@[simp] theorem switchMode_mem (o : Origin) (s : State) : (switchMode o s).mem = s.mem := (switchMode_only o s).mem
@[simp] theorem switchMode_cch (o : Origin) (s : State) : (switchMode o s).cch = s.cch := (switchMode_only o s).cch
@[simp] theorem switchMode_neta (o : Origin) (s : State) : (switchMode o s).neta = s.neta := (switchMode_only o s).neta
@[simp] theorem switchMode_netb (o : Origin) (s : State) : (switchMode o s).netb = s.netb := (switchMode_only o s).netb
@[simp] theorem switchMode_aud (o : Origin) (s : State) : (switchMode o s).aud = s.aud := (switchMode_only o s).aud
@[simp] theorem switchMode_usb (o : Origin) (s : State) : (switchMode o s).usb = s.usb := (switchMode_only o s).usb
@[simp] theorem switchMode_por (o : Origin) (s : State) : (switchMode o s).por = s.por := (switchMode_only o s).por
@[simp] theorem switchMode_ldg (o : Origin) (s : State) : (switchMode o s).ldg = s.ldg := (switchMode_only o s).ldg
@[simp] theorem switchMode_hth (o : Origin) (s : State) : (switchMode o s).hth = s.hth := (switchMode_only o s).hth
@[simp] theorem switchMode_pwr (o : Origin) (s : State) : (switchMode o s).pwr = s.pwr := (switchMode_only o s).pwr
@[simp] theorem switchMode_jtag (o : Origin) (s : State) : (switchMode o s).jtag = s.jtag := (switchMode_only o s).jtag
@[simp] theorem switchMode_sys (o : Origin) (s : State) : (switchMode o s).sys = s.sys := (switchMode_only o s).sys
@[simp] theorem switchMode_ram (o : Origin) (s : State) : (switchMode o s).ram = s.ram := (switchMode_only o s).ram
@[simp] theorem switchMode_fresh (o : Origin) (s : State) : (switchMode o s).fresh = s.fresh := (switchMode_only o s).fresh
@[simp] theorem switchMode_pending (o : Origin) (s : State) : (switchMode o s).pending = s.pending := (switchMode_only o s).pending

/-! ### pushLog -/

@[simp] theorem pushLog_clk (e : LogEntry) (s : State) : (pushLog e s).clk = s.clk := rfl
@[simp] theorem pushLog_tly (e : LogEntry) (s : State) : (pushLog e s).tly = s.tly := rfl
@[simp] theorem pushLog_evq (e : LogEntry) (s : State) : (pushLog e s).evq = s.evq := rfl
@[simp] theorem pushLog_weave (e : LogEntry) (s : State) : (pushLog e s).weave = s.weave := rfl
@[simp] theorem pushLog_inn (e : LogEntry) (s : State) : (pushLog e s).inn = s.inn := rfl
@[simp] theorem pushLog_ldr (e : LogEntry) (s : State) : (pushLog e s).ldr = s.ldr := rfl
@[simp] theorem pushLog_mem (e : LogEntry) (s : State) : (pushLog e s).mem = s.mem := rfl
@[simp] theorem pushLog_cch (e : LogEntry) (s : State) : (pushLog e s).cch = s.cch := rfl
@[simp] theorem pushLog_neta (e : LogEntry) (s : State) : (pushLog e s).neta = s.neta := rfl
@[simp] theorem pushLog_netb (e : LogEntry) (s : State) : (pushLog e s).netb = s.netb := rfl
@[simp] theorem pushLog_aud (e : LogEntry) (s : State) : (pushLog e s).aud = s.aud := rfl
@[simp] theorem pushLog_usb (e : LogEntry) (s : State) : (pushLog e s).usb = s.usb := rfl
@[simp] theorem pushLog_por (e : LogEntry) (s : State) : (pushLog e s).por = s.por := rfl
@[simp] theorem pushLog_hth (e : LogEntry) (s : State) : (pushLog e s).hth = s.hth := rfl
@[simp] theorem pushLog_pwr (e : LogEntry) (s : State) : (pushLog e s).pwr = s.pwr := rfl
@[simp] theorem pushLog_jtag (e : LogEntry) (s : State) : (pushLog e s).jtag = s.jtag := rfl
@[simp] theorem pushLog_sys (e : LogEntry) (s : State) : (pushLog e s).sys = s.sys := rfl
@[simp] theorem pushLog_ram (e : LogEntry) (s : State) : (pushLog e s).ram = s.ram := rfl
@[simp] theorem pushLog_fresh (e : LogEntry) (s : State) : (pushLog e s).fresh = s.fresh := rfl
@[simp] theorem pushLog_pending (e : LogEntry) (s : State) : (pushLog e s).pending = s.pending := rfl
@[simp] theorem pushLog_desk (e : LogEntry) (s : State) : (pushLog e s).desk = s.desk := rfl

/-! ### logEv -/

@[simp] theorem logEv_clk (src code evseq arg arg2 : Nat) (s : State) : (logEv src code evseq arg arg2 s).clk = s.clk := rfl
@[simp] theorem logEv_tly (src code evseq arg arg2 : Nat) (s : State) : (logEv src code evseq arg arg2 s).tly = s.tly := rfl
@[simp] theorem logEv_evq (src code evseq arg arg2 : Nat) (s : State) : (logEv src code evseq arg arg2 s).evq = s.evq := rfl
@[simp] theorem logEv_weave (src code evseq arg arg2 : Nat) (s : State) : (logEv src code evseq arg arg2 s).weave = s.weave := rfl
@[simp] theorem logEv_inn (src code evseq arg arg2 : Nat) (s : State) : (logEv src code evseq arg arg2 s).inn = s.inn := rfl
@[simp] theorem logEv_ldr (src code evseq arg arg2 : Nat) (s : State) : (logEv src code evseq arg arg2 s).ldr = s.ldr := rfl
@[simp] theorem logEv_mem (src code evseq arg arg2 : Nat) (s : State) : (logEv src code evseq arg arg2 s).mem = s.mem := rfl
@[simp] theorem logEv_cch (src code evseq arg arg2 : Nat) (s : State) : (logEv src code evseq arg arg2 s).cch = s.cch := rfl
@[simp] theorem logEv_neta (src code evseq arg arg2 : Nat) (s : State) : (logEv src code evseq arg arg2 s).neta = s.neta := rfl
@[simp] theorem logEv_netb (src code evseq arg arg2 : Nat) (s : State) : (logEv src code evseq arg arg2 s).netb = s.netb := rfl
@[simp] theorem logEv_aud (src code evseq arg arg2 : Nat) (s : State) : (logEv src code evseq arg arg2 s).aud = s.aud := rfl
@[simp] theorem logEv_usb (src code evseq arg arg2 : Nat) (s : State) : (logEv src code evseq arg arg2 s).usb = s.usb := rfl
@[simp] theorem logEv_por (src code evseq arg arg2 : Nat) (s : State) : (logEv src code evseq arg arg2 s).por = s.por := rfl
@[simp] theorem logEv_hth (src code evseq arg arg2 : Nat) (s : State) : (logEv src code evseq arg arg2 s).hth = s.hth := rfl
@[simp] theorem logEv_pwr (src code evseq arg arg2 : Nat) (s : State) : (logEv src code evseq arg arg2 s).pwr = s.pwr := rfl
@[simp] theorem logEv_jtag (src code evseq arg arg2 : Nat) (s : State) : (logEv src code evseq arg arg2 s).jtag = s.jtag := rfl
@[simp] theorem logEv_sys (src code evseq arg arg2 : Nat) (s : State) : (logEv src code evseq arg arg2 s).sys = s.sys := rfl
@[simp] theorem logEv_ram (src code evseq arg arg2 : Nat) (s : State) : (logEv src code evseq arg arg2 s).ram = s.ram := rfl
@[simp] theorem logEv_fresh (src code evseq arg arg2 : Nat) (s : State) : (logEv src code evseq arg arg2 s).fresh = s.fresh := rfl
@[simp] theorem logEv_pending (src code evseq arg arg2 : Nat) (s : State) : (logEv src code evseq arg arg2 s).pending = s.pending := rfl
@[simp] theorem logEv_desk (src code evseq arg arg2 : Nat) (s : State) : (logEv src code evseq arg arg2 s).desk = s.desk := rfl

/-! ### logAt -/

@[simp] theorem logAt_clk (t : Tally) (late : Bool) (src code evseq arg arg2 : Nat) (s : State) : (logAt t late src code evseq arg arg2 s).clk = s.clk := rfl
@[simp] theorem logAt_tly (t : Tally) (late : Bool) (src code evseq arg arg2 : Nat) (s : State) : (logAt t late src code evseq arg arg2 s).tly = s.tly := rfl
@[simp] theorem logAt_evq (t : Tally) (late : Bool) (src code evseq arg arg2 : Nat) (s : State) : (logAt t late src code evseq arg arg2 s).evq = s.evq := rfl
@[simp] theorem logAt_weave (t : Tally) (late : Bool) (src code evseq arg arg2 : Nat) (s : State) : (logAt t late src code evseq arg arg2 s).weave = s.weave := rfl
@[simp] theorem logAt_inn (t : Tally) (late : Bool) (src code evseq arg arg2 : Nat) (s : State) : (logAt t late src code evseq arg arg2 s).inn = s.inn := rfl
@[simp] theorem logAt_ldr (t : Tally) (late : Bool) (src code evseq arg arg2 : Nat) (s : State) : (logAt t late src code evseq arg arg2 s).ldr = s.ldr := rfl
@[simp] theorem logAt_mem (t : Tally) (late : Bool) (src code evseq arg arg2 : Nat) (s : State) : (logAt t late src code evseq arg arg2 s).mem = s.mem := rfl
@[simp] theorem logAt_cch (t : Tally) (late : Bool) (src code evseq arg arg2 : Nat) (s : State) : (logAt t late src code evseq arg arg2 s).cch = s.cch := rfl
@[simp] theorem logAt_neta (t : Tally) (late : Bool) (src code evseq arg arg2 : Nat) (s : State) : (logAt t late src code evseq arg arg2 s).neta = s.neta := rfl
@[simp] theorem logAt_netb (t : Tally) (late : Bool) (src code evseq arg arg2 : Nat) (s : State) : (logAt t late src code evseq arg arg2 s).netb = s.netb := rfl
@[simp] theorem logAt_aud (t : Tally) (late : Bool) (src code evseq arg arg2 : Nat) (s : State) : (logAt t late src code evseq arg arg2 s).aud = s.aud := rfl
@[simp] theorem logAt_usb (t : Tally) (late : Bool) (src code evseq arg arg2 : Nat) (s : State) : (logAt t late src code evseq arg arg2 s).usb = s.usb := rfl
@[simp] theorem logAt_por (t : Tally) (late : Bool) (src code evseq arg arg2 : Nat) (s : State) : (logAt t late src code evseq arg arg2 s).por = s.por := rfl
@[simp] theorem logAt_hth (t : Tally) (late : Bool) (src code evseq arg arg2 : Nat) (s : State) : (logAt t late src code evseq arg arg2 s).hth = s.hth := rfl
@[simp] theorem logAt_pwr (t : Tally) (late : Bool) (src code evseq arg arg2 : Nat) (s : State) : (logAt t late src code evseq arg arg2 s).pwr = s.pwr := rfl
@[simp] theorem logAt_jtag (t : Tally) (late : Bool) (src code evseq arg arg2 : Nat) (s : State) : (logAt t late src code evseq arg arg2 s).jtag = s.jtag := rfl
@[simp] theorem logAt_sys (t : Tally) (late : Bool) (src code evseq arg arg2 : Nat) (s : State) : (logAt t late src code evseq arg arg2 s).sys = s.sys := rfl
@[simp] theorem logAt_ram (t : Tally) (late : Bool) (src code evseq arg arg2 : Nat) (s : State) : (logAt t late src code evseq arg arg2 s).ram = s.ram := rfl
@[simp] theorem logAt_fresh (t : Tally) (late : Bool) (src code evseq arg arg2 : Nat) (s : State) : (logAt t late src code evseq arg arg2 s).fresh = s.fresh := rfl
@[simp] theorem logAt_pending (t : Tally) (late : Bool) (src code evseq arg arg2 : Nat) (s : State) : (logAt t late src code evseq arg arg2 s).pending = s.pending := rfl
@[simp] theorem logAt_desk (t : Tally) (late : Bool) (src code evseq arg arg2 : Nat) (s : State) : (logAt t late src code evseq arg arg2 s).desk = s.desk := rfl

end Sys2Proof.Machine
end

