-- ==== Sys2Proof/Laws/Command.lean ====
section
/-! SUPPORT. A command line answered: from what its verb's own body gives to what `exec` answers. -/

namespace Sys2Proof.Machine

variable {v : Verb} {body : Ctx → Pfx → Env → State → Res} {c : Ctx} {p : Pfx} {a : Args} {e : Env} {s u : State} {i : Instr}

/-- A line whose sender has none to run does nothing. -/
theorem ulc_idle (h : canRun c.origin s = false) : ulc v body c p a s = .next s := by
  unfold ulc runCommand; rw [h]; rfl

/-- What passing check orders 5 to 7 says. -/
theorem checkLine_ok (h : checkLine v c p a s = .ok e) : checkKeys v c a s = .ok e ∧ strayPrefix v p = false := by
  unfold checkLine at h
  cases hk : checkKeys v c a s with
  | error x => rw [hk] at h; cases h
  | ok x =>
    rw [hk] at h
    cases hp : strayPrefix v p with
    | true => simp [hp] at h
    | false => simp [hp] at h; exact ⟨by rw [h], rfl⟩

/-- A line that passes the shared checks is answered with what its body gives. -/
theorem ulc_body (h : Passes v c p a e s) : ulc v body c p a s = .next (deliver c (body c p e s)) := by
  obtain ⟨hk, hp⟩ := checkLine_ok h.2
  unfold ulc runCommand runVerb; rw [h.1, hk]; simp [hp]

/-- A line that fails a shared check, with no wrong partition password in it, is answered with that error. -/
theorem ulc_error {k : Nat} {key : String} (h : canRun c.origin s = true) (he : checkKeys v c a s = .error (k, key))
    (hw : k = 20 ∨ k = 21 ∨ keyWrong v c.origin a s = none) : ulc v body c p a s = .next (deliver c (.err k key s)) := by
  have hn : (if k = 20 ∨ k = 21 then none else keyWrong v c.origin a s) = none := by
    split
    · rfl
    · rename_i hk; exact (hw.resolve_left fun x => hk (.inl x)).resolve_left fun x => hk (.inr x)
  unfold ulc runCommand runVerb; rw [h, he]; simp [hn]

theorem answersOk_of_body {ls : List String} (hi : exec i s = ulc v body c p a s) (h : Passes v c p a e s)
    (hb : body c p e s = .ok ls u) : AnswersOk i c s ls u := by
  unfold AnswersOk; rw [hi, ulc_body h, hb]

theorem answersWith_of_body {P : List String → State → Prop} (hi : exec i s = ulc v body c p a s) (h : Passes v c p a e s)
    (hb : ∃ ls u, body c p e s = .ok ls u ∧ P ls u) : AnswersWith i c s P := by
  obtain ⟨ls, u, hb, hp⟩ := hb; exact ⟨ls, u, answersOk_of_body hi h hb, hp⟩

theorem begins_of_body {P : State → Prop} (hi : exec i s = ulc v body c p a s) (h : Passes v c p a e s)
    (hb : ∃ u, body c p e s = .work u ∧ P u) : Begins i c s P := by
  obtain ⟨u, hb, hp⟩ := hb; exact ⟨u, by rw [hi, ulc_body h, hb], hp⟩

theorem refuses_of_body {k : Nat} {key : String} (hi : exec i s = ulc v body c p a s) (h : Passes v c p a e s)
    (hb : body c p e s = .err k key s) : Refuses i c s k key := by
  unfold Refuses; rw [hi, ulc_body h, hb]

theorem refuses_of_check {k : Nat} {key : String} (hi : exec i s = ulc v body c p a s) (h : canRun c.origin s = true)
    (he : checkKeys v c a s = .error (k, key)) (hw : k = 20 ∨ k = 21 ∨ keyWrong v c.origin a s = none) : Refuses i c s k key := by
  unfold Refuses; rw [hi, ulc_error h he hw]

end Sys2Proof.Machine
end

