-- ==== Sys2Proof/Laws/Memory.lean ====
section
/-! SUPPORT. Memory and sparse tables: every operation keeps the canonical form, a read after a write gives the byte written,
and a write leaves every other byte alone. -/

namespace Sys2Proof.Machine

/-! ### Canonical form -/

theorem Memory.wfFrom_cons {lo : Option Nat} {a : Nat} {b : Byte} {m : Memory} :
    Memory.wfFrom lo ((a, b) :: m) = true ↔
      (match lo with | none => True | some l => l < a) ∧ b ≠ Memory.blank ∧ Memory.wfFrom (some a) m = true := by
  cases lo <;> simp [Memory.wfFrom, and_assoc]

theorem Memory.wfFrom_weaken {m : Memory} {a b : Nat} (h : a ≤ b) (w : Memory.wfFrom (some b) m = true) :
    Memory.wfFrom (some a) m = true := by
  cases m with
  | nil => rfl
  | cons c r =>
    obtain ⟨x, y⟩ := c
    rw [Memory.wfFrom_cons] at w ⊢
    exact ⟨Nat.lt_of_le_of_lt h w.1, w.2⟩

theorem Memory.wfFrom_none {m : Memory} {a : Nat} (w : Memory.wfFrom (some a) m = true) : Memory.wfFrom none m = true := by
  cases m with
  | nil => rfl
  | cons c r =>
    obtain ⟨x, y⟩ := c
    rw [Memory.wfFrom_cons] at w ⊢
    exact ⟨trivial, w.2⟩

theorem Memory.wfFrom_write {m : Memory} {lo : Option Nat} {a : Nat} (b : Byte)
    (hl : match lo with | none => True | some l => l < a) (w : Memory.wfFrom lo m = true) :
    Memory.wfFrom lo (m.write a b) = true := by
  induction m generalizing lo with
  | nil =>
    unfold Memory.write
    split
    · exact w
    · rename_i hb; exact Memory.wfFrom_cons.mpr ⟨hl, hb, rfl⟩
  | cons c r ih =>
    obtain ⟨x, y⟩ := c
    have wc := Memory.wfFrom_cons.mp w
    unfold Memory.write
    simp only
    split
    · rename_i hlt
      split
      · exact w
      · rename_i hb
        exact Memory.wfFrom_cons.mpr ⟨hl, hb, Memory.wfFrom_cons.mpr ⟨hlt, wc.2⟩⟩
    · rename_i hge
      split
      · rename_i he
        subst he
        split
        · cases lo with
          | none => exact Memory.wfFrom_none wc.2.2
          | some l => exact Memory.wfFrom_weaken (Nat.le_of_lt wc.1) wc.2.2
        · rename_i hb
          exact Memory.wfFrom_cons.mpr ⟨wc.1, hb, wc.2.2⟩
      · rename_i hne
        exact Memory.wfFrom_cons.mpr ⟨wc.1, wc.2.1, ih (by omega) wc.2.2⟩

/-- A write keeps the canonical form. -/
theorem Memory.wf_write {m : Memory} (a : Nat) (b : Byte) (w : m.wf = true) : (m.write a b).wf = true :=
  Memory.wfFrom_write b trivial w

/-- A run of writes keeps the canonical form. -/
theorem Memory.wf_writeN {m : Memory} (a : Nat) (bs : List Byte) (w : m.wf = true) : (m.writeN a bs).wf = true := by
  induction bs generalizing m a with
  | nil => exact w
  | cons b r ih => exact ih (a + 1) (Memory.wf_write a b w)

/-- A word's write keeps the canonical form. -/
theorem Memory.wf_writeW {m : Memory} (a : Nat) (v : W32) (w : m.wf = true) : (m.writeW a v).wf = true :=
  Memory.wf_writeN a _ w

/-- Every cell after a bound has a greater address. -/
theorem Memory.key_gt {m : Memory} {a : Nat} (w : Memory.wfFrom (some a) m = true) (c : Host.Cell) (h : c ∈ m) : a < c.1 := by
  induction m generalizing a with
  | nil => simp at h
  | cons d r ih =>
    have hd := Memory.wfFrom_cons.mp w
    rcases List.mem_cons.mp h with rfl | hr
    · exact hd.1
    · exact Nat.lt_trans hd.1 (ih hd.2.2 hr)

theorem Memory.wfFrom_filter {m : Memory} {lo : Option Nat} (p : Host.Cell → Bool) (w : Memory.wfFrom lo m = true) :
    Memory.wfFrom lo (m.filter p) = true := by
  induction m generalizing lo with
  | nil => rfl
  | cons c r ih =>
    obtain ⟨x, y⟩ := c
    have wc := Memory.wfFrom_cons.mp w
    by_cases h : p (x, y) = true
    · rw [List.filter_cons_of_pos h]
      exact Memory.wfFrom_cons.mpr ⟨wc.1, wc.2.1, ih wc.2.2⟩
    · rw [List.filter_cons_of_neg h]
      cases lo with
      | none => exact ih (Memory.wfFrom_none wc.2.2)
      | some l => exact ih (Memory.wfFrom_weaken (Nat.le_of_lt wc.1) wc.2.2)

/-- Taking entries out keeps the canonical form. -/
theorem Memory.wf_filter {m : Memory} (p : Host.Cell → Bool) (w : m.wf = true) : Memory.wf (m.filter p) = true :=
  Memory.wfFrom_filter p w

/-- Zeroing keeps the canonical form. -/
theorem Memory.wf_zero {m : Memory} (a n : Nat) (w : m.wf = true) : (m.zero a n).wf = true := Memory.wfFrom_filter _ w

/-! ### Reads -/

theorem Memory.read_below {m : Memory} {a l : Nat} (h : a ≤ l) (w : Memory.wfFrom (some l) m = true) : m.read a = Memory.blank := by
  induction m generalizing l with
  | nil => rfl
  | cons c r ih =>
    obtain ⟨x, y⟩ := c
    have wc := Memory.wfFrom_cons.mp w
    unfold Memory.read
    have : x ≠ a := by have := wc.1; simp only at this; omega
    simp only [this, if_false]
    exact ih (Nat.le_of_lt (Nat.lt_of_le_of_lt h wc.1)) wc.2.2

theorem Memory.read_write_from {m : Memory} {lo : Option Nat} (a : Nat) (b : Byte) (w : Memory.wfFrom lo m = true) (k : Nat) :
    (m.write a b).read k = if k = a then b else m.read k := by
  induction m generalizing lo with
  | nil =>
    unfold Memory.write
    by_cases hb : b = Memory.blank
    · simp [hb, Memory.read]
    · simp only [hb, if_false, Memory.read, eq_comm (a := a)]
  | cons c r ih =>
    obtain ⟨x, y⟩ := c
    have wc := Memory.wfFrom_cons.mp w
    unfold Memory.write
    simp only
    by_cases h1 : a < x
    · simp only [h1, if_true]
      by_cases hb : b = Memory.blank
      · simp only [hb, if_true]
        by_cases hk : k = a
        · subst hk
          simp only [if_true]
          unfold Memory.read
          have : x ≠ k := by omega
          simp only [this, if_false]
          exact Memory.read_below (Nat.le_of_lt h1) wc.2.2
        · simp only [hk, if_false]
      · simp only [hb, if_false]
        conv => lhs; unfold Memory.read
        simp only [eq_comm (a := a)]
    · simp only [h1, if_false]
      by_cases h2 : x = a
      · subst h2
        simp only [if_true]
        by_cases hb : b = Memory.blank
        · simp only [hb, if_true]
          by_cases hk : k = x
          · subst hk
            simp only [if_true]
            exact Memory.read_below (Nat.le_refl _) wc.2.2
          · simp only [hk, if_false]
            conv => rhs; unfold Memory.read
            simp only [eq_comm (a := x), hk, if_false]
        · simp only [hb, if_false]
          conv => lhs; unfold Memory.read
          conv => rhs; rw [Memory.read.eq_def]
          by_cases hk : k = x
          · simp [hk]
          · simp [hk, Ne.symm hk]
      · simp only [h2, if_false]
        conv => lhs; unfold Memory.read
        conv => rhs; rw [Memory.read.eq_def]
        simp only [ih wc.2.2]
        by_cases hx : x = k
        · subst hx; simp [h2]
        · simp [hx]

/-- What a byte reads as after a write. -/
theorem Memory.read_write {m : Memory} (w : m.wf = true) (a : Nat) (b : Byte) (k : Nat) :
    (m.write a b).read k = if k = a then b else m.read k := Memory.read_write_from a b w k

/-- The byte written is read back. -/
theorem Memory.read_write_same {m : Memory} (w : m.wf = true) (a : Nat) (b : Byte) : (m.write a b).read a = b := by
  simp [Memory.read_write w]

/-- Every other byte is left alone. -/
theorem Memory.read_write_ne {m : Memory} (w : m.wf = true) (a : Nat) (b : Byte) (k : Nat) (h : k ≠ a) :
    (m.write a b).read k = m.read k := by simp [Memory.read_write w, h]

/-- A run of writes leaves every byte outside it alone. -/
theorem Memory.read_writeN_out {m : Memory} (w : m.wf = true) (a : Nat) (bs : List Byte) (k : Nat) (h : k < a ∨ a + bs.length ≤ k) :
    (m.writeN a bs).read k = m.read k := by
  induction bs generalizing m a with
  | nil => rfl
  | cons b r ih =>
    simp only [List.length_cons] at h
    unfold Memory.writeN
    rw [ih (Memory.wf_write a b w) (a + 1) (by omega), Memory.read_write_ne w a b k (by omega)]

/-- A run of writes is read back byte for byte. -/
theorem Memory.read_writeN_in {m : Memory} (w : m.wf = true) (a : Nat) (bs : List Byte) (k : Nat) (h : k < bs.length) :
    (m.writeN a bs).read (a + k) = bs.getD k Memory.blank := by
  induction bs generalizing m a k with
  | nil => simp at h
  | cons b r ih =>
    unfold Memory.writeN
    cases k with
    | zero =>
      rw [Memory.read_writeN_out (Memory.wf_write a b w) (a + 1) r _ (by omega)]
      simp [Memory.read_write_same w]
    | succ k =>
      have := ih (Memory.wf_write a b w) (a + 1) k (by simpa using h)
      rw [show a + (k + 1) = a + 1 + k by omega, this]
      simp

/-! ### A run zeroed, and a run copied -/

/-- A memory filtered by address reads as it did at the addresses kept, and blank at the others. -/
theorem Memory.read_filter (m : Memory) (p : Nat → Bool) (k : Nat) :
    Memory.read (m.filter fun c => p c.1) k = if p k then m.read k else Memory.blank := by
  induction m with
  | nil => simp [Memory.read]
  | cons c r ih =>
    by_cases hk : c.1 = k
    · subst hk
      by_cases hp : p c.1 = true
      · simp [Memory.read, hp]
      · simp [hp] at ih ⊢
        exact ih
    · by_cases hp : p c.1 = true
      · simp [Memory.read, hp, hk, ih]
      · simp [Memory.read, hp, hk, ih]

/-- A zeroed run reads blank, and every other byte as before. -/
theorem Memory.read_zero (m : Memory) (a n k : Nat) :
    (m.zero a n).read k = if a ≤ k ∧ k < a + n then Memory.blank else m.read k := by
  unfold Memory.zero
  rw [Memory.read_filter m (fun x => !(decide (a ≤ x) && decide (x < a + n))) k]
  by_cases h : a ≤ k ∧ k < a + n
  · simp [h]
  · rw [if_neg h, if_pos]
    simp only [Bool.not_eq_true', Bool.and_eq_false_iff, decide_eq_false_iff_not]
    omega

theorem Memory.wf_foldl_write {l : Memory} (f : Nat → Nat) {m : Memory} (w : m.wf = true) :
    Memory.wf (l.foldl (fun t c => t.write (f c.1) c.2) m) = true := by
  induction l generalizing m with
  | nil => exact w
  | cons c r ih => exact ih (Memory.wf_write _ _ w)

theorem Memory.wf_copy {m : Memory} (src dst n : Nat) (w : m.wf = true) : (m.copy src dst n).wf = true :=
  Memory.wf_foldl_write (fun x => x - src + dst) (Memory.wf_zero dst n w)

/-- An address that no cell is written to keeps its byte. -/
theorem Memory.read_foldl_out (l : Memory) (f : Nat → Nat) {m : Memory} (w : m.wf = true) (a : Nat) (h : ∀ c ∈ l, f c.1 ≠ a) :
    Memory.read (l.foldl (fun t c => t.write (f c.1) c.2) m) a = m.read a := by
  induction l generalizing m with
  | nil => rfl
  | cons c r ih =>
    have hc : a ≠ f c.1 := fun e => h c (by simp) e.symm
    rw [List.foldl_cons, ih (Memory.wf_write _ _ w) fun x hx => h x (by simp [hx])]
    exact Memory.read_write_ne w _ _ _ hc

/-- A byte outside the run copied to keeps its value. -/
theorem Memory.read_copy_out {m : Memory} (w : m.wf = true) (src dst n k : Nat) (h : k < dst ∨ dst + n ≤ k) :
    (m.copy src dst n).read k = m.read k := by
  unfold Memory.copy
  rw [Memory.read_foldl_out _ (fun x => x - src + dst) (Memory.wf_zero dst n w) k, Memory.read_zero, if_neg (by omega)]
  intro c hc
  simp only [List.mem_filter, Bool.and_eq_true, decide_eq_true_eq] at hc
  omega

/-- The cell a fold of writes leaves at the image of an address. -/
theorem Memory.read_foldl_in {l : Memory} {lo : Option Nat} (src dst : Nat) {m : Memory} (w : m.wf = true)
    (hl : Memory.wfFrom lo l = true) (h : ∀ c ∈ l, src ≤ c.1) (k : Nat) (hb : m.read (dst + k) = Memory.blank) :
    Memory.read (l.foldl (fun t c => t.write (c.1 - src + dst) c.2) m) (dst + k) = Memory.read l (src + k) := by
  induction l generalizing m lo with
  | nil => exact hb
  | cons c r ih =>
    have hr := (Memory.wfFrom_cons.mp hl).2.2
    have hs : ∀ x ∈ r, src ≤ x.1 := fun x hx => h x (by simp [hx])
    have hc : src ≤ c.1 := h c (by simp)
    rw [List.foldl_cons]
    by_cases hk : c.1 = src + k
    · have he : c.1 - src + dst = dst + k := by omega
      rw [Memory.read_foldl_out r (fun x => x - src + dst) (Memory.wf_write _ _ w) (dst + k), he, Memory.read_write_same w]
      · simp [Memory.read, hk]
      · intro x hx
        have := Memory.key_gt hr x hx
        have := hs x hx
        omega
    · rw [ih (Memory.wf_write _ _ w) hr hs]
      · simp [Memory.read, hk]
      · rw [Memory.read_write_ne w _ _ _ (by omega), hb]

/-- A byte of the run copied to is the byte it was copied from. -/
theorem Memory.read_copy_in {m : Memory} (w : m.wf = true) (src dst n k : Nat) (h : k < n) :
    (m.copy src dst n).read (dst + k) = m.read (src + k) := by
  unfold Memory.copy
  rw [Memory.read_foldl_in src dst (Memory.wf_zero dst n w) (Memory.wf_filter _ w),
    Memory.read_filter m (fun x => decide (src ≤ x) && decide (x < src + n)) (src + k), if_pos (by simp; omega)]
  · intro c hc
    simp only [List.mem_filter, Bool.and_eq_true, decide_eq_true_eq] at hc
    exact hc.2.1
  · rw [Memory.read_zero, if_pos (by omega)]

/-! ### Sparse tables -/

@[simp] theorem tget_tset_same {α : Type} (t : Tab α) (k : Nat) (v : α) : tget (tset t k v) k = some v := by
  induction t with
  | nil => simp [tset, tget]
  | cons e r ih =>
    obtain ⟨j, w⟩ := e
    unfold tset
    by_cases h1 : k < j
    · simp [h1, tget]
    · by_cases h2 : j = k
      · simp [h2, tget]
      · simp [h1, h2, tget, ih]

theorem tget_tset_ne {α : Type} (t : Tab α) (k i : Nat) (v : α) (h : i ≠ k) : tget (tset t k v) i = tget t i := by
  induction t with
  | nil => simp [tset, tget, Ne.symm h]
  | cons e r ih =>
    obtain ⟨j, w⟩ := e
    unfold tset
    by_cases h1 : k < j
    · simp [h1, tget, Ne.symm h]
    · by_cases h2 : j = k
      · subst h2; simp [tget, Ne.symm h]
      · simp only [h1, h2, if_false, tget, ih]

@[simp] theorem tgetD_tset_same {α : Type} (t : Tab α) (k : Nat) (v d : α) : tgetD (tset t k v) k d = v := by simp [tgetD]

theorem tgetD_tset_ne {α : Type} (t : Tab α) (k i : Nat) (v d : α) (h : i ≠ k) : tgetD (tset t k v) i d = tgetD t i d := by
  simp [tgetD, tget_tset_ne t k i v h]

@[simp] theorem tgetD_tmod_same {α : Type} (t : Tab α) (k : Nat) (d : α) (f : α → α) :
    tgetD (tmod t k d f) k d = f (tgetD t k d) := by simp [tmod]

theorem tgetD_tmod_ne {α : Type} (t : Tab α) (k i : Nat) (d : α) (f : α → α) (h : i ≠ k) :
    tgetD (tmod t k d f) i d = tgetD t i d := by simp [tmod, tgetD_tset_ne t k i _ d h]

@[simp] theorem State.onGuest_guest (s : State) (g : Nat) (f : Guest → Guest) : (s.onGuest g f).guest g = f (s.guest g) := by
  simp [State.onGuest, State.guest, State.onInn]

theorem State.onGuest_guest_ne (s : State) (g i : Nat) (f : Guest → Guest) (h : i ≠ g) : (s.onGuest g f).guest i = s.guest i := by
  simp [State.onGuest, State.guest, State.onInn, tgetD_tmod_ne _ _ _ _ _ h]

@[simp] theorem State.onStake_stake (s : State) (k : Nat) (f : Stake → Stake) : (s.onStake k f).stake k = f (s.stake k) := by
  simp [State.onStake, State.stake, State.onWeave]

@[simp] theorem State.onRoute_route (s : State) (r : Nat) (f : Route → Route) : (s.onRoute r f).route r = f (s.route r) := by
  simp [State.onRoute, State.route, State.onCch]

theorem State.onRoute_route_ne (s : State) (r i : Nat) (f : Route → Route) (h : i ≠ r) : (s.onRoute r f).route i = s.route i := by
  simp [State.onRoute, State.route, State.onCch, tgetD_tmod_ne _ _ _ _ _ h]

@[simp] theorem State.onWin_win (s : State) (w : Nat) (f : Window → Window) : (s.onWin w f).win w = f (s.win w) := by
  simp [State.onWin, State.win, State.onCch]

@[simp] theorem State.onRing_ring (s : State) (k : Nat) (f : Ring → Ring) : (s.onRing k f).ring k = f (s.ring k) := by
  simp [State.onRing, State.ring, State.onCch]

end Sys2Proof.Machine
end

