-- ==== Sys2Proof/Laws/Rooms.lean ====
section
/-! SUPPORT. What the operations on rooms can change: the zeroings asked for are the Innkeeper's and leave its guests and their rooms; a
room put down or copied changes memory alone, which stays in its canonical form. -/

namespace Sys2Proof.Machine

/-- Asking for zeroings changes which rooms are in use and the engines' queues, and nothing else. -/
theorem askZero_eq (c : Bool) (rs : List Nat) (s : State) :
    ∃ u q, askZero c rs s = s.onInn fun i => { i with inUse := u, zeroq := q } := ⟨_, _, rfl⟩

/-- A row put down in its rooms changes memory alone, and keeps its form. -/
theorem settleRoom_eq (g : Nat) (s : State) (w : s.ram.wf = true) : ∃ m, settleRoom g s = { s with ram := m } ∧ m.wf = true := by
  simp only [settleRoom]
  split
  · split
    · exact ⟨_, rfl, Memory.wf_writeN _ _ w⟩
    · exact ⟨s.ram, rfl, w⟩
  · exact ⟨s.ram, rfl, w⟩

/-- A room copied changes memory alone: the 64 KiB copied to are those copied from, and no other byte changes. -/
theorem copyRoom_eq (src dst : Nat) (s : State) (w : s.ram.wf = true) :
    ∃ m, copyRoom src dst s = { s with ram := m } ∧ m.wf = true ∧ (∀ k, k < 0x10000 → m.read (dst + k) = s.ram.read (src + k)) ∧
      ∀ k, k < dst ∨ dst + 0x10000 ≤ k → m.read k = s.ram.read k :=
  ⟨_, rfl, Memory.wf_copy src dst _ w, fun k h => Memory.read_copy_in w src dst _ k h, fun k h => Memory.read_copy_out w src dst _ k h⟩

/-- A room zeroed changes memory alone: its 64 KiB read zero, and no other byte changes. -/
theorem zeroRoom_eq (r : Nat) (s : State) (w : s.ram.wf = true) :
    ∃ m, zeroRoom r s = { s with ram := m } ∧ m.wf = true ∧
      ∀ k, m.read k = if roomBase r ≤ k ∧ k < roomBase r + 0x10000 then Memory.blank else s.ram.read k :=
  ⟨_, rfl, Memory.wf_zero _ _ w, fun k => Memory.read_zero _ _ _ k⟩

end Sys2Proof.Machine
end

