-- ==== Sys2Proof/Tests/Slice0.lean ====
section
/-! SUPPORT. Tests: a state and operands that meet the hypotheses of each clause of each statement; an ill-formed command for each
check of WellFormed.lean; worked examples of the spec. -/

open Sys2Proof Sys2Proof.Machine

namespace Sys2Proof.Tests

set_option Elab.async false

/-! ### Small states -/

/-- A session that is open at OWNER. -/
def owner : Session := { opened := true, level := .owner }

/-- A part in FULL with every domain and clock on, memory trained and S0 open at OWNER. -/
def full : State :=
  { State.reset with
    clk := { stat := 0xDFF, freq := 1500 }
    tly := { now := 1000 }
    desk := { sess0 := owner, ready := true, script := .idle }
    mem := { trained := true, valid := true, eccOn := true, installed := 96, usable := 90 }
    neta := { en := true, link := true, fecok := true, modp := true }
    netb := { en := true, link := true, fecok := true, modp := true }
    usb := { vbus := true, pullup := true, state := .configured, addr := 5 }
    ldg := { ready := true }
    pwr := { house := .full, dom := 0xFFFF, eff := 0, acked := true, wtgt := 800 }
    sys := { booted := true, pd2Frames := 100 } }

/-- A line of S0. -/
def c0 : Ctx := ⟨.sess 0, none, false⟩

def aw (k w : String) : Arg := ⟨k, .item (.word w)⟩
def an (k : String) (n : Nat) : Arg := ⟨k, .item (.num false n 0 "")⟩
def ah (k : String) (n : Nat) : Arg := ⟨k, .item (.hex 12 n)⟩
def as_ (k x : String) : Arg := ⟨k, .str x⟩

/-- Whether a line passes the checks, and the values it passes with. -/
def passB (v : Verb) (c : Ctx) (p : Pfx) (a : Args) (s : State) : Bool :=
  canRun c.origin s && (match checkLine v c p a s with | .ok _ => true | .error _ => false)
def envOf (v : Verb) (c : Ctx) (p : Pfx) (a : Args) (s : State) : Env :=
  match checkLine v c p a s with | .ok e => e | .error _ => []

theorem passes_of {v : Verb} {c : Ctx} {p : Pfx} {a : Args} {s : State} (h : passB v c p a s = true) :
    Passes v c p a (envOf v c p a s) s := by
  unfold passB at h
  unfold Passes envOf
  cases hc : checkLine v c p a s with
  | ok e => simp_all
  | error e => simp_all

def after (i : Instr) (s : State) : State := match exec i s with | .next t => t | _ => s
def dom (n : Nat) (s : State) : State := { s with pwr := { s.pwr with dom := BitVec.ofNat 16 n } }
def sess (n : Nat) (x : Session) (s : State) : State := s.onSess n fun _ => x
def gst (n : Nat) (g : Guest) (s : State) : State := { s with inn := { s.inn with guests := tset s.inn.guests n g } }
/-- A layer of one unit in S8 with the PLAIN recipe. -/
def lay : Layer :=
  { recipe := 3, ops := [0x34000000], consts := [], h := 1, blocks := 1, split := [false], wfmt := 0, wz := 0, infmt := 0, inz := 0, outfmt := 0, outz := 0,
    glen := 32, fromPrev := 32, fromSelf := 32, matPorts := [], walPorts := [], audioMat := false, wts := [[1]], wexp := [], gscale := [[0x3F800000]],
    cscale := [0x3F800000], sumw := [], vecs := [], smode := .adapt, exp0 := 0, fallback := none, win := 4, hr := 1, emin := -10, emax := 10,
    usesS1 := false, stake := 0 }
def body1 : PlanBody :=
  { first := 1, layers := [lay], ports := [⟨4, false, 0, 0, []⟩], hops := [], tables := [], ein := 0, nin := 1, nout := 1, sigOk := true, store := [] }
def plan1 : Plan :=
  { name := "p", nLayers := 1, rows := 4, rates := 2, chip := 0, chips := 1, stakes := 1, base := 0, key := 0, body := body1,
    sets := [{ mode := .adapt, win := 4, hr := 1, exp0 := 0 }] }
def withPlan (q : Plan) (s : State) : State := { s with weave := { s.weave with plans := [q] } }
def imgBytes : List Byte := [0x41, 0x56, 0x57, 0x50, 0, 1, 1, 0, 1, 1, 2, 0, 1]
/-- LPDDR5X with a plan image at 0x1000. -/
def withImage (m : Byte) (s : State) : State :=
  { s with
    ram := [(0x1000, m), (0x1001, 0x56), (0x1002, 0x57), (0x1003, 0x50), (0x1005, 1), (0x1006, 1), (0x1008, 1), (0x1009, 1), (0x100A, 2), (0x100C, 1), (0x1020, 1)].filter (fun c => c.2 != 0),
    mem := { s.mem with bodies := [(0x1000, body1)] }, sys := { s.sys with keyprog := 3 } }
def imgOf (e : Env) (s : State) : Image := match loadImage e s with | .ok x => x | .error _ => ⟨fun _ => 0, 0, none⟩
def planOf (a b : String) (x : Image) (s : State) : Plan := match checkImage a b x s with | .ok (q, _) => q | .error _ => plan1
def evp (eff : Effect) : Event := ⟨.desk, 5, 1000, 1000, false, none, eff, false⟩
def tabd : TableD := ⟨"t", true, 0x40000, 0, 0, 0, 16, 64, 12, 4, 0, false, false⟩
def withTable (d : TableD) (s : State) : State := { s with ldr := { s.ldr with tables := [(3, d)] } }
def rt (r : Nat) (x : Route) (s : State) : State := s.onRoute r fun _ => x
def req1 : LdrReq := ⟨5, 0, 3, .sum, 0, [2]⟩
def srv (w : List Nat) : Serve := { src := .desk, seq := 9, stamp := 990, named := 990, req := req1, rows := [], wait := w }
def op0 : Route := { state := .opened, peer := "10.0.0.9", peerRoute := some 4, rate := 1000 }
def pk : Packet :=
  { port := 0, src := "10.0.0.9", sport := 51120, csumOk := true, ce := false, ver := 1, tl := false, ar := false, kind := 0, rsvd := 0,
    droute := 7, sroute := 4, pos := 0, psn := 0, msn := 0, tally := 0, rkey := 0x409, roff := 4, len := 4, imm := 0, tagw := 0, apsn := 0,
    status := 0, cecnt := 0, payload := [1, 2, 3, 4] }
def wb : Waybill :=
  { wid := 1, op := 0, flags := 0, aop := 0, rsvd := 0, laddr := 0x3000, len := 4, rkey := 0x409, roff := 4, imm := 0, tagw := 0, wroute := 0, wcount := 0, tally := 0 }
def win9 : Window := { opened := true, tag := 1, addr := 0x2000, len := 0x100, rd := true, wr := true }
def withWin (s : State) : State := s.onWin 9 fun _ => win9
def flow0 : Flow := { state := .run, en := true, addr := "239.1.1.1", udp := 5004, seq := some 7 }
def rxf (f : Flow) (s : State) : State := { s with aud := { s.aud with rx := s.aud.rx.set 2 f } }
def txf (f : Flow) (s : State) : State := { s with aud := { s.aud with tx := s.aud.tx.set 2 f } }
def tdm (x : TdmPort) (s : State) : State := { s with aud := { s.aud with ports := s.aud.ports.set 2 x } }
def por (f : PorSt → PorSt) (s : State) : State := s.onPor f
def lis (k : Nat) (s : State) : State := s.onPor fun p => { p with slots := [(k, { en := true, wake := true, n := 1, thr := 205, tpl := [List.replicate 32 1] })], quals := [(k, 2)] }
def feat (k : Nat) : Feature := ⟨0, [65536, 131072], List.replicate 32 k, [], true, false, false, 0, []⟩
def take0 : Take := ⟨800, [[65536]], 40, [], List.replicate 32 1⟩
def wsup (w : Bool) (s : State) : State := { s with pwr := { s.pwr with vaon := w } }
def dirHead : List Byte := [0x41, 0x56, 0x44, 0x52, 0, 1, 1, 0, 1, 0, 0, 0]
def dirEnt : List Byte :=
  [1, 0, 0, 0, 0x70, 0x31, 0, 0, 0, 0, 0, 0, 0, 0, 0, 0, 0, 0, 0, 0, 0, 0, 2, 0, 0, 0x10, 0, 0, 0, 0, 0, 0]
/-- A boot flash with a directory of one patch image. -/
def flash1 : Flash :=
  { present := true, size := 24, erase := 4096, octal := false, quad := true
    bytes := (List.range 48).zip (dirHead ++ natLe 2 (crc16 ((dirHead ++ dirEnt).map (·.toNat))).toNat ++ [0, 0] ++ dirEnt)
    bodies := [], patches := [(0x20000, (5, true))] }
def flash0 : Flash := { flash1 with bytes := [] }
def unbooted (k : BitVec 3) (s : State) : State := { s with sys := { s.sys with booted := false, strap := k } }
def withFlash (f : Flash) (s : State) : State := { s with sys := { s.sys with flash := some f } }
/-- An untouched Ledger, whose logical pages serve. -/
def chn (n : Nat) (c : Chan) (s : State) : State := { s with hth := { s.hth with chans := s.hth.chans.set n c } }
def meas : HMeas := ⟨0, 2500, 0, false, false, false, false, true, false, false⟩
def lampc : Chan := { mode := .lamp, state := .wait, ilim := 1000, shunt := 500, rhot := 1000, target := 12000 }
def noDeal : State → State := fun s => { s with pwr := { s.pwr with house := .vault, dom := 1 } }
def house (h : House) (g : Option House) (s : State) : State := { s with pwr := { s.pwr with house := h, goal := g } }

/-- A staying guest of plan `p`. -/
def guest1 : Guest := { state := .staying, plan := "p", row := 3, room := 2, join := 1, steps := [⟨4, .run, false, [0x123456]⟩] }

/-- Whether an event line is accepted for tally `t`. -/
def accB (c : Ctx) (p : Pfx) (eff : Effect) (t : Nat) (s : State) : Bool :=
  s.on 3 && decide (p ≠ .plus 0) && decide (namedTally c p s = some t) && decide (t ≤ s.tly.now.toNat + 2147483647) &&
    decide (t < 2 ^ 64) && onTime t c.cut s && (match applyEffect (eventOf c p eff t s) t s with | .ok _ => true | .error _ => false) &&
    !shareFull (eventSource c.origin s).1 s && !isDup (eventSource c.origin s).1 (eventSource c.origin s).2 (BitVec.ofNat 64 t) eff s

theorem acceptable_of {c : Ctx} {p : Pfx} {eff : Effect} {t : Nat} {s : State} (h : accB c p eff t s = true) :
    Acceptable c p eff t s := by
  unfold accB at h
  unfold Acceptable
  cases ha : applyEffect (eventOf c p eff t s) t s with
  | ok u => simp_all
  | error e => simp_all

/-- A name that is not the one the link-local address happens to be. -/
theorem other_name (x : String) : ∃ a, lowerS a ≠ x := by
  by_cases h : lowerS "a" = x
  · exact ⟨"b", fun hb => absurd (h.trans hb.symm) (by decide +kernel)⟩
  · exact ⟨"a", h⟩

theorem imgOf_ok {e : Env} {s : State} (h : (match loadImage e s with | .ok _ => true | .error _ => false) = true) :
    loadImage e s = .ok (imgOf e s) := by
  unfold imgOf
  cases hl : loadImage e s with
  | ok x => rfl
  | error k => simp [hl] at h

/-! ### The hypotheses of the statements can be met -/

/-- Witnesses of the hypotheses of `Obligations.StepRunsFront`. -/
theorem wit_stepRunsFront :
    (∃ (s : State), s.pending = []) :=
  ⟨full, by decide +kernel⟩

/-- Witnesses of the hypotheses of `Obligations.TallyEdge`. -/
theorem wit_tallyEdge :
    (∃ (s : State), s.on 3 = true ∧ s.tly.skipNext = 0) ∧
    (∃ (s : State), s.on 3 = true ∧ s.tly.skipNext ≠ 0) ∧
    (∃ (s : State), s.on 3 = false) :=
  ⟨⟨full, by decide +kernel⟩,
    ⟨full.onTly fun t => {t with skipNext := 7}, by decide +kernel⟩,
    ⟨dom 7 full, by decide +kernel⟩⟩

/-- Witnesses of the hypotheses of `Obligations.TallyEdgeFrame`. -/
theorem wit_tallyEdgeFrame :
    (∃ (ins : List (Nat × W32)) (s : State) (t : State), exec (.tallyEdge ins) s = .next t) :=
  ⟨[], full, after (.tallyEdge []) full, rfl⟩

/-- Witnesses of the hypotheses of `Obligations.Eras`. -/
theorem wit_eras :
    (∃ (s : State), s.on 3 = true) ∧
    (∃ (v : W32) (s : State), s.on 3 = true ∧ fld v 4 3 ≤ 5 ∧ fld v 4 3 ≠ s.tly.rate.toNat ∧ s.anyStaying = false) ∧
    (∃ (v : W32) (s : State), s.on 3 = true ∧ fld v 4 3 ≤ 5 ∧ fld v 4 3 ≠ s.tly.rate.toNat ∧ s.anyStaying = true) :=
  ⟨⟨full, by decide +kernel⟩,
    ⟨0x20, full, by decide +kernel⟩,
    ⟨0x20, gst 4 { state := .staying } full, by decide +kernel⟩⟩

/-- Witnesses of the hypotheses of `Obligations.RefclkLossAndReturn`. -/
theorem wit_refclkLossAndReturn :
    (∃ (s : State), s.on 2 = true ∧ (s.pwr.house = .lobby ∨ s.pwr.house = .full)) ∧
    (∃ (s : State), s.on 2 = true) :=
  ⟨⟨full, by decide +kernel⟩,
    ⟨full, by decide +kernel⟩⟩

/-- Witnesses of the hypotheses of `Obligations.TallySourceLoss`. -/
theorem wit_tallySourceLoss :
    (∃ (s : State), s.on 3 = true ∧ s.tly.state ≠ .freeRun ∧ s.tly.lost = false) ∧
    (∃ (ppm : Nat) (s : State), s.on 3 = true ∧ s.tly.state ≠ .freeRun ∧ s.tly.lost = false ∧ (s.tly.source = 1 ∨ s.tly.source = 2) ∧
      1000 < ppm) ∧
    (∃ (ppm : Nat), ppm ≤ 1000) :=
  ⟨⟨full.onTly fun t => {t with state := .locked}, by decide +kernel⟩,
    ⟨1001, full.onTly fun t => {t with state := .locked, source := 1}, by decide +kernel⟩,
    ⟨1000, by decide +kernel⟩⟩

/-- Witnesses of the hypotheses of `Obligations.PtpAndAlignment`. -/
theorem wit_ptpAndAlignment :
    (∃ (port : Nat) (sec : Nat) (ns : Nat) (dom : Nat) (prio : Nat) (s : State), port < 2 ∧ s.on 3 = true ∧ s.on (portDom port) = true ∧
      (s.net port).link = true ∧ (s.net port).domain = dom ∧ prio ≤ (s.net port).prio1 ∧ s.tly.source = 3 ∧ s.tly.ptpport = (port == 1) ∧
      s.tly.epSec.toNat * 10 ^ 9 + s.tly.epNs.toNat ≤ sec * 10 ^ 9 + ns) ∧
    (∃ (port : Nat) (dom : Nat) (prio : Nat) (s : State), s.on (portDom port) = true ∧ (s.net port).link = true ∧ (s.net port).domain =
      dom ∧ (s.net port).prio1 < prio) ∧
    (∃ (port : Nat) (dom : Nat) (s : State), (s.net port).domain ≠ dom) ∧
    (∃ (v : Tally) (s : State), s.on 3 = true ∧ s.tly.lost = false ∧ s.tly.state ≠ .freeRun ∧ s.tly.state ≠ .ahead ∧ (s.tly.source = 3 ∨
      s.tly.source = 0) ∧ s.tly.target = some v) ∧
    (∃ (s : State), s.on 3 = true ∧ s.tly.lost = false ∧ s.tly.state ≠ .freeRun ∧ s.tly.state ≠ .ahead ∧ (s.tly.source = 1 ∨ s.tly.source
      = 2)) ∧
    (∃ (s : State), s.on 3 = true ∧ s.tly.lost = false ∧ (s.tly.state = .acquire ∨ s.tly.state = .holdover)) :=
  ⟨⟨1, 5, 79, 0, 1, full.onTly fun t => {t with source := 3, ptpport := true, epSec := 5, epNs := 77}, by decide +kernel⟩,
    ⟨1, 0, 200, full.onNet 1 fun n => {n with prio1 := 100}, by decide +kernel⟩,
    ⟨1, 9, full, by decide +kernel⟩,
    ⟨5097, full.onTly fun t => {t with source := 3, state := .acquire, target := some 5097}, by decide +kernel⟩,
    ⟨full.onTly fun t => {t with source := 2, state := .acquire}, by decide +kernel⟩,
    ⟨full.onTly fun t => {t with source := 2, state := .acquire}, by decide +kernel⟩⟩

/-- Witnesses of the hypotheses of `Obligations.SourceWrite`. -/
theorem wit_sourceWrite :
    (∃ (v : W32) (s : State), s.on 3 = true ∧ BitVec.ofNat 2 (fld v 0 2) ≠ s.tly.source ∧ fld v 4 3 = s.tly.rate.toNat) :=
  ⟨0x13, full, by decide +kernel⟩

/-- Witnesses of the hypotheses of `Obligations.TallyRegisters`. -/
theorem wit_tallyRegisters :
    (∃ (s : State), s.on 3 = true) ∧
    (∃ (s : State), s.on 3 = true) ∧
    (∃ (v : W32) (s : State), s.on 3 = true ∧ v.toNat < 10 ^ 9) ∧
    (∃ (v : W32) (s : State), s.on 3 = true ∧ 10 ^ 9 ≤ v.toNat ∧ v.toNat < 2 ^ 30) :=
  ⟨⟨full, by decide +kernel⟩,
    ⟨full, by decide +kernel⟩,
    ⟨999999999, full, by decide +kernel⟩,
    ⟨1000000000, full, by decide +kernel⟩⟩

/-- Witnesses of the hypotheses of `Obligations.TallyVerbs`. -/
theorem wit_tallyVerbs :
    (∃ (c : Ctx) (p : Pfx) (a : Args) (e : Env) (s : State), Passes tlySetV c p a e s ∧ s.on 3 = true ∧ e.has "rate" = false ∧ e.has
      "src" = false ∧ e.has "port" = false ∧ e.has "epoch" = false) ∧
    (∃ (c : Ctx) (p : Pfx) (a : Args) (e : Env) (s : State) (n : Nat), Passes tlySetV c p a e s ∧ e.nat? "rate" = some n ∧ rateCode n ≠
      s.tly.rate ∧ s.anyStaying = true) ∧
    (∃ (c : Ctx) (p : Pfx) (a : Args) (e : Env) (s : State), Passes tlyLateV c p a e s ∧ s.on 3 = true) ∧
    (∃ (c : Ctx) (p : Pfx) (a : Args) (e : Env) (s : State), Passes tlyShowV c p a e s) ∧
    (∃ (c : Ctx) (p : Pfx) (a : Args) (e : Env) (s : State), Passes clkShowV c p a e s) :=
  ⟨⟨c0, .none, [aw "relock" "skip", an "slew" 9], _, full, passes_of (by decide +kernel), by decide +kernel⟩,
    ⟨c0, .none, [an "rate" 96000], _, gst 4 { state := .staying } full, 96000, passes_of (by decide +kernel), by decide +kernel⟩,
    ⟨c0, .none, [aw "src" "desk", aw "policy" "reject-late"], _, full, passes_of (by decide +kernel), by decide +kernel⟩,
    ⟨c0, .none, [], _, full, passes_of (by decide +kernel)⟩,
    ⟨c0, .none, [], _, full, passes_of (by decide +kernel)⟩⟩

/-- Witnesses of the hypotheses of `Obligations.EventQueue`. -/
theorem wit_eventQueue :
    (∃ (src : Src) (seq : BitVec 16) (stamp : Tally) (eff : Effect) (s : State), s.on 3 = true ∧ isDup src seq stamp eff s = true) ∧
    (∃ (src : Src) (seq : BitVec 16) (stamp : Tally) (eff : Effect) (s : State), s.on 3 = true ∧ isDup src seq stamp eff s = false ∧
      shareFull src s = true) ∧
    (∃ (src : Src) (seq : BitVec 16) (stamp : Tally) (cut : Bool) (eff : Effect) (s : State), (∀ r, eff ≠ .request r) ∧ s.on 3 = true ∧
      isDup src seq stamp eff s = false ∧ shareFull src s = false ∧ onTime stamp.toNat cut s = true) ∧
    (∃ (src : Src) (seq : BitVec 16) (stamp : Tally) (cut : Bool) (eff : Effect) (s : State) (r : LdrReq), s.on 3 = true ∧ isDup src seq
      stamp eff s = false ∧ shareFull src s = false ∧ onTime stamp.toNat cut s = true ∧ eff = .request r ∧ s.on 11 = true) ∧
    (∃ (src : Src) (seq : BitVec 16) (stamp : Tally) (cut : Bool) (eff : Effect) (s : State), (∀ r, eff ≠ .request r) ∧ s.on 3 = true ∧
      isDup src seq stamp eff s = false ∧ shareFull src s = false ∧ onTime stamp.toNat cut s = false ∧ rejectsLate src s = false) ∧
    (∃ (src : Src) (seq : BitVec 16) (stamp : Tally) (cut : Bool) (eff : Effect) (s : State), (∀ ch on, eff ≠ .ready ch on) ∧ s.on 3 =
      true ∧ isDup src seq stamp eff s = false ∧ shareFull src s = false ∧ onTime stamp.toNat cut s = false ∧ rejectsLate src s = true) :=
  ⟨⟨.desk, 5, 2000, .mute 3 true, full.onEvq fun q => {q with entries := [⟨.desk, 5, 2000, 2000, false, none, .mute 3 true, false⟩]},
      by decide +kernel⟩,
    ⟨.desk, 5, 2000, .mute 3 true, full.onEvq fun q =>
      {q with entries := List.replicate 2048 ⟨.desk, 6, 3000, 3000, false, none, .mute 3 true, false⟩}, by decide +kernel⟩,
    ⟨.desk, 5, 2000, false, .mute 3 true, full, by intros; simp, by decide +kernel⟩,
    ⟨.route 5, 5, 2000, false, .request ⟨3,0,1,.sum,0,[1]⟩, full, ⟨3,0,1,.sum,0,[1]⟩, by decide +kernel⟩,
    ⟨.desk, 5, 900, false, .mute 3 true, full, by intros; simp, by decide +kernel⟩,
    ⟨.desk, 5, 900, false, .mute 3 true, full.onTly fun t => {t with late := 15}, by intros; simp, by decide +kernel⟩⟩

/-- Witnesses of the hypotheses of `Obligations.EventOrder`. -/
theorem wit_eventOrder :
    (∃ (a : Event) (b : Event), a.src = b.src) ∧
    (∃ (a : Event) (b : Event) (r : Nat) (q : Nat), (∀ n, b.src = .route n → n < 512) ∧ r < 512 ∧ q < 512 ∧ a.src = .desk ∧ b.src ≠
      .desk) ∧
    (∃ (a : Event) (b : Event) (r : Nat) (q : Nat), r < 512 ∧ q < 512 ∧ a.src = .porter ∧ (b.src = .route r ∨ b.src = .larder ∨ b.src =
      .hearth)) ∧
    (∃ (a : Event) (b : Event) (r : Nat) (q : Nat), r < 512 ∧ q < 512 ∧ a.src = .route r ∧ b.src = .route q ∧ r < q) ∧
    (∃ (a : Event) (b : Event) (r : Nat) (q : Nat), r < 512 ∧ q < 512 ∧ a.src = .route r ∧ (b.src = .larder ∨ b.src = .hearth)) ∧
    (∃ (a : Event) (b : Event) (r : Nat) (q : Nat), r < 512 ∧ q < 512 ∧ a.src = .larder ∧ b.src = .hearth) :=
  ⟨⟨⟨.desk, 0xFFFF, 0, 0, false, none, .mute 3 true, false⟩, ⟨.desk, 2, 0, 0, false, none, .mute 3 true, false⟩, by decide +kernel⟩,
    ⟨⟨.desk, 9, 0, 0, false, none, .mute 3 true, false⟩, ⟨.route 511, 2, 0, 0, false, none, .mute 3 true, false⟩, 0, 0,
      by intro n h; cases h; decide, by decide +kernel⟩,
    ⟨⟨.porter, 9, 0, 0, false, none, .mute 3 true, false⟩, ⟨.hearth, 2, 0, 0, false, none, .mute 3 true, false⟩, 0, 0, by decide +kernel⟩,
    ⟨⟨.route 3, 9, 0, 0, false, none, .mute 3 true, false⟩, ⟨.route 511, 2, 0, 0, false, none, .mute 3 true, false⟩, 3, 511,
      by decide +kernel⟩,
    ⟨⟨.route 511, 9, 0, 0, false, none, .mute 3 true, false⟩, ⟨.larder, 2, 0, 0, false, none, .mute 3 true, false⟩, 511, 0,
      by decide +kernel⟩,
    ⟨⟨.larder, 9, 0, 0, false, none, .mute 3 true, false⟩, ⟨.hearth, 2, 0, 0, false, none, .mute 3 true, false⟩, 0, 0, by decide +kernel⟩⟩

/-- Witnesses of the hypotheses of `Obligations.CheckOrder`. -/
theorem wit_checkOrder :
    (∃ (c : Ctx) (s : State), canRun c.origin s = true ∧ (s.levelOf c.origin).rank < Level.keeper.rank) ∧
    (∃ (n : Nat) (s : State), (∃ m, m ≠ n ∧ ("aud", m) ∈ s.desk.claims) ∧ canRun (.sess n) s = true ∧ Level.keeper.rank ≤ (s.levelOf
      (.sess n)).rank) ∧
    (∃ (c : Ctx) (s : State), canRun c.origin s = true ∧ Level.keeper.rank ≤ (s.levelOf c.origin).rank ∧ s.desk.claims = []) ∧
    (∃ (c : Ctx) (s : State), canRun c.origin s = true ∧ Level.keeper.rank ≤ (s.levelOf c.origin).rank ∧ s.desk.claims = []) ∧
    (∃ (c : Ctx) (p : Pfx) (s : State), canRun c.origin s = true ∧ Level.keeper.rank ≤ (s.levelOf c.origin).rank ∧ s.desk.claims = [] ∧ p
      ≠ .none) :=
  ⟨⟨c0, sess 0 { owner with level := .visitor } full, by decide +kernel⟩,
    ⟨0, { full with desk := { full.desk with claims := [("aud",2)] } }, ⟨2, by decide +kernel⟩, by decide +kernel⟩,
    ⟨c0, full, by decide +kernel⟩,
    ⟨c0, full, by decide +kernel⟩,
    ⟨c0, .plus 3, full, by decide +kernel⟩⟩

/-- Witnesses of the hypotheses of `Obligations.LineAnswers`. -/
theorem wit_lineAnswers :
    (∃ (n : Nat) (ls : List String) (s : State), n < 4 ∧ (s.sess n).opened = true ∧ s.desk.ready = true ∧ (s.sess n).machine = false ∧
      (s.sess n).waiting = none ∧ (s.sess n).next = none ∧ outUsed (s.sess n) + (okText false none ls).length + promptS.length ≤ outCap) ∧
    (∃ (n : Nat) (s : State), n < 4 ∧ (s.sess n).opened = false ∧ (s.sess n).next = none) ∧
    (∃ (l : Nat) (w : ScriptWait) (s : State), s.desk.script = .running l w) ∧
    (∃ (k : Nat) (l : Nat) (w : ScriptWait) (s : State), s.desk.script = .running l w ∧ k ≠ l) :=
  ⟨⟨0, ["a=1"], full, by decide +kernel⟩,
    ⟨2, full, by decide +kernel⟩,
    ⟨4, .no, { full with desk := { full.desk with script := .running 4 .no } }, by decide +kernel⟩,
    ⟨3, 4, .no, { full with desk := { full.desk with script := .running 4 .no } }, by decide +kernel⟩⟩

/-- Witnesses of the hypotheses of `Obligations.Sessions`. -/
theorem wit_sessions :
    (∃ (s : State), s.on 2 = true ∧ s.on 5 = true ∧ s.usb.state = .configured ∧ s.desk.cdcen = true ∧ s.sys.waiting = false ∧ (s.sess
      1).opened = false) ∧
    (∃ (s : State), (s.sess 1).opened = true ∧ (∀ e ∈ s.desk.deferred, e.1 ≠ 1 ∧ e.1 ≠ 4)) ∧
    (∃ (b : BitVec 22) (f : Bool) (s : State), (s.sess 1).opened = true ∧ s.desk.deferred = [(1, .uart (some b) (some f))]) ∧
    (∃ (port : Nat) (tcp : Nat) (s : State), port < 2 ∧ s.on 2 = true ∧ s.on (portDom port) = true ∧ (s.net port).link = true ∧
      s.desk.tcpen = true ∧ s.desk.tcpPort.toNat = tcp ∧ s.sys.waiting = false ∧ (s.sess 2).opened = false) ∧
    (∃ (port : Nat) (tcp : Nat) (s : State), port < 2 ∧ s.on 2 = true ∧ s.on (portDom port) = true ∧ (s.net port).link = true ∧
      s.desk.tcpen = true ∧ s.desk.tcpPort.toNat = tcp ∧ s.sys.waiting = false ∧ (s.sess 2).opened = true ∧ (s.sess 3).opened = false) ∧
    (∃ (port : Nat) (tcp : Nat) (s : State), port < 2 ∧ s.on 2 = true ∧ s.on (portDom port) = true ∧ (s.net port).link = true ∧
      s.desk.tcpen = true ∧ s.desk.tcpPort.toNat = tcp ∧ s.sys.waiting = false ∧ (s.sess 2).opened = true ∧ (s.sess 3).opened = true) ∧
    (∃ (k : Nat) (s : State), (k = 2 ∨ k = 3) ∧ (s.sess k).opened = true ∧ (∀ e ∈ s.desk.deferred, e.1 ≠ k ∧ e.1 ≠ 4)) :=
  ⟨⟨full, by decide +kernel⟩,
    ⟨sess 1 owner { full with desk := { full.desk with claims := [("aud",1),("por",0)] } }, by decide +kernel⟩,
    ⟨7, true, sess 1 owner { full with desk := { full.desk with deferred := [(1, .uart (some 7) (some true))] } }, by decide +kernel⟩,
    ⟨1, 0x139F, full, by decide +kernel⟩,
    ⟨1, 0x139F, sess 2 owner full, by decide +kernel⟩,
    ⟨1, 0x139F, sess 2 owner (sess 3 owner full), by decide +kernel⟩,
    ⟨3, sess 3 owner { full with desk := { full.desk with claims := [("aud",3),("por",0)] } }, by decide +kernel⟩⟩

/-- Witnesses of the hypotheses of `Obligations.DeskCarriers`. -/
theorem wit_deskCarriers :
    (∃ (k : Nat) (ch : Nat) (s : State), listens k s = true ∧ (s.sess k).machine = false ∧ (s.sess k).waiting = none ∧ (s.sess k).esc =
      false ∧ 0x20 ≤ ch ∧ ch ≤ 0x7E ∧ outUsed (s.sess k) < outCap) ∧
    (∃ (k : Nat) (s : State), listens k s = true ∧ (s.sess k).busy = true) ∧
    (∃ (k : Nat) (s : State), listens k s = true ∧ (s.sess k).machine = false ∧ (s.sess k).busy = false ∧ (s.sess k).waiting = none ∧
      (s.sess k).inq = [] ∧ (s.sess k).out = []) ∧
    (∃ (k : Nat) (s : State), listens k s = true ∧ (s.sess k).machine = false ∧ (s.sess k).busy = false ∧ (s.sess k).waiting = none ∧
      (s.sess k).inq = [] ∧ (s.sess k).out = [] ∧ (s.sess k).next = none) ∧
    (∃ (k : Nat) (n : Nat) (i : OutItem) (r : List OutItem) (s : State), k < 4 ∧ (s.sess k).out = i :: r ∧ i.sent + n < i.text.length) ∧
    (∃ (k : Nat) (s : State),
     let n := (s.sess k).dropPend
     let text := noticeText (s.sess k) ("!desk.dropped " ++ kn "n" n ++ " " ++ kv "t" (noticeT s))
     k < 4 ∧ (s.sess k).opened = true ∧ s.desk.ready = true ∧ (s.sess k).out = [] ∧ (s.sess k).waiting = none ∧ 0 < (s.sess k).dropPend ∧
       text.length ≤ outCap) ∧
    (∃ (k : Nat) (t : String) (s : State), listens k s = true ∧ (s.sess k).waiting = some [t] ∧ (s.sess k).inq = [] ∧ outUsed (s.sess k)
      + t.length ≤ outCap) ∧
    (∃ (n : Nat) (f : Deferred) (s : State), s.desk.deferred = [(n, f)]) ∧
    (∃ (n : Nat) (b : BitVec 22) (f : Bool) (r : List (Nat × Deferred)) (s : State), (∀ e ∈ r, e.1 ≠ 4) ∧ allSent n s = true ∧
      s.desk.deferred = (n, .uart (some b) (some f)) :: r) ∧
    (∃ (m : Nat) (n : Nat) (b : BitVec 22) (f : Bool) (g : Deferred) (s : State), m ≠ 4 ∧ allSent m s = false ∧ allSent n s = true ∧
      s.desk.deferred = [(m, g), (n, .uart (some b) (some f))]) :=
  ⟨⟨0, 0x7E, full, by decide +kernel⟩,
    ⟨0, sess 0 { owner with busy := true, inq := ["x"], machine := true } full, by decide +kernel⟩,
    ⟨0, full, by decide +kernel⟩,
    ⟨0, full, by decide +kernel⟩,
    ⟨0, 3, ⟨.reply,"hello",1⟩, [⟨.prompt,"> ",0⟩], sess 0 { owner with out := [⟨.reply,"hello",1⟩,⟨.prompt,"> ",0⟩] } full,
      by decide +kernel⟩,
    ⟨0, sess 0 { owner with dropPend := 3 } full, by decide +kernel⟩,
    ⟨0, "abc", sess 0 { owner with waiting := some ["abc"] } full, by decide +kernel⟩,
    ⟨0, .wakeRelease, { full with desk := { full.desk with deferred := [(0,.wakeRelease)] } }, by decide +kernel⟩,
    ⟨0, 5, true, [(2, .resetWarm)],
      { full with desk := { full.desk with deferred := [(0,.uart (some 5) (some true)), (2, .resetWarm)] } }, by decide +kernel⟩,
    ⟨1, 0, 5, true, .resetWarm, sess 1 { owner with out := [⟨.reply,"hello",1⟩] }
      { full with desk := { full.desk with deferred := [(1, .resetWarm), (0,.uart (some 5) (some true))] } }, by decide +kernel⟩⟩

/-- Witnesses of the hypotheses of `Obligations.DeskVerbs`. -/
theorem wit_deskVerbs :
    (∃ (c : Ctx) (p : Pfx) (a : Args) (e : Env) (s : State) (k : Nat), Passes deskModeV c p a e s ∧ c.origin = .sess k) ∧
    (∃ (c : Ctx) (p : Pfx) (a : Args) (e : Env) (s : State) (k : Nat), Passes deskNoticesV c p a e s ∧ c.origin = .sess k ∧ e.words "on"
      = [] ∧ e.words "off" = ["tly"] ∧ e ≠ [] ∧ "tly" ∉ (s.sess k).off) ∧
    (∃ (c : Ctx) (p : Pfx) (a : Args) (e : Env) (s : State), Passes deskShowV c p a e s) ∧
    (∃ (c : Ctx) (p : Pfx) (a : Args) (e : Env) (s : State) (k : Nat), Passes deskUartV c p a e s ∧ c.origin = .sess k) ∧
    (∃ (c : Ctx) (p : Pfx) (a : Args) (e : Env) (s : State), Passes deskSetV c p a e s) ∧
    (∃ (c : Ctx) (p : Pfx) (a : Args) (e : Env) (s : State) (k : Nat), Passes deskClaimV c p a e s ∧ c.origin = .sess k ∧ (∀ x ∈
      s.desk.claims, x.1 ≠ e.word "obj")) ∧
    (∃ (n : Nat) (a : Args) (s : State) (o : String) (m : Nat), canRun (.sess n) s = true ∧ Level.keeper.rank ≤ (s.levelOf (.sess
      n)).rank ∧ keyIsWord a "obj" o = true ∧ (o, m) ∈ s.desk.claims ∧ m ≠ n) ∧
    (∃ (n : Nat) (a : Args) (s : State) (o : String) (m : Nat), canRun (.sess n) s = true ∧ Level.keeper.rank ≤ (s.levelOf (.sess
      n)).rank ∧ keyIsWord a "obj" o = true ∧ (o, m) ∈ s.desk.claims ∧ m ≠ n ∧ hasWord a "force" = false) ∧
    (∃ (c : Ctx) (p : Pfx) (a : Args) (e : Env) (s : State) (k : Nat), Passes deskReleaseV c p a e s ∧ c.origin = .sess k) :=
  ⟨⟨c0, .none, [aw "" "machine"], _, full, 0, passes_of (by decide +kernel), by decide +kernel⟩,
    ⟨c0, .none, [aw "off" "tly"], _, full, 0, passes_of (by decide +kernel), by decide +kernel⟩,
    ⟨c0, .none, [], _, full, passes_of (by decide +kernel)⟩,
    ⟨c0, .none, [an "baud" 115200, aw "flow" "on"], _, full, 0, passes_of (by decide +kernel), by decide +kernel⟩,
    ⟨c0, .none, [an "port" 7, aw "tcp" "off"], _, full, passes_of (by decide +kernel)⟩,
    ⟨c0, .none, [aw "obj" "aud"], _, full, 0, passes_of (by decide +kernel), by decide +kernel⟩,
    ⟨0, [aw "obj" "aud"], { full with desk := { full.desk with claims := [("aud",2)] } }, "aud", 2, by decide +kernel⟩,
    ⟨0, [aw "obj" "aud"], { full with desk := { full.desk with claims := [("aud",2)] } }, "aud", 2, by decide +kernel⟩,
    ⟨c0, .none, [aw "obj" "aud"], _, { full with desk := { full.desk with claims := [("aud",0),("por",2)] } }, 0, passes_of
      (by decide +kernel), by decide +kernel⟩⟩

/-- Witnesses of the hypotheses of `Obligations.Levels`. -/
theorem wit_levels :
    (∃ (c : Ctx) (p : Pfx) (a : Args) (e : Env) (s : State) (k : Nat), Passes unlockV c p a e s ∧ c.origin = .sess k ∧ e.word "level" =
      "owner" ∧ e.word "passphrase" = s.ldg.passO.getD "") ∧
    (∃ (c : Ctx) (p : Pfx) (a : Args) (e : Env) (s : State) (k : Nat), Passes unlockV c p a e s ∧ c.origin = .sess k ∧ e.word "level" =
      "keeper" ∧ e.word "passphrase" = s.ldg.passK.getD "") ∧
    (∃ (c : Ctx) (p : Pfx) (a : Args) (e : Env) (s : State) (k : Nat), Passes unlockV c p a e s ∧ c.origin = .sess k ∧ e.word "level" =
      "owner" ∧ e.word "passphrase" ≠ s.ldg.passO.getD "") ∧
    (∃ (c : Ctx) (s : State) (k : Nat), canRun c.origin s = true ∧ c.origin = .sess k ∧ ((s.sess k).held = true ∨ 20 ≤
      s.ldg.unlockFails.toNat)) ∧
    (∃ (c : Ctx) (p : Pfx) (a : Args) (e : Env) (s : State) (k : Nat), Passes lockV c p a e s ∧ c.origin = .sess k) ∧
    (∃ (k : Nat) (s : State), k < 4 ∧ (s.sess k).held = true) ∧
    (∃ (s : State), s.on 2 = true ∧ 20 ≤ s.ldg.unlockFails.toNat ∧ 360000 ≤ s.ldg.lockTicks) ∧
    (∃ (c : Ctx) (p : Pfx) (a : Args) (e : Env) (s : State), Passes deskPassV c p a e s ∧ s.pwr.pfail = false) :=
  ⟨⟨c0, .none, [aw "" "owner", as_ "" ""], _, full, 0, passes_of (by decide +kernel), by decide +kernel⟩,
    ⟨c0, .none, [aw "" "keeper", as_ "" "abcdefgh"], _, full.onLdg fun d => { d with passK := some "abcdefgh" }, 0, passes_of
      (by decide +kernel), by decide +kernel⟩,
    ⟨c0, .none, [aw "" "owner", as_ "" "abcdefgh"], _, full, 0, passes_of (by decide +kernel), by decide +kernel⟩,
    ⟨c0, sess 0 { owner with held := true } full, 0, by decide +kernel⟩,
    ⟨c0, .none, [], _, full, 0, passes_of (by decide +kernel), by decide +kernel⟩,
    ⟨0, sess 0 { owner with held := true } full, by decide +kernel⟩,
    ⟨full.onLdg fun d => { d with unlockFails := 20, lockTicks := 360000 }, by decide +kernel⟩,
    ⟨c0, .none, [aw "level" "keeper", as_ "new" "12345678"], _, full, passes_of (by decide +kernel), by decide +kernel⟩⟩

/-- Witnesses of the hypotheses of `Obligations.BareVerbs`. -/
theorem wit_bareVerbs :
    (∃ (c : Ctx) (p : Pfx) (a : Args) (e : Env) (s : State), Passes pingV c p a e s) ∧
    (∃ (c : Ctx) (p : Pfx) (a : Args) (e : Env) (s : State), Passes helpV c p a e s ∧ e.word? "object" = none) ∧
    (∃ (c : Ctx) (p : Pfx) (a : Args) (e : Env) (s : State), Passes peekV c p a e s ∧ e.nat? "n" = none ∧ e.nat "address" % 4 = 0 ∧
      s.mem.valid = true ∧ e.nat "address" + 4 ≤ s.usable ∧ e.nat "address" + 4 ≤ 0x800000000) ∧
    (∃ (c : Ctx) (p : Pfx) (a : Args) (e : Env) (s : State) (v : Nat), Passes pokeV c p a e s ∧ e.allNums "value" = [v] ∧ e.nat "address"
      % 4 = 0 ∧ s.mem.valid = true ∧ e.nat "address" + 4 ≤ s.usable ∧ e.nat "address" + 4 ≤ 0x800000000 ∧ (∀ x ∈ s.desk.deferred, x.1 ≠
      4)) ∧
    (∃ (c : Ctx) (p : Pfx) (a : Args) (e : Env) (s : State), Passes peekV c p a e s ∧ e.nat "address" % 4 ≠ 0) ∧
    (∃ (c : Ctx) (p : Pfx) (a : Args) (e : Env) (s : State), Passes pokeV c p a e s ∧ e.nat "address" % 4 ≠ 0) :=
  ⟨⟨c0, .none, [], _, full, passes_of (by decide +kernel)⟩,
    ⟨c0, .none, [], _, full, passes_of (by decide +kernel), by decide +kernel⟩,
    ⟨c0, .none, [ah "" 0x2000], _, full, passes_of (by decide +kernel), by decide +kernel⟩,
    ⟨c0, .none, [ah "" 0x2000, ah "" 0x12345678], _, full, 0x12345678, passes_of (by decide +kernel), by decide +kernel⟩,
    ⟨c0, .none, [ah "" 0x2001], _, full, passes_of (by decide +kernel), by decide +kernel⟩,
    ⟨c0, .none, [ah "" 0x2001, ah "" 5], _, full, passes_of (by decide +kernel), by decide +kernel⟩⟩

/-- Witnesses of the hypotheses of `Obligations.MorningScript`. -/
theorem wit_morningScript :
    (∃ (s : State), s.on 2 = true ∧ s.sys.pd2Frames < 100 ∧ s.desk.ready = false ∧ s.desk.script ≠ .idle ∧ s.sys.booted = true) ∧
    (∃ (l : Nat) (s : State), s.on 2 = true ∧ s.sys.booted = true ∧ s.desk.script = .running l .no ∧ s.desk.ready = false ∧
      s.desk.morning = true ∧ nextScript l s.ldg = none) ∧
    (∃ (l : Nat) (n : Nat) (s : State), s.on 2 = true ∧ s.sys.booted = true ∧ s.desk.script = .running l .no ∧ s.desk.ready = false ∧
      s.desk.morning = true ∧ nextScript l s.ldg = some (n, "ping")) ∧
    (∃ (l : Nat) (w : ScriptWait) (s : State), s.desk.script = .running l w ∧ s.desk.ready = false) ∧
    (∃ (c : Ctx) (p : Pfx) (a : Args) (e : Env) (s : State), Passes morningShowV c p a e s) ∧
    (∃ (c : Ctx) (p : Pfx) (a : Args) (e : Env) (s : State) (n : Nat) (x : String), Passes morningSetV c p a e s ∧ e.nat? "line" = some n
      ∧ e.word? "text" = some x ∧ e.word? "onerr" = none ∧ lineFits x (tget s.ldg.lines n) s.ldg = true ∧ s.pwr.pfail = false) ∧
    (∃ (c : Ctx) (p : Pfx) (a : Args) (e : Env) (s : State), Passes morningDelV c p a e s ∧ s.pwr.pfail = false) ∧
    (∃ (c : Ctx) (p : Pfx) (a : Args) (e : Env) (s : State), Passes morningClearV c p a e s ∧ s.pwr.pfail = false) ∧
    (∃ (c : Ctx) (p : Pfx) (a : Args) (e : Env) (s : State) (k : Nat), Passes morningRunV c p a e s ∧ c.origin = .sess k ∧ s.desk.script
      = .idle) :=
  ⟨⟨{ full with desk := { full.desk with script := .running 1 .no, ready := false }, sys := { full.sys with pd2Frames := 5 } },
      by decide +kernel⟩,
    ⟨1, { full with desk := { full.desk with script := .running 1 .no, ready := false }, sys := { full.sys with pd2Frames := 5 } },
      by decide +kernel⟩,
    ⟨1, 4,
      { full with desk := { full.desk with script := .running 1 .no, ready := false }, sys := { full.sys with pd2Frames := 5 } , ldg := { full.ldg with lines := [(4,"ping")] } },
      by decide +kernel⟩,
    ⟨1, .work,
      { full with desk := { full.desk with script := .running 1 .work, ready := false }, sys := { full.sys with pd2Frames := 5 } },
      by decide +kernel⟩,
    ⟨c0, .none, [], _, full, passes_of (by decide +kernel)⟩,
    ⟨c0, .none, [an "line" 4, as_ "text" "ping"], _, full, 4, "ping", passes_of (by decide +kernel), by decide +kernel⟩,
    ⟨c0, .none, [an "line" 4], _, full, passes_of (by decide +kernel), by decide +kernel⟩,
    ⟨c0, .none, [], _, full, passes_of (by decide +kernel), by decide +kernel⟩,
    ⟨c0, .none, [], _, full, 0, passes_of (by decide +kernel), by decide +kernel⟩⟩

/-- Witnesses of the hypotheses of `Obligations.MacrosAndRouteLines`. -/
theorem wit_macrosAndRouteLines :
    (∃ (w : Keyword) (r : List Keyword) (s : State), s.on 2 = true ∧ s.desk.ready = true ∧ s.desk.kwq = w :: r ∧ tget s.ldg.words w.slot
      = none) ∧
    (∃ (w : Keyword) (r : List Keyword) (s : State), s.on 2 = true ∧ s.desk.ready = true ∧ s.desk.kwq = w :: r ∧ tget s.ldg.words w.slot
      = some "ping") ∧
    (∃ (c : Ctx) (p : Pfx) (a : Args) (e : Env) (s : State), Passes macroSetV c p a e s ∧ s.pwr.pfail = false ∧ lineFits (e.word "text")
      (tget s.ldg.words (e.nat "slot")) s.ldg = true) ∧
    (∃ (c : Ctx) (p : Pfx) (a : Args) (e : Env) (s : State), Passes macroClearV c p a e s ∧ s.pwr.pfail = false) ∧
    (∃ (c : Ctx) (p : Pfx) (a : Args) (e : Env) (s : State), Passes macroShowV c p a e s) ∧
    (∃ (r : Nat) (msn : BitVec 16) (bs : List Byte) (l : List (BitVec 16 × List Byte)) (s : State), s.on 2 = true ∧ s.desk.ready = true ∧
      (s.route r).bind = .desk ∧ (s.route r).state = .opened ∧ (s.route r).lines = (msn, bs) :: l ∧ bs = [0x70, 0x69, 0x6E, 0x67] ∧
      (s.route r).reply = false) :=
  ⟨⟨⟨3,1,none,none⟩, [], { full with desk := { full.desk with kwq := [⟨3,1,none,none⟩] } }, by decide +kernel⟩,
    ⟨⟨3,1,none,none⟩, [],
      { full with desk := { full.desk with kwq := [⟨3,1,none,none⟩] }, ldg := { full.ldg with words := [(3,"ping")] } },
      by decide +kernel⟩,
    ⟨c0, .none, [an "slot" 31, as_ "text" "ping"], _, full, passes_of (by decide +kernel), by decide +kernel⟩,
    ⟨c0, .none, [an "slot" 31], _, full, passes_of (by decide +kernel), by decide +kernel⟩,
    ⟨c0, .none, [], _, full, passes_of (by decide +kernel)⟩,
    ⟨7, 9, [0x70,0x69,0x6E,0x67], [], full.onRoute 7 fun _ => { state := .opened, bind := .desk, lines := [(9, [0x70,0x69,0x6E,0x67])] },
      by decide +kernel⟩⟩

/-- Witnesses of the hypotheses of `Obligations.FormatVerbs`. -/
theorem wit_formatVerbs :
    (∃ (c : Ctx) (p : Pfx) (a : Args) (e : Env) (s : State), Passes fmtShowV c p a e s) ∧
    (∃ (c : Ctx) (p : Pfx) (a : Args) (e : Env) (s : State) (i : Item) (x : X), Passes fmtConvV c p a e s ∧ fmtNames.idxOf (e.word
      "from") ≠ 9 ∧ fmtNames.idxOf (e.word "to") ≠ 9 ∧ (e.raw? "value").map valItems = some [i] ∧ convSource (fmtNames.idxOf (e.word
      "from")) (e.nat "z") (e.nat "e") i = some x) ∧
    (∃ (c : Ctx) (s : State), canRun c.origin s = true) ∧
    (∃ (c : Ctx) (s : State), canRun c.origin s = true) ∧
    (∃ (c : Ctx) (s : State), canRun c.origin s = true) ∧
    (∃ (c : Ctx) (s : State), canRun c.origin s = true) :=
  ⟨⟨c0, .none, [], _, full, passes_of (by decide +kernel)⟩,
    ⟨c0, .none, [aw "from" "F32", aw "to" "E4M3", ⟨"value", .item (.num false 3 1 "")⟩], _, full, .num false 3 1 "", ((convSource
      (fmtNames.idxOf ((envOf fmtConvV c0 .none [aw "from" "F32", aw "to" "E4M3", ⟨"value", .item (.num false 3 1 "")⟩] full).word
      "from")) ((envOf fmtConvV c0 .none [aw "from" "F32", aw "to" "E4M3", ⟨"value", .item (.num false 3 1 "")⟩] full).nat "z") ((envOf
      fmtConvV c0 .none [aw "from" "F32", aw "to" "E4M3", ⟨"value", .item (.num false 3 1 "")⟩] full).nat "e") (.num false 3 1 "")).getD
      (X.nan)), passes_of (by decide +kernel), by decide +kernel⟩,
    ⟨c0, full, by decide +kernel⟩,
    ⟨c0, full, by decide +kernel⟩,
    ⟨c0, full, by decide +kernel⟩,
    ⟨c0, full, by decide +kernel⟩⟩

/-- Witnesses of the hypotheses of `Obligations.PlanLoad`. -/
theorem wit_planLoad :
    (∃ (c : Ctx) (p : Pfx) (a : Args) (e : Env) (s : State) (x : Image) (q : Plan) (b : Nat), Passes planLoadV c p a e s ∧ loadImage e s
      = .ok x ∧ placeFail e (if e.has "as" then e.plan "as" else e.plan "name") x s = none ∧ x.magicOk = true ∧ checkImage (if e.has "as"
      then e.plan "as" else e.plan "name") (e.plan "name") x s = .ok (q, false) ∧ placeBase e q.stakes s = some b ∧ q.hops = []) ∧
    (∃ (c : Ctx) (p : Pfx) (a : Args) (e : Env) (s : State) (x : Image) (n : Nat) (k : String), Passes planLoadV c p a e s ∧ loadImage e
      s = .ok x ∧ e.has "as" = false ∧ placeFail e (e.plan "name") x s = some (n, k)) ∧
    (∃ (c : Ctx) (p : Pfx) (a : Args) (e : Env) (s : State) (x : Image) (q : Plan), Passes planLoadV c p a e s ∧ loadImage e s = .ok x ∧
      e.has "as" = false ∧ e.nat? "base" = none ∧ (∀ k < 48, s.on (12 + k / 12) = true) ∧ s.plan? (e.plan "name") = some q) ∧
    (∃ (c : Ctx) (p : Pfx) (a : Args) (e : Env) (s : State) (x : Image), Passes planLoadV c p a e s ∧ loadImage e s = .ok x ∧ e.has "as"
      = false ∧ s.plan? (e.plan "name") = none ∧ x.le 0 4 ≠ 0x50575641) ∧
    (∃ (c : Ctx) (p : Pfx) (a : Args) (e : Env) (s : State) (x : Image), Passes planLoadV c p a e s ∧ loadImage e s = .ok x ∧ e.has "as"
      = false ∧ placeFail e (e.plan "name") x s = none ∧ x.magicOk = true ∧ s.sys.sigenf = true ∧ s.sys.keyprog.getLsbD x.slot = false) :=
  ⟨⟨c0, .none, [aw "name" "p", ah "addr" 0x1000], _, withImage 0x41 full, imgOf (envOf planLoadV c0 .none [aw "name" "p", ah "addr"
      0x1000] (withImage 0x41 full)) (withImage 0x41 full), planOf "p" "p" (imgOf (envOf planLoadV c0 .none [aw "name" "p", ah "addr"
      0x1000] (withImage 0x41 full)) (withImage 0x41 full)) (withImage 0x41 full), 0, passes_of (by decide +kernel), imgOf_ok
      (by decide +kernel), by decide +kernel⟩,
    ⟨c0, .none, [aw "name" "p", ah "addr" 0x1000], _, dom 0x0FFF (withImage 0x41 full), imgOf (envOf planLoadV c0 .none [aw "name" "p",
      ah "addr" 0x1000] (dom 0x0FFF (withImage 0x41 full))) (dom 0x0FFF (withImage 0x41 full)), ((placeFail (envOf planLoadV c0 .none [aw
      "name" "p", ah "addr" 0x1000] (dom 0x0FFF (withImage 0x41 full))) ((envOf planLoadV c0 .none [aw "name" "p", ah "addr" 0x1000] (dom
      0x0FFF (withImage 0x41 full))).plan "name") (imgOf (envOf planLoadV c0 .none [aw "name" "p", ah "addr" 0x1000] (dom 0x0FFF
      (withImage 0x41 full))) (dom 0x0FFF (withImage 0x41 full))) (dom 0x0FFF (withImage 0x41 full))).map (·.1)).getD 0, ((placeFail
      (envOf planLoadV c0 .none [aw "name" "p", ah "addr" 0x1000] (dom 0x0FFF (withImage 0x41 full))) ((envOf planLoadV c0 .none [aw
      "name" "p", ah "addr" 0x1000] (dom 0x0FFF (withImage 0x41 full))).plan "name") (imgOf (envOf planLoadV c0 .none [aw "name" "p", ah
      "addr" 0x1000] (dom 0x0FFF (withImage 0x41 full))) (dom 0x0FFF (withImage 0x41 full))) (dom 0x0FFF (withImage 0x41 full))).map
      (·.2)).getD "", passes_of (by decide +kernel), imgOf_ok (by decide +kernel), by decide +kernel⟩,
    ⟨c0, .none, [aw "name" "p", ah "addr" 0x1000], _, withPlan plan1 (withImage 0x41 full), imgOf (envOf planLoadV c0 .none [aw "name"
      "p", ah "addr" 0x1000] (withPlan plan1 (withImage 0x41 full))) (withPlan plan1 (withImage 0x41 full)), plan1, passes_of
      (by decide +kernel), imgOf_ok (by decide +kernel), by decide +kernel⟩,
    ⟨c0, .none, [aw "name" "p", ah "addr" 0x1000], _, withImage 0x42 full, imgOf (envOf planLoadV c0 .none [aw "name" "p", ah "addr"
      0x1000] (withImage 0x42 full)) (withImage 0x42 full), passes_of (by decide +kernel), imgOf_ok (by decide +kernel),
      by decide +kernel⟩,
    ⟨c0, .none, [aw "name" "p", ah "addr" 0x1000], _, let t := withImage 0x41 full;
      { t with sys := { t.sys with sigenf := true, keyprog := 1 } }, imgOf (envOf planLoadV c0 .none [aw "name" "p", ah "addr" 0x1000]
      (let t := withImage 0x41 full; { t with sys := { t.sys with sigenf := true, keyprog := 1 } })) (let t := withImage 0x41 full;
      { t with sys := { t.sys with sigenf := true, keyprog := 1 } }), passes_of (by decide +kernel), imgOf_ok (by decide +kernel),
      by decide +kernel⟩⟩

/-- Witnesses of the hypotheses of `Obligations.PlansAndStakes`. -/
theorem wit_plansAndStakes :
    (∃ (c : Ctx) (p : Pfx) (a : Args) (e : Env) (s : State) (q : Plan), Passes planUnloadV c p a e s ∧ s.plan? (e.plan "name") = some q ∧
      s.rowsOf q.name Guest.inRounds = [] ∧ (q.quar = true ∨ s.rowsOf q.name (fun x => x.state == .away) = [])) ∧
    (∃ (c : Ctx) (p : Pfx) (a : Args) (e : Env) (s : State) (q : Plan), Passes planUnloadV c p a e s ∧ s.plan? (e.plan "name") = some q ∧
      s.rowsOf q.name Guest.inRounds ≠ []) ∧
    (∃ (c : Ctx) (p : Pfx) (a : Args) (e : Env) (s : State), Passes planShowV c p a e s ∧ e.has "name" = false) ∧
    (∃ (c : Ctx) (p : Pfx) (a : Args) (e : Env) (s : State) (q : Plan) (h : Hop), Passes planHopV c p a e s ∧ s.plan? (e.plan "name") =
      some q ∧ q.hops.find? (fun h => h.def_.hop == e.nat "hop") = some h ∧ h.def_.pchip = q.chip ∧ e.has "key" = true ∧ (s.route (e.nat
      "route")).state = .opened ∧ (s.route (e.nat "route")).bind = .none ∧ s.rowsOf q.name Guest.isHeld = []) ∧
    (∃ (c : Ctx) (p : Pfx) (a : Args) (e : Env) (s : State) (q : Plan) (h : Hop) (w : Nat), Passes planHopV c p a e s ∧ s.plan? (e.plan
      "name") = some q ∧ q.hops.find? (fun h => h.def_.hop == e.nat "hop") = some h ∧ h.def_.pchip ≠ q.chip ∧ h.win = some w ∧ (s.route
      (e.nat "route")).state = .opened ∧ (s.route (e.nat "route")).bind = .none ∧ s.rowsOf q.name Guest.isHeld = []) ∧
    (∃ (c : Ctx) (p : Pfx) (a : Args) (e : Env) (s : State), Passes stkShowV c p a e s ∧ s.on (12 + e.nat "k" / 12) = true) ∧
    (∃ (c : Ctx) (p : Pfx) (a : Args) (e : Env) (s : State), Passes stkShowV c p a e s ∧ s.on (12 + e.nat "k" / 12) = false) ∧
    (∃ (c : Ctx) (p : Pfx) (a : Args) (e : Env) (s : State) (q : Plan) (i : Nat) (ly : Layer) (st : LayerSet), Passes stkSetV c p a e s ∧
      s.on (12 + e.nat "k" / 12) = true ∧ ((List.range 8).filterMap fun j => slotLayer (e.nat "k") j s).find? (fun x => x.1.body.first +
      x.2.1 == e.nat "layer") = some (q, i, ly, st)) :=
  ⟨⟨c0, .none, [aw "name" "p"], _, withPlan plan1 full, plan1, passes_of (by decide +kernel), by decide +kernel⟩,
    ⟨c0, .none, [aw "name" "p"], _, gst 5 guest1 (withPlan plan1 full), plan1, passes_of (by decide +kernel), by decide +kernel⟩,
    ⟨c0, .none, [], _, withPlan plan1 full, passes_of (by decide +kernel), by decide +kernel⟩,
    ⟨c0, .none, [aw "name" "p", an "hop" 3, an "route" 7, ah "key" 0x99], _, (withPlan
      { plan1 with hops := [{ def_ := ⟨3, 0, 0, 0, 1, 64, .hold⟩, late := .hold }] } full).onRoute 7 fun _ => { state := .opened },
      { plan1 with hops := [{ def_ := ⟨3, 0, 0, 0, 1, 64, .hold⟩, late := .hold }] },
      { def_ := ⟨3, 0, 0, 0, 1, 64, .hold⟩, late := .hold }, passes_of (by decide +kernel), by decide +kernel⟩,
    ⟨c0, .none, [aw "name" "p", an "hop" 3, an "route" 7], _, (withPlan
      { plan1 with hops := [{ def_ := ⟨3, 0, 0, 1, 0, 64, .hold⟩, late := .hold, win := some 9 }] } full).onRoute 7 fun _ =>
      { state := .opened }, { plan1 with hops := [{ def_ := ⟨3, 0, 0, 1, 0, 64, .hold⟩, late := .hold, win := some 9 }] },
      { def_ := ⟨3, 0, 0, 1, 0, 64, .hold⟩, late := .hold, win := some 9 }, 9, passes_of (by decide +kernel), by decide +kernel⟩,
    ⟨c0, .none, [an "k" 0], _, withPlan plan1 full, passes_of (by decide +kernel), by decide +kernel⟩,
    ⟨c0, .none, [an "k" 47], _, dom 0x0FFF full, passes_of (by decide +kernel), by decide +kernel⟩,
    ⟨c0, .none, [an "k" 0, an "layer" 1, aw "drift" "clear"], _, withPlan
      { plan1 with sets := [{ mode := .adapt, win := 4, hr := 1, exp0 := 0, drift := true }] } full,
      { plan1 with sets := [{ mode := .adapt, win := 4, hr := 1, exp0 := 0, drift := true }] }, 0, lay,
      { mode := .adapt, win := 4, hr := 1, exp0 := 0, drift := true }, passes_of (by decide +kernel), by decide +kernel⟩⟩

/-- Witnesses of the hypotheses of `Obligations.PlanSettings`. -/
theorem wit_planSettings :
    (∃ (c : Ctx) (p : Pfx) (a : Args) (e : Env) (s : State) (q : Plan) (ly : Layer) (t : Nat),
     let eff := Effect.scale q.name (e.nat "layer") ((e.word? "smode").map smodeOf) (e.nat? "win") (e.nat? "hr") (e.int? "exp")
     Passes planSetV c p a e s ∧ Acceptable c p eff t s ∧ s.plan? (e.plan "name") = some q ∧ q.body.first ≤ e.nat "layer" ∧
       q.body.layers[e.nat "layer" - q.body.first]? = some ly ∧ (e.word? "smode").all (fun w => modeAllowed ly (smodeOf w)) = true ∧
       (e.word? "smode" ≠ none ∨ e.has "win" = true ∨ e.has "hr" = true ∨ e.has "exp" = true)) ∧
    (∃ (c : Ctx) (p : Pfx) (a : Args) (e : Env) (s : State) (q : Plan) (ly : Layer) (w : String), Passes planSetV c p a e s ∧ s.plan?
      (e.plan "name") = some q ∧ q.body.first ≤ e.nat "layer" ∧ q.body.layers[e.nat "layer" - q.body.first]? = some ly ∧ e.word? "smode"
      = some w ∧ modeAllowed ly (smodeOf w) = false) ∧
    (∃ (c : Ctx) (p : Pfx) (a : Args) (e : Env) (s : State) (q : Plan) (t : Nat),
     let eff := Effect.hopLate q.name (e.nat "hop") (lateOf (e.word "late"))
     Passes planSetHopV c p a e s ∧ Acceptable c p eff t s ∧ s.plan? (e.plan "name") = some q ∧ (∃ h ∈ q.hops, h.def_.hop = e.nat "hop")) ∧
    (∃ (c : Ctx) (p : Pfx) (a : Args) (e : Env) (s : State) (q : Plan), Passes planSetHopV c p a e s ∧ s.plan? (e.plan "name") = some q ∧
      (∀ h ∈ q.hops, h.def_.hop ≠ e.nat "hop")) :=
  ⟨⟨c0, .none, [aw "name" "p", an "layer" 1, an "win" 3], _, withPlan plan1 full, plan1, lay, 1001, passes_of (by decide +kernel),
      acceptable_of (by decide +kernel), by decide +kernel⟩,
    ⟨c0, .none, [aw "name" "p", an "layer" 1, aw "smode" "FOLDED"], _, withPlan
      {plan1 with body := {body1 with layers := [{lay with infmt := 9}]}} full,
      {plan1 with body := {body1 with layers := [{lay with infmt := 9}]}}, {lay with infmt := 9}, (envOf planSetV c0 .none [aw "name"
      "p", an "layer" 1, aw "smode" "FOLDED"] (withPlan {plan1 with body := {body1 with layers := [{lay with infmt := 9}]}} full)).word
      "smode", passes_of (by decide +kernel), by decide +kernel⟩,
    ⟨c0, .none, [aw "name" "p", an "hop" 3, aw "late" "mute"], _, withPlan
      { plan1 with hops := [{ def_ := ⟨3, 0, 0, 0, 1, 64, .hold⟩, late := .hold }] } full,
      { plan1 with hops := [{ def_ := ⟨3, 0, 0, 0, 1, 64, .hold⟩, late := .hold }] }, 1001, passes_of (by decide +kernel), acceptable_of
      (by decide +kernel), by decide +kernel⟩,
    ⟨c0, .none, [aw "name" "p", an "hop" 3, aw "late" "mute"], _, withPlan plan1 full, plan1, passes_of (by decide +kernel),
      by decide +kernel⟩⟩

/-- Witnesses of the hypotheses of `Obligations.Rounds`. -/
theorem wit_rounds :
    (∃ (s : State), roundsRun s = true) ∧
    (∃ (s : State), roundsRun s = false) ∧
    (∃ (s : State) (g : Nat) (x : Guest) (on_ : Bool) (ev : Event), roundsRun s = true ∧ s.weave.plans = [] ∧ s.weave.todo = [] ∧
      s.weave.abandoned = [] ∧ s.inn.guests = [(g, x)] ∧ x.state = .registered ∧ s.inn.quarG = [] ∧ s.inn.lastAband = [] ∧ s.inn.hotShed
      = false ∧ s.cch.routes = [] ∧ s.ldr.store = [] ∧ s.evq.entries = [ev] ∧ s.evq.held = [] ∧ ev.due = s.tly.now ∧ ev.eff = .mute g
      on_) ∧
    (∃ (k : Nat) (j : Nat) (r : Nat) (s : State), s.weave.todo.find? (fun e => e.1 == k) = some (k, j, r)) ∧
    (∃ (k : Nat) (j : Nat) (r : Nat) (s : State), s.weave.todo.find? (fun e => e.1 == k) ≠ some (k, j, r)) ∧
    (∃ (k : Nat) (j : Nat) (r : Nat) (s : State), s.weave.todo = [(k, j, r)]) ∧
    (∃ (k : Nat) (s : State), k < 48 ∧ s.on (12 + k / 12) = true) :=
  ⟨⟨full, by decide +kernel⟩,
    ⟨dom 7 full, by decide +kernel⟩,
    ⟨gst 5 { state := .registered }
      { full with evq := { full.evq with entries := [⟨.desk,5,1000,1000,false,none,.mute 5 true,false⟩] } }, 5, { state := .registered },
      true, ⟨.desk,5,1000,1000,false,none,.mute 5 true,false⟩, by decide +kernel⟩,
    ⟨3, 1, 5, full.onWeave fun w => { w with todo := [(3,1,5),(3,1,6)], round := true }, by decide +kernel⟩,
    ⟨3, 1, 5, full, by decide +kernel⟩,
    ⟨3, 1, 5, full.onWeave fun w => { w with todo := [(3,1,5)], round := true }, by decide +kernel⟩,
    ⟨0, gst 5 { guest1 with layers := [{}] } ((withPlan plan1 full).onWeave fun w =>
      { w with todo := [(0,0,1)], round := true, undo := [(0, 0, 5, { ptr := true })] }), by decide +kernel⟩⟩

/-- Witnesses of the hypotheses of `Obligations.Registrations`. -/
theorem wit_registrations :
    (∃ (c : Ctx) (p : Pfx) (a : Args) (e : Env) (s : State), Passes guestRegisterV c p a e s ∧ ((s.guest (e.nat "id")).state = .free ∨
      (s.guest (e.nat "id")).state = .registered)) ∧
    (∃ (c : Ctx) (p : Pfx) (a : Args) (e : Env) (s : State), Passes guestRegisterV c p a e s ∧ (s.guest (e.nat "id")).state =
      .quarantined) ∧
    (∃ (c : Ctx) (p : Pfx) (a : Args) (e : Env) (s : State), Passes guestRegisterV c p a e s ∧ (s.guest (e.nat "id")).state = .staying) ∧
    (∃ (c : Ctx) (p : Pfx) (a : Args) (e : Env) (s : State), Passes guestDropV c p a e s ∧ (s.guest (e.nat "id")).state = .registered) ∧
    (∃ (c : Ctx) (p : Pfx) (a : Args) (e : Env) (s : State), Passes guestReopenV c p a e s ∧ (s.guest (e.nat "id")).state = .quarantined) ∧
    (∃ (c : Ctx) (p : Pfx) (a : Args) (e : Env) (s : State), Passes guestReopenV c p a e s ∧ (s.guest (e.nat "id")).state ≠ .quarantined) ∧
    (∃ (c : Ctx) (p : Pfx) (a : Args) (e : Env) (s : State) (q : Plan), Passes bundleReopenV c p a e s ∧ s.plan? (e.plan "plan") = some q
      ∧ planFault q s = true) ∧
    (∃ (c : Ctx) (p : Pfx) (a : Args) (e : Env) (s : State) (q : Plan), Passes bundleReopenV c p a e s ∧ s.plan? (e.plan "plan") = some q
      ∧ planFault q s = false) :=
  ⟨⟨c0, .none, [an "id" 5, aw "class" "KEEP", an "div" 4, an "in" 2], _, full, passes_of (by decide +kernel), by decide +kernel⟩,
    ⟨c0, .none, [an "id" 5], _, gst 5 { state := .quarantined } full, passes_of (by decide +kernel), by decide +kernel⟩,
    ⟨c0, .none, [an "id" 5], _, gst 5 guest1 full, passes_of (by decide +kernel), by decide +kernel⟩,
    ⟨c0, .none, [aw "" "drop", an "id" 5], _, gst 5 { state := .registered, cls := .keep } full, passes_of (by decide +kernel),
      by decide +kernel⟩,
    ⟨c0, .none, [an "id" 5], _, gst 5 { guest1 with state := .quarantined } full, passes_of (by decide +kernel), by decide +kernel⟩,
    ⟨c0, .none, [an "id" 5], _, gst 5 guest1 full, passes_of (by decide +kernel), by decide +kernel⟩,
    ⟨c0, .none, [aw "plan" "p"], _, (withPlan plan1 full).onStake 0 fun k => {k with fault := true}, plan1, passes_of
      (by decide +kernel), by decide +kernel⟩,
    ⟨c0, .none, [aw "plan" "p"], _, gst 5 { guest1 with state := .quarantined } (withPlan {plan1 with quar := true} full),
      {plan1 with quar := true}, passes_of (by decide +kernel), by decide +kernel⟩⟩

/-- Witnesses of the hypotheses of `Obligations.GuestEvents`. -/
theorem wit_guestEvents :
    (∃ (c : Ctx) (p : Pfx) (a : Args) (e : Env) (s : State) (t : Nat) (w : String),
     let eff := Effect.checkin (e.nat "id") (e.plan "plan") (if w == "match" then .match_ else .wide) ((e.word? "class").map classOf)
       (e.word "phase" == "fixed")
     Passes guestCheckinV c p a e s ∧ Acceptable c p eff t s ∧ e.word? "prec" = some w) ∧
    (∃ (c : Ctx) (a : Args) (e : Env) (s : State), Passes guestCheckinV c .none a e s ∧ s.on 3 = true ∧ s.pwr.house ≠ .full ∧ c.origin =
      .sess 0 ∧ firstOpen c.cut s < 2 ^ 64) ∧
    (∃ (c : Ctx) (p : Pfx) (a : Args) (e : Env) (s : State) (t : Nat), Passes guestCheckoutV c p a e s ∧ Acceptable c p (.checkout (e.nat
      "id")) t s) ∧
    (∃ (c : Ctx) (p : Pfx) (a : Args) (e : Env) (s : State) (t : Nat), Passes guestAwayV c p a e s ∧ Acceptable c p (.away (e.nat "id"))
      t s) ∧
    (∃ (c : Ctx) (p : Pfx) (a : Args) (e : Env) (s : State) (t : Nat), Passes guestReturnV c p a e s ∧ Acceptable c p (.back (e.nat
      "id")) t s) ∧
    (∃ (c : Ctx) (p : Pfx) (a : Args) (e : Env) (s : State) (t : Nat), Passes guestStepV c p a e s ∧ Acceptable c p (.step (e.nat "id")
      (stepOf (e.word "step"))) t s) ∧
    (∃ (c : Ctx) (p : Pfx) (a : Args) (e : Env) (s : State) (t : Nat), Passes guestClassV c p a e s ∧ Acceptable c p (.gclass (e.nat
      "id") (classOf (e.word "class"))) t s) ∧
    (∃ (c : Ctx) (p : Pfx) (a : Args) (e : Env) (s : State) (t : Nat) (ch : Option Nat), Passes bundleSetV c p a e s ∧ Acceptable c p
      (.bind (e.plan "plan") ch) t s ∧ (e.raw? "hearth").bind hearthVal = some ch) :=
  ⟨⟨c0, .none, [an "id" 5, aw "plan" "p", aw "prec" "MATCH", aw "class" "KEEP"], _, gst 5 { state := .registered } (withPlan plan1
      full), 1001, "match", passes_of (by decide +kernel), acceptable_of (by decide +kernel), by decide +kernel⟩,
    ⟨c0, [an "id" 5, aw "plan" "p", aw "prec" "MATCH", aw "class" "KEEP"], _, (let f : State := gst 5 { state := .registered } (withPlan
      plan1 full); { f with pwr := { f.pwr with house := .lobby } }), passes_of (by decide +kernel), by decide +kernel⟩,
    ⟨c0, .none, [an "id" 5], _, gst 5 guest1 (withPlan plan1 full), 1001, passes_of (by decide +kernel), acceptable_of (by decide +kernel)⟩,
    ⟨c0, .none, [an "id" 5, aw "place" "away"], _, gst 5 guest1 (withPlan plan1 full), 1001, passes_of (by decide +kernel), acceptable_of
      (by decide +kernel)⟩,
    ⟨c0, .none, [an "id" 5, aw "place" "room"], _, gst 5 { guest1 with state := .away } (withPlan { plan1 with prec := some .wide } full),
      1001, passes_of (by decide +kernel), acceptable_of (by decide +kernel)⟩,
    ⟨c0, .none, [an "id" 5, aw "step" "hold"], _, gst 5 guest1 (withPlan plan1 full), 1001, passes_of (by decide +kernel), acceptable_of
      (by decide +kernel)⟩,
    ⟨c0, .none, [an "id" 5, aw "class" "SPARE"], _, gst 5 guest1 (withPlan plan1 full), 1001, passes_of (by decide +kernel), acceptable_of
      (by decide +kernel)⟩,
    ⟨c0, .none, [aw "plan" "p", an "hearth" 3], _, withPlan plan1 full, 1001, some 3, passes_of (by decide +kernel), acceptable_of
      (by decide +kernel), by decide +kernel⟩⟩

/-- Witnesses of the hypotheses of `Obligations.GuestEffects`. -/
theorem wit_guestEffects :
    (∃ (e : Event) (g : Nat) (prec : Prec) (s : State) (q : Plan) (n : Nat) (row : Nat) (r : Nat), e.eff = .checkin g q.name prec none
      false ∧ (s.guest g).div = 1 ∧ s.plan? q.name = some q ∧ admission s g q.name prec 0 = none ∧ roomsNeeded q prec = some n ∧ freeRow
      s q = some row ∧ findRooms s n = some r) ∧
    (∃ (e : Event) (g : Nat) (code : StepCode) (s : State), e.eff = .step g code ∧ (s.guest g).state = .staying) ∧
    (∃ (e : Event) (g : Nat) (code : StepCode) (s : State), e.eff = .step g code ∧ (s.guest g).state = .quarantined) ∧
    (∃ (e : Event) (g : Nat) (code : StepCode) (s : State), e.eff = .step g code ∧ (s.guest g).state = .registered) ∧
    (∃ (e : Event) (g : Nat) (s : State), e.eff = .checkout g ∧ (s.guest g).state = .staying) ∧
    (∃ (e : Event) (g : Nat) (s : State), e.eff = .checkout g ∧ (s.guest g).state = .away) ∧
    (∃ (e : Event) (g : Nat) (s : State), e.eff = .away g ∧ (s.guest g).state = .staying ∧ s.mem.valid = true) ∧
    (∃ (e : Event) (g : Nat) (s : State), e.eff = .away g ∧ (s.guest g).state = .staying ∧ s.mem.valid = false) ∧
    (∃ (e : Event) (g : Nat) (cls : GClass) (s : State), e.eff = .gclass g cls ∧ (s.guest g).state = .staying) ∧
    (∃ (e : Event) (g : Nat) (b : Bool) (s : State), e.eff = .bypass g b ∧ (s.guest g).state = .staying) ∧
    (∃ (e : Event) (g : Nat) (b : Bool) (s : State), e.eff = .mute g b ∧ (s.guest g).state = .registered) ∧
    (∃ (e : Event) (g : Nat) (i : List Nat) (o : List Nat) (s : State), e.eff = .map g i o ∧ (s.guest g).state = .registered ∧ mapFail s
      g i o = none) :=
  ⟨⟨evp (.checkin 5 "p" .wide none false), 5, .wide, gst 5 { state := .registered } (withPlan plan1 full), plan1, ((roomsNeeded plan1
      .wide).getD 0), ((freeRow (gst 5 { state := .registered } (withPlan plan1 full)) plan1).getD 77), ((findRooms (gst 5
      { state := .registered } (withPlan plan1 full)) ((roomsNeeded plan1 .wide).getD 0)).getD 77), by decide +kernel⟩,
    ⟨evp (.step 5 .hold), 5, .hold, gst 5 guest1 (withPlan plan1 full), by decide +kernel⟩,
    ⟨evp (.step 5 .hold), 5, .hold, gst 5 {guest1 with state := .quarantined} full, by decide +kernel⟩,
    ⟨evp (.step 5 .hold), 5, .hold, gst 5 { state := .registered } (withPlan plan1 full), by decide +kernel⟩,
    ⟨evp (.checkout 5), 5, gst 5 guest1 (withPlan plan1 full), by decide +kernel⟩,
    ⟨evp (.checkout 5), 5, gst 5 { guest1 with state := .away } (withPlan { plan1 with prec := some .wide } full), by decide +kernel⟩,
    ⟨evp (.away 5), 5, gst 5 guest1 (withPlan plan1 full), by decide +kernel⟩,
    ⟨evp (.away 5), 5, (let f : State := gst 5 guest1 (withPlan plan1 full); {f with mem := {f.mem with valid := false}}), by decide +kernel⟩,
    ⟨evp (.gclass 5 .spare), 5, .spare, gst 5 guest1 (withPlan plan1 full), by decide +kernel⟩,
    ⟨evp (.bypass 5 true), 5, true, gst 5 guest1 (withPlan plan1 full), by decide +kernel⟩,
    ⟨evp (.mute 5 true), 5, true, gst 5 { state := .registered } (withPlan plan1 full), by decide +kernel⟩,
    ⟨evp (.map 5 [0] [0]), 5, [0], [0], gst 5 { state := .registered } (withPlan plan1 full), by decide +kernel⟩⟩

/-- Witnesses of the hypotheses of `Obligations.InnkeeperVerbs`. -/
theorem wit_innkeeperVerbs :
    (∃ (c : Ctx) (p : Pfx) (a : Args) (e : Env) (s : State), Passes guestShowV c p a e s) ∧
    (∃ (c : Ctx) (p : Pfx) (a : Args) (e : Env) (s : State), Passes roomShowV c p a e s ∧ s.on 10 = true) ∧
    (∃ (c : Ctx) (p : Pfx) (a : Args) (e : Env) (s : State), Passes innShowV c p a e s ∧ s.on 10 = true) ∧
    (∃ (c : Ctx) (p : Pfx) (a : Args) (e : Env) (s : State), Passes bundleShowV c p a e s ∧ e.has "plan" = false) ∧
    (∃ (c : Ctx) (p : Pfx) (a : Args) (e : Env) (s : State), Passes innSetV c p a e s ∧ s.on 10 = true) ∧
    (∃ (c : Ctx) (p : Pfx) (a : Args) (e : Env) (s : State), Passes innSetV c p a e s ∧ s.on 10 = false) ∧
    (∃ (s : State), s.on 10 = true ∧ cellarFixed s = false) ∧
    (∃ (s : State), s.on 10 = true ∧ cellarFixed s = false) ∧
    (∃ (s : State), cellarFixed s = true) :=
  ⟨⟨c0, .none, [an "id" 5], _, gst 5 guest1 (withPlan plan1 full), passes_of (by decide +kernel)⟩,
    ⟨c0, .none, [], _, gst 5 guest1 (withPlan plan1 full), passes_of (by decide +kernel), by decide +kernel⟩,
    ⟨c0, .none, [], _, gst 5 guest1 (withPlan plan1 full), passes_of (by decide +kernel), by decide +kernel⟩,
    ⟨c0, .none, [], _, gst 5 guest1 (withPlan plan1 full), passes_of (by decide +kernel), by decide +kernel⟩,
    ⟨c0, .none, [an "ovrn" 16, aw "shed" "off"], _, full, passes_of (by decide +kernel), by decide +kernel⟩,
    ⟨c0, .none, [an "ovrn" 16, aw "shed" "off"], _, dom 7 full, passes_of (by decide +kernel), by decide +kernel⟩,
    ⟨full, by decide +kernel⟩,
    ⟨full, by decide +kernel⟩,
    ⟨gst 5 { guest1 with state := .away } (withPlan { plan1 with prec := some .wide } full), by decide +kernel⟩⟩

/-- Witnesses of the hypotheses of `Obligations.RoomsAndCellar`. -/
theorem wit_roomsAndCellar :
    (∃ (r : Nat) (s : State), s.on 10 = true ∧ (zeroNow (r / 4) s).map (·.room) = some r) ∧
    (∃ (r : Nat) (s : State), (zeroNow (r / 4) s).map (·.room) ≠ some r) ∧
    (∃ (b : Nat) (j : ZeroJob) (s : State), zeroNow b s = some j) ∧
    (∃ (g : Nat) (x : Guest) (j : ZeroJob) (s : State), s.on 10 = true ∧ s.inn.guests = [(g, x)] ∧ x.writing = true ∧ s.inn.zeroq = [j] ∧
      s.inn.inUse = [(j.room, .zeroing)]) ∧
    (∃ (g : Nat) (r : Nat) (l : List Nat) (s : State), s.memOk ∧ (∃ c, (c, g) ∈ s.inn.chans) ∧ s.on 10 = true ∧ roomsToWrite s (s.guest
      g) = r :: l) ∧
    (∃ (g : Nat) (s : State), s.memOk ∧ (∃ c, (c, g) ∈ s.inn.chans) ∧ s.on 10 = true ∧ (s.guest g).swapping = true) ∧
    (∃ (s : State), s.on 10 = false) ∧
    (∃ (s : State), s.on 10 = false) ∧
    (∃ (s : State), s.on 10 = false) :=
  ⟨⟨31,
      { full with inn := { full.inn with zeroq := [⟨31, false, 0⟩], rooms := [(31, 9)], inUse := [(31,.zeroing)] }, ram := [(0x2000001F0003,1),(0x200000200000,1)] },
      by decide +kernel⟩,
    ⟨30,
      { full with inn := { full.inn with zeroq := [⟨31, false, 0⟩], rooms := [(31, 9)], inUse := [(31,.zeroing)] }, ram := [(0x2000001F0003,1),(0x200000200000,1)] },
      by decide +kernel⟩,
    ⟨3, ⟨13, true, 64⟩, { full with inn := { full.inn with zeroq := [⟨12, false, 0⟩, ⟨13, true, 64⟩] } }, by decide +kernel⟩,
    ⟨5, {guest1 with state := .leaving, leaveTo := .away, writing := true, gone := true}, ⟨2, false, 0⟩, (gst 5
      {guest1 with state := .leaving, leaveTo := .away, writing := true, gone := true} full).onInn fun i =>
      { i with inUse := [(2,.zeroing)], zeroq := [⟨2, false, 0⟩], rooms := [(2, 5)] }, by decide +kernel⟩,
    ⟨5, 2, [],
      ({ gst 5 {guest1 with state := .leaving, leaveTo := .away, writing := true, gone := true} full with ram := [(0x200000020001,8)] } :
      State).onInn fun i => { i with inUse := [(2,.writing)], rooms := [(2,5)], chans := [(0,5)] },
      by unfold State.memOk; decide +kernel, ⟨0, by decide +kernel⟩, by decide +kernel⟩,
    ⟨5, (let f : State := gst 5 {guest1 with swapping := true, join := 2, filled := 0} full;
      { f with ram := [(0x100000000000+5,3),(0x200000020001,8)], inn := { f.inn with rooms := [(2,5),(3,5)], chans := [(0,5)] } }),
      by unfold State.memOk; decide +kernel, ⟨0, by decide +kernel⟩, by decide +kernel⟩,
    ⟨dom 7 full, by decide +kernel⟩,
    ⟨dom 7 full, by decide +kernel⟩,
    ⟨dom 7 full, by decide +kernel⟩⟩

/-- Witnesses of the hypotheses of `Obligations.ShedChoice`. -/
theorem wit_shedChoice :
    (∃ (l : List (Nat × Guest)) (b : Nat × Guest), shedChoice l = some b) ∧
    (∃ (s : State), s.inn.thermal = true) ∧
    (∃ (s : State), s.inn.thermal = false) :=
  ⟨⟨[(3, guest1), (5, { guest1 with c := 9 }), (6, { guest1 with cls := .keep })], (5, { guest1 with c := 9 }), by decide +kernel⟩,
    ⟨full.onInn fun i => {i with thermal := true}, by decide +kernel⟩,
    ⟨full, by decide +kernel⟩⟩

/-- Witnesses of the hypotheses of `Obligations.Leases`. -/
theorem wit_leases :
    (∃ (b : Nat) (k : Nat) (z : Nat) (q : Plan) (s : State), s.on 10 = true ∧ tget s.inn.ports (4 * b + k) = some (z, q.name) ∧ s.plan?
      q.name = some q ∧ q.quar = false ∧ q.pendQuar = none) ∧
    (∃ (ch : Nat) (g : Nat) (s : State), s.on 10 = true ∧ tget s.inn.chans ch = some g) ∧
    (∃ (n : Nat) (f : Fetch) (s : State), s.on 10 = true ∧ s.ldr.slots = [(n, f)] ∧ s.ldr.serving = [] ∧ s.ldr.store = [] ∧ s.evq.held =
      [] ∧ s.cch.routes = []) ∧
    (∃ (n : Nat) (f : Fetch) (x : Serve) (s : State), s.on 10 = true ∧ s.ldr.slots = [(n, f)] ∧ s.ldr.serving = [x] ∧ x.req.table =
      f.table ∧ x.wait = [f.row] ∧ s.ldr.store = [] ∧ s.evq.held = [] ∧ s.cch.routes = []) ∧
    (∃ (b : Nat) (k : Nat) (s : State), tget s.inn.ports (4 * b + k) = none) ∧
    (∃ (ch : Nat) (s : State), tget s.inn.chans ch = none) ∧
    (∃ (n : Nat) (s : State), tget s.ldr.slots n = none) ∧
    (∃ (s : State), s.on 10 = false) :=
  ⟨⟨3, 1, 0, plan1, (let f : State := withPlan plan1 (gst 5 guest1 full); { f with inn := { f.inn with ports := [(13,(0,"p"))] } }),
      by decide +kernel⟩,
    ⟨0, 5, (let f : State := gst 5 {guest1 with swapping := true, join := 1, filled := 0} full;
      { f with ram := [(0x100000000000+5,3),(0x200000020001,8)], inn := { f.inn with rooms := [(2,5),(3,5)], chans := [(0,5)] } }),
      by decide +kernel⟩,
    ⟨4, ⟨3,2,false,none,5,[],false,false⟩,
      { withPlan plan1 (gst 5 guest1 full) with ldr := { full.ldr with slots := [(4,⟨3,2,false,none,5,[],false,false⟩)], serving := [] } },
      by decide +kernel⟩,
    ⟨4, ⟨3,2,false,none,5,[],false,false⟩, srv [2],
      { withPlan plan1 (gst 5 guest1 full) with ldr := { full.ldr with slots := [(4,⟨3,2,false,none,5,[],false,false⟩)], serving := [srv [2]] } },
      by decide +kernel⟩,
    ⟨3, 1, full, by decide +kernel⟩,
    ⟨1, full, by decide +kernel⟩,
    ⟨2, full, by decide +kernel⟩,
    ⟨dom 7 full, by decide +kernel⟩⟩

/-- Witnesses of the hypotheses of `Obligations.LarderTables`. -/
theorem wit_larderTables :
    (∃ (c : Ctx) (p : Pfx) (a : Args) (e : Env) (s : State),
     let t := e.nat "table"
     let d := ldrDescr e ((tget s.ldr.tables t).getD ⟨"", true, 0, 0, 0, 0, 1, 64, 12, 1, 0, false, false⟩)
     Passes ldrSetV c p a e s ∧ ldrBad e d = none ∧ s.on 11 = true ∧ (d.local_ = true → s.mem.valid = true ∧ localOverlap s d (tdel
       s.ldr.tables t) = false) ∧ tableBusy s t = false ∧ (d.local_ = true → ((tdel s.ldr.tables t).map fun x => if x.2.local_ then
       x.2.bytes else 0).sum + d.bytes ≤ 24 * 2 ^ 30) ∧ (d.pin = true → maxPin (tset (tdel s.ldr.tables t) t d) ≤ 8)) ∧
    (∃ (c : Ctx) (a : Args) (s : State) (k : String), canRun c.origin s = true ∧ Level.keeper.rank ≤ (s.levelOf c.origin).rank ∧
      s.desk.claims = [] ∧ missingKey ldrSetV.keys a = none ∧ ldrSetV.lacks a s = some k) ∧
    (∃ (c : Ctx) (p : Pfx) (a : Args) (e : Env) (s : State) (d : TableD), Passes ldrSetV c p a e s ∧ tget s.ldr.tables (e.nat "table") =
      some d ∧ ldrBad e (ldrDescr e d) = none ∧ s.on 11 = true ∧ (ldrDescr e d).local_ = false ∧ tableBusy s (e.nat "table") = true) ∧
    (∃ (c : Ctx) (p : Pfx) (a : Args) (e : Env) (s : State) (d : TableD) (k : Nat), Passes ldrLoadV c p a e s ∧ tget s.ldr.tables (e.nat
      "table") = some d ∧ d.local_ = true ∧ s.on 11 = true ∧ s.mem.valid = true ∧ tableBusy s (e.nat "table") = false ∧ e.nat? "addr" =
      some k ∧ inUsable k d.bytes s = true) ∧
    (∃ (c : Ctx) (p : Pfx) (a : Args) (e : Env) (s : State) (d : TableD) (f : Flash) (x : DirEntry), Passes ldrLoadV c p a e s ∧ tget
      s.ldr.tables (e.nat "table") = some d ∧ d.local_ = true ∧ s.on 11 = true ∧ s.mem.valid = true ∧ tableBusy s (e.nat "table") = false
      ∧ e.nat? "addr" = none ∧ s.sys.flash = some f ∧ dirEntry 3 d.name s = some x ∧ d.bytes ≤ x.length) ∧
    (∃ (c : Ctx) (p : Pfx) (a : Args) (e : Env) (s : State),
     let r := e.nat "route"
     Passes ldrBindV c p a e s ∧ s.on 8 = true ∧ s.on 11 = true ∧ (s.route r).state = .opened ∧ (s.route r).bind = .none ∧ (boundRoutes
       s).length < 16 ∧ (s.route r).rq ≤ s.cch.poolFree) ∧
    (∃ (c : Ctx) (p : Pfx) (a : Args) (e : Env) (s : State),
     let r := e.nat "route"
     Passes ldrBindV c p a e s ∧ s.on 8 = true ∧ s.on 11 = true ∧ (s.route r).state = .opened ∧ (s.route r).bind = .larder) ∧
    (∃ (c : Ctx) (p : Pfx) (a : Args) (e : Env) (s : State),
     let r := e.nat "route"
     Passes ldrUnbindV c p a e s ∧ s.on 8 = true ∧ s.on 11 = true ∧ (s.route r).bind = .larder ∧ (s.route r).pending = []) ∧
    (∃ (c : Ctx) (p : Pfx) (a : Args) (e : Env) (s : State) (d : TableD), Passes ldrInvalV c p a e s ∧ tget s.ldr.tables (e.nat "table")
      = some d ∧ s.on 11 = true) ∧
    (∃ (c : Ctx) (p : Pfx) (a : Args) (e : Env) (s : State), Passes ldrShowV c p a e s ∧ s.on 11 = true) :=
  ⟨⟨c0, .none, [an "table" 3, aw "name" "t", aw "place" "local", ah "addr" 0x10000000, an "rows" 16, an "size" 64, aw "fmt" "F32", an
      "elems" 4, aw "pin" "on"], _, full, passes_of (by decide +kernel), by decide +kernel⟩,
    ⟨c0, [an "table" 3, aw "name" "t"], full, "place", by decide +kernel⟩,
    ⟨c0, .none, [an "table" 3, aw "place" "remote", an "route" 7, ah "key" 5], _, withTable tabd
      { full with ldr := { full.ldr with serving := [srv [2]], slots := [(4,⟨3,2,false,none,5,[],false,false⟩)] } }, tabd, passes_of
      (by decide +kernel), by decide +kernel⟩,
    ⟨c0, .none, [an "table" 3, ah "addr" 0x8000], _, withTable tabd { full with ram := [(0x8000,7)] }, tabd, 0x8000, passes_of
      (by decide +kernel), by decide +kernel⟩,
    ⟨c0, .none, [an "table" 3], _, (let f : State := withFlash flash1 (withTable {tabd with name := "p1", rows := 1, size := 64} full);
      { f with sys := { f.sys with dirOf := some (1, [⟨3,0,"p1",0x30000,0x1000⟩]) } }), {tabd with name := "p1", rows := 1, size := 64},
      flash1, ⟨3,0,"p1",0x30000,0x1000⟩, passes_of (by decide +kernel), by decide +kernel⟩,
    ⟨c0, .none, [an "route" 7], _, rt 7 { state := .opened } full, passes_of (by decide +kernel), by decide +kernel⟩,
    ⟨c0, .none, [an "route" 7], _, rt 7 { state := .opened, bind := .larder, pool := 16 } full, passes_of (by decide +kernel),
      by decide +kernel⟩,
    ⟨c0, .none, [an "route" 7, aw "" "off"], _, (let f : State := rt 7 { state := .opened, bind := .larder, pool := 16 } full;
      {f with cch := {f.cch with poolFree := 496}}), passes_of (by decide +kernel), by decide +kernel⟩,
    ⟨c0, .none, [an "table" 3], _, withTable tabd full, tabd, passes_of (by decide +kernel), by decide +kernel⟩,
    ⟨c0, .none, [], _, withTable tabd full, passes_of (by decide +kernel), by decide +kernel⟩⟩

/-- Witnesses of the hypotheses of `Obligations.LarderRequests`. -/
theorem wit_larderRequests :
    (∃ (c : Ctx) (p : Pfx) (a : Args) (e : Env) (s : State) (t : Nat),
     let r : LdrReq := ⟨e.nat "guest", e.nat "port", e.nat "table", bagOfName (e.word "op"), 0, e.nums "idx"⟩
     Passes ldrReqV c p a e s ∧ Acceptable c p (.request r) t s ∧ e.word "op" ≠ "lerp" ∧ (e.word "op" = "sum" ∨ e.word "op" = "mean") ∧
       e.has "w" = false ∧ badRequest s r = false ∧ s.on 11 = true ∧ s.mem.valid = true) ∧
    (∃ (c : Ctx) (p : Pfx) (a : Args) (e : Env) (s : State), Passes ldrReqV c p a e s ∧ e.word "op" = "sum" ∧ e.has "w" = false ∧
      badRequest s ⟨e.nat "guest", e.nat "port", e.nat "table", .sum, 0, e.nums "idx"⟩ = true) ∧
    (∃ (c : Ctx) (p : Pfx) (a : Args) (e : Env) (s : State) (t : Nat) (l : List W32), Passes ldrPutV c p a e s ∧ Acceptable c p (.put
      (e.nat "guest") (e.nat "port") l) t s ∧ (e.raw? "val").bind (fun v => allSome ((valItems v).map itemF32)) = some l ∧ l ≠ [] ∧
      l.length ≤ 8 ∧ s.on 11 = true) ∧
    (∃ (x : Serve) (d : TableD) (i : Nat) (s : State), s.on 11 = true ∧ s.ldr.queue = [x] ∧ s.ldr.serving = [] ∧ s.ldr.slots = [] ∧
      s.evq.held = [] ∧ s.cch.routes = [] ∧ tget s.ldr.tables x.req.table = some d ∧ d.local_ = true ∧ d.pf = false ∧ badRequest s x.req
      = false ∧ x.req.idx = [i] ∧ x.wait = [] ∧ x.rows = [] ∧ rowCached s x.req.table d i = false) ∧
    (∃ (s : State), s.ldr.queue = [] ∧ s.ldr.serving = [] ∧ s.ldr.store = [] ∧ s.ldr.pinNext = [] ∧ s.evq.held = [] ∧ s.cch.routes = []) ∧
    (∃ (n : Nat) (f : Fetch) (x : Serve) (d : TableD) (s : State), s.on 11 = true ∧ s.mem.valid = true ∧ s.ldr.slots = [(n, f)] ∧ f.route
      = none ∧ f.poison = false ∧ tget s.ldr.tables f.table = some d ∧ d.local_ = true ∧ s.ldr.serving = [x] ∧ s.ldr.store = [] ∧
      x.req.table = f.table ∧ x.req.idx = [f.row] ∧ x.req.op = .sum ∧ x.wait = [f.row] ∧ x.rows = [] ∧ s.evq.held = [] ∧ s.cch.routes =
      [] ∧ d.elems ≤ 8191) ∧
    (∃ (n : Nat) (f : Fetch) (x : Serve) (d : TableD) (s : State), s.on 11 = true ∧ s.mem.valid = true ∧ s.ldr.slots = [(n, f)] ∧ f.route
      = none ∧ f.poison = false ∧ tget s.ldr.tables f.table = some d ∧ d.local_ = true ∧ s.ldr.serving = [x] ∧ s.ldr.store = [] ∧
      x.req.table = f.table ∧ x.req.idx = [f.row] ∧ x.req.op = .sum ∧ x.wait = [f.row] ∧ x.rows = [] ∧ s.evq.held = [] ∧ s.cch.routes =
      [] ∧ d.elems ≤ 8191) ∧
    (∃ (d : Delivery) (cut : Bool) (s : State), s.on 11 = true ∧ s.on 3 = true ∧ s.ldr.store = [d] ∧ d.posted = false ∧ s.ldr.serving =
      [] ∧ s.ldr.queue = [] ∧ s.evq.entries = [] ∧ s.evq.held = [] ∧ s.cch.routes = [] ∧ d.stamp.toNat ≤ s.tly.now.toNat + 1 ∧ onTime
      d.stamp.toNat cut s = true) :=
  ⟨⟨c0, .none, [an "guest" 5, an "port" 0, an "table" 3, aw "op" "SUM", ⟨"idx", .list [.num false 2 0 ""]⟩], _, withTable tabd (gst 5 guest1
      (withPlan plan1 full)), 1001, passes_of (by decide +kernel), acceptable_of (by decide +kernel), by decide +kernel⟩,
    ⟨c0, .none, [an "guest" 5, an "port" 0, an "table" 3, aw "op" "SUM", ⟨"idx", .list [.num false 16 0 ""]⟩], _, withTable tabd (gst 5
      guest1 (withPlan plan1 full)), passes_of (by decide +kernel), by decide +kernel⟩,
    ⟨c0, .none, [an "guest" 5, an "port" 0, ⟨"val", .list [.num false 2 0 "", .num false 2 0 "", .num false 2 0 "", .num false 2 0 ""]⟩],
      _, withTable tabd (gst 5 guest1 (withPlan plan1 full)), 1001, [0x40000000,0x40000000,0x40000000,0x40000000], passes_of
      (by decide +kernel), acceptable_of (by decide +kernel), by decide +kernel⟩,
    ⟨srv [], tabd, 2, (let f : State := withTable tabd (gst 5 guest1 (withPlan plan1 full));
      { f with ldr := { f.ldr with queue := [srv []] } }), by decide +kernel⟩,
    ⟨full, by decide +kernel⟩,
    ⟨4, ⟨3,2,false,none,5,[],false,false⟩, srv [2], tabd, (let f : State := withTable tabd (gst 5 guest1 (withPlan plan1 full));
      { f with ldr := { f.ldr with serving := [srv [2]], slots := [(4,⟨3,2,false,none,5,[],false,false⟩)] } }), by decide +kernel⟩,
    ⟨4, ⟨3,2,false,none,5,[],false,false⟩, srv [2], tabd, (let f : State := withTable tabd (gst 5 guest1 (withPlan plan1 full));
      { f with ldr := { f.ldr with serving := [srv [2]], slots := [(4,⟨3,2,false,none,5,[],false,false⟩)] } }), by decide +kernel⟩,
    ⟨⟨5,0,.desk,9,990,990,req1,[1,2,3,4],false⟩, false, (let f : State := withTable tabd (gst 5 guest1 (withPlan plan1 full));
      { f with ldr := { f.ldr with store := [⟨5,0,.desk,9,990,990,req1,[1,2,3,4],false⟩] }, tly := { f.tly with now := 989 } }),
      by decide +kernel⟩⟩

/-- Witnesses of the hypotheses of `Obligations.Routes`. -/
theorem wit_routes :
    (∃ (c : Ctx) (p : Pfx) (a : Args) (e : Env) (s : State),
     let r := e.nat "r"
     let x := routeWith e (closedContext r s)
     let taken := if x.bind = .none then 0 else x.rq
     Passes routeOpenV c p a e s ∧ (e.has "vlan" = true → vlanOf e ≠ none) ∧ s.on 8 = true ∧ (s.route r).state = .closed ∧ depthSum s +
       x.sq + x.rq ≤ 32768 ∧ ringUsed x.rring (s.onRoute r fun _ => { x with state := .opened }) ≤ 1024 ∧ taken ≤ s.cch.poolFree ∧
       (x.bind = .larder → (boundRoutes s).length < 16)) ∧
    (∃ (c : Ctx) (a : Args) (s : State) (k : String), canRun c.origin s = true ∧ Level.keeper.rank ≤ (s.levelOf c.origin).rank ∧
      s.desk.claims = [] ∧ missingKey routeOpenV.keys a = none ∧ routeOpenV.lacks a s = some k) ∧
    (∃ (c : Ctx) (p : Pfx) (a : Args) (e : Env) (s : State), Passes routeOpenV c p a e s ∧ (s.route (e.nat "r")).state ≠ .closed ∧ (e.has
      "vlan" = true → vlanOf e ≠ none) ∧ s.on 8 = true) ∧
    (∃ (c : Ctx) (p : Pfx) (a : Args) (e : Env) (s : State), Passes routeCloseV c p a e s ∧ ((s.route (e.nat "r")).state = .opened ∨
      (s.route (e.nat "r")).state = .error)) ∧
    (∃ (r : Nat) (x : Route) (s : State), s.cch.routes = [(r, x)] ∧ x.state = .closing ∧ x.sendq = [] ∧ x.recvq = []) ∧
    (∃ (c : Ctx) (p : Pfx) (a : Args) (e : Env) (s : State), Passes routeSetV c p a e s ∧ s.on 8 = true ∧ (s.route (e.nat "r")).state =
      .opened ∧ (∀ k ∈ ["port", "peer", "peerport", "peerroute", "vlan", "dscp", "rel", "sq", "rq", "sring", "rring", "bind"], e.has k =
      false)) ∧
    (∃ (c : Ctx) (p : Pfx) (a : Args) (e : Env) (s : State), Passes routeSetV c p a e s ∧ s.on 8 = true ∧ (s.route (e.nat "r")).state =
      .opened ∧ e.has "peer" = true ∧ (e.has "vlan" = true → vlanOf e ≠ none)) ∧
    (∃ (c : Ctx) (p : Pfx) (a : Args) (e : Env) (s : State), Passes routeRecvV c p a e s ∧ inUsable (e.nat "addr") (e.nat "len") s = true
      ∧ (s.route (e.nat "r")).state = .opened ∧ (s.route (e.nat "r")).bind = .none ∧ (s.route (e.nat "r")).recvq.length < (s.route (e.nat
      "r")).rq) ∧
    (∃ (c : Ctx) (p : Pfx) (a : Args) (e : Env) (s : State), Passes routePostV c p a e s ∧ waybillValid (lineWaybill e) s = true ∧ s.on 8
      = true ∧ (s.route (e.nat "r")).state = .opened ∧ postRoom (e.nat "r") (lineWaybill e) s = true) ∧
    (∃ (c : Ctx) (p : Pfx) (a : Args) (e : Env) (s : State), Passes routePostV c p a e s ∧ waybillValid (lineWaybill e) s = true ∧ s.on 8
      = true ∧ (s.route (e.nat "r")).state = .opened ∧ postRoom (e.nat "r") (lineWaybill e) s = false) ∧
    (∃ (c : Ctx) (p : Pfx) (a : Args) (e : Env) (s : State), Passes routeShowV c p a e s ∧ s.on 8 = true) :=
  ⟨⟨c0, .none, [an "r" 7, ⟨"peer", .item (.addr4 10 0 0 9)⟩, an "peerroute" 4, an "vlan" 77, aw "bind" "DESK"], _, full, passes_of
      (by decide +kernel), by decide +kernel⟩,
    ⟨c0, [an "r" 7, ⟨"peer", .item (.addr4 10 0 0 9)⟩], full, "peerroute", by decide +kernel⟩,
    ⟨c0, .none, [an "r" 7, an "vlan" 77], _, rt 7 op0 full, passes_of (by decide +kernel), by decide +kernel⟩,
    ⟨c0, .none, [an "r" 7], _, rt 7 op0 full, passes_of (by decide +kernel), by decide +kernel⟩,
    ⟨7, { op0 with state := .closing, bind := .desk }, (let f : State := rt 7 { op0 with state := .closing, bind := .desk } full;
      {f with cch := {f.cch with poolFree := 496}}), by decide +kernel⟩,
    ⟨c0, .none, [an "r" 7, aw "level" "keeper", aw "reply" "on"], _, rt 7 op0 full, passes_of (by decide +kernel), by decide +kernel⟩,
    ⟨c0, .none, [an "r" 7, ⟨"peer", .item (.addr4 10 0 0 9)⟩], _, rt 7 op0 full, passes_of (by decide +kernel), by decide +kernel⟩,
    ⟨c0, .none, [an "r" 7, ah "addr" 0x5000, an "len" 64], _, rt 7 op0 full, passes_of (by decide +kernel), by decide +kernel⟩,
    ⟨c0, .none, [an "r" 7, aw "op" "WRITE", ah "laddr" 0x3000, an "len" 4, ah "wid" 9], _, rt 7 op0 full, passes_of (by decide +kernel),
      by decide +kernel⟩,
    ⟨c0, .none, [an "r" 7, aw "op" "WRITE", ah "laddr" 0x3000, an "len" 4], _, rt 7 { op0 with sq := 0 } full, passes_of
      (by decide +kernel), by decide +kernel⟩,
    ⟨c0, .none, [], _, full, passes_of (by decide +kernel), by decide +kernel⟩⟩

/-- Witnesses of the hypotheses of `Obligations.WindowsAndRings`. -/
theorem wit_windowsAndRings :
    (∃ (c : Ctx) (p : Pfx) (a : Args) (e : Env) (s : State),
     let w := e.nat "w"
     Passes winOpenV c p a e s ∧ inUsable (e.nat "addr") (e.nat "len") s = true ∧ inCellar (e.nat "addr") (e.nat "len") s = false ∧ s.on
       8 = true ∧ (s.win w).opened = false) ∧
    (∃ (c : Ctx) (p : Pfx) (a : Args) (e : Env) (s : State), Passes winCloseV c p a e s ∧ (s.win (e.nat "w")).opened = true ∧ (s.win
      (e.nat "w")).hop = none) ∧
    (∃ (c : Ctx) (p : Pfx) (a : Args) (e : Env) (s : State), Passes winCloseV c p a e s ∧ (s.win (e.nat "w")).opened = false) ∧
    (∃ (c : Ctx) (p : Pfx) (a : Args) (e : Env) (s : State), Passes winShowV c p a e s ∧ s.on 8 = true) ∧
    (∃ (c : Ctx) (p : Pfx) (a : Args) (e : Env) (s : State), Passes cchShowV c p a e s ∧ s.on 8 = true) ∧
    (∃ (c : Ctx) (p : Pfx) (a : Args) (e : Env) (s : State), Passes cchRingV c p a e s ∧ s.on 8 = true) ∧
    (∃ (v : W32) (s : State), s.on 8 = true ∧ (s.route (fld v 0 9)).state = .opened ∧ postRoom (fld v 0 9) (stagedWaybill s) s = true) ∧
    (∃ (v : W32) (s : State), s.on 8 = true ∧ ((s.route (fld v 0 9)).state ≠ .opened ∨ postRoom (fld v 0 9) (stagedWaybill s) s = false)) ∧
    (∃ (v : W32) (s : State), s.on 8 = true ∧ (s.ring s.cch.ringsel.toNat).tail = 0 ∧ fld v 0 10 ≤ (s.ring
      s.cch.ringsel.toNat).entries.length) :=
  ⟨⟨c0, .none, [an "w" 9, ah "addr" 0x10000000, an "len" 256, ⟨"rights", .list [.word "rd", .word "wr"]⟩, an "route" 7], _, full,
      passes_of (by decide +kernel), by decide +kernel⟩,
    ⟨c0, .none, [an "w" 9], _, withWin full, passes_of (by decide +kernel), by decide +kernel⟩,
    ⟨c0, .none, [an "w" 9], _, full, passes_of (by decide +kernel), by decide +kernel⟩,
    ⟨c0, .none, [], _, full, passes_of (by decide +kernel), by decide +kernel⟩,
    ⟨c0, .none, [], _, full, passes_of (by decide +kernel), by decide +kernel⟩,
    ⟨c0, .none, [an "n" 3, an "count" 2], _,
      { full with cch := { full.cch with rings := [(3, { head := 2, tail := 0, entries := [⟨1,7,false,0,0,4,0,none,5,0,false⟩,⟨2,7,true,1,0,4,9,some 77,5,0,true⟩] })], ringsel := 3 } },
      passes_of (by decide +kernel), by decide +kernel⟩,
    ⟨7, rt 7 op0 full, by decide +kernel⟩,
    ⟨7, full, by decide +kernel⟩,
    ⟨2,
      { full with cch := { full.cch with rings := [(3, { head := 2, tail := 0, entries := [⟨1,7,false,0,0,4,0,none,5,0,false⟩,⟨2,7,true,1,0,4,9,some 77,5,0,true⟩] })], ringsel := 3 } },
      by decide +kernel⟩⟩

/-- Witnesses of the hypotheses of `Obligations.Issuing`. -/
theorem wit_issuing :
    (∃ (n : Nat) (r : Nat) (i : Nat → Instr) (w : Waybill) (s : State), ((n = 0 ∧ i = Instr.issueWrite) ∨ (n = 1 ∧ i =
      Instr.issueWriteImm) ∨ (n = 2 ∧ i = Instr.issueRead) ∨ (n = 3 ∧ i = Instr.issueSend) ∨ (n = 4 ∧ i = Instr.issueFlush)) ∧ s.on 8 =
      true ∧ (s.route r).state = .opened ∧ (s.route r).sendq = [w] ∧ w.issued = false ∧ waybillValid w s = true ∧ w.op = n ∧ mayLeave r w
      s = true) ∧
    (∃ (n : Nat) (r : Nat) (i : Nat → Instr) (w : Waybill) (s : State), ((n = 0 ∧ i = Instr.issueWrite) ∨ (n = 1 ∧ i =
      Instr.issueWriteImm) ∨ (n = 2 ∧ i = Instr.issueRead) ∨ (n = 3 ∧ i = Instr.issueSend) ∨ (n = 4 ∧ i = Instr.issueFlush)) ∧ s.on 8 =
      true ∧ (s.route r).state = .opened ∧ (s.route r).sendq = [w] ∧ w.issued = false ∧ waybillValid w s = true ∧ w.op ≠ n) ∧
    (∃ (r : Nat) (q : Nat) (w : Waybill) (s : State), s.on 8 = true ∧ (s.route r).state = .opened ∧ (s.route r).sendq = [w] ∧ w.issued =
      false ∧ waybillValid w s = true ∧ w.op = 5 ∧ w.wroute = q ∧ w.flags = 0 ∧ q ≠ r ∧ w.hop = false ∧ w.larder = none ∧ w.data = none ∧
      (∀ e ∈ s.cch.routes, e.1 ≠ r → e.2.sendq = []) ∧ ((s.route q).ccOut - w.wcount).toNat < 2 ^ 31) ∧
    (∃ (r : Nat) (q : Nat) (w : Waybill) (s : State), s.on 8 = true ∧ (s.route r).state = .opened ∧ (s.route r).sendq = [w] ∧ w.issued =
      false ∧ waybillValid w s = true ∧ w.op = 5 ∧ w.wroute = q ∧ w.flags = 0 ∧ q ≠ r ∧ w.hop = false ∧ w.larder = none ∧ w.data = none ∧
      (∀ e ∈ s.cch.routes, e.1 ≠ r → e.2.sendq = []) ∧ 2 ^ 31 ≤ ((s.route q).ccOut - w.wcount).toNat ∧ (s.route q).state = .opened) ∧
    (∃ (r : Nat) (w : Waybill) (s : State), s.on 8 = true ∧ (s.route r).state = .opened ∧ (s.route r).sendq = [w] ∧ w.issued = false ∧
      waybillValid w s = true ∧ w.op = 6 ∧ w.armed = false) ∧
    (∃ (r : Nat) (w : Waybill) (s : State), s.on 8 = true ∧ ((s.route r).state = .opened ∨ (s.route r).state = .closing) ∧ (s.route
      r).sendq = [w] ∧ w.issued = true ∧ (w.op = 0 ∨ w.op = 1 ∨ w.op = 3) ∧ (∀ e ∈ s.cch.routes, e.1 ≠ r → e.2.sendq = [])) :=
  ⟨⟨1, 7, Instr.issueWriteImm, { wb with op := 1 }, rt 7 { op0 with sendq := [{ wb with op := 1 }] } full, by simp, by decide +kernel⟩,
    ⟨1, 7, Instr.issueWriteImm, { wb with op := 2 }, rt 7 { op0 with sendq := [{ wb with op := 2 }] } full, by simp, by decide +kernel⟩,
    ⟨7, 8, { wb with op := 5, wroute := 8 }, rt 7 { op0 with sendq := [{ wb with op := 5, wroute := 8 }] } full, by decide +kernel⟩,
    ⟨7, 8, { wb with op := 5, wroute := 8, wcount := 1 }, rt 8 op0 (rt 7
      { op0 with sendq := [{ wb with op := 5, wroute := 8, wcount := 1 }] } full), by decide +kernel⟩,
    ⟨7, { wb with op := 6 }, rt 7 { op0 with sendq := [{ wb with op := 6 }] } full, by decide +kernel⟩,
    ⟨7, { wb with op := 3, issued := true }, rt 7 { op0 with sendq := [{ wb with op := 3, issued := true }] } full, by decide +kernel⟩⟩

/-- Witnesses of the hypotheses of `Obligations.Requests`. -/
theorem wit_requests :
    (∃ (k : Packet) (s : State), portUp k.port s = true ∧ s.on 8 = true ∧ k.kind = 0 ∧ k.fcsOk = false) ∧
    (∃ (k : Packet) (s : State), portUp k.port s = true ∧ s.on 8 = true ∧ k.kind = 0 ∧ k.fcsOk = true ∧ k.fecUnc = false ∧ k.csumOk =
      false) ∧
    (∃ (k : Packet) (s : State), portUp k.port s = true ∧ s.on 8 = true ∧ k.kind = 0 ∧ k.fcsOk = true ∧ k.fecUnc = false ∧ k.csumOk =
      true ∧ k.ver ≠ 1) ∧
    (∃ (n : Nat) (k : Packet) (s : State), n ≤ 4 ∧ portUp k.port s = true ∧ s.on 8 = true ∧ k.kind = n ∧ k.fcsOk = true ∧ k.fecUnc =
      false ∧ k.csumOk = true ∧ k.ver = 1 ∧ k.rsvd = 0 ∧ k.droute < 512 ∧ (s.route k.droute).state = .opened ∧ fromPeer k (s.route
      k.droute) = true ∧ k.ce = false) ∧
    (∃ (k : Packet) (r : Nat) (s : State) (w : Nat), takePacket 0 k s = (some r, s) ∧ (s.route r).state = .opened ∧ k.psn = (s.route
      r).epsn ∧ windowFor r false k.rkey k.roff k.payload.length s = some w ∧ (s.win w).hop = none) ∧
    (∃ (k : Packet) (r : Nat) (s : State), takePacket 0 k s = (some r, s) ∧ (s.route r).state = .opened ∧ k.psn = (s.route r).epsn ∧
      windowFor r false k.rkey k.roff k.payload.length s = none) ∧
    (∃ (k : Packet) (r : Nat) (w : Nat) (s : State), takePacket 1 k s = (some r, s) ∧ (s.route r).state = .opened ∧ k.psn = (s.route
      r).epsn ∧ k.pos = 0 ∧ windowFor r false k.rkey k.roff k.payload.length s = some w ∧ (s.win w).hop = none ∧ targetFree r s = true ∧
      (s.route r).rring < 56 ∧ (∀ e ∈ s.cch.routes, e.2.sendq = [])) ∧
    (∃ (k : Packet) (r : Nat) (w : Nat) (s : State), takePacket 2 k s = (some r, s) ∧ (s.route r).state = .opened ∧ k.psn = (s.route
      r).epsn ∧ windowFor r true k.rkey k.roff k.len s = some w) ∧
    (∃ (k : Packet) (r : Nat) (b : Nat) (n : Nat) (q : List (Nat × Nat)) (s : State), takePacket 3 k s = (some r, s) ∧ (s.route r).state
      = .opened ∧ k.psn = (s.route r).epsn ∧ k.pos = 0 ∧ (s.route r).bind = .none ∧ (s.route r).recvq = (b, n) :: q ∧ k.payload.length ≤
      n ∧ targetFree r s = true ∧ (s.route r).rring < 56 ∧ (∀ e ∈ s.cch.routes, e.2.sendq = [])) ∧
    (∃ (k : Packet) (r : Nat) (s : State), takePacket 4 k s = (some r, s) ∧ (s.route r).state = .opened ∧ k.psn = (s.route r).epsn) :=
  ⟨⟨{pk with fcsOk := false}, withWin (rt 7 op0 full), by decide +kernel⟩,
    ⟨{ pk with csumOk := false }, withWin (rt 7 op0 full), by decide +kernel⟩,
    ⟨{ pk with ver := 2 }, withWin (rt 7 op0 full), by decide +kernel⟩,
    ⟨4, { pk with kind := 4 }, withWin (rt 7 op0 full), by decide +kernel⟩,
    ⟨pk, 7, withWin (rt 7 op0 full), 9, by decide +kernel⟩,
    ⟨pk, 7, rt 7 op0 full, by decide +kernel⟩,
    ⟨{ pk with kind := 1 }, 7, 9, withWin (rt 7 op0 full), by decide +kernel⟩,
    ⟨{ pk with kind := 2, len := 5000, roff := 0 }, 7, 9, (rt 7 op0 full).onWin 9 fun _ => { win9 with len := 0x10000 },
      by decide +kernel⟩,
    ⟨{ pk with kind := 3 }, 7, 0x6000, 64, [], rt 7 { op0 with recvq := [(0x6000,64)] } full, by decide +kernel⟩,
    ⟨{ pk with kind := 4 }, 7, withWin (rt 7 op0 full), by decide +kernel⟩⟩

/-- Witnesses of the hypotheses of `Obligations.AnswersAndTimers`. -/
theorem wit_answersAndTimers :
    (∃ (k : Packet) (r : Nat) (w : Waybill) (s : State), takePacket 5 k s = (some r, s) ∧ (s.route r).state = .opened ∧ (s.route r).sendq
      = [w] ∧ w.op = 2 ∧ w.issued = true ∧ w.got = 0 ∧ w.psn = k.psn ∧ w.psn < 2 ^ 24 ∧ w.larder = none ∧ w.hop = false ∧ w.data = none ∧
      w.poison = false ∧ k.status = 0 ∧ (∀ e ∈ s.cch.routes, e.1 ≠ r → e.2.sendq = []) ∧ 2 ≤ w.psns) ∧
    (∃ (k : Packet) (r : Nat) (w : Waybill) (s : State), takePacket 5 k s = (some r, s) ∧ (s.route r).state = .opened ∧ (s.route r).sendq
      = [w] ∧ w.op = 2 ∧ w.issued = true ∧ w.got = 0 ∧ w.psn = k.psn ∧ w.psn < 2 ^ 24 ∧ w.larder = none ∧ w.hop = false ∧ w.data = none ∧
      w.poison = false ∧ k.status = 0 ∧ (∀ e ∈ s.cch.routes, e.1 ≠ r → e.2.sendq = []) ∧ w.psns = 1) ∧
    (∃ (k : Packet) (r : Nat) (s : State), takePacket 0x10 k s = (some r, s) ∧ (∀ e ∈ s.cch.routes, e.2.sendq = []) ∧ (s.route r).ackd =
      0 ∧ k.apsn < (s.route r).psn ∧ (s.route r).psn < 2 ^ 23) ∧
    (∃ (k : Packet) (r : Nat) (s : State), takePacket 0x11 k s = (some r, s) ∧ k.status = 0x10) ∧
    (∃ (k : Packet) (r : Nat) (s : State), takePacket 0x11 k s = (some r, s) ∧ k.status = 7 ∧ (¬((s.route r).rnrPsn = some k.apsn ∧ 8 ≤
      (s.route r).rnr))) ∧
    (∃ (k : Packet) (r : Nat) (s : State), takePacket 0x11 k s = (some r, s) ∧ k.status = 7 ∧ (s.route r).rnrPsn = some k.apsn ∧ 8 ≤
      (s.route r).rnr ∧ (s.route r).state = .opened) ∧
    (∃ (k : Packet) (r : Nat) (s : State), takePacket 0x11 k s = (some r, s) ∧ (k.status = 2 ∨ k.status = 3 ∨ k.status = 8) ∧ (s.route
      r).state = .opened) ∧
    (∃ (k : Packet) (r : Nat) (s : State), takePacket 0x12 k s = (some r, s) ∧ carriesHop r s = false ∧ (s.route r).easeIn = false) ∧
    (∃ (r : Nat) (s : State), s.on 8 = true ∧ (s.route r).state = .opened ∧ 0 < (s.route r).unacked) ∧
    (∃ (r : Nat) (s : State) (e : Nat × Packet) (l : List (Nat × Packet)), s.on 8 = true ∧ (s.route r).state = .opened ∧ (s.route r).retx
      = e :: l ∧ (s.route r).retries < 8) ∧
    (∃ (r : Nat) (s : State) (e : Nat × Packet) (l : List (Nat × Packet)), s.on 8 = true ∧ (s.route r).state = .opened ∧ (s.route r).retx
      = e :: l ∧ 8 ≤ (s.route r).retries) ∧
    (∃ (r : Nat) (s : State) (n : Nat), s.on 8 = true ∧ (s.route r).state = .opened ∧ (s.route r).rnrPsn = some n ∧ (s.route r).rnrWait =
      true) ∧
    (∃ (r : Nat) (s : State), s.on 8 = true ∧ (s.route r).state = .opened) ∧
    (∃ (s : State), s.on 3 = true ∧ s.tly.now.toNat + 1 ∉ s.cch.sealed) :=
  ⟨⟨{ pk with kind := 5, payload := List.replicate 1024 7, len := 1024 }, 7,
      { wb with op := 2, issued := true, psns := 2, len := 2048 }, rt 7
      { op0 with sendq := [{ wb with op := 2, issued := true, psns := 2, len := 2048 }] } full, by decide +kernel⟩,
    ⟨{ pk with kind := 5 }, 7, { wb with op := 2, issued := true, psns := 1 }, rt 7
      { op0 with sendq := [{ wb with op := 2, issued := true, psns := 1 }] } full, by decide +kernel⟩,
    ⟨{ pk with kind := 0x10, apsn := 3 }, 7, rt 7 { op0 with psn := 6, retx := [(3,pk),(4,pk)] } full, by decide +kernel⟩,
    ⟨{ pk with kind := 0x11, status := 0x10 }, 7, withWin (rt 7 op0 full), by decide +kernel⟩,
    ⟨{ pk with kind := 0x11, status := 7, apsn := 5 }, 7, rt 7 { op0 with psn := 6 } full, by decide +kernel⟩,
    ⟨{ pk with kind := 0x11, status := 7, apsn := 5 }, 7, rt 7 { op0 with psn := 6, rnrPsn := some 5, rnr := 8 } full, by decide +kernel⟩,
    ⟨{ pk with kind := 0x11, status := 8 }, 7, rt 7 { op0 with sendq := [{ wb with op := 3, issued := true }] } full, by decide +kernel⟩,
    ⟨{ pk with kind := 0x12 }, 7, withWin (rt 7 op0 full), by decide +kernel⟩,
    ⟨7, rt 7 {op0 with unacked := 3} full, by decide +kernel⟩,
    ⟨7, rt 7 { op0 with psn := 6, retx := [(3,pk)], retries := 7 } full, (3,pk), [], by decide +kernel⟩,
    ⟨7, rt 7 { op0 with psn := 6, retx := [(3,pk)], retries := 8 } full, (3,pk), [], by decide +kernel⟩,
    ⟨7, rt 7 {op0 with rnrPsn := some 3, rnrWait := true, rnr := 7, retx := [(3,pk)]} full, 3, by decide +kernel⟩,
    ⟨7, rt 7 op0 full, by decide +kernel⟩,
    ⟨full, by decide +kernel⟩⟩

/-- Witnesses of the hypotheses of `Obligations.NetworkPorts`. -/
theorem wit_networkPorts :
    (∃ (p : Nat) (s : State), portUp p s = true) ∧
    (∃ (p : Nat) (s : State), portUp p s = true) ∧
    (∃ (p : Nat) (free : Nat) (s : State), portUp p s = true ∧ free < 12288 ∧ (s.net p).xoff = false) ∧
    (∃ (p : Nat) (s : State), s.on (portDom p) = true ∧ (s.net p).fec ≠ 0) ∧
    (∃ (p : Nat) (a : String) (s : State), portUp p s = true ∧ (s.net p).ip4 ≠ 0 ∧ ip4Word a = (s.net p).ip4) ∧
    (∃ (p : Nat) (a : String) (s : State), portUp p s = true ∧ (s.net p).ip4 ≠ 0 ∧ ip4Word a ≠ (s.net p).ip4) ∧
    (∃ (p : Nat) (a : String) (s : State), portUp p s = true ∧ (s.net p).ip6 ≠ "" ∧ lowerS a = (s.net p).ip6) ∧
    (∃ (p : Nat) (a : String) (s : State), ((s.net p).ip6 = "" ∨ lowerS a ≠ (s.net p).ip6) ∧ lowerS a ≠ Config.linkLocal (s.net p).mac) ∧
    (∃ (p : Nat) (a : String) (s : State), portUp p s = true ∧ lowerS a ∈ portAddrs p s) ∧
    (∃ (p : Nat) (a : String) (s : State), lowerS a ∉ portAddrs p s) ∧
    (∃ (f : Flow) (s : State), portUp 0 s = true ∧ s.on 3 = true ∧ s.aud.rx = [f] ∧ f.en = true ∧ f.portB = false ∧ isGroup f.addr =
      true) ∧
    (∃ (s : State), (∀ f ∈ s.aud.rx, f.en = true → isGroup f.addr = false)) ∧
    (∃ (p : Nat) (v : W32) (s : State), s.on (portDom p) = true ∧ portRouted p s = false ∧ fld v 4 2 ≤ 1) ∧
    (∃ (p : Nat) (v : W32) (s : State), s.on (portDom p) = true ∧ portRouted p s = true ∧ (v.getLsbD 8 ≠ (s.net p).mtu ∨ v.getLsbD 1 ≠
      (s.net p).speed ∨ (fld v 4 2 ≤ 1 ∧ BitVec.ofNat 2 (fld v 4 2) ≠ (s.net p).fec))) ∧
    (∃ (c : Ctx) (p : Pfx) (a : Args) (e : Env) (s : State), Passes netSetV c p a e s ∧ (e.word? "ip4").any isV6 = false ∧ e.word? "ip6"
      = none ∧ (netWith e (s.net (portOfName e))).fec ≠ 2 ∧ s.on (portDom (portOfName e)) = true ∧ portRouted (portOfName e) s = false) ∧
    (∃ (c : Ctx) (p : Pfx) (a : Args) (e : Env) (s : State), Passes netShowV c p a e s ∧ (e.has "port" = true → s.on (portDom (portOfName
      e)) = true)) ∧
    (∃ (c : Ctx) (p : Pfx) (a : Args) (e : Env) (s : State), Passes ptpSetV c p a e s ∧ s.on (portDom (portOfName e)) = true) ∧
    (∃ (c : Ctx) (p : Pfx) (a : Args) (e : Env) (s : State), Passes ptpShowV c p a e s ∧ (e.has "port" = true → s.on (portDom (portOfName
      e)) = true)) :=
  ⟨⟨1, full, by decide +kernel⟩,
    ⟨1, full.onNet 1 fun n => {n with paused := 0xFF}, by decide +kernel⟩,
    ⟨1, 12287, full, by decide +kernel⟩,
    ⟨1, full.onNet 1 fun n => {n with fec := 1}, by decide +kernel⟩,
    ⟨1, "10.0.0.2", full.onNet 1 fun n => {n with ip4 := 0x0A000002}, by decide +kernel⟩,
    ⟨1, "10.0.0.1", full.onNet 1 fun n => {n with ip4 := 0x0A000002}, by decide +kernel⟩,
    ⟨1, "FE80::2", full.onNet 1 fun n => {n with ip6 := "fe80::2"}, by decide +kernel⟩,
    (have ⟨a, h⟩ := other_name (Config.linkLocal (full.net 1).mac); ⟨1, a, full, .inl rfl, h⟩),
    ⟨1, "10.0.0.2", full.onNet 1 fun n => {n with ip4 := 0x0A000002}, by decide +kernel⟩,
    (have ⟨a, h⟩ := other_name (Config.linkLocal (full.net 1).mac); ⟨1, a, full, fun hm => h (by simpa [portAddrs, full, State.net] using
      hm)⟩),
    ⟨flow0, {full with aud := {full.aud with rx := [flow0]}}, by decide +kernel⟩,
    ⟨full, by decide +kernel⟩,
    ⟨1, 0x9013, full, by decide +kernel⟩,
    ⟨1, 0x100, rt 7 {op0 with port := 1} full, by decide +kernel⟩,
    ⟨c0, .none, [aw "port" "NETB", ⟨"ip4", .item (.addr4 10 0 0 2)⟩, an "prefix" 24, an "mtu" 9000], _, full, passes_of
      (by decide +kernel), by decide +kernel⟩,
    ⟨c0, .none, [aw "port" "NETB"], _, full, passes_of (by decide +kernel), by decide +kernel⟩,
    ⟨c0, .none, [aw "port" "NETB", an "domain" 3], _, full, passes_of (by decide +kernel), by decide +kernel⟩,
    ⟨c0, .none, [], _, full, passes_of (by decide +kernel), by decide +kernel⟩⟩

/-- Witnesses of the hypotheses of `Obligations.AudioPorts`. -/
theorem wit_audioPorts :
    (∃ (p : Nat) (s : State), p < s.aud.ports.length ∧ s.on 3 = true ∧ (s.aud.ports.getD p {}).en = true ∧ (s.aud.ports.getD p {}).master
      = false ∧ (s.aud.ports.getD p {}).lock = false) ∧
    (∃ (p : Nat) (s : State), p < s.aud.ports.length ∧ s.on 3 = true ∧ (s.aud.ports.getD p {}).en = true ∧ (s.aud.ports.getD p {}).master
      = false ∧ (s.aud.ports.getD p {}).lock = true) ∧
    (∃ (c : Ctx) (p : Pfx) (a : Args) (e : Env) (s : State) (k : Nat), Passes audSetV c p a e s ∧ k = tdmNames.idxOf (e.word "port") ∧ k
      < s.aud.ports.length ∧ e.has "phase" = false ∧ s.on 3 = true ∧ slotsOk ((e.nat? "slots").getD ((s.aud.ports.getD k {}).slots.toNat
      + 1)) (divOf (s.aud.ports.getD k {}).div) s = true ∧ e.nat? "div" = none ∧ (∀ x ∈ s.inn.guests, x.2.state.inRounds = false)) ∧
    (∃ (c : Ctx) (p : Pfx) (a : Args) (e : Env) (s : State) (k : Nat), Passes audSetV c p a e s ∧ k = tdmNames.idxOf (e.word "port") ∧
      e.has "phase" = false ∧ s.on 3 = true ∧ slotsOk ((e.nat? "slots").getD ((s.aud.ports.getD k {}).slots.toNat + 1)) (divOf
      (s.aud.ports.getD k {}).div) s = true ∧ e.nat? "div" = none ∧ mapsStaying (fun x => decide (0x40 ≤ x) && decide (x < 0x80) && x /
      16 % 4 == k) s = true) ∧
    (∃ (c : Ctx) (p : Pfx) (a : Args) (e : Env) (s : State), Passes audDryV c p a e s ∧ s.on 3 = true ∧ (e.has "policy" = true ∨ e.has
      "fade" = true)) ∧
    (∃ (c : Ctx) (p : Pfx) (a : Args) (e : Env) (s : State) (t : Nat) (i : List Nat) (o : List Nat), Passes audMapV c p a e s ∧
      Acceptable c p (.map (e.nat "guest") i o) t s ∧ allSome ((e.words "in").map codeOf) = some i ∧ allSome ((e.words "out").map codeOf)
      = some o) ∧
    (∃ (c : Ctx) (p : Pfx) (a : Args) (e : Env) (s : State) (t : Nat), Passes audMuteV c p a e s ∧ Acceptable c p (.mute (e.nat "guest")
      (e.word "state" == "on")) t s) ∧
    (∃ (c : Ctx) (p : Pfx) (a : Args) (e : Env) (s : State), Passes audShowV c p a e s ∧ s.on 3 = true) :=
  ⟨⟨2, tdm { en := true } full, by decide +kernel⟩,
    ⟨2, tdm { en := true, lock := true } full, by decide +kernel⟩,
    ⟨c0, .none, [aw "port" "TDMC", an "slots" 4, aw "master" "on"], _, full, 2, passes_of (by decide +kernel), by decide +kernel⟩,
    ⟨c0, .none, [aw "port" "TDMC", an "slots" 4], _, gst 5 {guest1 with ins := [0x60]} full, 2, passes_of (by decide +kernel),
      by decide +kernel⟩,
    ⟨c0, .none, [an "guest" 5, aw "policy" "THRU", an "fade" 20], _, full, passes_of (by decide +kernel), by decide +kernel⟩,
    ⟨c0, .none, [an "guest" 5, ⟨"in", .item (.word "none")⟩, ⟨"out", .item (.word "none")⟩], _, gst 5 {state := .registered} full, 1001,
      [0], [0], passes_of (by decide +kernel), acceptable_of (by decide +kernel), by decide +kernel⟩,
    ⟨c0, .none, [an "guest" 5, aw "state" "on"], _, gst 5 {state := .registered} full, 1001, passes_of (by decide +kernel), acceptable_of
      (by decide +kernel)⟩,
    ⟨c0, .none, [], _, full, passes_of (by decide +kernel), by decide +kernel⟩⟩

/-- Witnesses of the hypotheses of `Obligations.AudioFlows`. -/
theorem wit_audioFlows :
    (∃ (c : Ctx) (p : Pfx) (a : Args) (e : Env) (s : State) (k : Nat),
     let n := flowWith e (s.aud.rx.getD k {})
     Passes aesSetV c p a e s ∧ k = flowNames.idxOf (e.word "flow") ∧ k < 8 ∧ k < s.aud.rx.length ∧ e.has "ptime" = false ∧ (e.word?
       "addr").any isV6 = false ∧ (e.word? "filter").any isV6 = false ∧ n.ch * flowP n * 3 ≤ 1440 ∧ flowP n ≤ n.playout.toNat ∧
       n.playout.toNat + flowP n ≤ 16384 / n.ch ∧ n.addr ≠ "" ∧ n.udp ≠ 0 ∧ s.on 3 = true ∧ e.flag? "en" = some true ∧ (s.aud.rx.getD k
       {}).en = false) ∧
    (∃ (c : Ctx) (p : Pfx) (a : Args) (e : Env) (s : State) (k : Nat),
     let n := flowWith e (s.aud.rx.getD k {})
     Passes aesSetV c p a e s ∧ k = flowNames.idxOf (e.word "flow") ∧ k < 8 ∧ k < s.aud.rx.length ∧ e.has "ptime" = false ∧ (e.word?
       "addr").any isV6 = false ∧ (e.word? "filter").any isV6 = false ∧ n.ch * flowP n * 3 ≤ 1440 ∧ flowP n ≤ n.playout.toNat ∧
       n.playout.toNat + flowP n ≤ 16384 / n.ch ∧ n.addr ≠ "" ∧ n.udp ≠ 0 ∧ s.on 3 = true ∧ e.flag? "en" = some false) ∧
    (∃ (k : Nat) (q : Nat) (ts : Nat) (l : List (List W32)) (s : State),
     let f := s.aud.rx.getD k {}
     let ahead := (ts + f.playout.toNat + 2 * 2 ^ 32 - f.tsoff.toNat - s.tly.now.toNat / max 1 (flowDiv s f) % 2 ^ 32) % 2 ^ 32
     k < s.aud.rx.length ∧ s.on 3 = true ∧ (s.aud.rx.getD k {}).state = .run ∧ portUp (s.aud.rx.getD k {}).net s = true ∧ (s.aud.rx.getD
       k {}).seq = some q ∧ q < 65536 ∧ (s.aud.rx.getD k {}).jitter = [] ∧ (1 ≤ ahead ∧ ahead < 2 ^ 31 ∧ ahead + l.length ≤ 16384 / max 1
       f.ch + 1)) ∧
    (∃ (k : Nat) (q : Nat) (ts : Nat) (s : State),
     let f := s.aud.rx.getD k {}
     let ahead := (ts + f.playout.toNat + 2 * 2 ^ 32 - f.tsoff.toNat - s.tly.now.toNat / max 1 (flowDiv s f) % 2 ^ 32) % 2 ^ 32
     k < s.aud.rx.length ∧ s.on 3 = true ∧ (s.aud.rx.getD k {}).state = .run ∧ portUp (s.aud.rx.getD k {}).net s = true ∧ (s.aud.rx.getD
       k {}).seq = some q ∧ q < 65536 ∧ (s.aud.rx.getD k {}).jitter = [] ∧ (ahead = 0 ∨ 2 ^ 31 ≤ ahead)) ∧
    (∃ (k : Nat) (q : Nat) (s : State), k < s.aud.rx.length ∧ s.on 3 = true ∧ (s.aud.rx.getD k {}).state = .run ∧ portUp (s.aud.rx.getD k
      {}).net s = true ∧ (s.aud.rx.getD k {}).seq = some q ∧ q < 65536 ∧ (s.aud.rx.getD k {}).jitter = []) ∧
    (∃ (k : Nat) (s : State), ((s.aud.rx.getD k {}).state = .idle ∨ (s.aud.rx.getD k {}).state = .wait)) ∧
    (∃ (k : Nat) (s : State), k < s.aud.rx.length ∧ s.on 3 = true ∧ (s.aud.rx.getD k {}).state = .run) ∧
    (∃ (k : Nat) (q : Nat) (ts : Nat) (l : List (List W32)) (r : List (Nat × List (List W32))) (s : State), k < s.aud.tx.length ∧ s.on 3
      = true ∧ (s.aud.tx.getD k {}).state = .run ∧ (s.aud.tx.getD k {}).ready = (ts, l) :: r ∧ (s.aud.tx.getD k {}).seq = some q ∧ portUp
      (s.aud.tx.getD k {}).net s = true) ∧
    (∃ (c : Ctx) (p : Pfx) (a : Args) (e : Env) (s : State), Passes aesShowV c p a e s ∧ s.on 3 = true) :=
  ⟨⟨c0, .none, [aw "flow" "rx2", ⟨"addr", .item (.addr4 239 1 1 1)⟩, an "udp" 5004, aw "en" "on"], _, full, 2, passes_of
      (by decide +kernel), by decide +kernel⟩,
    ⟨c0, .none, [aw "flow" "rx2", ⟨"addr", .item (.addr4 239 1 1 1)⟩, an "udp" 5004, aw "en" "off"], _, rxf flow0 full, 2, passes_of
      (by decide +kernel), by decide +kernel⟩,
    ⟨2, 7, 1000, [[1,2],[3,4]], rxf flow0 full, by decide +kernel⟩,
    ⟨2, 7, 900, rxf flow0 full, by decide +kernel⟩,
    ⟨2, 7, rxf flow0 full, by decide +kernel⟩,
    ⟨2, full, by decide +kernel⟩,
    ⟨2, rxf flow0 full, by decide +kernel⟩,
    ⟨2, 7, 900, [[1,2],[3,4]], [], txf {flow0 with ready := [(900,[[1,2],[3,4]])]} full, by decide +kernel⟩,
    ⟨c0, .none, [], _, full, passes_of (by decide +kernel), by decide +kernel⟩⟩

/-- Witnesses of the hypotheses of `Obligations.UsbDevice`. -/
theorem wit_usbDevice :
    (∃ (s : State), s.on 5 = true ∧ s.usb.pullup = true ∧ (∀ e ∈ s.desk.deferred, e.1 ≠ 1 ∧ e.1 ≠ 4)) ∧
    (∃ (a : Nat) (s : State), s.on 5 = true ∧ s.usb.pullup = true ∧ (s.usb.state = .default_ ∨ s.usb.state = .address) ∧ 0 < a ∧ a < 128) ∧
    (∃ (s : State), s.on 5 = true ∧ s.usb.pullup = true ∧ (s.usb.state = .address ∨ s.usb.state = .configured)) ∧
    (∃ (k : Nat) (s : State), s.on 5 = true ∧ s.usb.pullup = true ∧ s.usb.state = .configured ∧ s.usb.hs = true ∧ s.usb.uacen = true ∧ k
      ≤ 2) ∧
    (∃ (s : State), s.on 5 = true ∧ s.usb.pullup = true ∧ s.usb.state = .configured) ∧
    (∃ (s : State), s.on 5 = true ∧ s.usb.pullup = true ∧ s.usb.state ≠ .suspended ∧ (∀ e ∈ s.desk.deferred, e.1 ≠ 1 ∧ e.1 ≠ 4)) ∧
    (∃ (s : State), s.on 5 = true ∧ s.usb.pullup = true ∧ s.usb.state = .suspended) ∧
    (∃ (s : State), s.on 5 = true ∧ s.usb.vbus = true ∧ (∀ e ∈ s.desk.deferred, e.1 ≠ 1 ∧ e.1 ≠ 4)) ∧
    (∃ (s : State), s.on 5 = true ∧ s.usb.attach = true ∧ s.usb.pullup = false) ∧
    (∃ (l : List (List W32)) (s : State), usbOutOn s = true ∧ s.on 3 = true ∧ s.usb.altOut = 1 ∧ s.usb.fifoIn = [] ∧ l.length ≤
      usbFifoDepth s) ∧
    (∃ (c : Ctx) (p : Pfx) (a : Args) (e : Env) (s : State), Passes usbSetV c p a e s ∧ s.on 5 = true ∧ e.flag? "attach" = none) ∧
    (∃ (c : Ctx) (p : Pfx) (a : Args) (e : Env) (s : State), Passes usbShowV c p a e s ∧ s.on 5 = true) :=
  ⟨⟨full, by decide +kernel⟩,
    ⟨127, full.onUsb fun u => {u with state := .default_}, by decide +kernel⟩,
    ⟨full.onUsb fun u => {u with state := .address}, by decide +kernel⟩,
    ⟨2, full.onUsb fun u => {u with hs := true}, by decide +kernel⟩,
    ⟨full, by decide +kernel⟩,
    ⟨full, by decide +kernel⟩,
    ⟨full.onUsb fun u => {u with state := .suspended}, by decide +kernel⟩,
    ⟨full, by decide +kernel⟩,
    ⟨full.onUsb fun u => {u with pullup := false}, by decide +kernel⟩,
    ⟨[List.replicate 16 3], full.onUsb fun u => {u with hs := true, altOut := 1}, by decide +kernel⟩,
    ⟨c0, .none, [aw "hs" "off"], _, full, passes_of (by decide +kernel), by decide +kernel⟩,
    ⟨c0, .none, [], _, full, passes_of (by decide +kernel), by decide +kernel⟩⟩

/-- Witnesses of the hypotheses of `Obligations.PorterSupply`. -/
theorem wit_porterSupply :
    (∃ (s : State), s.por.running = true ∧ s.por.vbatOk = true) ∧
    (∃ (s : State), s.por.running = true ∧ s.por.vbatOk = false) ∧
    (∃ (s : State), s.por.running = true) ∧
    (∃ (s : State), s.por.running = true ∧ s.por.onVbat = true) ∧
    (∃ (s : State), s.por.running = true ∧ s.por.onVbat = false) ∧
    (∃ (s : State), s.pwr.vaon = true) ∧
    (∃ (s : State), s.por.running = true ∧ s.pwr.vaon = true) ∧
    (∃ (s : State), s.por.running = true ∧ s.por.removed = true) ∧
    (∃ (mv : Nat) (s : State), s.por.running = true ∧ mv < 4096 ∧ s.por.onVbat = false) ∧
    (∃ (c : Ctx) (p : Pfx) (a : Args) (e : Env) (s : State), Passes porGaugeCheckV c p a e s) ∧
    (∃ (c : Ctx) (p : Pfx) (a : Args) (e : Env) (s : State), Passes porGaugeNewV c p a e s) ∧
    (∃ (c : Ctx) (p : Pfx) (a : Args) (e : Env) (s : State), Passes porGaugeUsedV c p a e s ∧ e.nat "used" ≤ 152000) ∧
    (∃ (c : Ctx) (p : Pfx) (a : Args) (e : Env) (s : State), Passes porWakeReleaseV c p a e s) ∧
    (∃ (c : Ctx) (p : Pfx) (a : Args) (e : Env) (s : State), Passes porWakeHoldV c p a e s) ∧
    (∃ (s : State), s.por.running = true ∧ s.on 2 = false) ∧
    (∃ (s : State), s.por.running = true ∧ s.por.wakeOut = true ∧ s.pwr.vaon = false ∧ s.por.hold = false) :=
  ⟨⟨full, by decide +kernel⟩,
    ⟨full.onPor fun p => {p with vbatOk := false}, by decide +kernel⟩,
    ⟨full, by decide +kernel⟩,
    ⟨wsup false (full.onPor fun p => {p with onVbat := true}), by decide +kernel⟩,
    ⟨full, by decide +kernel⟩,
    ⟨full, by decide +kernel⟩,
    ⟨full, by decide +kernel⟩,
    ⟨full.onPor fun p => {p with removed := true, vbatOk := false}, by decide +kernel⟩,
    ⟨2400, full, by decide +kernel⟩,
    ⟨c0, .none, [aw "" "check"], _, full, passes_of (by decide +kernel)⟩,
    ⟨c0, .none, [aw "" "new"], _, full, passes_of (by decide +kernel)⟩,
    ⟨c0, .none, [⟨"used", .item (.num false 152 1 "mAh")⟩], _, full, passes_of (by decide +kernel), by decide +kernel⟩,
    ⟨c0, .none, [aw "" "release"], _, full, passes_of (by decide +kernel)⟩,
    ⟨c0, .none, [aw "" "hold"], _, full, passes_of (by decide +kernel)⟩,
    ⟨dom 1 full, by decide +kernel⟩,
    ⟨wsup false (full.onPor fun p => {p with wakeOut := true, wakeWord := true, vlog := [⟨3,4,false,5⟩]}), by decide +kernel⟩⟩

/-- Witnesses of the hypotheses of `Obligations.PorterListening`. -/
theorem wit_porterListening :
    (∃ (s : State), s.por.running = true) ∧
    (∃ (s : State), s.por.running = false) ∧
    (∃ (c : Nat), 0 < c ∧ c < 255) ∧
    (∃ (s : State), s.por.running = true ∧ s.por.mode = .listen ∧ s.por.onVbat = false) ∧
    (∃ (f : Feature) (k : Nat) (n : Nat) (x : Slot) (s : State), s.por.running = true ∧ s.por.mode = .listen ∧ s.por.enrol = none ∧
      s.por.pend = none ∧ s.por.onVbat = false ∧ s.por.refr = false ∧ s.por.pathHold = false ∧ k < 32 ∧ slotSims f.emb f.fac s = [(k, n)]
      ∧ s.por.slots = [(k, x)] ∧ x.en = true ∧ x.crcbad = false ∧ 0 < x.n ∧ x.wake = true ∧ x.thr.toNat ≤ n ∧ s.por.quals = [(k, 2)] ∧
      s.on 2 = false ∧ s.por.vlog.length < 8) ∧
    (∃ (f : Feature) (k : Nat) (n : Nat) (x : Slot) (s : State), s.por.running = true ∧ s.por.mode = .listen ∧ s.por.enrol = none ∧
      s.por.pend = none ∧ s.por.onVbat = false ∧ s.por.refr = false ∧ s.por.pathHold = false ∧ k < 32 ∧ slotSims f.emb f.fac s = [(k, n)]
      ∧ s.por.slots = [(k, x)] ∧ x.en = true ∧ x.crcbad = false ∧ 0 < x.n ∧ x.wake = true ∧ x.thr.toNat ≤ n ∧ s.por.quals = [(k, 2)] ∧
      s.on 2 = true ∧ s.por.held = [] ∧ shareFull .porter s = false ∧ s.desk.kwq.length < 8) ∧
    (∃ (f : Feature) (s : State), s.por.running = true ∧ s.por.mode = .listen ∧ s.por.onVbat = false ∧ slotSims f.emb f.fac s = []) ∧
    (∃ (v : List Nat) (k : Nat) (s : State), 8 ≤ k ∧ k < 32 ∧ v ∈ (tgetD s.por.slots k {}).tpl.take (tgetD s.por.slots k {}).n ∧ (∃ c ∈
      v, h16Int c ≠ some 0) ∧ (∀ c ∈ v, h16Int c ≠ none)) ∧
    (∃ (s : State), s.por.running = true) ∧
    (∃ (c : Ctx) (p : Pfx) (a : Args) (e : Env) (s : State), Passes porSetV c p a e s ∧ e.has "bias" = false ∧ e.nat? "refract" = none ∧
      e.has "ref" = false ∧ e.nat? "cell" = none) ∧
    (∃ (c : Ctx) (p : Pfx) (a : Args) (e : Env) (s : State), Passes porSlotV c p a e s ∧ e.has "thr" = true ∧ e.flag? "en" ≠ some true ∧
      s.pwr.pfail = false) ∧
    (∃ (c : Ctx) (p : Pfx) (a : Args) (e : Env) (s : State), Passes porSlotClearV c p a e s ∧ 8 ≤ e.nat "slot" ∧ s.pwr.pfail = false) ∧
    (∃ (c : Ctx) (p : Pfx) (a : Args) (e : Env) (s : State), Passes porSlotClearV c p a e s ∧ e.nat "slot" < 8) ∧
    (∃ (c : Ctx) (p : Pfx) (a : Args) (e : Env) (s : State), Passes porShowV c p a e s) :=
  ⟨⟨full, by decide +kernel⟩,
    ⟨full.onPor fun p => {p with running := false}, by decide +kernel⟩,
    ⟨19, by decide +kernel⟩,
    ⟨full, by decide +kernel⟩,
    ⟨feat 1, 9, 255, { en := true, wake := true, n := 1, thr := 205, tpl := [List.replicate 32 1] }, (let f : State := lis 9 full;
      { f with pwr := { f.pwr with dom := 1, house := .vault } }), by decide +kernel⟩,
    ⟨feat 1, 9, 255, { en := true, wake := true, n := 1, thr := 205, tpl := [List.replicate 32 1] }, lis 9 full, by decide +kernel⟩,
    ⟨feat 1, por (fun p => { p with mode := .listen }) full, by decide +kernel⟩,
    ⟨List.replicate 32 1, 9, lis 9 full, by decide +kernel⟩,
    ⟨full, by decide +kernel⟩,
    ⟨c0, .none, [aw "mode" "off", an "mu" 3, ⟨"gain", .item (.num false 12 0 "dB")⟩, aw "cancel" "on"], _, full, passes_of
      (by decide +kernel), by decide +kernel⟩,
    ⟨c0, .none, [an "slot" 3, an "thr" 220, aw "en" "off"], _, full, passes_of (by decide +kernel), by decide +kernel⟩,
    ⟨c0, .none, [an "slot" 8, aw "" "clear"], _, full, passes_of (by decide +kernel), by decide +kernel⟩,
    ⟨c0, .none, [an "slot" 7, aw "" "clear"], _, full, passes_of (by decide +kernel), by decide +kernel⟩,
    ⟨c0, .none, [], _, full, passes_of (by decide +kernel)⟩⟩

/-- Witnesses of the hypotheses of `Obligations.Enrolment`. -/
theorem wit_enrolment :
    (∃ (c : Ctx) (p : Pfx) (a : Args) (e : Env) (s : State), Passes porEnrolV c p a e s ∧ 8 ≤ e.nat "slot" ∧ s.por.enrol = none) ∧
    (∃ (c : Ctx) (p : Pfx) (a : Args) (e : Env) (s : State), Passes porEnrolV c p a e s ∧ e.nat "slot" < 8) ∧
    (∃ (c : Ctx) (p : Pfx) (a : Args) (e : Env) (s : State), Passes porEnrolV c p a e s ∧ 8 ≤ e.nat "slot" ∧ s.por.enrol ≠ none) ∧
    (∃ (x : Take) (e : Enrol) (s : State), s.por.enrol = some e ∧ enrolBusy s = false ∧ takeFault x e s = none) ∧
    (∃ (x : Take) (e : Enrol) (s : State), s.por.enrol = some e ∧ enrolBusy s = false ∧ takeFault x e s = none ∧ e.takes.length < 4) ∧
    (∃ (x : Take) (e : Enrol) (s : State), s.por.enrol = some e ∧ enrolBusy s = false ∧ takeFault x e s = none ∧ e.takes.length = 4) ∧
    (∃ (x : Take) (e : Enrol) (s : State), s.por.enrol = some e ∧ enrolBusy s = false ∧ takeFault x e s ≠ none) ∧
    (∃ (e : Enrol) (s : State), s.por.enrol = some e ∧ enrolBusy s = false) ∧
    (∃ (c : Ctx) (p : Pfx) (a : Args) (e : Env) (s : State) (x : Enrol), Passes porEnrolDoneV c p a e s ∧ s.por.enrol = some x ∧ x.slot =
      e.nat "slot" ∧ 3 ≤ x.takes.length ∧ s.pwr.pfail = false ∧ enrolBusy s = false) ∧
    (∃ (c : Ctx) (p : Pfx) (a : Args) (e : Env) (s : State) (x : Enrol), Passes porEnrolDoneV c p a e s ∧ s.por.enrol = some x ∧
      x.takes.length < 3) ∧
    (∃ (c : Ctx) (p : Pfx) (a : Args) (e : Env) (s : State) (x : Enrol), Passes porEnrolAbortV c p a e s ∧ s.por.enrol = some x ∧ x.slot
      = e.nat "slot" ∧ enrolBusy s = false) ∧
    (∃ (c : Ctx) (p : Pfx) (a : Args) (e : Env) (s : State), Passes porEnrolWakeV c p a e s ∧ 8 ≤ e.nat "slot" ∧ s.por.enrol = none) :=
  ⟨⟨c0, .none, [an "slot" 8], _, full, passes_of (by decide +kernel), by decide +kernel⟩,
    ⟨c0, .none, [an "slot" 7], _, full, passes_of (by decide +kernel), by decide +kernel⟩,
    ⟨c0, .none, [an "slot" 8], _, full.onPor fun p => {p with enrol := some ⟨9, List.replicate 1 (List.replicate 32 1), []⟩}, passes_of
      (by decide +kernel), by decide +kernel⟩,
    ⟨take0, ⟨9, List.replicate 4 (List.replicate 32 1), []⟩, full.onPor fun p =>
      {p with enrol := some ⟨9, List.replicate 4 (List.replicate 32 1), []⟩}, by decide +kernel⟩,
    ⟨take0, ⟨9, List.replicate 3 (List.replicate 32 1), []⟩, full.onPor fun p =>
      {p with enrol := some ⟨9, List.replicate 3 (List.replicate 32 1), []⟩}, by decide +kernel⟩,
    ⟨take0, ⟨9, List.replicate 4 (List.replicate 32 1), []⟩, full.onPor fun p =>
      {p with enrol := some ⟨9, List.replicate 4 (List.replicate 32 1), []⟩}, by decide +kernel⟩,
    ⟨{take0 with snr := 0}, ⟨9, List.replicate 4 (List.replicate 32 1), []⟩, full.onPor fun p =>
      {p with enrol := some ⟨9, List.replicate 4 (List.replicate 32 1), []⟩}, by decide +kernel⟩,
    ⟨⟨9, List.replicate 4 (List.replicate 32 1), []⟩, full.onPor fun p =>
      {p with enrol := some ⟨9, List.replicate 4 (List.replicate 32 1), []⟩}, by decide +kernel⟩,
    ⟨c0, .none, [an "slot" 9, aw "" "done"], _, full.onPor fun p =>
      {p with enrol := some ⟨9, List.replicate 3 (List.replicate 32 1), []⟩}, ⟨9, List.replicate 3 (List.replicate 32 1), []⟩, passes_of
      (by decide +kernel), by decide +kernel⟩,
    ⟨c0, .none, [an "slot" 9, aw "" "done"], _, full.onPor fun p =>
      {p with enrol := some ⟨9, List.replicate 2 (List.replicate 32 1), []⟩}, ⟨9, List.replicate 2 (List.replicate 32 1), []⟩, passes_of
      (by decide +kernel), by decide +kernel⟩,
    ⟨c0, .none, [an "slot" 9, aw "" "abort"], _, full.onPor fun p =>
      {p with enrol := some ⟨9, List.replicate 2 (List.replicate 32 1), []⟩}, ⟨9, List.replicate 2 (List.replicate 32 1), []⟩, passes_of
      (by decide +kernel), by decide +kernel⟩,
    ⟨c0, .none, [an "slot" 9, aw "when" "wake"], _, full, passes_of (by decide +kernel), by decide +kernel⟩⟩

/-- Witnesses of the hypotheses of `Obligations.LedgerCommands`. -/
theorem wit_ledgerCommands :
    (∃ (c : Ctx) (p : Pfx) (a : Args) (e : Env) (s : State) (n : Nat), Passes ldgBatchBeginV c p a e s ∧ c.origin = .sess n ∧ (s.sess
      n).batch = none) ∧
    (∃ (c : Ctx) (p : Pfx) (a : Args) (e : Env) (s : State) (n : Nat), Passes ldgBatchBeginV c p a e s ∧ c.origin = .sess n ∧ (s.sess
      n).batch ≠ none) ∧
    (∃ (c : Ctx) (p : Pfx) (a : Args) (e : Env) (s : State) (n : Nat) (b : Batch) (v : Val) (bs : List Byte), Passes ldgPutV c p a e s ∧
      c.origin = .sess n ∧ (e.nat "part" = 0 ∨ 4 ≤ e.nat "part") ∧ mayUse c.origin (e.nat "part") true s = true ∧ e.raw? "data" = some v
      ∧ hexBytes v = some bs ∧ e.has "off" = true ∧ e.has "src" = false ∧ e.nat "page" < partSize (e.nat "part") ∧ e.nat "off" +
      bs.length ≤ 256 ∧ (s.sess n).batch = some b ∧ (∀ x ∈ b.pages, x.1 ≠ partBase (e.nat "part") + e.nat "page") ∧ b.pages.length = 16) ∧
    (∃ (c : Ctx) (p : Pfx) (a : Args) (e : Env) (s : State) (n : Nat) (b : Batch) (v : Val) (bs : List Byte) (old : List Byte), Passes
      ldgPutV c p a e s ∧ c.origin = .sess n ∧ (e.nat "part" = 0 ∨ 4 ≤ e.nat "part") ∧ mayUse c.origin (e.nat "part") true s = true ∧
      e.raw? "data" = some v ∧ hexBytes v = some bs ∧ e.has "off" = true ∧ e.has "src" = false ∧ e.nat "page" < partSize (e.nat "part") ∧
      e.nat "off" + bs.length ≤ 256 ∧ (s.sess n).batch = some b ∧ (∀ x ∈ b.pages, x.1 ≠ partBase (e.nat "part") + e.nat "page") ∧
      b.pages.length < 16 ∧ pageBytes (partBase (e.nat "part") + e.nat "page") s = some old) ∧
    (∃ (c : Ctx) (p : Pfx) (a : Args) (e : Env) (s : State) (n : Nat) (b : Batch), Passes ldgBatchCommitV c p a e s ∧ c.origin = .sess n
      ∧ (s.sess n).batch = some b ∧ s.pwr.pfail = false ∧ b.pages = []) ∧
    (∃ (c : Ctx) (p : Pfx) (a : Args) (e : Env) (s : State) (n : Nat) (b : Batch), Passes ldgBatchCommitV c p a e s ∧ c.origin = .sess n
      ∧ (s.sess n).batch = some b ∧ s.pwr.pfail = false ∧ b.pages ≠ []) ∧
    (∃ (c : Ctx) (p : Pfx) (a : Args) (e : Env) (s : State) (n : Nat), Passes ldgBatchAbortV c p a e s ∧ c.origin = .sess n) ∧
    (∃ (c : Ctx) (p : Pfx) (a : Args) (e : Env) (s : State) (n : Nat), Passes ldgBatchAbortV c p a e s ∧ c.origin = .sess n ∧ (s.sess
      n).batch = none) ∧
    (∃ (c : Ctx) (p : Pfx) (a : Args) (e : Env) (s : State) (n : Nat), Passes ldgBatchCommitV c p a e s ∧ c.origin = .sess n ∧ (s.sess
      n).batch = none) ∧
    (∃ (c : Ctx) (p : Pfx) (a : Args) (e : Env) (s : State) (n : Nat) (v : Val) (bs : List Byte), Passes ldgPutV c p a e s ∧ c.origin =
      .sess n ∧ (e.nat "part" = 0 ∨ 4 ≤ e.nat "part") ∧ mayUse c.origin (e.nat "part") true s = true ∧ e.raw? "data" = some v ∧ hexBytes
      v = some bs ∧ e.has "off" = true ∧ e.has "src" = false ∧ e.nat "page" < partSize (e.nat "part") ∧ e.nat "off" + bs.length ≤ 256 ∧
      (s.sess n).batch = none) ∧
    (∃ (c : Ctx) (p : Pfx) (a : Args) (e : Env) (s : State) (bs : List Byte), Passes ldgReadV c p a e s ∧ (e.nat "part" = 0 ∨ 3 ≤ e.nat
      "part") ∧ mayUse c.origin (e.nat "part") false s = true ∧ e.nat "page" < partSize (e.nat "part") ∧ pageBytes (partBase (e.nat
      "part") + e.nat "page") s = some bs ∧ e.has "dst" = false ∧ e.nat "off" + (e.nat? "n").getD 64 ≤ 256) ∧
    (∃ (c : Ctx) (p : Pfx) (a : Args) (e : Env) (s : State) (bs : List Byte), Passes ldgReadV c p a e s ∧ (e.nat "part" = 0 ∨ 3 ≤ e.nat
      "part") ∧ mayUse c.origin (e.nat "part") false s = true ∧ e.nat "page" < partSize (e.nat "part") ∧ pageBytes (partBase (e.nat
      "part") + e.nat "page") s = some bs ∧ e.has "dst" = true ∧ e.has "off" = false ∧ e.has "n" = false ∧ inUsable (e.nat "dst") 256 s =
      true) ∧
    (∃ (c : Ctx) (p : Pfx) (a : Args) (e : Env) (s : State) (n : Nat) (v : Nat), Passes ldgKeyV c p a e s ∧ c.origin = .sess n ∧ e.has
      "drop" = false ∧ e.nat? "rpw" = some v ∧ e.has "wpw" = false ∧ (s.part (e.nat "part")).rpw ≠ 0 ∧ (s.part (e.nat "part")).rpw =
      BitVec.ofNat 64 v) ∧
    (∃ (c : Ctx) (p : Pfx) (a : Args) (e : Env) (s : State) (n : Nat) (v : Nat), Passes ldgKeyV c p a e s ∧ c.origin = .sess n ∧ e.has
      "drop" = false ∧ e.nat? "rpw" = some v ∧ e.has "wpw" = false ∧ (s.part (e.nat "part")).rpw ≠ 0 ∧ (s.part (e.nat "part")).rpw ≠
      BitVec.ofNat 64 v) ∧
    (∃ (c : Ctx) (a : Args) (s : State) (n : Nat) (k : Nat), canRun c.origin s = true ∧ c.origin = .sess n ∧ argNat? a "part" = some k ∧
      k < 8 ∧ (s.part k).locked = true) ∧
    (∃ (c : Ctx) (a : Args) (s : State) (k : Nat), canRun c.origin s = true ∧ argNat? a "part" = some k ∧ k < 8 ∧ mayUse c.origin k true
      s = false) ∧
    (∃ (c : Ctx) (a : Args) (s : State) (k : Nat), canRun c.origin s = true ∧ argNat? a "part" = some k ∧ k < 8 ∧ mayUse c.origin k true
      s = false) ∧
    (∃ (c : Ctx) (a : Args) (s : State) (k : Nat), canRun c.origin s = true ∧ argNat? a "part" = some k ∧ k < 8 ∧ mayUse c.origin k false
      s = false) ∧
    (∃ (s : State), s.on 1 = true) ∧
    (∃ (c : Ctx) (p : Pfx) (a : Args) (e : Env) (s : State) (v : Nat) (w : Nat), Passes ldgPassV c p a e s ∧ mayUse c.origin (e.nat
      "part") true s = true ∧ e.nat? "rpw" = some v ∧ e.nat? "wpw" = some w) ∧
    (∃ (c : Ctx) (p : Pfx) (a : Args) (e : Env) (s : State), Passes ldgSlateV c p a e s ∧ 4 ≤ e.nat "part" ∧ e.nat "off" % 4 = 0 ∧ e.has
      "val" = false ∧ e.nat "off" + 4 * (e.nat? "n").getD 1 ≤ 512) ∧
    (∃ (c : Ctx) (p : Pfx) (a : Args) (e : Env) (s : State), Passes ldgSlateV c p a e s ∧ 4 ≤ e.nat "part" ∧ e.nat "off" % 4 = 0 ∧ e.has
      "val" = true ∧ e.has "n" = false ∧ mayUse c.origin (e.nat "part") true s = true ∧ e.nat "off" + 4 * (e.nums "val").length ≤ 512 ∧
      s.ldg.user.wf = true) :=
  ⟨⟨c0, .none, [aw "" "begin"], _, full, 0, passes_of (by decide +kernel), by decide +kernel⟩,
    ⟨c0, .none, [aw "" "begin"], _, sess 0 {owner with batch := some ⟨[]⟩} full, 0, passes_of (by decide +kernel), by decide +kernel⟩,
    ⟨c0, .none, [an "part" 4, an "page" 1, an "off" 4, ⟨"data", .item (.hex 4 0x1234)⟩], _, sess 0
      {owner with batch := some ⟨(List.range 16).map fun k => (k, [], 0)⟩} full, 0, ⟨(List.range 16).map fun k => (k, [], 0)⟩, .item
      (.hex 4 0x1234), ((hexBytes (.item (.hex 4 0x1234))).getD []), passes_of (by decide +kernel), by decide +kernel⟩,
    ⟨c0, .none, [an "part" 4, an "page" 1, an "off" 4, ⟨"data", .item (.hex 4 0x1234)⟩], _, sess 0
      {owner with batch := some ⟨[(partBase 4, [], 0)]⟩} full, 0, ⟨[(partBase 4, [], 0)]⟩, .item (.hex 4 0x1234), ((hexBytes (.item (.hex
      4 0x1234))).getD []), ((pageBytes (partBase 4 + 1) (sess 0 {owner with batch := some ⟨[(partBase 4, [], 0)]⟩} full)).getD []),
      passes_of (by decide +kernel), by decide +kernel⟩,
    ⟨c0, .none, [aw "" "commit"], _, sess 0 {owner with batch := some ⟨[]⟩} full, 0, ⟨[]⟩, passes_of (by decide +kernel),
      by decide +kernel⟩,
    ⟨c0, .none, [aw "" "commit"], _, sess 0 {owner with batch := some ⟨[(partBase 4, [], 0)]⟩} full, 0, ⟨[(partBase 4, [], 0)]⟩,
      passes_of (by decide +kernel), by decide +kernel⟩,
    ⟨c0, .none, [aw "" "abort"], _, sess 0 {owner with batch := some ⟨[(partBase 4, [], 0)]⟩} full, 0, passes_of (by decide +kernel),
      by decide +kernel⟩,
    ⟨c0, .none, [aw "" "abort"], _, full, 0, passes_of (by decide +kernel), by decide +kernel⟩,
    ⟨c0, .none, [aw "" "commit"], _, full, 0, passes_of (by decide +kernel), by decide +kernel⟩,
    ⟨c0, .none, [an "part" 4, an "page" 1, an "off" 4, ⟨"data", .item (.hex 4 0x1234)⟩], _, full, 0, .item (.hex 4 0x1234), ((hexBytes
      (.item (.hex 4 0x1234))).getD []), passes_of (by decide +kernel), by decide +kernel⟩,
    ⟨c0, .none, [an "part" 4, an "page" 1, an "n" 64], _, full, ((pageBytes (partBase 4 + 1) full).getD []), passes_of
      (by decide +kernel), by decide +kernel⟩,
    ⟨c0, .none, [an "part" 4, an "page" 1, ah "dst" 0x5000], _, full, ((pageBytes (partBase 4 + 1) full).getD []), passes_of
      (by decide +kernel), by decide +kernel⟩,
    ⟨c0, .none, [an "part" 4, ah "rpw" 7], _, full.onLdg fun d => {d with parts := [(4, {rpw := 7, wpw := 9, fails := 3, locks := 1})]},
      0, 7, passes_of (by decide +kernel), by decide +kernel⟩,
    ⟨c0, .none, [an "part" 4, ah "rpw" 8], _, full.onLdg fun d => {d with parts := [(4, {rpw := 7, wpw := 9, fails := 7})]}, 0, 8,
      passes_of (by decide +kernel), by decide +kernel⟩,
    ⟨c0, [an "part" 4, aw "bogus" "x"], full.onLdg fun d => {d with parts := [(4, {rpw := 7, wpw := 9, locked := true})]}, 0, 4,
      by decide +kernel⟩,
    ⟨c0, [an "part" 4, aw "bogus" "x"], full.onLdg fun d => {d with parts := [(4, {wpw := 7})]}, 4, by decide +kernel⟩,
    ⟨c0, [an "part" 4, aw "bogus" "x"], full.onLdg fun d => {d with parts := [(4, {wpw := 7})]}, 4, by decide +kernel⟩,
    ⟨c0, [an "part" 4, aw "bogus" "x"], full.onLdg fun d => {d with parts := [(4, {rpw := 7})]}, 4, by decide +kernel⟩,
    ⟨full.onLdg fun d => {d with parts := [(4, {rpw := 7, wpw := 9, locked := true})]}, by decide +kernel⟩,
    ⟨c0, .none, [an "part" 4, ah "rpw" 5, ah "wpw" 6], _, full, 5, 6, passes_of (by decide +kernel), by decide +kernel⟩,
    ⟨c0, .none, [an "part" 4, an "off" 508], _, full, passes_of (by decide +kernel), by decide +kernel⟩,
    ⟨c0, .none, [an "part" 5, an "off" 504, ⟨"val", .list [.hex 8 0x12345678, .hex 8 9]⟩], _, full, passes_of (by decide +kernel),
      by decide +kernel⟩⟩

/-- Witnesses of the hypotheses of `Obligations.LogAndRefresh`. -/
theorem wit_logAndRefresh :
    (∃ (s : State), s.on 1 = true ∧ s.pwr.pfail = false ∧ s.ldg.queue = [] ∧ 0 < logTake s.ldg ∧ (logImages (logTake s.ldg) s.ldg).length
      ≤ 16 ∧ 16 ≤ roleCount .pool s) ∧
    (∃ (s : State), s.ldg.queue = [] ∧ s.ldg.buffer = []) ∧
    (∃ (c : Ctx) (p : Pfx) (a : Args) (e : Env) (s : State), Passes logTailV c p a e s ∧ e.has "src" = false ∧ mayUse c.origin 3 false s
      = true ∧ (∀ x ∈ s.ldg.log, pageBytes (partBase 3 + x.lseq / 8 % 1024) s ≠ none)) ∧
    (∃ (c : Ctx) (s : State), canRun c.origin s = true ∧ mayUse c.origin 3 false s = false) ∧
    (∃ (c : Ctx) (s : State), canRun c.origin s = true ∧ mayUse c.origin 3 true s = false) ∧
    (∃ (c : Ctx) (p : Pfx) (a : Args) (e : Env) (s : State), Passes logClearV c p a e s ∧ mayUse c.origin 3 true s = true ∧ s.pwr.pfail =
      false) ∧
    (∃ (c : Ctx) (p : Pfx) (a : Args) (e : Env) (s : State), Passes ldgWipeV c p a e s ∧ mayUse c.origin (e.nat "part") true s = true ∧
      s.pwr.pfail = false) ∧
    (∃ (c : Ctx) (a : Args) (s : State) (k : Nat), canRun c.origin s = true ∧ argNat? a "part" = some k ∧ k < 8 ∧ mayUse c.origin k true
      s = false) ∧
    (∃ (c : Ctx) (p : Pfx) (a : Args) (e : Env) (s : State), Passes ldgRefreshV c p a e s) ∧
    (∃ (s : State), s.on 1 = true ∧ s.pwr.pfail = false ∧ s.ldg.queue = [] ∧ s.ldg.refresh = true ∧ (∀ l, l < 2048 → (s.phys (s.physOf
      l)).bad = false)) ∧
    (∃ (s : State), s.ldg.refresh = false ∧ refreshDue s = false) ∧
    (∃ (c : Ctx) (p : Pfx) (a : Args) (e : Env) (s : State), Passes ldgShowV c p a e s) ∧
    (∃ (c : Ctx) (p : Pfx) (a : Args) (e : Env) (s : State), Passes logShowV c p a e s) :=
  ⟨⟨full.onLdg fun d => {d with buffer := [⟨3,0,1,false,false,900,0x0101,5,0,0⟩], lseq := 4}, by decide +kernel⟩,
    ⟨full, by decide +kernel⟩,
    ⟨c0, .none, [an "n" 8], _, full.onLdg fun d => {d with buffer := [⟨3,0,1,false,false,900,0x0101,5,0,0⟩], lseq := 4}, passes_of
      (by decide +kernel), by decide +kernel⟩,
    ⟨c0, full.onLdg fun d => {d with parts := [(3, {rpw := 7})]}, by decide +kernel⟩,
    ⟨c0, full.onLdg fun d => {d with parts := [(3, {wpw := 7})]}, by decide +kernel⟩,
    ⟨c0, .none, [], _, full, passes_of (by decide +kernel), by decide +kernel⟩,
    ⟨c0, .none, [an "part" 4], _, full, passes_of (by decide +kernel), by decide +kernel⟩,
    ⟨c0, [an "part" 4, aw "bogus" "x"], full.onLdg fun d => {d with parts := [(4, {wpw := 7})]}, 4, by decide +kernel⟩,
    ⟨c0, .none, [], _, full, passes_of (by decide +kernel)⟩,
    ⟨full.onLdg fun d => {d with refresh := true}, by decide +kernel⟩,
    ⟨full, by decide +kernel⟩,
    ⟨c0, .none, [], _, full, passes_of (by decide +kernel)⟩,
    ⟨c0, .none, [], _, full, passes_of (by decide +kernel)⟩⟩

/-- Witnesses of the hypotheses of `Obligations.CommitsAreAtomic`. -/
theorem wit_commitsAreAtomic :
    (∃ (j : LJob) (r : List LJob) (n : Nat) (s : State) (upto : CommitEnd), s.on 1 = true ∧ s.ldg.ready = true ∧ s.ldg.queue = j :: r ∧
      j.upd = .none ∧ j.who = .batch n ∧ (∀ l, l < 2048 → (s.phys (s.physOf l)).role = .serves) ∧ (∀ k, k < physCount → 2080 +
      s.ldg.sparesUsed ≤ k → (s.phys k).role = .spare) ∧ (upto = .beforeJournal ∨ upto = .beforeWord)) ∧
    (∃ (j : LJob) (r : List LJob) (n : Nat) (s : State), (∀ k l, k < 2048 → l < 2048 → s.physOf k = s.physOf l → k = l) ∧ s.on 1 = true ∧
      s.ldg.ready = true ∧ s.ldg.queue = j :: r ∧ j.upd = .none ∧ j.who = .batch n ∧ (∀ l, l < 2048 → (s.phys (s.physOf l)).role =
      .serves) ∧ (∀ k, k < physCount → 2080 + s.ldg.sparesUsed ≤ k → (s.phys k).role = .spare) ∧ (j.pages.map (·.1)).Nodup ∧ (∀ p ∈
      j.pages, p.1 < 2048 ∧ tgetD s.ldg.commits p.1 0 = p.2.2) ∧ j.pages.length ≤ 16 ∧ j.pages.length ≤ roleCount .pool s) :=
  ⟨⟨⟨[(partBase 4, [1,2,3], 0), (partBase 4 + 1, [4], 0)], .none, .batch 0⟩, [], 0, full.onLdg fun d =>
      {d with queue := [⟨[(partBase 4, [1,2,3], 0), (partBase 4 + 1, [4], 0)], .none, .batch 0⟩]}, .beforeWord, by decide +kernel⟩,
    ⟨⟨[(partBase 4, [1,2,3], 0), (partBase 4 + 1, [4], 0)], .none, .batch 0⟩, [], 0, full.onLdg fun d =>
      {d with queue := [⟨[(partBase 4, [1,2,3], 0), (partBase 4 + 1, [4], 0)], .none, .batch 0⟩]}, fun _ _ _ _ h => h, by decide +kernel⟩⟩

/-- Witnesses of the hypotheses of `Obligations.HearthLoop`. -/
theorem wit_hearthLoop :
    (∃ (ms : List HMeas) (sns : Nat) (mean : Nat) (n : Nat) (m : HMeas) (s : State),
     let vsup := supplyMv sns s.hth.ratio
     let vref := supplyMv mean s.hth.ratio
     let vl := (s.chan n).loadMv vsup m.hv
     s.on 4 = true ∧ s.clk.stat.getLsbD 10 = true ∧ s.hth.chans.length = 8 ∧ ms.length = 8 ∧ ms[n]? = some m ∧ (m.over1ms = false ∧
       m.open20 = false ∧ m.fet100 = false ∧ m.adc1ms = false ∧ -500 ≤ vl) ∧ (∀ k, k < 8 → k ≠ n → (s.chan k).state = .off ∧ (s.chan
       k).token = false) ∧ (s.chan n).mode ≠ .off ∧ s.hth.sag = false ∧ s.hth.suplow = false ∧ s.hth.frozen = 0 ∧ 4500 ≤ vsup ∧ vsup <
       65536 ∧ vref < 65536 ∧ 92 * vref ≤ 100 * vsup ∧ (s.chan n).state = .wait ∧ (s.chan n).token = false ∧ s.hth.tokens ≠ 0 ∧ (s.chan
       n).ilim.toNat ≤ s.hth.imax.toNat) ∧
    (∃ (ms : List HMeas) (sns : Nat) (mean : Nat) (n : Nat) (m : HMeas) (s : State),
     let vsup := supplyMv sns s.hth.ratio
     let vref := supplyMv mean s.hth.ratio
     let vl := (s.chan n).loadMv vsup m.hv
     s.on 4 = true ∧ s.clk.stat.getLsbD 10 = true ∧ s.hth.chans.length = 8 ∧ ms.length = 8 ∧ ms[n]? = some m ∧ (m.over1ms = false ∧
       m.open20 = false ∧ m.fet100 = false ∧ m.adc1ms = false ∧ -500 ≤ vl) ∧ (∀ k, k < 8 → k ≠ n → (s.chan k).state = .off ∧ (s.chan
       k).token = false) ∧ (s.chan n).mode ≠ .off ∧ s.hth.sag = false ∧ s.hth.suplow = false ∧ s.hth.frozen = 0 ∧ 4500 ≤ vsup ∧ vsup <
       65536 ∧ vref < 65536 ∧ 92 * vref ≤ 100 * vsup ∧ (s.chan n).state = .wait ∧ s.hth.imax.toNat < (s.chan n).ilim.toNat) ∧
    (∃ (ms : List HMeas) (sns : Nat) (mean : Nat) (n : Nat) (m : HMeas) (s : State),
     let vsup := supplyMv sns s.hth.ratio
     let vref := supplyMv mean s.hth.ratio
     let vl := (s.chan n).loadMv vsup m.hv
     s.on 4 = true ∧ s.clk.stat.getLsbD 10 = true ∧ s.hth.chans.length = 8 ∧ ms.length = 8 ∧ ms[n]? = some m ∧ (m.over1ms = false ∧
       m.open20 = false ∧ m.fet100 = false ∧ m.adc1ms = false ∧ -500 ≤ vl) ∧ (∀ k, k < 8 → k ≠ n → (s.chan k).state = .off ∧ (s.chan
       k).token = false) ∧ (s.chan n).mode ≠ .off ∧ s.hth.sag = false ∧ s.hth.suplow = false ∧ s.hth.frozen = 0 ∧ 4500 ≤ vsup ∧ vsup <
       65536 ∧ vref < 65536 ∧ 92 * vref ≤ 100 * vsup ∧ (s.chan n).state = .ramp) ∧
    (∃ (ms : List HMeas) (sns : Nat) (mean : Nat) (n : Nat) (m : HMeas) (s : State),
     let vsup := supplyMv sns s.hth.ratio
     let vref := supplyMv mean s.hth.ratio
     s.on 4 = true ∧ s.clk.stat.getLsbD 10 = true ∧ s.hth.chans.length = 8 ∧ ms.length = 8 ∧ ms[n]? = some m ∧ (m.over1ms = false ∧
       m.open20 = false ∧ m.fet100 = false ∧ m.adc1ms = false ∧ m.below10 = false ∧ -500 ≤ (s.chan n).loadMv vsup m.hv) ∧ (∀ k, k < 8 → k
       ≠ n → (s.chan k).state = .off) ∧ (s.chan n).mode ≠ .off ∧ (s.chan n).state = .ramp ∧ s.hth.sag = false ∧ s.hth.suplow = false ∧
       s.hth.frozen = 0 ∧ 4500 ≤ vsup ∧ vsup < 65536 ∧ vref < 65536 ∧ 100 * vsup < 92 * vref) ∧
    (∃ (s : State), s.on 4 = false) ∧
    (∃ (s : State), s.on 4 = true ∧ s.clk.stat.getLsbD 10 = true) ∧
    (∃ (ch : Nat) (hsp : Int) (hsn : Int) (s : State),
     let i := (s.chan ch).loadMa hsp hsn
     s.on 4 = true ∧ (s.chan ch).state = .probe ∧ 0 < i ∧ (s.chan ch).ilim.toNat ≤ 50 * i) ∧
    (∃ (s : State), s.hth.sag = true) ∧
    (∃ (s : State), s.hth.sag = true) ∧
    (∃ (ch : Nat) (s : State), (s.chan ch).state = .backoff) :=
  ⟨⟨List.replicate 8 meas, 857143, 857143, 2, meas, chn 2 {lampc with token := false}
      { full with clk := { full.clk with stat := 0xDFF } }, by decide +kernel⟩,
    ⟨List.replicate 8 meas, 857143, 857143, 2, meas, chn 2 {lampc with ilim := 3001}
      { full with clk := { full.clk with stat := 0xDFF } }, by decide +kernel⟩,
    ⟨List.replicate 8 meas, 857143, 857143, 2, meas, chn 2 {lampc with state := .ramp, token := true, ramp := 1}
      { full with clk := { full.clk with stat := 0xDFF } }, by decide +kernel⟩,
    ⟨List.replicate 8 {meas with below10 := false}, 642858, 857143, 2, {meas with below10 := false}, chn 2
      {lampc with state := .ramp, token := true} { full with clk := { full.clk with stat := 0xDFF } }, by decide +kernel⟩,
    ⟨dom 7 full, by decide +kernel⟩,
    ⟨chn 1 {lampc with mode := .linear, state := .run, i := 300, v := 5000} (chn 2
      {lampc with state := .run, i := 500, v := 12000, reg := false} { full with clk := { full.clk with stat := 0xDFF } }),
      by decide +kernel⟩,
    ⟨2, 2500, 0, chn 2 {lampc with state := .probe, token := true} { full with clk := { full.clk with stat := 0xDFF } },
      by decide +kernel⟩,
    ⟨{ (chn 2 {lampc with state := .hold} { full with clk := { full.clk with stat := 0xDFF } }) with hth := { (chn 2 {lampc with state := .hold} { full with clk := { full.clk with stat := 0xDFF } }).hth with sag := true } },
      by decide +kernel⟩,
    ⟨{ (chn 2 {lampc with state := .park, retries := 3} { full with clk := { full.clk with stat := 0xDFF } }) with hth := { (chn 2 {lampc with state := .park, retries := 3} { full with clk := { full.clk with stat := 0xDFF } }).hth with sag := true } },
      by decide +kernel⟩,
    ⟨2, chn 2 {lampc with state := .backoff} { full with clk := { full.clk with stat := 0xDFF } }, by decide +kernel⟩⟩

/-- Witnesses of the hypotheses of `Obligations.HearthFaults`. -/
theorem wit_hearthFaults :
    (∃ (ch : Nat) (s : State), s.on 4 = true ∧ (s.chan ch).idle = false) ∧
    (∃ (ch : Nat) (s : State), (s.chan ch).idle = true) ∧
    (∃ (ch : Nat) (s : State), s.on 4 = true ∧ (s.chan ch).state = .fault ∧ (s.chan ch).fault = .short ∧ (s.chan ch).autoretry = true ∧
      (s.chan ch).autos < 5 ∧ (s.chan ch).mode ≠ .off) ∧
    (∃ (ch : Nat) (s : State), s.on 4 = true ∧ (s.chan ch).state = .fault ∧ (s.chan ch).fault = .short ∧ ((s.chan ch).autoretry = false ∨
      5 ≤ (s.chan ch).autos)) ∧
    (∃ (s : State), s.on 4 = true ∧ s.hth.imax.toNat < (s.hth.chans.map fun c => c.i.toNat).sum ∧ (∃ k, k < 8 ∧ (s.chan k).state.driven =
      true)) ∧
    (∃ (s : State), s.on 4 = true) ∧
    (∃ (c : Ctx) (p : Pfx) (a : Args) (e : Env) (s : State), Passes hthClearV c p a e s ∧ s.on 4 = true ∧ (s.chan (e.nat "ch")).state =
      .fault) ∧
    (∃ (c : Ctx) (p : Pfx) (a : Args) (e : Env) (s : State), Passes hthClearV c p a e s ∧ s.on 4 = true ∧ (s.chan (e.nat "ch")).state ≠
      .fault) ∧
    (∃ (c : Ctx) (p : Pfx) (a : Args) (e : Env) (s : State), Passes hthClearV c p a e s ∧ s.on 4 = false) ∧
    (∃ (ch : Nat) (v : W32) (s : State), s.on 4 = true ∧ ch < 8 ∧ v.getLsbD 15 = true ∧ (s.chan ch).state = .fault) ∧
    (∃ (ch : Nat) (v : W32) (s : State), s.on 4 = true ∧ ch < 8 ∧ (v.getLsbD 15 = false ∨ (s.chan ch).state ≠ .fault)) ∧
    (∃ (ch : Nat) (v : W32) (s : State), s.on 4 = true ∧ ch < 8 ∧ fld v 0 3 ≠ 0 ∧ ((s.chan ch).shunt = 0 ∨ (s.chan ch).ilim = 0)) ∧
    (∃ (ch : Nat) (v : W32) (s : State), s.on 4 = true ∧ ch < 8 ∧ fld v 0 3 = 3 ∧ (s.chan ch).shunt ≠ 0 ∧ (s.chan ch).ilim ≠ 0 ∧ (s.chan
      ch).state = .off ∧ (s.chan ch).mode ≠ .lamp) ∧
    (∃ (ch : Nat) (s : State), ch < 8 ∧ allChansOff s = false ∧ (∀ e ∈ s.desk.deferred, e.1 ≠ 4)) ∧
    (∃ (ch : Nat) (s : State), ch < 8 ∧ allChansOff s = false ∧ (∀ e ∈ s.desk.deferred, e.1 ≠ 4)) :=
  ⟨⟨2, chn 2 {lampc with state := .run, gate := true} { full with clk := { full.clk with stat := 0xDFF } }, by decide +kernel⟩,
    ⟨3, full, by decide +kernel⟩,
    ⟨2, chn 2 {lampc with state := .fault, fault := .short, autoretry := true, autos := 4}
      { full with clk := { full.clk with stat := 0xDFF } }, by decide +kernel⟩,
    ⟨2, chn 2 {lampc with state := .fault, fault := .short, autoretry := true, autos := 5}
      { full with clk := { full.clk with stat := 0xDFF } }, by decide +kernel⟩,
    ⟨chn 5 { mode := .linear, state := .run, i := 2000 } (chn 2 {lampc with state := .run, i := 2000}
      { full with clk := { full.clk with stat := 0xDFF } }), by decide +kernel⟩,
    ⟨chn 2 {lampc with state := .run} { full with clk := { full.clk with stat := 0xDFF } }, by decide +kernel⟩,
    ⟨c0, .none, [an "ch" 2], _, chn 2 {lampc with state := .fault, fault := .short, autoretry := true, autos := 4}
      { full with clk := { full.clk with stat := 0xDFF } }, passes_of (by decide +kernel), by decide +kernel⟩,
    ⟨c0, .none, [an "ch" 3], _, chn 2 {lampc with state := .fault, fault := .short, autoretry := true, autos := 4}
      { full with clk := { full.clk with stat := 0xDFF } }, passes_of (by decide +kernel), by decide +kernel⟩,
    ⟨c0, .none, [an "ch" 3], _, dom 7 full, passes_of (by decide +kernel), by decide +kernel⟩,
    ⟨2, 0x8000, chn 2 {lampc with state := .fault, fault := .short, autoretry := true, autos := 4}
      { full with clk := { full.clk with stat := 0xDFF } }, by decide +kernel⟩,
    ⟨2, 0x7FFF, chn 2 {lampc with state := .fault, fault := .short, autoretry := true, autos := 4}
      { full with clk := { full.clk with stat := 0xDFF } }, by decide +kernel⟩,
    ⟨2, 3, chn 2 {} full, by decide +kernel⟩,
    ⟨2, 0x13, chn 2 { ilim := 1000, shunt := 500 } full, by decide +kernel⟩,
    ⟨2, chn 2 {lampc with state := .run} { full with clk := { full.clk with stat := 0xDFF } }, by decide +kernel⟩,
    ⟨2, chn 2 {lampc with state := .run} { full with clk := { full.clk with stat := 0xDFF } }, by decide +kernel⟩⟩

/-- Witnesses of the hypotheses of `Obligations.HearthCommands`. -/
theorem wit_hearthCommands :
    (∃ (c : Ctx) (p : Pfx) (a : Args) (e : Env) (s : State) (n : Nat), Passes hthSetV c p a e s ∧ e.nat? "ch" = some n ∧ s.on 4 = true ∧
      s.hth.chans.length = 8 ∧ n < 8 ∧ hthBad e (s.chan n) (chanWith e (s.chan n)) s = none ∧ allChansOff s = true ∧ e.word? "mode" =
      none) ∧
    (∃ (c : Ctx) (p : Pfx) (a : Args) (e : Env) (s : State) (n : Nat) (w : String), Passes hthSetV c p a e s ∧ e.nat? "ch" = some n ∧
      s.on 4 = true ∧ s.hth.chans.length = 8 ∧ n < 8 ∧ hthBad e (s.chan n) (chanWith e (s.chan n)) s = none ∧ allChansOff s = true ∧
      e.word? "mode" = some w ∧ (s.chan n).mode ≠ hmodeWord w) ∧
    (∃ (c : Ctx) (p : Pfx) (a : Args) (e : Env) (s : State) (n : Nat) (k : String), Passes hthSetV c p a e s ∧ e.nat? "ch" = some n ∧
      hthBad e (s.chan n) (chanWith e (s.chan n)) s = some k) ∧
    (∃ (c : Ctx) (a : Args) (s : State), canRun c.origin s = true ∧ 1 ≤ (s.levelOf c.origin).rank ∧ claimBars hthSetV c.origin a s =
      false ∧ hasKey a "ch" = false ∧ (∃ k, k ∈ hthChanKeys ∧ hasKey a k = true)) ∧
    (∃ (c : Ctx) (p : Pfx) (a : Args) (e : Env) (s : State), Passes hthShowV c p a e s ∧ s.on 4 = true) :=
  ⟨⟨c0, .none, [an "ch" 2, an "rhot" 30, ⟨"imax", .item (.num false 4 0 "A")⟩], _, chn 2 { ilim := 1000, shunt := 500 } full, 2,
      passes_of (by decide +kernel), by decide +kernel⟩,
    ⟨c0, .none, [an "ch" 2, aw "mode" "lamp", ⟨"v", .item (.num false 12 0 "V")⟩], _, chn 2 { ilim := 1000, shunt := 500, rhot := 100 }
      { full with hth := { full.hth with vsup := 13000 } }, 2, "lamp", passes_of (by decide +kernel), by decide +kernel⟩,
    ⟨c0, .none, [an "ch" 2, aw "mode" "lamp"], _, full, 2, ((hthBad (envOf hthSetV c0 .none [an "ch" 2, aw "mode" "lamp"] full)
      (full.chan 2) (chanWith (envOf hthSetV c0 .none [an "ch" 2, aw "mode" "lamp"] full) (full.chan 2)) full).getD ""), passes_of
      (by decide +kernel), by decide +kernel⟩,
    ⟨c0, [aw "mode" "lamp"], full, by decide +kernel⟩,
    ⟨c0, .none, [], _, full, passes_of (by decide +kernel), by decide +kernel⟩⟩

/-- Witnesses of the hypotheses of `Obligations.HouseMoves`. -/
theorem wit_houseMoves :
    (∃ (c : Ctx) (p : Pfx) (a : Args) (e : Env) (s : State) (k : Nat), Passes houseSetV c p a e s ∧ c.origin = .sess k ∧ s.pwr.therm =
      .none ∧ s.clk.stat.getLsbD 0 = true ∧ s.pwr.goal ≠ none) ∧
    (∃ (c : Ctx) (p : Pfx) (a : Args) (e : Env) (s : State) (k : Nat), Passes houseSetV c p a e s ∧ c.origin = .sess k ∧ s.pwr.therm =
      .none ∧ s.clk.stat.getLsbD 0 = true ∧ s.pwr.goal = none ∧ houseOf (e.word "state") = s.pwr.house) ∧
    (∃ (c : Ctx) (p : Pfx) (a : Args) (e : Env) (s : State) (k : Nat), Passes houseSetV c p a e s ∧ c.origin = .sess k ∧ s.pwr.therm =
      .none ∧ s.clk.stat.getLsbD 0 = true ∧ s.pwr.goal = none ∧ houseOf (e.word "state") ≠ s.pwr.house ∧ s.pwr.house ≠ .full ∧ houseOf
      (e.word "state") ≠ .vault ∧ wantsDom (houseOf (e.word "state")) s.pwr.cfg (sessDom k s) = true) ∧
    (∃ (c : Ctx) (p : Pfx) (a : Args) (e : Env) (s : State) (k : Nat), Passes houseSetV c p a e s ∧ c.origin = .sess k ∧ s.pwr.therm =
      .none ∧ s.clk.stat.getLsbD 0 = true ∧ s.pwr.goal = none ∧ houseOf (e.word "state") ≠ s.pwr.house ∧ s.pwr.house ≠ .full ∧ houseOf
      (e.word "state") ≠ .vault ∧ wantsDom (houseOf (e.word "state")) s.pwr.cfg (sessDom k s) = false) ∧
    (∃ (c : Ctx) (p : Pfx) (a : Args) (e : Env) (s : State) (k : Nat), Passes houseSetV c p a e s ∧ c.origin = .sess k ∧ s.pwr.therm =
      .none ∧ s.clk.stat.getLsbD 0 = true ∧ s.pwr.goal = none ∧ s.pwr.house = .full ∧ houseOf (e.word "state") ≠ .full) ∧
    (∃ (c : Ctx) (p : Pfx) (a : Args) (e : Env) (s : State), Passes houseSetV c p a e s ∧ houseNum s.pwr.house < houseNum (houseOf
      (e.word "state")) ∧ s.clk.stat.getLsbD 0 = false) ∧
    (∃ (s : State), s.pwr.house = .vault ∧ s.pwr.goal = some .hush ∧ s.pwr.vaon = true ∧ s.sys.testmode = false ∧ s.on 1 = false ∧ s.on 2
      = false) ∧
    (∃ (s : State), s.pwr.house ≠ .vault) ∧
    (∃ (s : State), s.pwr.house = .hush ∧ s.pwr.goal = some .lobby) ∧
    (∃ (s : State), s.pwr.house = .lobby ∧ s.pwr.goal = some .full ∧ s.pwr.rising = false ∧ s.on 9 = false ∧ s.cfgOn 9 = true) ∧
    (∃ (s : State), s.pwr.house = .lobby ∧ s.pwr.goal = some .full ∧ s.pwr.rising = false ∧ s.on 9 = false ∧ s.pwr.cfg = 0 ∧
      s.pwr.ramping = none) ∧
    (∃ (n : Nat) (s : State), 16 ≤ n ∧ n ≤ 128 ∧ n % 2 = 0 ∧ s.on 9 = true ∧ s.mem.trained = false ∧ s.mem.fail = false) ∧
    (∃ (n : Nat), (n < 16 ∨ 128 < n ∨ n % 2 = 1)) ∧
    (∃ (s : State), s.on 9 = true ∧ s.mem.trained = false ∧ s.mem.fail = false) ∧
    (∃ (q : Nat) (s : State), q < 4 ∧ s.pwr.ramping = some q) ∧
    (∃ (q : Nat) (s : State), s.pwr.ramping ≠ some q) ∧
    (∃ (s : State), s.pwr.house = .full ∧ s.pwr.goal = some .lobby ∧ fadesEnded s = true) ∧
    (∃ (s : State), s.pwr.house = .lobby ∧ s.pwr.rising = false ∧ s.pwr.goal = some .hush ∧ s.desk.deferred = []) ∧
    (∃ (s : State), s.pwr.house = .hush ∧ s.pwr.goal = some .vault ∧ s.desk.deferred = [] ∧ s.on 2 = true) ∧
    (∃ (s : State), s.pwr.house ≠ .vault) ∧
    (∃ (s : State), s.pwr.house = .vault) ∧
    (∃ (s : State), s.pwr.house = .vault ∧ s.pwr.vaon = true ∧ s.sys.testmode = false ∧ s.pwr.goal = none ∧ (s.pwr.byFail = true ∨
      s.pwr.woken = true)) ∧
    (∃ (s : State), s.pwr.house = .vault ∧ s.pwr.vaon = true ∧ s.sys.testmode = false ∧ s.pwr.goal = none ∧ s.pwr.byFail = false ∧
      s.pwr.woken = false) ∧
    (∃ (v : W32) (s : State), s.on 2 = true ∧ s.desk.deferred = [] ∧ cfgBad (BitVec.ofNat 12 (fld v 4 12)) = false ∧ s.pwr.rising = false
      ∧ (∀ d ∈ cfgDrops (BitVec.ofNat 12 (fld v 4 12)) s, domHolds d s = false)) ∧
    (∃ (v : W32) (s : State), s.on 2 = true ∧ s.desk.deferred = [] ∧ cfgBad (BitVec.ofNat 12 (fld v 4 12)) = true) ∧
    (∃ (c : Ctx) (p : Pfx) (a : Args) (e : Env) (s : State), Passes houseShowV c p a e s) :=
  ⟨⟨c0, .none, [aw "state" "hush"], _, house .lobby (some .full) (dom 0x1FF full), 0, passes_of (by decide +kernel), by decide +kernel⟩,
    ⟨c0, .none, [aw "state" "full"], _, full, 0, passes_of (by decide +kernel), by decide +kernel⟩,
    ⟨c0, .none, [aw "state" "full"], _, house .lobby (none) (dom 0x1FF full), 0, passes_of (by decide +kernel), by decide +kernel⟩,
    ⟨⟨.sess 1, none, false⟩, .none, [aw "state" "hush"], _, sess 1 owner (house .lobby (none) (dom 0x1FF full)), 1, passes_of
      (by decide +kernel), by decide +kernel⟩,
    ⟨c0, .none, [aw "state" "vault"], _, gst 5 guest1 full, 0, passes_of (by decide +kernel), by decide +kernel⟩,
    ⟨c0, .none, [aw "state" "full"], _, (let f : State := house .lobby (none) (dom 0x1FF full);
      { f with clk := { f.clk with stat := 0xDFE } }), passes_of (by decide +kernel), by decide +kernel⟩,
    ⟨(let f : State := dom 1 (house .vault (some .hush) full); f), by decide +kernel⟩,
    ⟨full, by decide +kernel⟩,
    ⟨house .hush (some .lobby) (dom 7 full), by decide +kernel⟩,
    ⟨(let f : State := house .lobby (some .full) (dom 0x1FF full); {f with pwr := {f.pwr with cfg := 0xFFF}}), by decide +kernel⟩,
    ⟨(let f : State := house .lobby (some .full) (dom 0x1FF full); {f with pwr := {f.pwr with cfg := 0}}), by decide +kernel⟩,
    ⟨96, (let f : State := house .lobby (some .full) (dom 0x3FF full);
      { f with mem := {}, pwr := { f.pwr with rising := true, cfg := 0xFFF } }), by decide +kernel⟩,
    ⟨97, by decide +kernel⟩,
    ⟨(let f : State := house .lobby (some .full) (dom 0x3FF full);
      { f with mem := {}, pwr := { f.pwr with rising := true, cfg := 0xFFF } }), by decide +kernel⟩,
    ⟨2, (let f : State := house .lobby (some .full) (dom 0x3FFF full);
      { f with pwr := { f.pwr with rising := true, cfg := 0xFFF, ramping := some 2 } }), by decide +kernel⟩,
    ⟨2, full, by decide +kernel⟩,
    ⟨house .full (some .lobby) (gst 5 { guest1 with gain := 0, fading := true } full), by decide +kernel⟩,
    ⟨house .lobby (some .hush) (dom 0x1FF full), by decide +kernel⟩,
    ⟨house .hush (some .vault) (dom 7 full), by decide +kernel⟩,
    ⟨full, by decide +kernel⟩,
    ⟨{ full with pwr := { (full).pwr with house := .vault, dom := 1 } }, by decide +kernel⟩,
    ⟨(let f : State := house .vault none (dom 1 full); { f with pwr := { f.pwr with byFail := true } }), by decide +kernel⟩,
    ⟨house .vault none (dom 1 full), by decide +kernel⟩,
    ⟨0xFFE0, full, by decide +kernel⟩,
    ⟨0x8000, full, by decide +kernel⟩,
    ⟨c0, .none, [], _, full, passes_of (by decide +kernel)⟩⟩

/-- Witnesses of the hypotheses of `Obligations.PowerGovernors`. -/
theorem wit_powerGovernors :
    (∃ (s : State), s.on 2 = true) ∧
    (∃ (s : State), s.on 2 = true) ∧
    (∃ (s : State), s.on 2 = true ∧ s.pwr.remote = false ∧ s.pwr.avsfail = false ∧ s.pwr.raiseTo = none ∧ pointV s.pwr.eff.toNat ≤
      s.pwr.wtgt ∧ s.pwr.wtgt ≤ 850) ∧
    (∃ (s : State), s.on 2 = true) ∧
    (∃ (s : State), s.on 2 = true) ∧
    (∃ (s : State), s.on 2 = true) ∧
    (∃ (s : State), s.on 2 = true ∧ s.pwr.avsfail = false) ∧
    (∃ (volts : List Nat) (means : List Nat) (s : State),
     let drop (z : Nat) : Int := (volts.getD z 0 : Int) - means.getD z 0 - (s.pwr.zones.getD z {}).zbase
     s.on 2 = true ∧ s.pwr.zones.length = 8 ∧ s.pwr.lc.toNat ≤ 1 ∧ (∀ z, z < 8 → drop z ≤ 250)) ∧
    (∃ (volts : List Nat) (means : List Nat) (s : State) (z : Nat),
     let drop (z : Nat) : Int := (volts.getD z 0 : Int) - means.getD z 0 - (s.pwr.zones.getD z {}).zbase
     s.on 2 = true ∧ s.pwr.zones.length = 8 ∧ s.pwr.lc.toNat ≤ 1 ∧ z < 8 ∧ 250 < drop z ∧ (∀ k, k < 8 → k ≠ z → drop k ≤ 250) ∧
       (s.pwr.zones.getD z {}).raised = false ∧ (s.pwr.zones.getD z {}).lightN < 99) ∧
    (∃ (volts : List Nat) (means : List Nat) (s : State) (z : Nat),
     let drop (z : Nat) : Int := (volts.getD z 0 : Int) - means.getD z 0 - (s.pwr.zones.getD z {}).zbase
     s.on 2 = true ∧ s.pwr.zones.length = 8 ∧ s.pwr.lc.toNat ≤ 1 ∧ z < 8 ∧ 250 < drop z ∧ (∀ k, k < 8 → k ≠ z → drop k ≤ 250) ∧
       (s.pwr.zones.getD z {}).raised = false ∧ (s.pwr.zones.getD z {}).lightN = 99) ∧
    (∃ (s : State), 1 < s.pwr.lc.toNat) ∧
    (∃ (c : Ctx) (p : Pfx) (a : Args) (e : Env) (s : State), Passes pwrCrackV c p a e s) ∧
    (∃ (s : State), s.on 2 = true ∧ roundsRun s = false) ∧
    (∃ (s : State), s.on 2 = true ∧ roundsRun s = true) ∧
    (∃ (c : Ctx) (p : Pfx) (a : Args) (e : Env) (s : State), Passes pwrSetV c p a e s ∧ e.has "domains" = false ∧ e.has "therm" = false ∧
      e.has "rail" = false ∧ (∀ x ∈ s.desk.deferred, x.1 ≠ 4) ∧ e.has "sense" = false ∧ (e.word? "point" = none ∨ e.has "force" = true)) ∧
    (∃ (c : Ctx) (p : Pfx) (a : Args) (e : Env) (s : State), Passes pwrSetV c p a e s ∧ e.has "domains" = false ∧ e.has "therm" = false ∧
      e.has "rail" = true ∧ stakesOn s = true) ∧
    (∃ (c : Ctx) (p : Pfx) (a : Args) (e : Env) (s : State), Passes pwrShowV c p a e s ∧ e.has "what" = false) :=
  ⟨⟨full, by decide +kernel⟩,
    ⟨{ full with pwr := { full.pwr with tj := 200, capT := 5 } }, by decide +kernel⟩,
    ⟨full, by decide +kernel⟩,
    ⟨full, by decide +kernel⟩,
    ⟨{ full with pwr := { full.pwr with half := true } }, by decide +kernel⟩,
    ⟨full, by decide +kernel⟩,
    ⟨{ full with pwr := { full.pwr with avsBad := 2 } }, by decide +kernel⟩,
    ⟨[], [], full, by decide +kernel⟩,
    ⟨[0,900], [0,600], { full with pwr := { full.pwr with zones := (List.replicate 8 {}).set 1 { lightN := 98 } } }, 1,
      by decide +kernel⟩,
    ⟨[0,900], [0,600], { full with pwr := { full.pwr with zones := (List.replicate 8 {}).set 1 { lightN := 99 } } }, 1,
      by decide +kernel⟩,
    ⟨{ full with pwr := { full.pwr with lc := 2 } }, by decide +kernel⟩,
    ⟨c0, .none, [aw "" "clear"], _,
      { full with pwr := { full.pwr with capC := 3, zones := (List.replicate 8 {}).set 1 { lightN := 99, raised := true } } }, passes_of
      (by decide +kernel)⟩,
    ⟨dom 0xF full, by decide +kernel⟩,
    ⟨full, by decide +kernel⟩,
    ⟨c0, .none, [aw "point" "p2", aw "" "force", aw "vmax" "clear", aw "lcen" "off"], _, full, passes_of (by decide +kernel),
      by decide +kernel⟩,
    ⟨c0, .none, [an "rail" 3], _, full, passes_of (by decide +kernel), by decide +kernel⟩,
    ⟨c0, .none, [], _, full, passes_of (by decide +kernel), by decide +kernel⟩⟩

/-- Witnesses of the hypotheses of `Obligations.BootAndResets`. -/
theorem wit_bootAndResets :
    (∃ (s : State), s.on 2 = true ∧ s.sys.booted = false ∧ s.sys.waiting = false ∧ 4 ≤ s.sys.strap.toNat) ∧
    (∃ (f : Flash) (s : State), s.on 2 = true ∧ s.sys.booted = false ∧ s.sys.waiting = false ∧ s.sys.strap = 0 ∧ chooseDir f = none) ∧
    (∃ (f : Flash) (s : State) (b : Bool), s.on 2 = true ∧ s.sys.booted = false ∧ s.sys.waiting = false ∧ s.sys.strap = 0 ∧ chooseDir f =
      some b) ∧
    (∃ (s : State), s.on 2 = true ∧ s.sys.booted = false ∧ s.sys.waiting = false ∧ s.sys.strap = 2) ∧
    (∃ (s : State), s.on 2 = true ∧ s.sys.booted = false ∧ s.sys.waiting = false ∧ s.sys.strap = 3) ∧
    (∃ (s : State), s.sys.booted = true) ∧
    (∃ (s : State), s.sys.waiting = true ∧ s.pwr.house = .hush) ∧
    (∃ (s : State), s.sys.waiting = false) ∧
    (∃ (ok : Bool) (s : State), s.sys.waiting = true ∧ s.sys.source = 3 ∧ sigVerifies 0 ok s = true) ∧
    (∃ (s : State), s.on 2 = true ∧ s.sys.wdogEn = true ∧ s.sys.wdogHit = false ∧ s.desk.deferred = []) ∧
    (∃ (s : State), s.on 2 = true ∧ s.sys.wdogEn = true ∧ s.sys.wdogHit = true ∧ s.desk.ready = false) ∧
    (∃ (s : State), s.sys.wdogEn = false) ∧
    (∃ (v : W32) (s : State), s.on 2 = true ∧ fld v 0 16 ≠ 0xA55A) ∧
    (∃ (v : W32) (s : State), s.on 2 = true ∧ fld v 0 16 ≠ 0xA55A) ∧
    (∃ (v : W32) (s : State), s.on 2 = true ∧ fld v 0 16 = 0xA55A ∧ v.getLsbD 16 = true ∧ v.getLsbD 17 = false ∧ s.desk.deferred = []) ∧
    (∃ (v : W32) (s : State), s.on 2 = true ∧ fld v 0 16 = 0xA55A ∧ v.getLsbD 17 = true) ∧
    (∃ (c : Ctx) (p : Pfx) (a : Args) (e : Env) (s : State) (k : Nat), Passes sysResetWarmV c p a e s ∧ c.origin = .sess k) ∧
    (∃ (c : Ctx) (p : Pfx) (a : Args) (e : Env) (s : State) (k : Nat), Passes sysResetFullV c p a e s ∧ c.origin = .sess k) ∧
    (∃ (s : State) (k : Clk), s.on 2 = true ∧ k ≠ .refclk ∧ k ≠ .deskrc) ∧
    (∃ (s : State), s.on 2 = true ∧ s.on 3 = true) :=
  ⟨⟨unbooted 5 (house .hush none (dom 7 full)), by decide +kernel⟩,
    ⟨flash0, unbooted 0 (house .hush none (dom 7 full)), by decide +kernel⟩,
    ⟨flash1, unbooted 0 (house .hush none (dom 7 full)), false, by decide +kernel⟩,
    ⟨unbooted 2 (house .hush none (dom 7 full)), by decide +kernel⟩,
    ⟨unbooted 3 (house .hush none (dom 7 full)), by decide +kernel⟩,
    ⟨full, by decide +kernel⟩,
    ⟨(let f : State := house .hush none (dom 0x67 full); { f with sys := { f.sys with booted := false, waiting := true, source := 2 } }),
      by decide +kernel⟩,
    ⟨full, by decide +kernel⟩,
    ⟨true, (let f : State := house .hush none (dom 0x67 full);
      { f with sys := { f.sys with booted := false, waiting := true, source := 3 } }), by decide +kernel⟩,
    ⟨full, by decide +kernel⟩,
    ⟨{ full with sys := { full.sys with wdogHit := true }, desk := { full.desk with ready := false } }, by decide +kernel⟩,
    ⟨{ full with sys := { full.sys with wdogEn := false } }, by decide +kernel⟩,
    ⟨0xA55B, full, by decide +kernel⟩,
    ⟨0xA55B, full, by decide +kernel⟩,
    ⟨0x1A55A, full, by decide +kernel⟩,
    ⟨0x2A55A, full, by decide +kernel⟩,
    ⟨c0, .none, [aw "" "warm"], _, full, 0, passes_of (by decide +kernel), by decide +kernel⟩,
    ⟨c0, .none, [aw "" "full"], _, full, 0, passes_of (by decide +kernel), by decide +kernel⟩,
    ⟨full, .core, by decide +kernel⟩,
    ⟨full, by decide +kernel⟩⟩

/-- Witnesses of the hypotheses of `Obligations.SystemCommands`. -/
theorem wit_systemCommands :
    (∃ (c : Ctx) (p : Pfx) (a : Args) (e : Env) (s : State), Passes sysCapsV c p a e s) ∧
    (∃ (c : Ctx) (p : Pfx) (a : Args) (e : Env) (s : State), Passes sysShowV c p a e s) ∧
    (∃ (c : Ctx) (p : Pfx) (a : Args) (e : Env) (s : State), Passes sysMapV c p a e s) ∧
    (∃ (c : Ctx) (p : Pfx) (a : Args) (e : Env) (s : State), Passes sysModesV c p a e s) ∧
    (∃ (c : Ctx) (p : Pfx) (a : Args) (e : Env) (s : State), Passes sysHealthV c p a e s) ∧
    (∃ (c : Ctx) (p : Pfx) (a : Args) (e : Env) (s : State), Passes sysBootV c p a e s) ∧
    (∃ (c : Ctx) (p : Pfx) (a : Args) (e : Env) (s : State), Passes fuseV c p a e s ∧ e.word? "fuse" = some "sigenf" ∧ e.has "key" =
      false ∧ e.has "keyrev" = false ∧ e.has "src" = false ∧ s.sys.pd2Frames < 100) ∧
    (∃ (c : Ctx) (p : Pfx) (a : Args) (e : Env) (s : State), Passes fuseV c p a e s ∧ e.word? "fuse" = some "sigenf" ∧ e.has "key" =
      false ∧ e.has "keyrev" = false ∧ e.has "src" = false ∧ 100 ≤ s.sys.pd2Frames ∧ s.sys.sigenf = true) ∧
    (∃ (c : Ctx) (p : Pfx) (a : Args) (e : Env) (s : State), Passes fuseV c p a e s ∧ e.word? "fuse" = some "sigenf" ∧ e.has "key" =
      false ∧ e.has "keyrev" = false ∧ e.has "src" = false ∧ 100 ≤ s.sys.pd2Frames ∧ s.sys.sigenf = false) ∧
    (∃ (c : Ctx) (p : Pfx) (a : Args) (e : Env) (s : State) (k : Nat) (x : Nat), Passes fuseV c p a e s ∧ e.has "fuse" = false ∧ e.has
      "keyrev" = false ∧ e.nat? "key" = some k ∧ k < 4 ∧ e.nat? "src" = some x ∧ s.mem.valid = true ∧ inUsable x 32 s = true ∧ 100 ≤
      s.sys.pd2Frames ∧ s.sys.keyprog.getLsbD k = false) ∧
    (∃ (c : Ctx) (p : Pfx) (a : Args) (e : Env) (s : State), Passes flashShowV c p a e s) ∧
    (∃ (c : Ctx) (p : Pfx) (a : Args) (e : Env) (s : State) (f : Flash), Passes flashEraseV c p a e s ∧ s.sys.flash = some f ∧
      flashRefuses f (e.nat "off") (e.nat "len") s = none) ∧
    (∃ (c : Ctx) (p : Pfx) (a : Args) (e : Env) (s : State) (f : Flash) (n : Nat) (k : String), Passes flashEraseV c p a e s ∧
      s.sys.flash = some f ∧ flashRefuses f (e.nat "off") (e.nat "len") s = some (n, k)) ∧
    (∃ (c : Ctx) (p : Pfx) (a : Args) (e : Env) (s : State) (f : Flash), Passes flashWriteV c p a e s ∧ s.memOk ∧ s.sys.flash = some f ∧
      inUsable (e.nat "src") (e.nat "len") s = true ∧ flashRefuses f (e.nat "off") (e.nat "len") s = none) ∧
    (∃ (c : Ctx) (p : Pfx) (a : Args) (e : Env) (s : State) (f : Flash), Passes flashRescanV c p a e s ∧ s.sys.flash = some f) ∧
    (∃ (c : Ctx) (p : Pfx) (a : Args) (e : Env) (s : State), Passes flashRescanV c p a e s ∧ s.sys.flash = none) ∧
    (∃ (s : State), s.on 9 = true ∧ s.mem.trained = true) ∧
    (∃ (s : State), s.mem.trained = false) ∧
    (∃ (c : Ctx) (p : Pfx) (a : Args) (e : Env) (s : State), Passes memShowV c p a e s ∧ s.on 9 = true) ∧
    (∃ (c : Ctx) (p : Pfx) (a : Args) (e : Env) (s : State), Passes memSetV c p a e s ∧ s.on 9 = true) :=
  ⟨⟨c0, .none, [], _, full, passes_of (by decide +kernel)⟩,
    ⟨c0, .none, [], _, full, passes_of (by decide +kernel)⟩,
    ⟨c0, .none, [], _, full, passes_of (by decide +kernel)⟩,
    ⟨c0, .none, [], _, full, passes_of (by decide +kernel)⟩,
    ⟨c0, .none, [], _, full, passes_of (by decide +kernel)⟩,
    ⟨c0, .none, [], _, full, passes_of (by decide +kernel)⟩,
    ⟨c0, .none, [aw "" "sigenf", aw "confirm" "burn"], _, { full with sys := { full.sys with pd2Frames := 99 } }, passes_of
      (by decide +kernel), by decide +kernel⟩,
    ⟨c0, .none, [aw "" "sigenf", aw "confirm" "burn"], _, { full with sys := { full.sys with sigenf := true } }, passes_of
      (by decide +kernel), by decide +kernel⟩,
    ⟨c0, .none, [aw "" "sigenf", aw "confirm" "burn"], _, full, passes_of (by decide +kernel), by decide +kernel⟩,
    ⟨c0, .none, [an "key" 3, ah "src" 0x5000, aw "confirm" "burn"], _, full, 3, 0x5000, passes_of (by decide +kernel), by decide +kernel⟩,
    ⟨c0, .none, [aw "" "show"], _, full, passes_of (by decide +kernel)⟩,
    ⟨c0, .none, [aw "" "erase", ah "off" 0x30000, ah "len" 0x1000], _, withFlash flash1 (full), flash1, passes_of (by decide +kernel),
      by decide +kernel⟩,
    ⟨c0, .none, [aw "" "erase", ah "off" 0x30001, ah "len" 0x1000], _, withFlash flash1 (full), flash1, ((flashRefuses flash1 ((envOf
      flashEraseV c0 .none [aw "" "erase", ah "off" 0x30001, ah "len" 0x1000] (withFlash flash1 (full))).nat "off") ((envOf flashEraseV
      c0 .none [aw "" "erase", ah "off" 0x30001, ah "len" 0x1000] (withFlash flash1 (full))).nat "len") (withFlash flash1 (full))).getD
      (0,"")).1, ((flashRefuses flash1 ((envOf flashEraseV c0 .none [aw "" "erase", ah "off" 0x30001, ah "len" 0x1000] (withFlash flash1
      (full))).nat "off") ((envOf flashEraseV c0 .none [aw "" "erase", ah "off" 0x30001, ah "len" 0x1000] (withFlash flash1 (full))).nat
      "len") (withFlash flash1 (full))).getD (0,"")).2, passes_of (by decide +kernel), by decide +kernel⟩,
    ⟨c0, .none, [aw "" "write", ah "off" 0x30000, ah "src" 0x5000, ah "len" 0x1000], _, withFlash flash1
      ({ full with ram := [(0x5000, 7)] }), flash1, passes_of (by decide +kernel), by unfold State.memOk; decide +kernel,
      by decide +kernel⟩,
    ⟨c0, .none, [aw "" "rescan"], _, withFlash flash1 (full), flash1, passes_of (by decide +kernel), by decide +kernel⟩,
    ⟨c0, .none, [aw "" "rescan"], _, full, passes_of (by decide +kernel), by decide +kernel⟩,
    ⟨full, by decide +kernel⟩,
    ⟨{ full with mem := {} }, by decide +kernel⟩,
    ⟨c0, .none, [], _, full, passes_of (by decide +kernel), by decide +kernel⟩,
    ⟨c0, .none, [an "rate" 7500, aw "ecc" "off"], _, full, passes_of (by decide +kernel), by decide +kernel⟩⟩

/-- Witnesses of the hypotheses of `Obligations.OutsideAccess`. -/
theorem wit_outsideAccess :
    (∃ (s : State), s.on 2 = true ∧ (∀ e ∈ s.desk.deferred, e.1 ≠ 4)) ∧
    (∃ (s : State), s.on 2 = true ∧ (∀ e ∈ s.desk.deferred, e.1 ≠ 4)) ∧
    (∃ (s : State), (∀ e ∈ s.desk.deferred, e.1 ≠ 4)) ∧
    (∃ (b : Nat) (off : Nat) (s : State), b < 16 ∧ b ≠ 13 ∧ off < 0x10000 ∧ s.on (blockDom b) = false ∧ (∀ e ∈ s.desk.deferred, e.1 ≠ 4)) ∧
    (∃ (addr : Nat), (addr % 4 ≠ 0 ∨ addr < csrBase)) ∧
    (∃ (s : State), s.on 2 = true) ∧
    (∃ (s : State), s.on 2 = true) ∧
    (∃ (s : State), s.on 2 = true) ∧
    (∃ (s : State), s.on 2 = true) ∧
    (∃ (s : State), s.on 2 = true) ∧
    (∃ (s : State), s.on 2 = true) ∧
    (∃ (s : State), s.on 2 = true ∧ s.sys.jtaglock = true) ∧
    (∃ (a : Nat) (s : State), s.on 2 = true ∧ s.sys.jtaglock = false ∧ a % 4 = 0 ∧ a + 4 ≤ 2 ^ 35 ∧ s.mem.valid = true ∧ a + 4 ≤ s.usable
      ∧ (∀ e ∈ s.desk.deferred, e.1 ≠ 4)) ∧
    (∃ (a : Nat) (s : State), s.on 2 = true ∧ s.sys.jtaglock = false ∧ a % 4 = 0 ∧ a + 4 ≤ 2 ^ 35 ∧ s.mem.valid = true ∧ a + 4 ≤ s.usable
      ∧ (∀ e ∈ s.desk.deferred, e.1 ≠ 4)) ∧
    (∃ (s : State), bulkUp s = true ∧ s.usb.bulken = false) ∧
    (∃ (h : BulkHdr) (s : State), bulkUp s = true ∧ s.usb.bulken = true ∧ bulkBad h = true) ∧
    (∃ (h : BulkHdr) (data : List Byte) (s : State), bulkUp s = true ∧ s.usb.bulken = true ∧ bulkBad h = false ∧ h.op = 1 ∧ s.sys.waiting
      = false ∧ s.mem.valid = true ∧ inUsable h.addr h.len s = true ∧ inCellar h.addr h.len s = false ∧ data.length = h.len) ∧
    (∃ (h : BulkHdr) (s : State), bulkUp s = true ∧ s.usb.bulken = true ∧ bulkBad h = false ∧ h.op = 2 ∧ 0 < h.len ∧ h.addr % 4 = 0 ∧
      h.addr + h.len ≤ 2 ^ 35 ∧ s.mem.valid = true ∧ h.addr + h.len ≤ s.usable) ∧
    (∃ (s : State), bulkUp s = true ∧ s.usb.bulken = true ∧ s.sys.waiting = true ∧ s.sys.source = 2) ∧
    (∃ (s : State), bulkUp s = true ∧ s.usb.bulken = true ∧ s.sys.waiting = false) :=
  ⟨⟨full, by decide +kernel⟩,
    ⟨full, by decide +kernel⟩,
    ⟨full, by decide +kernel⟩,
    ⟨7, 0x10, dom 7 full, by decide +kernel⟩,
    ⟨0x11, by decide +kernel⟩,
    ⟨full, by decide +kernel⟩,
    ⟨full, by decide +kernel⟩,
    ⟨full, by decide +kernel⟩,
    ⟨full, by decide +kernel⟩,
    ⟨full, by decide +kernel⟩,
    ⟨full, by decide +kernel⟩,
    ⟨{ full with sys := { full.sys with jtaglock := true } }, by decide +kernel⟩,
    ⟨0x5000, { full with ram := [(0x5000, 7)] }, by decide +kernel⟩,
    ⟨0x5000, { full with ram := [(0x5000, 7)] }, by decide +kernel⟩,
    ⟨full.onUsb fun u => {u with bulken := false}, by decide +kernel⟩,
    ⟨{ magic := 0x4B4C5542, op := 1, rsvd := 1, addr := 0x10000000, len := 4 }, full, by decide +kernel⟩,
    ⟨{ magic := 0x4B4C5542, op := 1, rsvd := 0, addr := 0x10000000, len := 4 }, [1,2,3,4], full, by decide +kernel⟩,
    ⟨{ magic := 0x4B4C5542, op := 2, rsvd := 0, addr := 0x10000000, len := 4 }, full, by decide +kernel⟩,
    ⟨(let f : State := house .hush none (dom 0x67 full); { f with sys := { f.sys with booted := false, waiting := true, source := 2 } }),
      by decide +kernel⟩,
    ⟨full, by decide +kernel⟩⟩

/-- Witnesses of the hypotheses of `Obligations.StepKeepsForm`. -/
theorem wit_stepKeepsForm :
    (∃ (s : State) (t : State), step s = .next t ∧ s.Ok) :=
  ⟨{ full with pending := [.tallyEdge []] }, after (.tallyEdge []) full, rfl, by unfold State.Ok; decide +kernel⟩

/-! ### Ill-formed commands are refused by the checks of WellFormed.lean -/

/-- A line with this sender, tag and arguments. -/
def pingOf (o : Origin) (t : Option Nat) (a : Args) : Instr := .ping ⟨o, t, false⟩ .none a

/-- One ill-formed line for each check of `ulcWf`: the sender, the tag, the values, the keys. -/
theorem test_wf_lines :
    ([pingOf (.sess 4) none [], pingOf (.morning 0) none [], pingOf (.morning 65) none [], pingOf (.keyword 32 0 none) none [],
      pingOf (.route 512 0) none [], pingOf (.sess 0) (some 65536) [], pingOf (.sess 0) none [⟨"k", .item (.hex 0 0)⟩],
      pingOf (.sess 0) none [⟨"k", .item (.hex 17 1)⟩], pingOf (.sess 0) none [⟨"k", .item (.hex 2 256)⟩],
      pingOf (.sess 0) none [⟨"k", .item (.word "")⟩], pingOf (.sess 0) none [⟨"k", .item (.dot ["a"])⟩],
      pingOf (.sess 0) none [⟨"k", .list [.word "a"]⟩], pingOf (.sess 0) none [⟨"k", .list [.word "a", .word ""]⟩],
      pingOf (.sess 0) none [an "k" 1, an "k" 2]].all fun i => !i.wf) = true := by decide +kernel

/-- Every row of the command language is refused from a fifth session. -/
theorem test_wf_rows :
    (([Instr.tlySet, .tlyLate, .tlyShow, .clkShow, .deskMode, .deskNotices, .deskShow, .deskUart, .deskSet, .deskClaim, .deskRelease,
      .deskPass, .unlock, .lock, .help, .ping, .peek, .poke, .morningShow, .morningSet, .morningDel, .morningClear, .morningRun,
      .macroSet, .macroClear, .macroShow, .sysShow, .sysCaps, .sysMap, .sysModes, .sysHealth, .houseShow, .fmtShow, .fmtConv, .planSet,
      .planSetHop, .stkShow, .stkSet, .planLoad, .planUnload, .planShow, .planHop, .guestSetStep, .guestRegister, .guestRegisterDrop,
      .guestCheckin, .guestCheckout, .guestAway, .guestReturn, .guestReopen, .guestSetClass, .guestShow, .roomShow, .innShow, .innSet,
      .bundleSet, .bundleReopen, .bundleShow, .ldrSet, .ldrLoad, .ldrBind, .ldrUnbind, .ldrReq, .ldrPut, .ldrInval, .ldrShow, .memShow,
      .memSet, .routeOpen, .routeClose, .routeSet, .routeRecv, .routePost, .routeShow, .winOpen, .winClose, .winShow, .cchRing, .cchShow,
      .netSet, .netShow, .ptpSet, .ptpShow, .audSet, .audMap, .audDry, .audMute, .audShow, .aesSet, .aesShow, .usbSet, .usbShow, .porSet,
      .porEnrol, .porEnrolDone, .porEnrolAbort, .porEnrolWake, .porSlot, .porSlotClear, .porGaugeCheck, .porGaugeNew, .porGaugeUsed,
      .porWakeRelease, .porWakeHold, .porShow, .ldgBatchBegin, .ldgPut, .ldgBatchCommit, .ldgBatchAbort, .ldgRead, .ldgKey, .ldgPass,
      .ldgSlate, .ldgWipe, .ldgRefresh, .ldgShow, .logShow, .logTail, .logClear, .hthSet, .hthClear, .hthShow, .houseSet, .pwrSet,
      .pwrCrackClear, .pwrFuse, .pwrShow, .sysResetWarm, .sysResetFull, .sysBoot, .sysFlashShow, .sysFlashErase, .sysFlashWrite,
      .sysFlashRescan] : List (Ctx → Pfx → Args → Instr)).all fun f => !(f ⟨.sess 4, none, false⟩ .none []).wf) = true := by decide +kernel

/-- One ill-formed term for each check of an index or a length of the other rows. -/
theorem test_wf_indices :
    (([.tallyEdge [(256, 0)], .rowJobComplete 48 0 0 0, .rowJobComplete 0 16 0 0, .rowJobComplete 0 0 16 0, .stakeDoubleBitError 48 0,
      .stakeDoubleBitError 0 16, .ptpSync ⟨2, 0, 0⟩ 0 0 0, .ptpSync ⟨0, 0, 0⟩ (2 ^ 48) 0 0, .ptpSync ⟨0, 0, 0⟩ 0 (10 ^ 9) 0,
      .eventEnqueue (.route 512) 0 0 false (.mute 0 true), .registerWrite (2 ^ 48) 0, .tcpConnect 2 0 "", .tcpConnect 0 65536 "", .tcpClose 4,
      .typedCharacter 4 0 false, .lineReceived 4 "" false, .deskDropped 4, .replyBuffered 4 false, .outputBufferDrain 4 0, .unlockHoldoffEnd 4,
      .roomZeroed 32, .cellarWritebackDone 512, .swapInDone 512 .ok, .leaseRevoke (.port 8 0), .leaseRevoke (.port 0 4),
      .leaseRevoke (.cellar 8), .leaseRevoke (.slot 64), .rowFetchDone 64 .ok, .deliveryWrite 512 0 false, .deliveryWrite 0 16 false,
      .memTrainDone 256] : List Instr).all fun i => !i.wf) = true := by decide +kernel

theorem test_wf_indices_2 :
    (([.routeClosed 512, .issueWrite 512, .issueWriteImm 512, .issueRead 512, .issueSend 512, .issueFlush 512, .issueWait 512, .issueArm 512,
      .waybillComplete 512, .deskRouteLine 512 false, .ackTimer 512, .retransmitTimeout 512, .rnrRetry 512, .ccTimer 512,
      .pfcFrameReceived 2 0 false 0, .pfcFrameReceived 0 256 false 0, .linkChange 2 true true true, .arpRequest 2 "" "", .ndpSolicitation 2 "" "",
      .icmpEcho 2 "" "" [], .igmpQuery 2 2, .netCtlWrite 2 0, .slavePortLock 4 0 0, .fsyncSlip 4, .aes67Transmit 8, .aes67Receive 8 0 0 [],
      .aes67Receive 0 65536 0 [], .aes67Receive 0 0 (2 ^ 32) [], .aes67FlowLost 8, .partitionLockoutEnd 8, .hthStatClearWrite 8 0,
      .hthModeWrite 8 0, .controlLoopPeriod [] 0 0 false false false false, .shortTrip 8 0 false, .probeEnd 8 0 ⟨0, 0⟩ 0, .backoffEnd 8,
      .autoRetry 8, .quadrantRampEnd 4, .sentinelRead [] false, .zoneSample [] (List.replicate 8 0), .zoneSample (List.replicate 8 0) [],
      .debug false (2 ^ 48) 0] : List Instr).all fun i => !i.wf) = true := by decide +kernel

/-- One ill-formed packet for each field of `Packet.wf`, at each kind of packet. -/
theorem test_wf_packets :
    ([{ pk with port := 2 }, { pk with ver := 16 }, { pk with kind := 256 }, { pk with pos := 4 }, { pk with psn := 2 ^ 24 },
      { pk with droute := 65536 }, { pk with sroute := 65536 }, { pk with len := 2 ^ 32 }, { pk with payload := List.replicate 4097 0 }].all
      fun k => ([.receiveWrite k, .receiveWriteImm k, .receiveReadReq k .ok, .receiveReadResp k, .receiveSend ⟨k, false⟩, .receiveFlush k, .receiveAck k,
        .receiveNak k, .receiveEase k] : List Instr).all fun i => !i.wf) = true := by decide +kernel

/-- A command of the tables is well formed. -/
theorem test_wf_accepts : (([.receiveWrite pk, pingOf (.sess 3) (some 65535) [an "k" 1], .roomZeroed 31] : List Instr).all Instr.wf) = true := by
  decide +kernel

/-! ### The worked examples of the spec -/

/-- What stands in S0's output buffer after a line. -/
def replyTo (line : String) (s : State) : List String := ((after (.lineReceived 0 line false) s).sess 0).out.map (·.text)

/-- The example of R101: the CRC of `#1 ping` is 0x56C9, that of `#1 ok` 0xED28. -/
theorem test_crc_example : (crc16 ("#1 ping".toList.map Char.toNat)).toNat = 0x56C9 ∧ (crc16 ("#1 ok".toList.map Char.toNat)).toNat = 0xED28 := by
  decide +kernel

/-- The MACHINE exchange of spec 03. -/
theorem test_machine_ping :
    replyTo "#1 ping*56C9" (sess 0 { owner with machine := true } full) = [String.ofList ("#1 ok*ED28".toList ++ [Char.ofNat 13, Char.ofNat 10])] := by
  decide +kernel

/-- `sys.caps` and `peek` of spec 01. -/
theorem test_caps_example : (replyTo "sys.caps" full).head? =
    some (String.ofList ("ok member=9 stakes=48 rooms=32 netports=2 netrate=25g mem=lpddr5x memch=2".toList ++ [Char.ofNat 13, Char.ofNat 10])) := by
  decide +kernel

theorem test_peek_example : (replyTo "peek 0x1F00_0000_0000" full).head? = some (String.ofList ("ok 0x4832_91A0".toList ++ [Char.ofNat 13, Char.ofNat 10])) := by
  decide +kernel

/-- `fmt.conv` of spec 04. -/
theorem test_conv_example : (replyTo "fmt.conv from=F32 to=E4M3 value=0.3" full).head? =
    some (String.ofList ("ok code=0x2A value=0.3125 clip=0 nan=0".toList ++ [Char.ofNat 13, Char.ofNat 10])) := by decide +kernel

/-- `win.open` of spec 08: the key is the tag, advanced by one, above the window number. -/
theorem test_win_example :
    (replyTo "win.open w=5 addr=0x0000_4000_0000 len=4096 rights=WR route=20" (full.onWin 5 fun x => { x with tag := 0x64 })).head? =
      some (String.ofList ("ok w=5 key=0x0001_9405".toList ++ [Char.ofNat 13, Char.ofNat 10])) := by decide +kernel

/-- `plan.unload` of spec 05 while a row of the plan stays. -/
theorem test_unload_busy :
    (replyTo "plan.unload name=p" (gst 5 guest1 (withPlan plan1 full))).head? = some (String.ofList ("err 30 busy".toList ++ [Char.ofNat 13, Char.ofNat 10])) := by
  decide +kernel

/-- R96: a setting with a prefix is answered `err 13 bad-value`, one with a missing required key `err 14 missing-key`. -/
theorem test_prefix_order : (replyTo "@+3 inn.set" full).head? = some (String.ofList ("err 13 bad-value".toList ++ [Char.ofNat 13, Char.ofNat 10])) ∧
    (replyTo "@+3 house.set" full).head? = some (String.ofList ("err 14 missing-key at=state".toList ++ [Char.ofNat 13, Char.ofNat 10])) := by decide +kernel

/-- R455 by hand: the cosine of (1, 0) and (1, 1) is 0.7071, 181/256; of opposite vectors it is below 0. -/
theorem test_cosine : cosSim [0x3C00, 0] [0x3C00, 0x3C00] = 181 ∧ cosSim [0x3C00] [0xBC00] = 0 := by decide +kernel


end Sys2Proof.Tests
end

section
/-! Tally and clocks (spec 02): what becomes of an event that reaches the queue, the latched registers of the tally, and the start of
an era. -/

namespace Sys2Proof.Machine

/-! ### The log, late events and failures: what they leave alone -/

@[simp] theorem pushLog_era (e : LogEntry) (s : State) : (pushLog e s).ldg.era = s.ldg.era := by
  unfold pushLog
  simp only [State.onLdg_ldg]
  repeat' split
  all_goals rfl

@[simp] theorem logAt_era (t : Tally) (late : Bool) (src code evseq arg arg2 : Nat) (s : State) :
    (logAt t late src code evseq arg arg2 s).ldg.era = s.ldg.era := pushLog_era _ s

@[simp] theorem deskFail_tly (e : Event) (code : Nat) (s : State) : (deskFail e code s).tly = s.tly := by
  unfold deskFail; simp only; split <;> simp

@[simp] theorem deskFail_evq (e : Event) (code : Nat) (s : State) : (deskFail e code s).evq = s.evq := by
  unfold deskFail; simp only; split <;> simp

@[simp] theorem rejectEv_tly (e : Event) (s : State) : (rejectEv e s).tly = { s.tly with cReject := satInc s.tly.cReject } := by
  simp [rejectEv]

@[simp] theorem rejectEv_evq (e : Event) (s : State) : (rejectEv e s).evq = s.evq := by simp [rejectEv]

@[simp] theorem countLate_evq (e : Event) (due : Nat) (s : State) : (countLate e due s).evq = s.evq := by
  unfold countLate; split <;> simp

theorem countLate_tly {e : Event} (h : e.bare = false) (due : Nat) (s : State) :
    (countLate e due s).tly = { s.tly with cLate := satInc s.tly.cLate } := by
  simp [countLate, h]

theorem lateTo_tly {e : Event} (h : e.bare = false) (due : Nat) (s : State) :
    (lateTo e due s).tly = { s.tly with cLate := satInc s.tly.cLate } := by
  unfold lateTo; simp only; split <;> simp [countLate_tly h]

theorem lateTo_entries (e : Event) (due : Nat) (s : State) :
    (lateTo e due s).evq.entries = s.evq.entries ++ [{ e with due := BitVec.ofNat 64 due, late := true }] := by
  unfold lateTo; simp only; split <;> simp

/-! ### An event enters the queue, case by case (R55 to R60, R68) -/

section Enqueue

variable {e : Event} {cut : Bool} {s : State}

theorem enqueue_dup (hd : isDup e.src e.seq e.stamp e.eff s = true) :
    enqueue e cut s = s.onTly fun t => { t with cDup := satInc t.cDup } := by
  unfold enqueue; rw [if_pos hd]

theorem enqueue_full (hd : isDup e.src e.seq e.stamp e.eff s = false) (hf : shareFull e.src s = true) :
    enqueue e cut s = s.onEvq fun q => { q with held := q.held ++ [e] } := by
  unfold enqueue; rw [if_neg (by simp [hd]), if_pos hf]

/-- An event other than a request that is no duplicate and finds room is queued for its tally, or is late. -/
theorem enqueue_room (hd : isDup e.src e.seq e.stamp e.eff s = false) (hf : shareFull e.src s = false) (hreq : ∀ r, e.eff ≠ .request r) :
    enqueue e cut s = if onTime e.stamp.toNat cut s then s.onEvq fun q => { q with entries := q.entries ++ [{ e with due := e.stamp }] }
      else handleLate e (firstOpen cut s) s := by
  unfold enqueue; rw [if_neg (by simp [hd]), if_neg (by simp [hf])]
  cases he : e.eff with
  | request r => exact absurd he (hreq r)
  | _ => rfl

theorem enqueue_onTime (hd : isDup e.src e.seq e.stamp e.eff s = false) (hf : shareFull e.src s = false)
    (ht : onTime e.stamp.toNat cut s = true) (hreq : ∀ r, e.eff ≠ .request r) :
    enqueue e cut s = s.onEvq fun q => { q with entries := q.entries ++ [{ e with due := e.stamp }] } := by
  rw [enqueue_room hd hf hreq, if_pos ht]

theorem enqueue_late (hd : isDup e.src e.seq e.stamp e.eff s = false) (hf : shareFull e.src s = false)
    (ht : onTime e.stamp.toNat cut s = false) (hreq : ∀ r, e.eff ≠ .request r) :
    enqueue e cut s = handleLate e (firstOpen cut s) s := by
  rw [enqueue_room hd hf hreq, if_neg (by simp [ht])]

theorem enqueue_request_onTime {r : LdrReq} (hd : isDup e.src e.seq e.stamp e.eff s = false) (hf : shareFull e.src s = false)
    (ht : onTime e.stamp.toNat cut s = true) (hr : e.eff = .request r) :
    enqueue e cut s = queueRequest e.src e.seq e.stamp e.stamp r s := by
  unfold enqueue; rw [if_neg (by simp [hd]), if_neg (by simp [hf])]
  simp only [hr, ht, if_true]

theorem enqueue_request_rejected {r : LdrReq} (hd : isDup e.src e.seq e.stamp e.eff s = false) (hf : shareFull e.src s = false)
    (ht : onTime e.stamp.toNat cut s = false) (hj : rejectsLate e.src s = true) (hr : e.eff = .request r) :
    enqueue e cut s = deskFail e 40 (rejectEv e s) := by
  unfold enqueue; rw [if_neg (by simp [hd]), if_neg (by simp [hf])]
  simp only [hr, ht, hj, if_true, Bool.false_eq_true, if_false]

theorem handleLate_applied (due : Nat) (hj : rejectsLate e.src s = false) : handleLate e due s = lateTo e due s := by
  unfold handleLate; rw [if_neg (by simp [hj])]

/-- A rejected event other than READY is counted in REJECT and leaves the queue as it was. -/
theorem handleLate_rejected (due : Nat) (hj : rejectsLate e.src s = true) (hready : ∀ ch on, e.eff ≠ .ready ch on) :
    (handleLate e due s).tly = { s.tly with cReject := satInc s.tly.cReject } ∧ (handleLate e due s).evq = s.evq := by
  unfold handleLate; rw [if_pos hj]
  cases he : e.eff with
  | ready ch on => exact absurd he (hready ch on)
  | _ => simp

/-- A late event of a REJECT-LATE source, other than READY, is counted in REJECT and leaves the queue as it was. -/
theorem enqueue_rejected (hd : isDup e.src e.seq e.stamp e.eff s = false) (hf : shareFull e.src s = false)
    (ht : onTime e.stamp.toNat cut s = false) (hj : rejectsLate e.src s = true) (hready : ∀ ch on, e.eff ≠ .ready ch on) :
    (enqueue e cut s).tly = { s.tly with cReject := satInc s.tly.cReject } ∧ (enqueue e cut s).evq = s.evq := by
  by_cases hreq : ∃ r, e.eff = .request r
  · obtain ⟨r, hr⟩ := hreq
    rw [enqueue_request_rejected hd hf ht hj hr]; simp
  · rw [enqueue_late hd hf ht fun r hr => hreq ⟨r, hr⟩]
    exact handleLate_rejected _ hj hready

end Enqueue

/-- While PD3 is on, an event that reaches the queue enters it. -/
theorem exec_eventEnqueue {s : State} (h : s.on 3 = true) (src : Src) (seq : BitVec 16) (stamp : Tally) (cut : Bool) (eff : Effect) :
    exec (.eventEnqueue src seq stamp cut eff) s = .next (enqueue
      { src := src, seq := seq, stamp := stamp, due := stamp, late := false, by_ := none, eff := eff } cut s) := by
  show execEventEnqueue src seq stamp cut eff s = _
  rw [execEventEnqueue, if_pos h]

/-- Settles O11, one clause for each case of the queue's entry. -/
theorem eventQueue : Obligations.EventQueue := by
  unfold Obligations.EventQueue
  intro src seq stamp cut eff s hon ev i
  have hi : exec i s = .next (enqueue ev cut s) := exec_eventEnqueue hon src seq stamp cut eff
  simp only [Gives, hi]
  refine ⟨fun hd => ?_, fun hd hf => ?_, fun hd hf ht hreq => ?_, fun r hd hf ht hr h11 => ?_, fun hd hf ht hj hreq => ?_,
    fun hd hf ht hj hready => ?_⟩
  · rw [enqueue_dup (e := ev) hd]
  · rw [enqueue_full (e := ev) hd hf]
  · rw [enqueue_onTime (e := ev) hd hf ht hreq]
  · rw [enqueue_request_onTime (e := ev) hd hf ht hr, queueRequest, if_neg (by simp [h11])]
  · refine ⟨_, rfl, ?_⟩
    rw [enqueue_late (e := ev) hd hf ht hreq, handleLate_applied _ hj, lateTo_tly rfl, lateTo_entries]
    exact ⟨rfl, rfl, rfl⟩
  · refine ⟨_, rfl, ?_⟩
    obtain ⟨htly, hevq⟩ := enqueue_rejected (e := ev) (cut := cut) hd hf ht hj hready
    rw [htly, hevq]
    exact ⟨rfl, rfl, rfl⟩

/-! ### The registers of the tally (R72, R76, R79) -/

/-- A word that fits in its lowest `w` bits is what they hold. -/
theorem fld_of_lt {v : W32} {w : Nat} (h : v.toNat < 2 ^ w) : fld v 0 w = v.toNat := by
  simp [fld, Nat.mod_eq_of_lt h]

theorem writeEpochNs_taken {v : W32} (h : v.toNat < 10 ^ 9) (s : State) :
    writeEpochNs v s = s.onTly fun t => { t with
      ns := BitVec.ofNat 30 v.toNat, epNs := BitVec.ofNat 30 v.toNat, epSec := s.tly.shi ++ s.tly.slo } := by
  have h30 : v.toNat < 2 ^ 30 := Nat.lt_trans h (by decide)
  unfold writeEpochNs
  simp only [fld_of_lt h30]
  rw [if_pos ⟨h30, h⟩]
  simp only [State.onTly]

theorem writeEpochNs_ignored {v : W32} (h : 10 ^ 9 ≤ v.toNat) (s : State) : writeEpochNs v s = s := by
  unfold writeEpochNs
  simp only
  rw [if_neg]
  rintro ⟨h30, hn⟩
  rw [fld_of_lt h30] at hn
  omega

/-- Settles O9: each command is one access of the TLY block. -/
theorem tallyRegisters : Obligations.TallyRegisters := by
  unfold Obligations.TallyRegisters
  refine ⟨fun s h => ?_, fun s h => ?_, fun v s h hv => ?_, fun v s h hv _ => ?_⟩
  · show execTlyNowLoRead s = _
    rw [execTlyNowLoRead, if_pos h]; rfl
  · show execTlyCntSkipLoRead s = _
    rw [execTlyCntSkipLoRead, if_pos h]; rfl
  · show execTlyEpochNsWrite v s = _
    rw [execTlyEpochNsWrite, if_pos h, writeEpochNs_taken hv]
  · show execTlyEpochNsWrite v s = _
    rw [execTlyEpochNsWrite, if_pos h, writeEpochNs_ignored hv]

end Sys2Proof.Machine
end

section
/-! The start of an era and a change of rate (R38, R74). -/

namespace Sys2Proof.Machine

/-! ### A change of source or rate leaves the Ledger and the guests -/

/-- What changes the Desk alone at each pass changes the Desk alone in the whole. -/
theorem OnlyDesk.forEach {α : Type} (l : List α) (f : α → State → State) (h : ∀ a t, OnlyDesk t (f a t)) (s : State) :
    OnlyDesk s (s.forEach l f) :=
  State.forEach_inv s (OnlyDesk s) l f (fun a t ht => ht.trans (h a t)) (.refl s)

/-- Flows set to wait change the audio state, and their notices the Desk. -/
theorem flowsWait_only (s : State) : ∃ f, OnlyDesk (s.onAud f) (flowsWait s) :=
  ⟨_, .trans (.forEach _ _ (fun _ _ => notify_only _ _ _) _) (.forEach _ _ (fun _ _ => notify_only _ _ _) _)⟩

@[simp] theorem flowsWait_tly (s : State) : (flowsWait s).tly = s.tly := (flowsWait_only s).elim fun _ h => h.tly
@[simp] theorem flowsWait_ldg (s : State) : (flowsWait s).ldg = s.ldg := (flowsWait_only s).elim fun _ h => h.ldg
@[simp] theorem flowsWait_inn (s : State) : (flowsWait s).inn = s.inn := (flowsWait_only s).elim fun _ h => h.inn

@[simp] theorem settleAud_tly (s : State) : (settleAud s).tly = s.tly := rfl
@[simp] theorem settleAud_ldg (s : State) : (settleAud s).ldg = s.ldg := rfl
@[simp] theorem settleAud_inn (s : State) : (settleAud s).inn = s.inn := rfl

@[simp] theorem reSource_rate (src : BitVec 2) (port : Bool) (s : State) : (reSource src port s).tly.rate = s.tly.rate := by
  unfold reSource; simp only; split <;> simp

@[simp] theorem reSource_now (src : BitVec 2) (port : Bool) (s : State) : (reSource src port s).tly.now = s.tly.now := by
  unfold reSource; simp only; split <;> simp

@[simp] theorem reSource_ldg (src : BitVec 2) (port : Bool) (s : State) : (reSource src port s).ldg = s.ldg := by
  unfold reSource; simp only; split <;> simp

@[simp] theorem reSource_inn (src : BitVec 2) (port : Bool) (s : State) : (reSource src port s).inn = s.inn := by
  unfold reSource; simp only; split <;> simp

/-- A write of TLY_CTL settles the slew and the source first, then its rate: refused while a guest stays, taken where it is another
legal one. -/
theorem writeTlyCtl_eq (v : W32) (s : State) :
    ∃ u, u.tly.rate = s.tly.rate ∧ u.tly.now = s.tly.now ∧ u.ldg = s.ldg ∧
      writeTlyCtl v s = if s.anyStaying then u.onTly fun t => { t with refused := true }
        else if fld v 4 3 = s.tly.rate.toNat ∨ 5 < fld v 4 3 then u else reRate (BitVec.ofNat 3 (fld v 4 3)) u := by
  unfold writeTlyCtl
  simp only [State.anyStaying, reSource_inn, reSource_rate, State.onTly_inn, State.onTly_tly]
  exact ⟨_, by simp, by simp, by simp, rfl⟩

/-! ### Record buffers that are empty post nothing -/

/-- Every internal record buffer of every route is empty. -/
def NoRecords (s : State) : Prop := ∀ r, ∀ l ∈ (s.route r).pending, l = []

/-- Two states that differ in Coach's state and in the unbinds that wait, at most. -/
def OnlyUnbinds (s t : State) : Prop := ∃ c u, t = (s.onCch fun _ => c).onLdr fun l => { l with unbind := u }

theorem OnlyUnbinds.refl (s : State) : OnlyUnbinds s s := ⟨s.cch, s.ldr.unbind, rfl⟩

theorem OnlyUnbinds.trans {s t u : State} (h : OnlyUnbinds s t) (k : OnlyUnbinds t u) : OnlyUnbinds s u := by
  obtain ⟨_, _, rfl⟩ := h
  obtain ⟨c, u, rfl⟩ := k
  exact ⟨c, u, rfl⟩

theorem OnlyUnbinds.onCch (s : State) (f : CchSt → CchSt) : OnlyUnbinds s (s.onCch f) := ⟨f s.cch, s.ldr.unbind, rfl⟩

theorem finishUnbind_only (r : Nat) (s : State) : OnlyUnbinds s (finishUnbind r s) := ⟨_, _, rfl⟩

/-- A route written with none but empty buffers leaves every buffer empty. -/
theorem NoRecords.onRoute {s : State} (h : NoRecords s) (r : Nat) (f : Route → Route)
    (hf : ∀ l ∈ (f (s.route r)).pending, l = []) : NoRecords (s.onRoute r f) := by
  intro i
  by_cases hi : i = r
  · subst hi; rwa [State.onRoute_route]
  · rw [State.onRoute_route_ne _ _ _ _ hi]; exact h i

theorem NoRecords.finishUnbind {s : State} (h : NoRecords s) (r : Nat) : NoRecords (finishUnbind r s) :=
  h.onRoute r (fun x => { x with bind := .none, pool := 0 }) (h r)

theorem drainRoute_empty {s : State} (fuel r : Nat) (cut : Bool) (h : NoRecords s) :
    OnlyUnbinds s (drainRoute fuel r cut s) ∧ NoRecords (drainRoute fuel r cut s) := by
  induction fuel generalizing s with
  | zero => exact ⟨.refl s, h⟩
  | succ f ih =>
    have hr := h r
    unfold drainRoute
    split
    next =>
      split
      · exact ⟨finishUnbind_only r s, h.finishUnbind r⟩
      · exact ⟨.refl s, h⟩
    next rest hp =>
      have hrest : ∀ l ∈ rest, l = [] := fun l hl => hr l (by simp [hp, hl])
      obtain ⟨ho, hn⟩ := ih (h.onRoute r (fun x => { x with pending := rest, pool := x.pool + 1 }) hrest)
      exact ⟨.trans (.onCch s _) ho, hn⟩
    next e l rest hp => exact absurd (hr (e :: l) (by simp [hp])) (by simp)

theorem drainRoutes_empty {s : State} (cut : Bool) (h : NoRecords s) : OnlyUnbinds s (drainRoutes cut s) := by
  have inv : OnlyUnbinds s (drainRoutes cut s) ∧ NoRecords (drainRoutes cut s) :=
    State.forEach_inv s (fun t => OnlyUnbinds s t ∧ NoRecords t) _ _
      (fun _ t ht => have hd := drainRoute_empty _ _ cut ht.2; ⟨ht.1.trans hd.1, hd.2⟩) ⟨.refl s, h⟩
  exact inv.1

theorem tget_map {α β : Type} (f : α → β) (t : Tab α) (k : Nat) : tget (t.map fun e => (e.1, f e.2)) k = (tget t k).map f := by
  induction t with
  | nil => rfl
  | cons e r ih =>
    by_cases h : e.1 = k
    · simp [tget, h]
    · simp [tget, h, ih]

/-- An era start empties each record buffer in Coach and keeps the buffer. -/
theorem route_pending_cleared (s : State) (r : Nat) :
    ((s.onCch fun c => { c with routes := c.routes.map fun e =>
      (e.1, { e.2 with pending := e.2.pending.map fun _ => [] }) }).route r).pending = (s.route r).pending.map fun _ => [] := by
  simp only [State.route, State.onCch_cch, tgetD, tget_map fun x : Route => { x with pending := x.pending.map fun _ => [] }]
  cases tget s.cch.routes r <;> rfl

theorem noRecords_cleared (s : State) : NoRecords (s.onCch fun c => { c with routes := c.routes.map fun e =>
    (e.1, { e.2 with pending := e.2.pending.map fun _ => [] }) }) := by
  intro r l hl
  rw [route_pending_cleared, List.mem_map] at hl
  obtain ⟨_, _, rfl⟩ := hl
  rfl

/-! ### The new era -/

/-- `t` stands at the start of an era after `s`: no event is pending in it but READY levels of the channels of `chs`. -/
structure NewEra (chs : List Nat) (s t : State) : Prop where
  now : t.tly.now = 0
  skip : t.tly.skip = 0
  skipped : t.tly.skipped = []
  rate : t.tly.rate = s.tly.rate
  source : t.tly.source = s.tly.source
  era : t.ldg.era = s.ldg.era + 1
  hth : t.hth = s.hth
  requests : t.ldr.queue = []
  events : ∀ e ∈ t.evq.entries ++ t.evq.held, ∃ ch ∈ chs, e.src = .hearth ∧ e.eff = .ready ch (s.chan ch).ready

variable {chs : List Nat} {s t : State}

theorem NewEra.onDesk (h : NewEra chs s t) (f : DeskSt → DeskSt) : NewEra chs s (t.onDesk f) := { h with }

theorem NewEra.onlyDesk {u : State} (h : NewEra chs s t) (k : OnlyDesk t u) : NewEra chs s u := by
  rw [k]; exact h.onDesk _

/-- At the start of an era the first open tally is on time. -/
theorem NewEra.onTime_first (h : NewEra chs s t) : onTime (BitVec.ofNat 64 (firstOpen false t)).toNat false t = true := by
  simp [onTime, firstOpen, wasSkipped, h.now, h.skipped]

/-- The queue changed leaves a new era as it stands, where every event in it was there or is a READY level of one of the channels. -/
theorem NewEra.onEvq {ch : Nat} (h : NewEra chs s t) (hch : ch ∈ chs) (f : EvqSt → EvqSt)
    (hf : ∀ e ∈ (f t.evq).entries ++ (f t.evq).held,
      e ∈ t.evq.entries ++ t.evq.held ∨ e.src = .hearth ∧ e.eff = .ready ch (s.chan ch).ready) : NewEra chs s (t.onEvq f) :=
  { h with events := fun e he => (hf e he).elim (h.events e) fun hr => ⟨ch, hch, hr⟩ }

/-- A READY level that is on time is dropped as a duplicate, kept by the Hearth or queued: the era stands as it did. -/
theorem NewEra.enqueueReady {e : Event} {ch : Nat} (h : NewEra chs s t) (hch : ch ∈ chs) (hs : e.src = .hearth)
    (he : e.eff = .ready ch (s.chan ch).ready) (ht : onTime e.stamp.toNat false t = true) : NewEra chs s (enqueue e false t) := by
  cases hd : isDup e.src e.seq e.stamp e.eff t with
  | true => rw [enqueue_dup hd]; exact { h with }
  | false =>
    cases hf : shareFull e.src t with
    | true =>
      rw [enqueue_full hd hf]
      refine h.onEvq hch _ ?_
      simp only [List.mem_append, List.mem_singleton]
      rintro x (hx | hx | rfl)
      exacts [.inl (.inl hx), .inl (.inr hx), .inr ⟨hs, he⟩]
    | false =>
      rw [enqueue_onTime hd hf ht (by simp [he])]
      refine h.onEvq hch _ ?_
      simp only [List.mem_append, List.mem_singleton]
      rintro x ((hx | rfl) | hx)
      exacts [.inl (.inl hx), .inr ⟨hs, he⟩, .inl (.inr hx)]

theorem NewEra.postReady {ch : Nat} (h : NewEra chs s t) (hch : ch ∈ chs) (q : BitVec 16) :
    NewEra chs s (postInner .hearth q false (.ready ch (t.chan ch).ready) t) := by
  have hchan : t.chan ch = s.chan ch := by simp [State.chan, h.hth]
  exact h.enqueueReady hch rfl (by rw [hchan]) h.onTime_first

theorem NewEra.repostReady (h : NewEra chs s t) (l : List Nat) (hl : ∀ ch ∈ l, ch ∈ chs) : NewEra chs s (repostReady l t) := by
  induction l generalizing t with
  | nil => exact h
  | cons ch l ih =>
    have hseq : NewEra chs s (t.onEvq fun e => { e with hearthSeq := t.evq.hearthSeq + 1 }) := { h with }
    exact ih (hseq.postReady (hl ch (by simp)) t.evq.hearthSeq) fun c hc => hl c (by simp [hc])

/-- The log entry at the wrap of the era count leaves a new era as it stands. -/
theorem NewEra.logWrap (h : NewEra chs s t) (u : Tally) (late : Bool) (src code evseq arg arg2 : Nat) :
    NewEra chs s (if t.ldg.era = 0 then logAt u late src code evseq arg arg2 t else t) := by
  split
  · exact { h with era := (logAt_era ..).trans h.era }
  · exact h

theorem eraStart_newEra (s : State) : NewEra (readyDropped s) s (eraStart s) := by
  unfold eraStart
  refine NewEra.onlyDesk (NewEra.repostReady (NewEra.logWrap ?_ _ _ _ _ _ _ _) _ fun _ h => h) (notify_only _ _ _)
  obtain ⟨c, u, hdrain⟩ := drainRoutes_empty false (noRecords_cleared (((s.onEvq fun q => { q with entries := [], held := [] }).onLdr
    fun l => { l with queue := [], serving := [], store := [], applied := [] }).onPor fun p => { p with held := [] }))
  rw [hdrain]
  exact { now := rfl, skip := rfl, skipped := rfl, rate := rfl, source := rfl, era := rfl, hth := rfl, requests := rfl,
          events := fun _ he => absurd he List.not_mem_nil }

/-! ### The obligation -/

theorem exec_eraStart {s : State} (h : s.on 3 = true) : exec .eraStart s = .next (eraStart s) := by
  show execEraStart s = _
  rw [execEraStart, if_pos h]

theorem exec_tlyRateWrite {s : State} (h : s.on 3 = true) (v : W32) : exec (.tlyRateWrite v) s = .next (writeTlyCtl v s) := by
  show execTlyRateWrite v s = _
  rw [execTlyRateWrite, if_pos h]

/-- Settles O4: an era start leaves a new era, and a write of TLY_CTL reaches one through its new rate. -/
theorem eras : Obligations.Eras := by
  unfold Obligations.Eras
  refine ⟨fun s hon => ?_, fun v s hon h5 hne hstay => ?_, fun v s hon _ _ hstay => ?_⟩
  · have h := eraStart_newEra s
    exact ⟨_, exec_eraStart hon, h.now, h.requests, h.events, h.era, h.skip, h.rate, h.source⟩
  · obtain ⟨u, -, -, hldg, hw⟩ := writeTlyCtl_eq v s
    refine ⟨_, exec_tlyRateWrite hon v, ?_⟩
    rw [hw, hstay, if_neg (by simp), if_neg (by omega)]
    have h := eraStart_newEra (flowsWait (u.onTly fun t => { t with rate := BitVec.ofNat 3 (fld v 4 3) }))
    exact ⟨h.rate.trans (by simp), h.now, h.era.trans (by simp [hldg])⟩
  · obtain ⟨u, hrate, hnow, hldg, hw⟩ := writeTlyCtl_eq v s
    refine ⟨_, exec_tlyRateWrite hon v, ?_⟩
    rw [hw, hstay, if_pos rfl]
    exact ⟨hrate, rfl, hnow, by simp [hldg]⟩

end Sys2Proof.Machine
end

section
/-! The Innkeeper (spec 06): its show verbs and settings, writes of the cellar base, and the choice of the guest to shed. -/

namespace Sys2Proof.Machine

/-! ### What the bodies of the verbs answer (R285) -/

theorem roomShowBody_on {s : State} (h : s.on 10 = true) (c : Ctx) (p : Pfx) (e : Env) : ∃ ls, roomShowBody c p e s = .ok ls s :=
  ⟨_, if_pos h⟩

theorem innShowBody_on {s : State} (h : s.on 10 = true) (c : Ctx) (p : Pfx) (e : Env) : ∃ ls, innShowBody c p e s = .ok ls s :=
  ⟨_, if_pos h⟩

theorem innSetBody_on {s : State} (h : s.on 10 = true) (c : Ctx) (p : Pfx) (e : Env) :
    innSetBody c p e s = .ok [] (s.onInn fun i => { i with
      ovrn := ((e.nat? "ovrn").map (BitVec.ofNat 5)).getD i.ovrn, enable := (e.flag? "shed").getD i.enable }) :=
  if_pos h

theorem innSetBody_off {s : State} (h : s.on 10 = false) (c : Ctx) (p : Pfx) (e : Env) : innSetBody c p e s = .err 40 "" s :=
  if_neg (by simp [h])

/-- `bundle.show` that names no bundle lists them all. -/
theorem bundleShowBody_all {e : Env} (h : e.has "plan" = false) (c : Ctx) (p : Pfx) (s : State) :
    ∃ ls, bundleShowBody c p e s = .ok ls s :=
  ⟨_, if_neg (by simp [h])⟩

/-! ### The cellar base (R283, R284) -/

/-- A field of a word, as a vector, is the bits taken out of it. -/
theorem ofNat_fld (v : W32) (lo w : Nat) : BitVec.ofNat w (fld v lo w) = v.extractLsb' lo w := by
  apply BitVec.eq_of_toNat_eq
  simp [fld, Nat.shiftRight_eq_div_pow]

theorem writeCellar_fixed {s : State} (h : cellarFixed s = true) (hi : Bool) (v : W32) : writeCellar hi v s = s := by
  rw [writeCellar, if_pos h]

theorem writeCellar_lo {s : State} (h : cellarFixed s = false) (v : W32) :
    writeCellar false v s = s.onInn fun i => { i with cellarLo := v.extractLsb' 20 12 } := by
  simp [writeCellar, h, ofNat_fld]

theorem writeCellar_hi {s : State} (h : cellarFixed s = false) (v : W32) :
    writeCellar true v s = s.onInn fun i => { i with cellarHi := v.extractLsb' 0 16 } := by
  simp [writeCellar, h, ofNat_fld]

theorem exec_innCellarWrite (hi : Bool) (v : W32) (s : State) :
    exec (.innCellarWrite hi v) s = .next (if s.on 10 then writeCellar hi v s else s) := rfl

/-- Settles O30: each verb from what its body answers, each write of the cellar base from `writeCellar`. -/
theorem innkeeperVerbs : Obligations.InnkeeperVerbs := by
  unfold Obligations.InnkeeperVerbs
  refine ⟨fun c p a e s h => ?_, fun c p a e s h hon => ?_, fun c p a e s h hon => ?_, fun c p a e s h hplan => ?_,
    fun c p a e s h hon => ?_, fun c p a e s h hoff => ?_, fun v s hon hfree => ⟨?_, ?_⟩, fun hi v s hfixed => ?_⟩
  · exact answersWith_of_body rfl h ⟨_, s, rfl, rfl⟩
  · obtain ⟨ls, hb⟩ := roomShowBody_on hon c p e
    exact answersWith_of_body rfl h ⟨ls, s, hb, rfl⟩
  · obtain ⟨ls, hb⟩ := innShowBody_on hon c p e
    exact answersWith_of_body rfl h ⟨ls, s, hb, rfl⟩
  · obtain ⟨ls, hb⟩ := bundleShowBody_all hplan c p s
    exact answersWith_of_body rfl h ⟨ls, s, hb, rfl⟩
  · exact answersOk_of_body rfl h (innSetBody_on hon c p e)
  · exact refuses_of_body rfl h (innSetBody_off hoff c p e)
  · exact ⟨_, by rw [exec_innCellarWrite, if_pos hon], writeCellar_lo hfree v⟩
  · exact ⟨_, by rw [exec_innCellarWrite, if_pos hon], writeCellar_hi hfree v⟩
  · rw [exec_innCellarWrite, writeCellar_fixed hfixed, ite_self]

/-! ### The guest to shed (R263, R264) -/

/-- What shedding compares, in order: the class (SPARE highest), the check-in or return tally, the guest's number. -/
def shedKey (e : Nat × Guest) : ℕ ×ₗ ℕ ×ₗ ℕ := toLex (classNum e.2.cls, toLex (e.2.c, e.1))

theorem classNum_inj {k l : GClass} : classNum k = classNum l ↔ k = l := by
  cases k <;> cases l <;> decide

theorem shedKey_lt_iff {a b : Nat × Guest} : shedKey a < shedKey b ↔ classNum a.2.cls < classNum b.2.cls ∨
    (classNum a.2.cls = classNum b.2.cls ∧ (a.2.c < b.2.c ∨ (a.2.c = b.2.c ∧ a.1 < b.1))) := by
  simp [shedKey, Prod.Lex.toLex_lt_toLex]

theorem shedKey_le_iff {a b : Nat × Guest} : shedKey a ≤ shedKey b ↔ classNum a.2.cls < classNum b.2.cls ∨
    (a.2.cls = b.2.cls ∧ (a.2.c < b.2.c ∨ (a.2.c = b.2.c ∧ a.1 ≤ b.1))) := by
  simp [shedKey, Prod.Lex.toLex_le_toLex, classNum_inj]

/-- A guest is shed before another where its key is the greater. -/
theorem shedBefore_iff {a b : Nat × Guest} : shedBefore a b = true ↔ shedKey b < shedKey a := by
  rw [shedKey_lt_iff, shedBefore]
  split_ifs with hcls hc
  · simp [Ne.symm hcls]
  · push Not at hcls
    simp [hcls, Ne.symm hc]
  · push Not at hcls hc
    simp [hcls, hc]

/-- The guests that may be shed: all but the KEEP ones. -/
def shedable (l : List (Nat × Guest)) : List (Nat × Guest) := l.filter fun e => e.2.cls != .keep

theorem mem_shedable {l : List (Nat × Guest)} {e : Nat × Guest} : e ∈ shedable l ↔ e ∈ l ∧ e.2.cls ≠ .keep := by
  simp [shedable]

theorem shedable_eq_nil {l : List (Nat × Guest)} : shedable l = [] ↔ ∀ e ∈ l, e.2.cls = .keep := by
  simp [shedable, List.filter_eq_nil_iff]

/-- The guest shed is the one of the greatest key. -/
theorem shedChoice_eq_argmax (l : List (Nat × Guest)) : shedChoice l = (shedable l).argmax shedKey := by
  unfold shedChoice List.argmax shedable
  congr 1
  funext best e
  cases best with
  | none => rfl
  | some b => simp only [List.argAux, shedBefore_iff]

theorem exec_thermalShed (s : State) :
    exec .thermalShed s = .next (if s.inn.thermal then s.onInn fun i => { i with hotShed := true } else s) := rfl

/-- Settles O32: the guest shed is the greatest by class, tally and number of those that may be shed. -/
theorem shedChoice_spec : Obligations.ShedChoice := by
  unfold Obligations.ShedChoice
  refine ⟨fun l b hb => ?_, fun l => ?_, fun s hhot => ?_, fun s hcool => ?_⟩
  · rw [shedChoice_eq_argmax] at hb
    obtain ⟨hmem, hkeep⟩ := mem_shedable.mp (List.argmax_mem hb)
    exact ⟨hmem, hkeep, fun e he hek => shedKey_le_iff.mp (List.le_of_mem_argmax (mem_shedable.mpr ⟨he, hek⟩) hb)⟩
  · rw [shedChoice_eq_argmax, List.argmax_eq_none, shedable_eq_nil]
  · rw [exec_thermalShed, if_pos hhot]
  · rw [exec_thermalShed, if_neg (by simp [hcool])]

end Sys2Proof.Machine
end

section
/-! The Ledger's commands (spec 12): batches and reads, the passwords of the partitions and their lockouts, and the words of the user
Slate. -/

namespace Sys2Proof.Machine

/-! ### Sessions and partitions: what an update leaves in each -/

@[simp] theorem State.onSess_sess (s : State) {n : Nat} (hn : n < 4) (f : Session → Session) : (s.onSess n f).sess n = f (s.sess n) :=
  DeskSt.sess_setSess _ _ _ hn

/-- A session is written, or left as it was. -/
theorem State.onSess_sess_or (s : State) (n m : Nat) (f : Session → Session) :
    (s.onSess n f).sess m = f (s.sess m) ∨ (s.onSess n f).sess m = s.sess m := by
  match n, m with
  | 0, 0 | 1, 1 | 2, 2 | 3, _ + 3 => exact .inl rfl
  | 0, 1 | 0, 2 | 0, _ + 3 | 1, 0 | 1, 2 | 1, _ + 3 | 2, 0 | 2, 1 | 2, _ + 3 | 3, 0 | 3, 1 | 3, 2 | _ + 4, _ => exact .inr rfl

/-- What an update keeps of the session it is given, a write by it keeps of all four. -/
theorem State.onSess_keeps {β : Type} {g : Session → β} {f : Session → Session} (h : ∀ x, g (f x) = g x) (s : State) (n m : Nat) :
    g ((s.onSess n f).sess m) = g (s.sess m) := by
  rcases s.onSess_sess_or n m f with hw | hw
  · rw [hw, h]
  · rw [hw]

/-- A session written as it stands changes nothing. -/
theorem State.onSess_self {s : State} {n : Nat} {f : Session → Session} (h : f (s.sess n) = s.sess n) : s.onSess n f = s := by
  have hset : s.desk.setSess n (s.desk.sess n) = s.desk := by
    match n with
    | 0 | 1 | 2 | 3 | _ + 4 => rfl
  calc s.onSess n f = { s with desk := s.desk.setSess n (f (s.sess n)) } := rfl
    _ = s := by rw [h]; unfold State.sess; rw [hset]

@[simp] theorem State.onPart_part (s : State) (p : Nat) (f : PartSt → PartSt) : (s.onPart p f).part p = f (s.part p) := by
  simp [State.onPart, State.part]

theorem State.onPart_part_ne (s : State) (p k : Nat) (f : PartSt → PartSt) (h : k ≠ p) : (s.onPart p f).part k = s.part k := by
  simp [State.onPart, State.part, tgetD_tmod_ne _ _ _ _ _ h]

@[simp] theorem State.onPart_sess (s : State) (p n : Nat) (f : PartSt → PartSt) : (s.onPart p f).sess n = s.sess n := rfl

@[simp] theorem State.onSess_part (s : State) (n p : Nat) (f : Session → Session) : (s.onSess n f).part p = s.part p := rfl

@[simp] theorem notify_part (obj rest : String) (s : State) (p : Nat) : (notify obj rest s).part p = s.part p := by
  simp [State.part]

theorem countDrops_sess (s : State) (k n m : Nat) : (s.onDesk (countDrops k n)).sess m = s.sess m := by
  match m with
  | 0 | 1 | 2 | _ + 3 => rfl

@[simp] theorem pushOut_keys (k : Nat) (kind : OutKind) (text : String) (s : State) (m : Nat) :
    ((pushOut k kind text s).sess m).keys = (s.sess m).keys := by
  have hput (t : State) (f : Session → Session) (h : ∀ x, (f x).keys = x.keys) : ((t.onSess k f).sess m).keys = (t.sess m).keys :=
    State.onSess_keeps h t k m
  unfold pushOut
  simp only
  repeat' split
  all_goals simp only [countDrops_sess, hput, implies_true]

@[simp] theorem notify_keys (obj rest : String) (s : State) (m : Nat) : ((notify obj rest s).sess m).keys = (s.sess m).keys := by
  have hsay (k : Nat) (text : String) (t : State) : ((sayTo k obj text t).sess m).keys = (t.sess m).keys := by
    unfold sayTo
    simp only
    split
    · exact pushOut_keys _ _ _ _ _
    · rfl
  simp [notify, hsay]

/-! ### The sender of a line -/

theorem onSession_sess {c : Ctx} {n : Nat} (h : c.origin = .sess n) (s : State) (f : Nat → Res) : onSession c s f = f n := by
  rw [onSession, h]

/-- The session of a line that can be run is one of the four. -/
theorem sess_lt_of_canRun {n : Nat} {s : State} (h : canRun (.sess n) s = true) : n < 4 := by
  simp only [canRun, Bool.and_eq_true, decide_eq_true_eq] at h
  exact h.2.1.1.1.1

theorem Env.nat?_eq_none {e : Env} {k : String} (h : e.has k = false) : e.nat? k = none := by
  have hv : e.v k = none := by simpa [Env.has] using h
  simp [Env.nat?, Env.int?, hv]

/-! ### Batches (R509 to R512, R702) -/

section Batches

variable {c : Ctx} {p : Pfx} {e : Env} {s : State} {n : Nat}

theorem ldgBatchBeginBody_first (hc : c.origin = .sess n) (hb : (s.sess n).batch = none) :
    ldgBatchBeginBody c p e s = .ok [] (s.onSess n fun x => { x with batch := some ⟨[]⟩ }) := by
  rw [ldgBatchBeginBody, onSession_sess hc, hb]; rfl

theorem ldgBatchBeginBody_again (hc : c.origin = .sess n) (hb : (s.sess n).batch ≠ none) : ldgBatchBeginBody c p e s = .err 41 "" s := by
  rw [ldgBatchBeginBody, onSession_sess hc, if_pos (Option.isSome_iff_ne_none.mpr hb)]

theorem ldgBatchCommitBody_none (hc : c.origin = .sess n) (hb : (s.sess n).batch = none) : ldgBatchCommitBody c p e s = .err 40 "" s := by
  simp [ldgBatchCommitBody, onSession_sess hc, hb]

theorem ldgBatchCommitBody_empty {b : Batch} (hc : c.origin = .sess n) (hb : (s.sess n).batch = some b) (hf : s.pwr.pfail = false)
    (hp : b.pages = []) : ldgBatchCommitBody c p e s = .ok ["pages=0"] (s.onSess n fun x => { x with batch := none }) := by
  simp [ldgBatchCommitBody, onSession_sess hc, hb, hf, hp]

theorem ldgBatchCommitBody_pages {b : Batch} (hc : c.origin = .sess n) (hb : (s.sess n).batch = some b) (hf : s.pwr.pfail = false)
    (hp : b.pages ≠ []) : ldgBatchCommitBody c p e s =
      .work (requestJob ⟨b.pages, .none, .batch n⟩ (s.onSess n fun x => { x with batch := none })) := by
  simp [ldgBatchCommitBody, onSession_sess hc, hb, hf, hp]

theorem ldgBatchAbortBody_sess (hc : c.origin = .sess n) :
    ldgBatchAbortBody c p e s = .ok [] (s.onSess n fun x => { x with batch := none }) := by
  rw [ldgBatchAbortBody, hc]

/-- A put of bytes that fit their page stages them. -/
theorem ldgPutBody_data {v : Val} {bs : List Byte} (hc : c.origin = .sess n) (hv : e.raw? "data" = some v) (hbs : hexBytes v = some bs)
    (hsrc : e.has "src" = false) (hpage : e.nat "page" < partSize (e.nat "part")) (hlen : e.nat "off" + bs.length ≤ 256) :
    ldgPutBody c p e s = stagePut n (partBase (e.nat "part") + e.nat "page") (e.nat "off") bs s := by
  simp [ldgPutBody, onSession_sess hc, hv, hbs, hsrc, Nat.not_le.mpr hpage, Nat.not_lt.mpr hlen]

variable {b : Batch} {l off : Nat} {bs : List Byte}

theorem stagePut_noBatch (hb : (s.sess n).batch = none) : stagePut n l off bs s = .err 40 "" s := by
  rw [stagePut, hb]

theorem any_staged_eq_false (hl : ∀ x ∈ b.pages, x.1 ≠ l) : (b.pages.any fun x => x.1 == l) = false := by
  simpa [List.any_eq_false] using hl

theorem stagePut_full (hb : (s.sess n).batch = some b) (hl : ∀ x ∈ b.pages, x.1 ≠ l) (hfull : b.pages.length = 16) :
    stagePut n l off bs s = .err 33 "" s := by
  simp [stagePut, hb, any_staged_eq_false hl, hfull]

/-- The first put to a page stages its committed bytes with those put in their place, and leaves the pages staged before. -/
theorem stagePut_first {old : List Byte} (hb : (s.sess n).batch = some b) (hl : ∀ x ∈ b.pages, x.1 ≠ l) (hroom : b.pages.length < 16)
    (hold : pageBytes l s = some old) : stagePut n l off bs s = .ok [kn "staged" (b.pages.length + 1)] (s.onSess n fun x =>
      { x with batch := some ⟨b.pages ++ [(l, overlay old off bs, tgetD s.ldg.commits l 0)]⟩ }) := by
  have hkeep : (b.pages.map fun x => if x.1 = l then (l, overlay x.2.1 off bs, x.2.2) else x) = b.pages :=
    (List.map_congr_left fun x hx => if_neg (hl x hx)).trans (List.map_id' _)
  simp [stagePut, hb, any_staged_eq_false hl, Nat.not_le.mpr hroom, hold, hkeep]

end Batches

/-! ### Reads (R503, R511) -/

section Reads

variable {c : Ctx} {p : Pfx} {e : Env} {s : State} {bs : List Byte}

theorem ldgReadBody_line (hpage : e.nat "page" < partSize (e.nat "part"))
    (hbs : pageBytes (partBase (e.nat "part") + e.nat "page") s = some bs) (hdst : e.has "dst" = false)
    (hlen : e.nat "off" + (e.nat? "n").getD 64 ≤ 256) : ∃ ls, ldgReadBody c p e s = .ok ls s := by
  simp [ldgReadBody, Nat.not_le.mpr hpage, hbs, hdst, Nat.not_lt.mpr hlen]

theorem ldgReadBody_copy (hpage : e.nat "page" < partSize (e.nat "part"))
    (hbs : pageBytes (partBase (e.nat "part") + e.nat "page") s = some bs) (hdst : e.has "dst" = true) (hoff : e.has "off" = false)
    (hn : e.has "n" = false) (hu : inUsable (e.nat "dst") 256 s = true) :
    ldgReadBody c p e s = .ok [] { s with ram := s.ram.writeN (e.nat "dst") bs } := by
  simp [ldgReadBody, Nat.not_le.mpr hpage, hbs, hdst, hoff, hn, hu]

end Reads

/-! ### Passwords and lockouts (R504 to R508) -/

/-- A read password presented alone, where one is set: right, it is held and clears the counts; wrong, it is counted. -/
theorem ldgKeyBody_rpw {c : Ctx} {p : Pfx} {e : Env} {s : State} {n v : Nat} (hc : c.origin = .sess n) (hdrop : e.has "drop" = false)
    (hr : e.nat? "rpw" = some v) (hw : e.has "wpw" = false) (hset : (s.part (e.nat "part")).rpw ≠ 0) :
    ldgKeyBody c p e s = if (s.part (e.nat "part")).rpw = BitVec.ofNat 64 v then
        .ok [] ((s.onPart (e.nat "part") fun x => { x with fails := 0, locks := 0 }).onSess n fun x =>
          { x with keys := x.keys ++ [(e.nat "part", false)].filter fun k => !x.keys.contains k })
      else .err 20 "part" (failPart (e.nat "part") s) := by
  have hcounted : ([(false, v)].filter fun g => (s.part (e.nat "part")).pw g.1 != 0) = [(false, v)] := by
    simpa [PartSt.pw] using hset
  simp only [ldgKeyBody, hc, hdrop, hr, Env.nat?_eq_none hw, List.append_nil, hcounted]
  simp [PartSt.pw]

theorem mem_append_filter_not_contains {α : Type} [BEq α] [LawfulBEq α] (a : α) (l : List α) :
    a ∈ l ++ [a].filter fun k => !l.contains k := by
  by_cases h : a ∈ l <;> simp [h]

theorem failPart_keys (p : Nat) (s : State) (n : Nat) : ((failPart p s).sess n).keys = (s.sess n).keys := by
  unfold failPart
  simp only
  split <;> simp

/-- Below the 8th failure in a row, and before any lockout, a failure is counted and no more. -/
theorem failPart_counted {p : Nat} {s : State} (h : (satInc (s.part p).fails).toNat < 8) (h0 : (s.part p).locks = 0) :
    (failPart p s).part p = { s.part p with fails := satInc (s.part p).fails } := by
  simp [failPart, h0, Nat.not_le.mpr h]

/-- The 8th failure in a row, and each one after a lockout, locks the partition, for longer each time. -/
theorem failPart_locked {p : Nat} {s : State} (h : 8 ≤ (satInc (s.part p).fails).toNat ∨ 0 < (s.part p).locks) :
    (failPart p s).part p = { s.part p with
      fails := satInc (s.part p).fails, locked := true, locks := (s.part p).locks + 1,
      endAt := s.ldg.powered + min 960 (15 * 2 ^ min (s.part p).locks 7) * perMinute } := by
  unfold failPart
  simp only [State.onPart_part, if_pos h, notify_part]
  rfl

theorem failPart_fails (p : Nat) (s : State) : ((failPart p s).part p).fails = satInc (s.part p).fails := by
  by_cases h : 8 ≤ (satInc (s.part p).fails).toNat ∨ 0 < (s.part p).locks
  · rw [failPart_locked h]
  · rw [failPart_counted (by omega) (by omega)]

theorem satInc_toNat_lt {w : Nat} {c : BitVec w} {k : Nat} (h : c.toNat < k) : (satInc c).toNat < k + 1 := by
  unfold satInc
  split
  · omega
  · have hone : (c + 1).toNat ≤ c.toNat + 1 := by
      rw [BitVec.toNat_add]
      exact (Nat.mod_le _ _).trans (Nat.add_le_add_left (by simpa using Nat.mod_le 1 (2 ^ w)) _)
    omega

@[simp] theorem dropKeys_keys (p : Nat) (w : Bool) (s : State) (n : Nat) :
    ((dropKeys p w s).sess n).keys = (s.sess n).keys.filter (· != (p, w)) := by
  match n with
  | 0 | 1 | 2 | _ + 3 => rfl

@[simp] theorem dropKeys_part (p : Nat) (w : Bool) (s : State) (k : Nat) : (dropKeys p w s).part k = s.part k := rfl

theorem ldgPassBody_both {c : Ctx} {p : Pfx} {e : Env} {s : State} {v w : Nat} (hv : e.nat? "rpw" = some v) (hw : e.nat? "wpw" = some w) :
    ldgPassBody c p e s = .ok [] (dropKeys (e.nat "part") true
      ((dropKeys (e.nat "part") false (s.onPart (e.nat "part") fun x => { x with rpw := BitVec.ofNat 64 v })).onPart (e.nat "part")
        fun x => { x with wpw := BitVec.ofNat 64 w })) := by
  simp only [ldgPassBody, hv, hw]

/-- The end of a lockout unlocks its partition, where it is locked. -/
theorem exec_partitionLockoutEnd {s : State} (h : s.on 1 = true) (k : Nat) : exec (.partitionLockoutEnd k) s =
    .next (if (s.part k).locked then s.onPart k fun x => { x with locked := false } else s) := by
  show execPartitionLockoutEnd k s = _
  simp [execPartitionLockoutEnd, h]

/-! ### The passwords a line needs (R503, R504, R507) -/

/-- A line that lacks the password that guards it is err 20 before anything else of it is checked. -/
theorem checkKeys_of_guard {v : Verb} {c : Ctx} {a : Args} {s : State} {k : Nat} {w : Bool} (hg : guardOf v a = some (k, w)) (hk : k < 8)
    (hm : mayUse c.origin k w s = false) : checkKeys v c a s = .error (20, "") := by
  have hbar : passBars v c.origin a s = true := by simp [passBars, hg, hk, hm]
  simp [checkKeys, hbar]

theorem refuses_of_guard {v : Verb} {body : Ctx → Pfx → Env → State → Res} {i : Instr} {c : Ctx} {p : Pfx} {a : Args} {s : State}
    {k : Nat} {w : Bool} (hi : exec i s = ulc v body c p a s) (h : canRun c.origin s = true) (hg : guardOf v a = some (k, w)) (hk : k < 8)
    (hm : mayUse c.origin k w s = false) : Refuses i c s 20 "" :=
  refuses_of_check hi h (checkKeys_of_guard hg hk hm) (.inl rfl)

/-- A password presented to a partition that is locked is err 21. -/
theorem checkKeys_ldgKey_locked {c : Ctx} {a : Args} {s : State} {n k : Nat} (hc : c.origin = .sess n) (ha : argNat? a "part" = some k)
    (hk : k < 8) (hl : (s.part k).locked = true) : checkKeys ldgKeyV c a s = .error (21, "") := by
  have hpass : passBars ldgKeyV c.origin a s = false := by
    have hg : guardOf ldgKeyV a = none := by simp [guardOf, ldgKeyV]
    rw [passBars, hg]
  have hlock : keyLocked ldgKeyV c.origin a s = true := by simp [keyLocked, ldgKeyV, hc, ha, hk, hl]
  have hlevel : (ldgKeyV.needs a).rank = 0 := rfl
  rw [hc] at hpass hlock
  simp [checkKeys, hpass, hlock, hlevel, hc]

/-! ### The words of a memory -/

theorem Memory.readW_congr {m m' : Memory} {a b : Nat} (h : ∀ j, j < 4 → m.read (a + j) = m'.read (b + j)) : m.readW a = m'.readW b := by
  unfold Memory.readW
  rw [h 3 (by decide), h 2 (by decide), h 1 (by decide), show m.read a = m'.read b from h 0 (by decide)]

theorem Memory.read_writeW_out {m : Memory} (hm : m.wf = true) (a : Nat) (v : W32) (k : Nat) (h : k < a ∨ a + 4 ≤ k) :
    (m.writeW a v).read k = m.read k := Memory.read_writeN_out hm a (wordBytes v) k h

/-- The word written is read back. -/
theorem Memory.readW_writeW_same {m : Memory} (hm : m.wf = true) (a : Nat) (v : W32) : (m.writeW a v).readW a = v := by
  have hbyte (j : Nat) (hj : j < 4) : (m.writeW a v).read (a + j) = (wordBytes v).getD j Memory.blank :=
    Memory.read_writeN_in hm a (wordBytes v) j hj
  unfold Memory.readW
  rw [hbyte 3 (by decide), hbyte 2 (by decide), hbyte 1 (by decide), show (m.writeW a v).read a = _ from hbyte 0 (by decide)]
  show v.extractLsb' 24 8 ++ v.extractLsb' 16 8 ++ v.extractLsb' 8 8 ++ v.extractLsb' 0 8 = v
  rw [BitVec.extractLsb'_append_extractLsb'_eq_extractLsb' (by decide), BitVec.extractLsb'_append_extractLsb'_eq_extractLsb' (by decide),
    BitVec.extractLsb'_append_extractLsb'_eq_extractLsb' (by decide)]
  exact BitVec.extractLsb'_eq_self

/-- Words written one after another from an address on. -/
def Memory.writeWords (m : Memory) (a : Nat) (vs : List Nat) : Memory :=
  match vs with
  | [] => m
  | v :: r => (m.writeW a (BitVec.ofNat 32 v)).writeWords (a + 4) r

theorem Memory.read_writeWords_out {m : Memory} (hm : m.wf = true) (a : Nat) (vs : List Nat) (k : Nat) (h : k < a ∨ a + 4 * vs.length ≤ k) :
    (m.writeWords a vs).read k = m.read k := by
  induction vs generalizing m a with
  | nil => rfl
  | cons v r ih =>
    rw [List.length_cons] at h
    rw [Memory.writeWords, ih (Memory.wf_writeW a _ hm) (a + 4) (by omega), Memory.read_writeW_out hm a _ k (by omega)]

/-- Each of the words written is read back. -/
theorem Memory.readW_writeWords {m : Memory} (hm : m.wf = true) (a : Nat) (vs : List Nat) (k : Nat) (h : k < vs.length) :
    (m.writeWords a vs).readW (a + 4 * k) = BitVec.ofNat 32 (vs.getD k 0) := by
  induction vs generalizing m a k with
  | nil => exact absurd h (Nat.not_lt_zero k)
  | cons v r ih =>
    have hv := Memory.wf_writeW a (BitVec.ofNat 32 v) hm
    cases k with
    | zero =>
      calc ((m.writeW a (BitVec.ofNat 32 v)).writeWords (a + 4) r).readW a
          = (m.writeW a (BitVec.ofNat 32 v)).readW a :=
            Memory.readW_congr fun j hj => Memory.read_writeWords_out hv (a + 4) r (a + j) (by omega)
        _ = BitVec.ofNat 32 v := Memory.readW_writeW_same hm a _
    | succ k =>
      rw [show a + 4 * (k + 1) = a + 4 + 4 * k by omega]
      exact ih hv (a + 4) k (Nat.lt_of_succ_lt_succ h)

/-! ### The user Slate (R522, R523) -/

/-- The words of a Slate write, numbered and written one by one, are written one after another. -/
theorem forEach_slate (s : State) (a i : Nat) (vs : List Nat) :
    (s.forEach ((List.range' i vs.length).zip vs) fun v t => t.onLdg fun d => { d with
      user := d.user.writeW (a + 4 * v.1) (BitVec.ofNat 32 v.2) }) =
    s.onLdg fun d => { d with user := d.user.writeWords (a + 4 * i) vs } := by
  induction vs generalizing s i with
  | nil => rfl
  | cons v r ih =>
    rw [List.length_cons, List.range'_succ, List.zip_cons_cons, State.forEach_cons, ih]
    rfl

section Slate

variable {c : Ctx} {p : Pfx} {e : Env} {s : State}

theorem ldgSlateBody_read (hpart : 4 ≤ e.nat "part") (hoff : e.nat "off" % 4 = 0) (hval : e.has "val" = false)
    (hlen : e.nat "off" + 4 * (e.nat? "n").getD 1 ≤ 512) : ∃ l, ldgSlateBody c p e s = .ok [l] s := by
  simp [ldgSlateBody, Nat.not_lt.mpr hpart, hoff, hval, Nat.not_lt.mpr hlen]

theorem ldgSlateBody_write (hpart : 4 ≤ e.nat "part") (hoff : e.nat "off" % 4 = 0) (hval : e.has "val" = true) (hn : e.has "n" = false)
    (hlen : e.nat "off" + 4 * (e.nums "val").length ≤ 512) : ldgSlateBody c p e s = .ok [] (s.onLdg fun d => { d with
      user := d.user.writeWords (512 * (e.nat "part" - 4) + e.nat "off") (e.nums "val") }) := by
  have hwords := forEach_slate s (512 * (e.nat "part" - 4) + e.nat "off") 0 (e.nums "val")
  rw [← List.range_eq_range'] at hwords
  simp only [ldgSlateBody, if_neg (Nat.not_lt.mpr hpart), hval, hoff, hn, Nat.not_lt.mpr hlen, if_true, if_false, ne_eq, not_true,
    or_self, Bool.false_eq_true, hwords]
  rfl

end Slate

/-! ### The obligation -/

/-- Settles O48: each command from what its body answers; the lines refused for a password or a lockout from the checks before it. -/
theorem ledgerCommands : Obligations.LedgerCommands := by
  unfold Obligations.LedgerCommands
  refine ⟨?begin, ?put, ?commit, ?abort, ?commitNone, ?putNone, ?read, ?key, ?keyLocked, ?guards, ?lockoutEnd, ?pass, ?slate⟩
  case begin =>
    intro c p a e s n h hc
    exact ⟨fun hb => answersOk_of_body rfl h (ldgBatchBeginBody_first hc hb),
      fun hb => refuses_of_body rfl h (ldgBatchBeginBody_again hc hb)⟩
  case put =>
    intro c p a e s n b v bs h hc _ _ hv hbs _ hsrc hpage hlen hb hl
    have hbody := ldgPutBody_data (p := p) (s := s) hc hv hbs hsrc hpage hlen
    exact ⟨fun hfull => refuses_of_body rfl h (hbody.trans (stagePut_full hb hl hfull)),
      fun old hroom hold => answersOk_of_body rfl h (hbody.trans (stagePut_first hb hl hroom hold))⟩
  case commit =>
    intro c p a e s n b h hc hb hf
    exact ⟨fun hp => answersOk_of_body rfl h (ldgBatchCommitBody_empty hc hb hf hp),
      fun hp => begins_of_body rfl h ⟨_, ldgBatchCommitBody_pages hc hb hf hp, rfl⟩⟩
  case abort =>
    intro c p a e s n h hc
    have habort := answersOk_of_body (i := .ldgBatchAbort c p a) rfl h (ldgBatchAbortBody_sess hc)
    refine ⟨habort, fun hb => ?_⟩
    rwa [State.onSess_self (by rw [← hb])] at habort
  case commitNone =>
    intro c p a e s n h hc hb
    exact refuses_of_body rfl h (ldgBatchCommitBody_none hc hb)
  case putNone =>
    intro c p a e s n v bs h hc _ _ hv hbs _ hsrc hpage hlen hb
    exact refuses_of_body rfl h ((ldgPutBody_data hc hv hbs hsrc hpage hlen).trans (stagePut_noBatch hb))
  case read =>
    intro c p a e s bs h _ _ hpage hbs
    refine ⟨fun hdst hlen => ?_, fun hdst hoff hn hu => answersOk_of_body rfl h (ldgReadBody_copy hpage hbs hdst hoff hn hu)⟩
    obtain ⟨ls, hbody⟩ := ldgReadBody_line hpage hbs hdst hlen
    exact answersWith_of_body rfl h ⟨ls, s, hbody, rfl⟩
  case key =>
    intro c p a e s n v h hc hdrop hr hw hset
    have hbody := ldgKeyBody_rpw (p := p) hc hdrop hr hw hset
    refine ⟨fun hright => ?_, fun hwrong => ?_⟩
    · have hlt : n < 4 := sess_lt_of_canRun (hc ▸ h.1)
      refine answersWith_of_body rfl h ⟨_, _, hbody.trans (if_pos hright), rfl, ?_⟩
      simp only [State.onSess_part, State.onPart_part, State.onSess_sess _ hlt, State.onPart_sess, true_and]
      exact mem_append_filter_not_contains _ _
    · have hexec : exec (.ldgKey c p a) s = .next (deliver c (ldgKeyBody c p e s)) := ulc_body h
      rw [hbody.trans (if_neg hwrong)] at hexec
      refine ⟨_, hexec, failPart_keys _ _ _, failPart_fails _ _, fun h0 hlt => ?_, fun h0 h7 => ?_, fun h1 => ?_⟩
      · rw [failPart_counted (satInc_toNat_lt hlt) h0]
      · rw [failPart_locked (.inl (by rw [h7]; decide)), h0]
        exact ⟨rfl, rfl⟩
      · rw [failPart_locked (.inr (by omega)), h1]
        exact ⟨rfl, rfl⟩
  case keyLocked =>
    intro c p a s n k hrun hc ha hk hlock
    exact refuses_of_check rfl hrun (checkKeys_ldgKey_locked hc ha hk hlock) (.inr (.inl rfl))
  case guards =>
    intro c p a s k hrun ha hk
    refine ⟨fun hm => ⟨?_, ?_⟩, fun hm => ?_⟩
    · exact refuses_of_guard rfl hrun (by simp [guardOf, ldgPutV, ha]) hk hm
    · exact refuses_of_guard rfl hrun (by simp [guardOf, ldgPassV, ha]) hk hm
    · exact refuses_of_guard rfl hrun (by simp [guardOf, ldgReadV, ha]) hk hm
  case lockoutEnd =>
    intro k s hon
    refine ⟨_, exec_partitionLockoutEnd hon k, ?_⟩
    split
    next hl => simpa using fun j hj => State.onPart_part_ne s k j _ hj
    next hl => exact ⟨by simpa using hl, rfl, fun j _ => rfl⟩
  case pass =>
    intro c p a e s v w h _ hv hw
    exact answersWith_of_body rfl h ⟨_, _, ldgPassBody_both hv hw, rfl, by simp, by simp, by simp⟩
  case slate =>
    intro c p a e s h hpart hoff
    refine ⟨fun hval hlen => ?_, fun hval hn _ hlen hwf => ?_⟩
    · obtain ⟨l, hbody⟩ := ldgSlateBody_read hpart hoff hval hlen
      exact answersWith_of_body rfl h ⟨[l], s, hbody, rfl, rfl⟩
    · exact answersWith_of_body rfl h ⟨_, _, ldgSlateBody_write hpart hoff hval hn hlen, rfl,
        Memory.readW_writeWords hwf _ _, Memory.read_writeWords_out hwf _ _, rfl, rfl⟩

end Sys2Proof.Machine
end

section
/-! The queue of commands, and the state right after reset. -/

namespace Sys2Proof.Machine

/-- Settles O1: both clauses are the two branches of `step`. -/
theorem stepRunsFront : Obligations.StepRunsFront :=
  ⟨fun _ _ => rfl, fun s h => by unfold step; rw [h]⟩

/-- Every Hearth channel is at its default values right after reset, whatever its number. -/
theorem reset_chan (n : Nat) : State.reset.chan n = {} := by
  obtain hn | hn := Nat.lt_or_ge n 8
  · interval_cases n <;> rfl
  · exact List.getD_eq_default _ _ hn

/-- Settles O59: the fields are read off `State.reset`; the clause on every channel is `reset_chan`. -/
theorem resetState : Obligations.ResetState := by
  have hchan : ∀ n, (State.reset.chan n).state = .off ∧ (State.reset.chan n).ramp = 0x14 ∧ (State.reset.chan n).pdmax = 0x14 :=
    fun n => by rw [reset_chan n]; decide
  exact ⟨by unfold State.Ok; decide, rfl, rfl, rfl, rfl, rfl, rfl, rfl, rfl, rfl, rfl, rfl, hchan, rfl, rfl, rfl, rfl, rfl, rfl, rfl, rfl, rfl,
    rfl, rfl, rfl, rfl, rfl, rfl⟩

end Sys2Proof.Machine
end

section
/-! The form of the state (`State.Ok`): every function of the model keeps it. A function that writes neither the memory nor the user
Slate has a lemma `f_ok : (f s).Ok ↔ s.Ok`, which `simp` uses to peel it off; one that writes them keeps the form of a state that has it,
by the laws of `Memory`. The last lemma puts them together, command by command. -/

namespace Sys2Proof.Machine

/-! ### Updates of the parts of the state -/

section Parts

variable (s : State)

@[simp] theorem State.onClk_ok (f : ClkSt → ClkSt) : (s.onClk f).Ok ↔ s.Ok := Iff.rfl
@[simp] theorem State.onTly_ok (f : TlySt → TlySt) : (s.onTly f).Ok ↔ s.Ok := Iff.rfl
@[simp] theorem State.onEvq_ok (f : EvqSt → EvqSt) : (s.onEvq f).Ok ↔ s.Ok := Iff.rfl
@[simp] theorem State.onDesk_ok (f : DeskSt → DeskSt) : (s.onDesk f).Ok ↔ s.Ok := Iff.rfl
@[simp] theorem State.onWeave_ok (f : WeaveSt → WeaveSt) : (s.onWeave f).Ok ↔ s.Ok := Iff.rfl
@[simp] theorem State.onInn_ok (f : InnSt → InnSt) : (s.onInn f).Ok ↔ s.Ok := Iff.rfl
@[simp] theorem State.onLdr_ok (f : LdrSt → LdrSt) : (s.onLdr f).Ok ↔ s.Ok := Iff.rfl
@[simp] theorem State.onMem_ok (f : MemSt → MemSt) : (s.onMem f).Ok ↔ s.Ok := Iff.rfl
@[simp] theorem State.onCch_ok (f : CchSt → CchSt) : (s.onCch f).Ok ↔ s.Ok := Iff.rfl
@[simp] theorem State.onAud_ok (f : AudSt → AudSt) : (s.onAud f).Ok ↔ s.Ok := Iff.rfl
@[simp] theorem State.onUsb_ok (f : UsbSt → UsbSt) : (s.onUsb f).Ok ↔ s.Ok := Iff.rfl
@[simp] theorem State.onPor_ok (f : PorSt → PorSt) : (s.onPor f).Ok ↔ s.Ok := Iff.rfl
@[simp] theorem State.onJtag_ok (f : JtagSt → JtagSt) : (s.onJtag f).Ok ↔ s.Ok := Iff.rfl
@[simp] theorem State.onSys_ok (f : SysSt → SysSt) : (s.onSys f).Ok ↔ s.Ok := Iff.rfl
@[simp] theorem State.onSess_ok (n : Nat) (f : Session → Session) : (s.onSess n f).Ok ↔ s.Ok := Iff.rfl
@[simp] theorem State.onGuest_ok (g : Nat) (f : Guest → Guest) : (s.onGuest g f).Ok ↔ s.Ok := Iff.rfl
@[simp] theorem State.onStake_ok (k : Nat) (f : Stake → Stake) : (s.onStake k f).Ok ↔ s.Ok := Iff.rfl
@[simp] theorem State.onPlan_ok (n : String) (f : Plan → Plan) : (s.onPlan n f).Ok ↔ s.Ok := Iff.rfl
@[simp] theorem State.onRoute_ok (r : Nat) (f : Route → Route) : (s.onRoute r f).Ok ↔ s.Ok := Iff.rfl
@[simp] theorem State.onWin_ok (w : Nat) (f : Window → Window) : (s.onWin w f).Ok ↔ s.Ok := Iff.rfl
@[simp] theorem State.onRing_ok (k : Nat) (f : Ring → Ring) : (s.onRing k f).Ok ↔ s.Ok := Iff.rfl
@[simp] theorem State.onPart_ok (p : Nat) (f : PartSt → PartSt) : (s.onPart p f).Ok ↔ s.Ok := Iff.rfl
@[simp] theorem State.draw_ok : s.draw.2.Ok ↔ s.Ok := Iff.rfl
@[simp] theorem State.drawRandom_ok : s.drawRandom.2.Ok ↔ s.Ok := Iff.rfl

@[simp] theorem State.onNet_ok (p : Nat) (f : NetSt → NetSt) : (s.onNet p f).Ok ↔ s.Ok := by simp [State.Ok]
@[simp] theorem State.onChan_ok (k : Nat) (f : Chan → Chan) : (s.onChan k f).Ok ↔ s.Ok := by simp [State.Ok, lmod]

/-- An update of the Ledger that leaves the user Slate. -/
@[simp] theorem State.onLdg_ok {f : LdgSt → LdgSt} (h : ∀ d, (f d).user = d.user) : (s.onLdg f).Ok ↔ s.Ok := by simp [State.Ok, h]

/-- An update of the Hearth that leaves the number of its channels. -/
@[simp] theorem State.onHth_ok {f : HthSt → HthSt} (h : ∀ d, (f d).chans.length = d.chans.length) : (s.onHth f).Ok ↔ s.Ok := by
  simp [State.Ok, h]

/-- An update of the power state that leaves the number of zones. -/
@[simp] theorem State.onPwr_ok {f : PwrSt → PwrSt} (h : ∀ d, (f d).zones.length = d.zones.length) : (s.onPwr f).Ok ↔ s.Ok := by
  simp [State.Ok, h]

@[simp] theorem State.ite_ok {c : Prop} [Decidable c] (a b : State) : (if c then a else b).Ok ↔ if c then a.Ok else b.Ok := by split <;> rfl

@[simp] theorem State.when_ok {c : Bool} {f : State → State} (h : (f s).Ok ↔ s.Ok) : (s.when c f).Ok ↔ s.Ok := by
  cases c <;> simp [h]

@[simp] theorem State.forEach_ok {α : Type} {l : List α} {f : α → State → State} (h : ∀ a t, (f a t).Ok ↔ t.Ok) :
    (s.forEach l f).Ok ↔ s.Ok := by
  induction l generalizing s with
  | nil => rfl
  | cons a l ih => rw [State.forEach_cons, ih, h]

/-- A state whose memory is put in its place by another in canonical form. -/
theorem State.withRam_ok {s : State} (h : s.Ok) {m : Memory} (hm : m.wf = true) : ({ s with ram := m } : State).Ok := ⟨hm, h.2⟩

theorem State.Ok.ram_wf {s : State} (h : s.Ok) : s.ram.wf = true := h.1

end Parts

/-! ### What a command answers -/

/-- The state that a body's answer carries. -/
def Res.state : Res → State
  | .ok _ s => s
  | .err _ _ s => s
  | .work s => s

/-- The state that an event's effect gives, when it succeeds, has the form. -/
def exceptOk {ε : Type} : Except ε State → Prop
  | .ok s => s.Ok
  | .error _ => True

/-- The next state of an outcome has the form. -/
def nextOk : Host.Outcome State Fault Refusal → Prop
  | .next s => s.Ok
  | _ => True

@[simp] theorem Res.ok_state (ls : List String) (s : State) : (Res.ok ls s).state = s := rfl
@[simp] theorem Res.err_state (code : Nat) (key : String) (s : State) : (Res.err code key s).state = s := rfl
@[simp] theorem Res.work_state (s : State) : (Res.work s).state = s := rfl
@[simp] theorem Res.ite_state {c : Prop} [Decidable c] (a b : Res) : (if c then a else b).state = if c then a.state else b.state := by
  split <;> rfl

@[simp] theorem exceptOk_ok {ε : Type} (s : State) : exceptOk (.ok s : Except ε State) ↔ s.Ok := Iff.rfl
@[simp] theorem exceptOk_error {ε : Type} (x : ε) : exceptOk (.error x : Except ε State) ↔ True := Iff.rfl

@[simp] theorem nextOk_next (s : State) : nextOk (.next s) ↔ s.Ok := Iff.rfl
@[simp] theorem nextOk_ite {c : Prop} [Decidable c] (a b : Host.Outcome State Fault Refusal) :
    nextOk (if c then a else b) ↔ if c then nextOk a else nextOk b := by split <;> rfl

/-! ### Notices and the log (Machine/Notice.lean) -/

@[simp] theorem pushOut_ok (k : Nat) (kind : OutKind) (text : String) (s : State) : (pushOut k kind text s).Ok ↔ s.Ok := by simp [pushOut]

@[simp] theorem refill_ok (fuel k : Nat) (s : State) : (refill fuel k s).Ok ↔ s.Ok := by
  rw [State.Ok, refill_ram, refill_ldg, refill_hth, refill_pwr, State.Ok]

@[simp] theorem sayTo_ok (k : Nat) (obj text : String) (s : State) : (sayTo k obj text s).Ok ↔ s.Ok := by simp [sayTo]
@[simp] theorem notify_ok (obj rest : String) (s : State) : (notify obj rest s).Ok ↔ s.Ok := by simp [notify]
@[simp] theorem notifyOne_ok (k : Nat) (obj rest : String) (s : State) : (notifyOne k obj rest s).Ok ↔ s.Ok := by simp [notifyOne]

@[simp] theorem pushLog_user (e : LogEntry) (s : State) : (pushLog e s).ldg.user = s.ldg.user := by
  simp only [pushLog, State.onLdg_ldg]
  repeat' split
  all_goals rfl

@[simp] theorem pushLog_ok (e : LogEntry) (s : State) : (pushLog e s).Ok ↔ s.Ok := by simp [State.Ok]

@[simp] theorem logEv_ok (src code evseq arg arg2 : Nat) (s : State) : (logEv src code evseq arg arg2 s).Ok ↔ s.Ok := by simp [logEv]

@[simp] theorem logAt_ok (t : Tally) (late : Bool) (src code evseq arg arg2 : Nat) (s : State) :
    (logAt t late src code evseq arg arg2 s).Ok ↔ s.Ok := by
  simp [logAt]

@[simp] theorem endSession_ok (k : Nat) (s : State) : (endSession k s).Ok ↔ s.Ok := by simp [endSession]

/-! ### Command lines (Machine/Command.lean) -/

@[simp] theorem failPart_ok (p : Nat) (s : State) : (failPart p s).Ok ↔ s.Ok := by simp [failPart]
@[simp] theorem takeVaultWords_ok (s : State) : (takeVaultWords s).Ok ↔ s.Ok := by simp [takeVaultWords]
@[simp] theorem endScript_ok (s : State) : (endScript s).Ok ↔ s.Ok := by simp [endScript]
@[simp] theorem deskReady_ok (how : String) (s : State) : (deskReady how s).Ok ↔ s.Ok := by simp [deskReady]

@[simp] theorem routeReply_ok (r : Nat) (text : String) (err : Option Nat) (s : State) : (routeReply r text err s).Ok ↔ s.Ok := by
  unfold routeReply
  split <;> simp

@[simp] theorem sessReply_ok (n : Nat) (text : String) (s : State) : (sessReply n text s).Ok ↔ s.Ok := by simp [sessReply]

@[simp] theorem sessAnswer_ok (n : Nat) (tag : Option Nat) (r : Except (Nat × String) (List String)) (s : State) :
    (sessAnswer n tag r s).Ok ↔ s.Ok := by
  simp [sessAnswer]

@[simp] theorem finishSess_ok (n : Nat) (r : Except (Nat × String) (List String)) (s : State) : (finishSess n r s).Ok ↔ s.Ok := by simp [finishSess]
@[simp] theorem moveEnds_ok (s : State) : (moveEnds s).Ok ↔ s.Ok := by simp [moveEnds]
@[simp] theorem scriptEnd_ok (how : String) (s : State) : (scriptEnd how s).Ok ↔ s.Ok := by simp [scriptEnd]

@[simp] theorem answer_ok (o : Origin) (tag : Option Nat) (r : Except (Nat × String) (List String)) (s : State) : (answer o tag r s).Ok ↔ s.Ok := by
  simp only [answer]
  repeat' split
  all_goals simp

@[simp] theorem noteTag_ok (o : Origin) (tag : Option Nat) (s : State) : (noteTag o tag s).Ok ↔ s.Ok := by
  unfold noteTag
  split <;> simp

@[simp] theorem holdLine_ok (o : Origin) (tag : Option Nat) (s : State) : (holdLine o tag s).Ok ↔ s.Ok := by
  unfold holdLine
  split <;> simp

@[simp] theorem switchMode_ok (o : Origin) (s : State) : (switchMode o s).Ok ↔ s.Ok := by
  unfold switchMode
  split <;> simp

@[simp] theorem deliver_ok (c : Ctx) (r : Res) : (deliver c r).Ok ↔ r.state.Ok := by
  cases r <;> simp [deliver]

@[simp] theorem settled_ok {r : Res} {s : State} (h : s.Ok) (hr : r.state.Ok) : (settled r s).state.Ok := by
  cases r with
  | ok ls t => exact h
  | err e k t => simpa [settled, h] using fun _ => hr
  | work t => exact h

theorem runVerb_ok {v : Verb} {body : Ctx → Pfx → Env → State → Res} (h : ∀ c p e s, s.Ok → (body c p e s).state.Ok)
    (c : Ctx) (p : Pfx) (a : Args) {s : State} (hs : s.Ok) : (runVerb v body c p a s).state.Ok := by
  unfold runVerb
  split
  · split <;> simp [hs]
  · split
    · exact settled_ok hs (h c p _ s hs)
    · exact h c p _ s hs

theorem runCommand_ok {v : Verb} {body : Ctx → Pfx → Env → State → Res} (h : ∀ c p e s, s.Ok → (body c p e s).state.Ok)
    (c : Ctx) (p : Pfx) (a : Args) {s : State} (hs : s.Ok) : (runCommand v body c p a s).Ok := by
  unfold runCommand
  split
  · exact (deliver_ok _ _).2 (runVerb_ok h c p a hs)
  · exact hs

theorem ulc_ok {v : Verb} {body : Ctx → Pfx → Env → State → Res} (h : ∀ c p e s, s.Ok → (body c p e s).state.Ok)
    (c : Ctx) (p : Pfx) (a : Args) {s : State} (hs : s.Ok) : nextOk (ulc v body c p a s) := runCommand_ok h c p a hs

@[simp] theorem finishLine_ok (o : Origin) (r : Except (Nat × String) (List String)) (s : State) : (finishLine o r s).Ok ↔ s.Ok := by
  unfold finishLine
  split <;> simp

/-! ### The Coach (Machine/CoachBase.lean) -/

@[simp] theorem sendFrame_ok (p : Nat) (f : TxFrame) (s : State) : (sendFrame p f s).Ok ↔ s.Ok := by simp [sendFrame]
@[simp] theorem sendCoach_ok (r : Nat) (k : Packet) (s : State) : (sendCoach r k s).Ok ↔ s.Ok := by simp [sendCoach]
@[simp] theorem writeReceipt_ok (k : Nat) (x : Receipt) (s : State) : (writeReceipt k x s).Ok ↔ s.Ok := by simp [writeReceipt]

@[simp] theorem finishHead_ok (r st : Nat) (s : State) : (finishHead r st s).Ok ↔ s.Ok := by
  unfold finishHead
  split <;> simp

@[simp] theorem flushAll_ok (fuel r st : Nat) (s : State) : (flushAll fuel r st s).Ok ↔ s.Ok := by
  induction fuel generalizing s with
  | zero => rfl
  | succ f ih => simp [flushAll, ih]

@[simp] theorem settleHead_ok (fuel r : Nat) (s : State) : (settleHead fuel r s).Ok ↔ s.Ok := by
  induction fuel generalizing s with
  | zero => rfl
  | succ f ih =>
    rw [settleHead]
    split <;> simp [ih]

@[simp] theorem meetWait_ok (r : Nat) (s : State) : (meetWait r s).Ok ↔ s.Ok := by simp [meetWait]
@[simp] theorem leftOpen_ok (r : Nat) (s : State) : (leftOpen r s).Ok ↔ s.Ok := by simp [leftOpen]
@[simp] theorem routeErrorOne_ok (r st own : Nat) (s : State) : (routeErrorOne r st own s).Ok ↔ s.Ok := by simp [routeErrorOne]
@[simp] theorem flushBefore_ok (p : Waybill → Bool) (r : Nat) (s : State) : (flushBefore p r s).Ok ↔ s.Ok := by simp [flushBefore]
@[simp] theorem failWait_ok (r : Nat) (s : State) : (failWait r s).Ok ↔ s.Ok := by simp [failWait]

@[simp] theorem settleWaits_ok (fuel : Nat) (s : State) : (settleWaits fuel s).Ok ↔ s.Ok := by
  induction fuel generalizing s with
  | zero => rfl
  | succ f ih =>
    rw [settleWaits]
    split
    · rfl
    · split <;> simp [ih]

@[simp] theorem afterCount_ok (s : State) : (afterCount s).Ok ↔ s.Ok := by simp [afterCount]
@[simp] theorem routeError_ok (r st : Nat) (s : State) : (routeError r st s).Ok ↔ s.Ok := by simp [routeError]
@[simp] theorem settleRoute_ok (r : Nat) (s : State) : (settleRoute r s).Ok ↔ s.Ok := by simp [settleRoute]
@[simp] theorem postWaybill_ok (r : Nat) (w : Waybill) (s : State) : (postWaybill r w s).Ok ↔ s.Ok := by simp [postWaybill]

@[simp] theorem sendWay_ok (r : Nat) (before : List Waybill) (w : Waybill) (after : List Waybill) (s : State) :
    (sendWay r before w after s).Ok ↔ s.Ok := by
  simp [sendWay]

@[simp] theorem issueOp_ok (r op : Nat) (s : State) : (issueOp r op s).Ok ↔ s.Ok := by
  simp only [issueOp]
  repeat' split
  all_goals simp

@[simp] theorem openWindow_ok (w : Nat) (x : Window) (s : State) : (openWindow w x s).Ok ↔ s.Ok := by simp [openWindow]
@[simp] theorem closeWindow_ok (w : Nat) (s : State) : (closeWindow w s).Ok ↔ s.Ok := by simp [closeWindow]

/-! ### Rooms and guests (Machine/Inn.lean) -/

@[simp] theorem zeroRoom_ok {s : State} (h : s.Ok) (r : Nat) : (zeroRoom r s).Ok := State.withRam_ok h (Memory.wf_zero _ _ h.ram_wf)
@[simp] theorem holdRooms_ok (g r n : Nat) (s : State) : (holdRooms g r n s).Ok ↔ s.Ok := by simp [holdRooms]
@[simp] theorem dropJobs_ok (rs : List Nat) (s : State) : (dropJobs rs s).Ok ↔ s.Ok := by simp [dropJobs]
@[simp] theorem askZero_ok (checkin : Bool) (rs : List Nat) (s : State) : (askZero checkin rs s).Ok ↔ s.Ok := by simp [askZero]

@[simp] theorem settleRoom_ok {s : State} (h : s.Ok) (g : Nat) : (settleRoom g s).Ok := by
  obtain ⟨m, hm, hw⟩ := settleRoom_eq g s h.ram_wf
  rw [hm]
  exact State.withRam_ok h hw

@[simp] theorem partZeroed_ok {s : State} (h : s.Ok) (n : Nat) : (partZeroed n s).Ok := by
  unfold partZeroed
  split
  · split
    · exact State.withRam_ok h (Memory.wf_zero _ _ h.ram_wf)
    · exact h
  · exact h

@[simp] theorem readRoom_ok {s : State} (h : s.Ok) (n off : Nat) : (readRoom n off s).2.Ok := by
  unfold readRoom
  split <;> simp [h]

@[simp] theorem writeRoom_ok {s : State} (h : s.Ok) (n off : Nat) (v : W32) : (writeRoom n off v s).Ok := by
  unfold writeRoom
  split
  · simp [h]
  · exact State.withRam_ok h (Memory.wf_writeW _ _ h.ram_wf)

@[simp] theorem freeRooms_ok {s : State} (h : s.Ok) (g : Nat) : (freeRooms g s).Ok := by simp [freeRooms, h]
@[simp] theorem freeChans_ok (g : Nat) (s : State) : (freeChans g s).Ok ↔ s.Ok := by simp [freeChans]
@[simp] theorem takeChans_ok (g lo hi n : Nat) (s : State) : (takeChans g lo hi n s).Ok ↔ s.Ok := by simp [takeChans]
@[simp] theorem assignChans_ok (s : State) : (assignChans s).Ok ↔ s.Ok := by simp [assignChans]
@[simp] theorem toRegistered_ok {s : State} (h : s.Ok) (g : Nat) : (toRegistered g s).Ok := by simp [toRegistered, h]

@[simp] theorem releaseRow_ok {s : State} (h : s.Ok) (g : Nat) : (releaseRow g s).Ok := by
  unfold releaseRow
  split <;> simp [h]

@[simp] theorem awayWhenZeroed_ok (s : State) : (awayWhenZeroed s).Ok ↔ s.Ok := by simp [awayWhenZeroed]
@[simp] theorem roomZeroed_ok {s : State} (h : s.Ok) (room : Nat) : (roomZeroed room s).Ok := by simp [roomZeroed, h]

@[simp] theorem endCheckinZeroing_ok {s : State} (h : s.Ok) : (endCheckinZeroing s).Ok :=
  State.forEach_inv s State.Ok _ _ (fun r _ ht => roomZeroed_ok ht r) h

@[simp] theorem doCheckin_ok (s : State) (g : Nat) (p : Plan) (prec : Prec) (cls : Option GClass) (c : Nat) :
    (doCheckin s g p prec cls c).Ok ↔ s.Ok := by
  simp only [doCheckin]
  repeat' split
  all_goals simp

@[simp] theorem doReturn_ok (s : State) (g c : Nat) : (doReturn s g c).Ok ↔ s.Ok := by
  simp only [doReturn]
  split <;> simp

@[simp] theorem dropImage_ok {s : State} (h : s.Ok) (g : Nat) : (dropImage g s).Ok := by
  simp [dropImage, State.withRam_ok h (Memory.wf_zero _ _ h.ram_wf)]

@[simp] theorem setStep_ok (g : Nat) (code : StepCode) (to_ : LeaveTo) (s : State) : (setStep g code to_ s).Ok ↔ s.Ok := by simp [setStep]

@[simp] theorem shedOne_ok {s : State} (h : s.Ok) (l : List (Nat × Guest)) (thermal : Bool) : (shedOne l thermal s).Ok := by
  unfold shedOne
  split <;> simp [h]

@[simp] theorem quarGuests_ok {s : State} (h : s.Ok) (plan : String) (gs : List Nat) (cause : Nat) : (quarGuests plan gs cause s).Ok := by
  have hgs : (s.forEach gs fun g s => (freeChans g (dropJobs (heldRooms g s) (settleRoom g s))).onGuest g fun x => { x with
      state := .quarantined, steps := [], code := .run, swapping := false, writing := false }).Ok :=
    State.forEach_inv s State.Ok _ _ (fun g t ht => by simp [ht]) h
  simp [quarGuests, hgs]

@[simp] theorem quarBundle_ok {s : State} (h : s.Ok) (n : String) (cause : Nat) : (quarBundle n cause s).Ok := by
  unfold quarBundle
  split <;> simp [h]

@[simp] theorem takeQuarantines_ok {s : State} (h : s.Ok) : (takeQuarantines s).Ok := by
  have hdue : ∀ l : List (String × Nat), (s.forEach l fun e s => quarBundle e.1 e.2 s).Ok := fun l =>
    State.forEach_inv s State.Ok _ _ (fun e t ht => quarBundle_ok ht e.1 e.2) h
  refine State.forEach_inv _ State.Ok _ _ (fun e t ht => ?_) ((State.onInn_ok _ _).2 (hdue _))
  split
  · exact quarGuests_ok ht _ _ _
  · exact ht

@[simp] theorem pendBundle_ok (n : String) (cause : Nat) (s : State) : (pendBundle n cause s).Ok ↔ s.Ok := by simp [pendBundle]

@[simp] theorem reopenBundle_ok {s : State} (h : s.Ok) (n : String) : (reopenBundle n s).Ok := by
  rw [reopenBundle, State.onPlan_ok]
  exact State.forEach_inv s State.Ok _ _ (fun g _ ht => toRegistered_ok ht g) h

@[simp] theorem settlePorts_ok (s : State) : (settlePorts s).Ok ↔ s.Ok := by simp [settlePorts]
@[simp] theorem allRegistered_ok (s : State) : (allRegistered s).Ok ↔ s.Ok := by simp [allRegistered]

/-! ### Events (Machine/Events.lean) -/

@[simp] theorem deskFail_ok (e : Event) (code : Nat) (s : State) : (deskFail e code s).Ok ↔ s.Ok := by
  unfold deskFail
  split <;> simp

@[simp] theorem rejectEv_ok (e : Event) (s : State) : (rejectEv e s).Ok ↔ s.Ok := by simp [rejectEv]
@[simp] theorem countLate_ok (e : Event) (due : Nat) (s : State) : (countLate e due s).Ok ↔ s.Ok := by simp [countLate]

@[simp] theorem lateTo_ok (e : Event) (due : Nat) (s : State) : (lateTo e due s).Ok ↔ s.Ok := by
  unfold lateTo
  split <;> simp

@[simp] theorem handleLate_ok (e : Event) (due : Nat) (s : State) : (handleLate e due s).Ok ↔ s.Ok := by
  simp only [handleLate]
  repeat' split
  all_goals simp

@[simp] theorem queueRequest_ok (src : Src) (seq : BitVec 16) (named stamp : Tally) (r : LdrReq) (s : State) :
    (queueRequest src seq named stamp r s).Ok ↔ s.Ok := by
  simp [queueRequest]

@[simp] theorem enqueue_ok (e : Event) (cut : Bool) (s : State) : (enqueue e cut s).Ok ↔ s.Ok := by
  simp only [enqueue]
  repeat' split
  all_goals simp

@[simp] theorem finishUnbind_ok (r : Nat) (s : State) : (finishUnbind r s).Ok ↔ s.Ok := by simp [finishUnbind]

@[simp] theorem drainRoute_ok (fuel r : Nat) (cut : Bool) (s : State) : (drainRoute fuel r cut s).Ok ↔ s.Ok := by
  induction fuel generalizing s with
  | zero => rfl
  | succ f ih =>
    rw [drainRoute]
    split
    · split <;> simp
    · simp [ih]
    · split <;> simp [ih]

@[simp] theorem drainRoutes_ok (cut : Bool) (s : State) : (drainRoutes cut s).Ok ↔ s.Ok := by simp [drainRoutes]
@[simp] theorem postDelivery_ok (cut : Bool) (d : Delivery) (s : State) : (postDelivery cut d s).Ok ↔ s.Ok := by simp [postDelivery]
@[simp] theorem postStored_ok (cut : Bool) (s : State) : (postStored cut s).Ok ↔ s.Ok := by simp [postStored]
@[simp] theorem admitHeld_ok (cut : Bool) (s : State) : (admitHeld cut s).Ok ↔ s.Ok := by simp [admitHeld]

@[simp] theorem applyScale_ok {s : State} (h : s.Ok) (p : Plan) (i : Nat) (mode : Option SMode) (win hr : Option Nat) (exp : Option Int) :
    (applyScale p i mode win hr exp s).Ok := by
  unfold applyScale
  split
  · have hw : ∀ e o, ({ s with ram := s.ram.writeW o e } : State).Ok := fun e o => State.withRam_ok h (Memory.wf_writeW o e h.ram_wf)
    simp only
    split <;> split <;> simp [h, hw]
  · exact h

@[simp] theorem applyEffect_ok {s : State} (h : s.Ok) (e : Event) (t : Nat) : exceptOk (applyEffect e t s) := by
  simp only [applyEffect]
  repeat' split
  all_goals simp [h]

@[simp] theorem applyOne_ok {s : State} (h : s.Ok) (t : Nat) (e : Event) : (applyOne t e s).Ok := by
  have he := applyEffect_ok h e t
  unfold applyOne
  split
  next heq => rwa [heq] at he
  next => simp [h]

@[simp] theorem applyTally_ok {s : State} (h : s.Ok) (t : Nat) : (applyTally t s).Ok := by
  simp only [applyTally, admitHeld_ok]
  refine State.forEach_inv _ State.Ok _ _ (fun e u hu => ?_) (by simp [h])
  split
  · simp [hu]
  · exact hu
  · exact applyOne_ok hu t e

@[simp] theorem dropServe_ok (x : Serve) (s : State) : (dropServe x s).Ok ↔ s.Ok := by simp [dropServe]
@[simp] theorem releaseSlot_ok (n : Nat) (f : Fetch) (s : State) : (releaseSlot n f s).Ok ↔ s.Ok := by simp [releaseSlot]
@[simp] theorem releaseSlots_ok (plan : String) (s : State) : (releaseSlots plan s).Ok ↔ s.Ok := by simp [releaseSlots]

@[simp] theorem bumpSeq_ok (o : Origin) (s : State) : (bumpSeq o s).Ok ↔ s.Ok := by
  unfold bumpSeq
  split <;> simp

@[simp] theorem postChecked_ok {s : State} (h : s.Ok) (check : Bool) (c : Ctx) (p : Pfx) (eff : Effect) (more : List (Nat × String)) :
    (postChecked check c p eff s more).state.Ok := by
  have hev := fun e => applyEffect_ok h e 0
  unfold postChecked
  extract_lets badPlus
  clear_value badPlus
  split
  extract_lets ev
  split
  · exact h
  · split
    · split
      · exact h
      · split
        · simp [h]
        next heq =>
          have hu := hev (ev 0)
          rw [heq] at hu
          simpa using hu
        · simp [h]
    · split
      · exact h
      · extract_lets lateNow dry
        clear_value lateNow dry
        split
        · exact h
        · split
          · split <;> simp [h]
          · simp [h]

@[simp] theorem postEvent_ok {s : State} (h : s.Ok) (c : Ctx) (p : Pfx) (eff : Effect) : (postEvent c p eff s).state.Ok := by simp [postEvent, h]

@[simp] theorem postInner_ok (src : Src) (seq : BitVec 16) (cut : Bool) (eff : Effect) (s : State) : (postInner src seq cut eff s).Ok ↔ s.Ok := by
  simp [postInner]

@[simp] theorem takeLeft_ok {s : State} (h : s.Ok)  : (takeLeft s).Ok := by simp [takeLeft, h]

/-! ### The operating point (Machine/PowerBase.lean) -/

@[simp] theorem settlePoint_ok (s : State) : (settlePoint s).Ok ↔ s.Ok := State.onPwr_ok s fun p => by
  simp only [PwrSt.settlePoint]
  repeat' split
  all_goals rfl

@[simp] theorem roundPoint_ok (s : State) : (roundPoint s).Ok ↔ s.Ok := by
  simp only [roundPoint]
  split <;> simp

@[simp] theorem strobe_ok (code fcast : Nat) (s : State) : (strobe code fcast s).Ok ↔ s.Ok := by simp [strobe]
@[simp] theorem setForecast_ok (n : Nat) (s : State) : (setForecast n s).Ok ↔ s.Ok := by simp [setForecast]
@[simp] theorem idleLoadcast_ok (s : State) : (idleLoadcast s).Ok ↔ s.Ok := by simp [idleLoadcast]

/-! ### Rounds (Machine/Weave.lean) -/

@[simp] theorem pushResult_ok (g : Nat) (vals : List W32) (mute : Bool) (s : State) : (pushResult g vals mute s).Ok ↔ s.Ok := by simp [pushResult]

@[simp] theorem postRecord_ok (p : Plan) (j : Hop) (n row : Nat) (bytes : List Byte) (s : State) : (postRecord p j n row bytes s).Ok ↔ s.Ok := by
  unfold postRecord
  split
  · extract_lets x w
    split <;> simp
  · rfl

@[simp] theorem postRecords_ok (p : Plan) (i n g : Nat) (code : StepCode) (mute : Bool) (s : State) :
    (postRecords p i n g code mute s).Ok ↔ s.Ok := by
  simp only [postRecords]
  split <;> simp

@[simp] theorem noteHop_ok (p : Plan) (j : Hop) (n : Nat) (s : State) : (noteHop p j n s).Ok ↔ s.Ok := by
  unfold noteHop
  extract_lets due
  split <;> simp

@[simp] theorem markStep_ok (g k : Nat) (f : StepRec → StepRec) (s : State) : (markStep g k f s).Ok ↔ s.Ok := by simp [markStep]

@[simp] theorem hopTake_ok (n : Nat) (p : Plan) (j : Hop) (g : Nat) (s : State) : (hopTake n p j g s).Ok ↔ s.Ok := by
  simp only [hopTake]
  split
  · rfl
  · split
    · simp
    · split <;> simp

@[simp] theorem recordRound_ok (s : State) : (recordRound s).Ok ↔ s.Ok := by simp [recordRound]
@[simp] theorem shedDue_ok {s : State} (h : s.Ok)  : (shedDue s).Ok := by simp [shedDue, h]
@[simp] theorem shedHot_ok {s : State} (h : s.Ok)  : (shedHot s).Ok := by simp [shedHot, h]

@[simp] theorem fallbackMoves_ok {s : State} (h : s.Ok) : (fallbackMoves s).Ok := by
  refine State.forEach_inv s State.Ok _ _ (fun e t ht => ?_) h
  simp only
  split
  · split <;> simp [ht]
  · exact ht

@[simp] theorem swapHalves_ok (s : State) : (swapHalves s).Ok ↔ s.Ok := by simp [swapHalves]
@[simp] theorem lateReturns_ok (n : Nat) (s : State) : (lateReturns n s).Ok ↔ s.Ok := by simp [lateReturns]

@[simp] theorem releasePassed_ok {s : State} (h : s.Ok) : (releasePassed s).Ok :=
  State.forEach_inv s State.Ok _ _ (fun g _ ht => releaseRow_ok ht g) h

@[simp] theorem enterSteps_ok (n : Nat) (s : State) : (enterSteps n s).Ok ↔ s.Ok := by simp [enterSteps]
@[simp] theorem takeHops_ok (n : Nat) (s : State) : (takeHops n s).Ok ↔ s.Ok := by simp [takeHops]

@[simp] theorem idleRow_ok (n : Nat) (p : Plan) (g : Nat) (s : State) : (idleRow n p g s).Ok ↔ s.Ok := by
  rw [idleRow, State.forEach_ok]
  · split
    · split <;> simp
    · rfl
  · intro i t
    split
    · split <;> simp
    · simp

@[simp] theorem noteCosts_ok (n : Nat) (p : Plan) (s : State) : (noteCosts n p s).Ok ↔ s.Ok := by simp [noteCosts]

@[simp] theorem abandonRest_ok (s : State) : (abandonRest s).Ok ↔ s.Ok := by
  rw [abandonRest, State.onWeave_ok, State.forEach_ok]
  intro e t
  simp only
  split <;> simp

@[simp] theorem startRound_ok {s : State} (h : s.Ok) (n : Nat) : (startRound n s).Ok := by
  have hround : ∀ (t : State) (ps : List Plan), (t.forEach ps fun p s => s.forEach ((roundRows n p s).map (·.1)) fun g s => idleRow n p g s).Ok ↔ t.Ok :=
    fun t ps => State.forEach_ok t fun p u => State.forEach_ok u fun g v => idleRow_ok n p g v
  have htally := applyTally_ok (fallbackMoves_ok (shedHot_ok (shedDue_ok (takeQuarantines_ok ((roundPoint_ok _).2
    (releasePassed_ok ((recordRound_ok _).2 ((abandonRest_ok _).2 (endCheckinZeroing_ok h)))))))) ) n
  simp [startRound, hround, htally]

@[simp] theorem execRoundStart_ok {s : State} (h : s.Ok)  : nextOk (execRoundStart s) := by simp [execRoundStart, h]

@[simp] theorem raiseDrift_ok (p : Plan) (i stake slot : Nat) (ly : Layer) (s : State) : (raiseDrift p i stake slot ly s).Ok ↔ s.Ok := by
  unfold raiseDrift
  split <;> simp

@[simp] theorem afterJob_ok {s : State} (h : s.Ok) (p : Plan) (i g : Nat) (r : StepRec) : (afterJob p i g r s).Ok := by
  simp only [afterJob]
  repeat' split
  all_goals simp [h]

@[simp] theorem completeJob_ok {s : State} (h : s.Ok) (stake slot row : Nat) : (completeJob stake slot row s).Ok := by
  simp only [completeJob]
  repeat' split
  all_goals simp [h]

@[simp] theorem execRowJobComplete_ok {s : State} (h : s.Ok) (stake slot row sec : Nat) : nextOk (execRowJobComplete stake slot row sec s) := by
  simp [execRowJobComplete, h]

@[simp] theorem execRowAbandon_ok (s : State) : nextOk (execRowAbandon s) ↔ s.Ok := by simp [execRowAbandon]
@[simp] theorem undoJob_ok (p : Plan) (i g : Nat) (old : LayerRow) (s : State) : (undoJob p i g old s).Ok ↔ s.Ok := by simp [undoJob]

@[simp] theorem undoJobs_ok (stake slot : Nat) (p : Plan) (s : State) : (undoJobs stake slot p s).Ok ↔ s.Ok := by
  unfold undoJobs
  split <;> simp

@[simp] theorem execStakeDoubleBitError_ok (stake slot : Nat) (s : State) : nextOk (execStakeDoubleBitError stake slot s) ↔ s.Ok := by
  simp only [execStakeDoubleBitError]
  repeat' split
  all_goals simp

/-! ### Audio (Machine/Audio.lean) -/

@[simp] theorem lateSkipped_ok (n m : Nat) (s : State) : (lateSkipped n m s).Ok ↔ s.Ok := by simp [lateSkipped]
@[simp] theorem advanceTally_ok (s : State) : (advanceTally s).Ok ↔ s.Ok := by simp [advanceTally]
@[simp] theorem countHoldover_ok (s : State) : (countHoldover s).Ok ↔ s.Ok := by simp [countHoldover]
@[simp] theorem takeInputs_ok (ins : List (Nat × W32)) (s : State) : (takeInputs ins s).Ok ↔ s.Ok := by simp [takeInputs]
@[simp] theorem fillSteps_ok (s : State) : (fillSteps s).Ok ↔ s.Ok := by simp [fillSteps]
@[simp] theorem resampleRef_ok (r : F32) (s : State) : (resampleRef r s).Ok ↔ s.Ok := by simp [resampleRef]
@[simp] theorem passNaks_ok (s : State) : (passNaks s).Ok ↔ s.Ok := by simp [passNaks]

@[simp] theorem frameEdge_ok {s : State} (h : s.Ok) (ins : List (Nat × W32)) : (frameEdge ins s).Ok := by
  simp only [frameEdge]
  split <;> simp [h]

@[simp] theorem execTallyEdge_ok {s : State} (h : s.Ok) (ins : List (Nat × W32)) : nextOk (execTallyEdge ins s) := by simp [execTallyEdge, h]

/-! ### Tally and clocks (Machine/Tally.lean) -/

@[simp] theorem flowsWait_ok (s : State) : (flowsWait s).Ok ↔ s.Ok := by simp [flowsWait]
@[simp] theorem settleAud_ok (s : State) : (settleAud s).Ok ↔ s.Ok := by simp [settleAud]
@[simp] theorem repostReady_ok (chs : List Nat) (s : State) : (repostReady chs s).Ok ↔ s.Ok := by simp [repostReady]
@[simp] theorem eraStart_ok (s : State) : (eraStart s).Ok ↔ s.Ok := by simp [eraStart]
@[simp] theorem reSource_ok (src : BitVec 2) (port : Bool) (s : State) : (reSource src port s).Ok ↔ s.Ok := by simp [reSource]
@[simp] theorem reRate_ok (r : BitVec 3) (s : State) : (reRate r s).Ok ↔ s.Ok := by simp [reRate]
@[simp] theorem execEraStart_ok (s : State) : nextOk (execEraStart s) ↔ s.Ok := by simp [execEraStart]
@[simp] theorem pd3Registers_ok (s : State) : (pd3Registers s).Ok ↔ s.Ok := by simp [pd3Registers]
@[simp] theorem setClk_ok (k : Clk) (on : Bool) (s : State) : (setClk k on s).Ok ↔ s.Ok := by simp [setClk]
@[simp] theorem execRefclkLoss_ok (s : State) : nextOk (execRefclkLoss s) ↔ s.Ok := by simp [execRefclkLoss]
@[simp] theorem execRefclkReturn_ok (s : State) : nextOk (execRefclkReturn s) ↔ s.Ok := by simp [execRefclkReturn]
@[simp] theorem sourceLost_ok (s : State) : (sourceLost s).Ok ↔ s.Ok := by simp [sourceLost]
@[simp] theorem execFrequencyWindow_ok (ppm : Nat) (s : State) : nextOk (execFrequencyWindow ppm s) ↔ s.Ok := by simp [execFrequencyWindow]
@[simp] theorem execTallySourceLost_ok (s : State) : nextOk (execTallySourceLost s) ↔ s.Ok := by simp [execTallySourceLost]
@[simp] theorem execTallySourceReturn_ok (s : State) : nextOk (execTallySourceReturn s) ↔ s.Ok := by simp [execTallySourceReturn]

@[simp] theorem execPtpSync_ok (m : PtpFrom) (sec ns : Nat) (offsetNs : Int) (s : State) : nextOk (execPtpSync m sec ns offsetNs s) ↔ s.Ok := by
  simp [execPtpSync]

@[simp] theorem execTallyAlign_ok (phaseNs : Int) (s : State) : nextOk (execTallyAlign phaseNs s) ↔ s.Ok := by
  simp only [execTallyAlign]
  repeat' split
  all_goals simp

@[simp] theorem execTallyLocked_ok (s : State) : nextOk (execTallyLocked s) ↔ s.Ok := by simp [execTallyLocked]

@[simp] theorem execEventEnqueue_ok (src : Src) (seq : BitVec 16) (stamp : Tally) (cut : Bool) (eff : Effect) (s : State) :
    nextOk (execEventEnqueue src seq stamp cut eff s) ↔ s.Ok := by
  simp [execEventEnqueue]

@[simp] theorem writeTlyCtl_ok (v : W32) (s : State) : (writeTlyCtl v s).Ok ↔ s.Ok := by simp [writeTlyCtl]
@[simp] theorem writeEpochNs_ok (v : W32) (s : State) : (writeEpochNs v s).Ok ↔ s.Ok := by simp [writeEpochNs]

@[simp] theorem tlyRead_ok (off : Nat) (s : State) : (tlyRead off s).2.Ok ↔ s.Ok := by
  unfold tlyRead
  split <;> simp

@[simp] theorem tlyWrite_ok (off : Nat) (v : W32) (s : State) : (tlyWrite off v s).Ok ↔ s.Ok := by
  unfold tlyWrite
  split <;> simp

@[simp] theorem clkRead_ok (off : Nat) (s : State) : (clkRead off s).2.Ok ↔ s.Ok := by
  unfold clkRead
  split <;> simp

@[simp] theorem clkWrite_ok (off : Nat) (v : W32) (s : State) : (clkWrite off v s).Ok ↔ s.Ok := by
  unfold clkWrite
  split <;> simp

@[simp] theorem readInto_ok (x : W32 × State) : (readInto x).Ok ↔ x.2.Ok := Iff.rfl

@[simp] theorem execTlyNowLoRead_ok (s : State) : nextOk (execTlyNowLoRead s) ↔ s.Ok := by
  simp only [execTlyNowLoRead, nextOk_next]
  split
  · exact (readInto_ok _).trans (tlyRead_ok 0 s)
  · rfl

@[simp] theorem execTlyCntSkipLoRead_ok (s : State) : nextOk (execTlyCntSkipLoRead s) ↔ s.Ok := by
  simp only [execTlyCntSkipLoRead, nextOk_next]
  split
  · exact (readInto_ok _).trans (tlyRead_ok 0x24 s)
  · rfl

@[simp] theorem execTlySourceWrite_ok (v : W32) (s : State) : nextOk (execTlySourceWrite v s) ↔ s.Ok := by simp [execTlySourceWrite]
@[simp] theorem execTlyRateWrite_ok (v : W32) (s : State) : nextOk (execTlyRateWrite v s) ↔ s.Ok := by simp [execTlyRateWrite]
@[simp] theorem execTlyEpochNsWrite_ok (v : W32) (s : State) : nextOk (execTlyEpochNsWrite v s) ↔ s.Ok := by simp [execTlyEpochNsWrite]

@[simp] theorem tlySetBody_ok (_c : Ctx) (_p : Pfx) (e : Env) (s : State) : (tlySetBody _c _p e s).state.Ok ↔ s.Ok := by
  simp only [tlySetBody]
  repeat' split
  all_goals simp

@[simp] theorem tlyLateBody_ok (_c : Ctx) (_p : Pfx) (e : Env) (s : State) : (tlyLateBody _c _p e s).state.Ok ↔ s.Ok := by simp [tlyLateBody]
@[simp] theorem tlyShowBody_ok (_c : Ctx) (_p : Pfx) (_e : Env) (s : State) : (tlyShowBody _c _p _e s).state.Ok ↔ s.Ok := by simp [tlyShowBody]
@[simp] theorem clkShowBody_ok (_c : Ctx) (_p : Pfx) (_e : Env) (s : State) : (clkShowBody _c _p _e s).state.Ok ↔ s.Ok := by simp [clkShowBody]

/-! ### Power (Machine/Power.lean) -/

@[simp] theorem execSentinelRead_ok (lows : List Nat) (stood1ms : Bool) (s : State) : nextOk (execSentinelRead lows stood1ms s) ↔ s.Ok := by
  simp [execSentinelRead]

@[simp] theorem execDroop_ok (on : Bool) (s : State) : nextOk (execDroop on s) ↔ s.Ok := by simp [execDroop]

@[simp] theorem execAvsbusFrame_ok (ok isWrite isStatus : Bool) (s : State) : nextOk (execAvsbusFrame ok isWrite isStatus s) ↔ s.Ok := by
  simp only [execAvsbusFrame]
  repeat' split
  all_goals simp

@[simp] theorem execPointRaise_ok (s : State) : nextOk (execPointRaise s) ↔ s.Ok := by simp [execPointRaise]

@[simp] theorem zoneOne_ok (z v m : Nat) (s : State) : (zoneOne z v m s).Ok ↔ s.Ok := by
  simp [zoneOne, lmod]

@[simp] theorem execZoneSample_ok (volts means : List Nat) (s : State) : nextOk (execZoneSample volts means s) ↔ s.Ok := by simp [execZoneSample]
@[simp] theorem setTherm_ok (t : Therm) (s : State) : (setTherm t s).Ok ↔ s.Ok := by simp [setTherm]
@[simp] theorem dryOutputs_ok (count : Bool) (s : State) : (dryOutputs count s).Ok ↔ s.Ok := by simp [dryOutputs]
@[simp] theorem startFades_ok (s : State) : (startFades s).Ok ↔ s.Ok := by simp [startFades]

@[simp] theorem execThermalSample_ok {s : State} (h : s.Ok) (tj : Int) (below100 : Bool) : nextOk (execThermalSample tj below100 s) := by
  simp [execThermalSample, h]

@[simp] theorem execThermalCapStep_ok (s : State) : nextOk (execThermalCapStep s) ↔ s.Ok := by simp [execThermalCapStep]
@[simp] theorem execThermalShed_ok (s : State) : nextOk (execThermalShed s) ↔ s.Ok := by simp [execThermalShed]

@[simp] theorem pwrRead_ok (off : Nat) (s : State) : (pwrRead off s).2.Ok ↔ s.Ok := by
  unfold pwrRead
  split <;> simp

@[simp] theorem writeSense_ok (m : Bool) (s : State) : (writeSense m s).Ok ↔ s.Ok := by simp [writeSense]

@[simp] theorem pwrWrite_ok (off : Nat) (v : W32) (s : State) : (pwrWrite off v s).Ok ↔ s.Ok := by
  unfold pwrWrite
  split <;> simp

@[simp] theorem execPwrSenseWrite_ok (v : W32) (s : State) : nextOk (execPwrSenseWrite v s) ↔ s.Ok := by simp [execPwrSenseWrite]
@[simp] theorem pwrShowBody_ok (_c : Ctx) (_p : Pfx) (e : Env) (s : State) : (pwrShowBody _c _p e s).state.Ok ↔ s.Ok := by simp [pwrShowBody]
@[simp] theorem pwrCrackBody_ok (_c : Ctx) (_p : Pfx) (_e : Env) (s : State) : (pwrCrackBody _c _p _e s).state.Ok ↔ s.Ok := by simp [pwrCrackBody]

/-! ### Guest commands (Machine/Guests.lean) -/

@[simp] theorem execRoomZeroed_ok {s : State} (h : s.Ok) (room : Nat) : nextOk (execRoomZeroed room s) := by simp [execRoomZeroed, h]

@[simp] theorem freeOneChan_ok (g : Nat) (s : State) : (freeOneChan g s).Ok ↔ s.Ok := by
  unfold freeOneChan
  split <;> simp

@[simp] theorem copyRoom_ok {s : State} (h : s.Ok) (src dst : Nat) : (copyRoom src dst s).Ok :=
  State.withRam_ok h (Memory.wf_copy _ _ _ h.ram_wf)

@[simp] theorem execCellarWritebackDone_ok {s : State} (h : s.Ok) (g : Nat) : nextOk (execCellarWritebackDone g s) := by
  simp only [execCellarWritebackDone]
  repeat' split
  all_goals simp [h]

@[simp] theorem countEcc_ok (e : Ecc) (s : State) : (countEcc e s).Ok ↔ s.Ok := by
  unfold countEcc
  split <;> simp

@[simp] theorem resumeRow_ok (g : Nat) (s : State) : (resumeRow g s).Ok ↔ s.Ok := by
  simp only [resumeRow]
  split <;> simp

@[simp] theorem execSwapInDone_ok {s : State} (h : s.Ok) (g : Nat) (ecc : Ecc) : nextOk (execSwapInDone g ecc s) := by
  have hcopy : ∀ a b, (copyRoom a b (freeOneChan g (countEcc ecc s))).Ok := fun a b => copyRoom_ok (by simp [h]) a b
  unfold execSwapInDone
  split
  · simp only [nextOk_next, assignChans_ok]
    cases ecc <;> simp [hcopy]
  · exact h

@[simp] theorem innRead_ok (off : Nat) (s : State) : (innRead off s).2.Ok ↔ s.Ok := by
  unfold innRead
  split <;> simp

@[simp] theorem writeCellar_ok (hi : Bool) (v : W32) (s : State) : (writeCellar hi v s).Ok ↔ s.Ok := by simp [writeCellar]

@[simp] theorem innWrite_ok (off : Nat) (v : W32) (s : State) : (innWrite off v s).Ok ↔ s.Ok := by
  unfold innWrite
  split <;> simp

@[simp] theorem execInnCellarWrite_ok (hi : Bool) (v : W32) (s : State) : nextOk (execInnCellarWrite hi v s) ↔ s.Ok := by simp [execInnCellarWrite]

@[simp] theorem guestRegisterBody_ok (_c : Ctx) (_p : Pfx) (e : Env) (s : State) : (guestRegisterBody _c _p e s).state.Ok ↔ s.Ok := by
  simp [guestRegisterBody]

@[simp] theorem guestDropBody_ok (_c : Ctx) (_p : Pfx) (e : Env) (s : State) : (guestDropBody _c _p e s).state.Ok ↔ s.Ok := by simp [guestDropBody]

@[simp] theorem guestCheckinBody_ok {s : State} (h : s.Ok) (c : Ctx) (p : Pfx) (e : Env) : (guestCheckinBody c p e s).state.Ok := by
  simp [guestCheckinBody, h]

@[simp] theorem guestCheckoutBody_ok {s : State} (h : s.Ok) (c : Ctx) (p : Pfx) (e : Env) : (guestCheckoutBody c p e s).state.Ok := by
  simp [guestCheckoutBody, h]

@[simp] theorem guestAwayBody_ok {s : State} (h : s.Ok) (c : Ctx) (p : Pfx) (e : Env) : (guestAwayBody c p e s).state.Ok := by
  simp [guestAwayBody, h]

@[simp] theorem guestReturnBody_ok {s : State} (h : s.Ok) (c : Ctx) (p : Pfx) (e : Env) : (guestReturnBody c p e s).state.Ok := by
  simp [guestReturnBody, h]

@[simp] theorem guestStepBody_ok {s : State} (h : s.Ok) (c : Ctx) (p : Pfx) (e : Env) : (guestStepBody c p e s).state.Ok := by
  simp [guestStepBody, h]

@[simp] theorem guestClassBody_ok {s : State} (h : s.Ok) (c : Ctx) (p : Pfx) (e : Env) : (guestClassBody c p e s).state.Ok := by
  simp [guestClassBody, h]

@[simp] theorem guestBypassBody_ok {s : State} (h : s.Ok) (c : Ctx) (p : Pfx) (e : Env) : (guestBypassBody c p e s).state.Ok := by
  simp [guestBypassBody, h]

@[simp] theorem guestReopenBody_ok {s : State} (h : s.Ok) (_c : Ctx) (_p : Pfx) (e : Env) : (guestReopenBody _c _p e s).state.Ok := by
  simp only [guestReopenBody]
  repeat' split
  all_goals simp [h]

@[simp] theorem guestShowBody_ok (_c : Ctx) (_p : Pfx) (e : Env) (s : State) : (guestShowBody _c _p e s).state.Ok ↔ s.Ok := by simp [guestShowBody]
@[simp] theorem roomShowBody_ok (_c : Ctx) (_p : Pfx) (_e : Env) (s : State) : (roomShowBody _c _p _e s).state.Ok ↔ s.Ok := by simp [roomShowBody]
@[simp] theorem innShowBody_ok (_c : Ctx) (_p : Pfx) (_e : Env) (s : State) : (innShowBody _c _p _e s).state.Ok ↔ s.Ok := by simp [innShowBody]
@[simp] theorem innSetBody_ok (_c : Ctx) (_p : Pfx) (e : Env) (s : State) : (innSetBody _c _p e s).state.Ok ↔ s.Ok := by simp [innSetBody]

@[simp] theorem bundleSetBody_ok {s : State} (h : s.Ok) (c : Ctx) (p : Pfx) (e : Env) : (bundleSetBody c p e s).state.Ok := by
  unfold bundleSetBody
  split <;> simp [h]

@[simp] theorem bundleReopenBody_ok {s : State} (h : s.Ok) (_c : Ctx) (_p : Pfx) (e : Env) : (bundleReopenBody _c _p e s).state.Ok := by
  unfold bundleReopenBody
  split <;> simp [h]

@[simp] theorem bundleShowBody_ok (_c : Ctx) (_p : Pfx) (e : Env) (s : State) : (bundleShowBody _c _p e s).state.Ok ↔ s.Ok := by
  simp only [bundleShowBody]
  repeat' split
  all_goals simp

/-! ### Plans (Machine/Plans.lean) -/

@[simp] theorem fmtShowBody_ok (_c : Ctx) (_p : Pfx) (e : Env) (s : State) : (fmtShowBody _c _p e s).state.Ok ↔ s.Ok := by
  unfold fmtShowBody
  split <;> simp

@[simp] theorem fmtConvBody_ok (_c : Ctx) (_p : Pfx) (e : Env) (s : State) : (fmtConvBody _c _p e s).state.Ok ↔ s.Ok := by
  simp only [fmtConvBody]
  repeat' split
  all_goals simp

@[simp] theorem fillStores_ok {s : State} (h : s.Ok) (p : Plan) : (fillStores p s).Ok := by
  refine State.forEach_inv _ State.Ok _ _ (fun j t ht => State.forEach_inv t State.Ok _ _ (fun a u hu => ?_) ht) ?_
  · exact State.withRam_ok hu (Memory.wf_writeN _ _ hu.ram_wf)
  · refine State.forEach_inv _ State.Ok _ _ (fun e t ht => State.withRam_ok ht (Memory.wf_write _ _ ht.ram_wf)) ?_
    exact State.forEach_inv _ State.Ok _ _ (fun j t ht => State.withRam_ok ht (Memory.wf_zero _ _ ht.ram_wf)) h

@[simp] theorem placePlan_ok {s : State} (h : s.Ok) (p : Plan) : (placePlan p s).Ok := by
  refine (State.forEach_ok _ fun x t => ?_).2 (by simp [h])
  split <;> simp

@[simp] theorem planLoadBody_ok {s : State} (h : s.Ok) (_c : Ctx) (_p : Pfx) (e : Env) : (planLoadBody _c _p e s).state.Ok := by
  simp only [planLoadBody]
  repeat' split
  all_goals simp [h]

@[simp] theorem dropPlan_ok (p : Plan) (s : State) : (dropPlan p s).Ok ↔ s.Ok := by simp [dropPlan]

@[simp] theorem planUnloadBody_ok {s : State} (h : s.Ok) (_c : Ctx) (_p : Pfx) (e : Env) : (planUnloadBody _c _p e s).state.Ok := by
  unfold planUnloadBody
  split <;> simp [h]

@[simp] theorem planShowBody_ok (_c : Ctx) (_p : Pfx) (e : Env) (s : State) : (planShowBody _c _p e s).state.Ok ↔ s.Ok := by
  simp only [planShowBody]
  repeat' split
  all_goals simp

@[simp] theorem planHopBody_ok (_c : Ctx) (_p : Pfx) (e : Env) (s : State) : (planHopBody _c _p e s).state.Ok ↔ s.Ok := by
  simp only [planHopBody]
  repeat' split
  all_goals simp

@[simp] theorem planSetHopBody_ok {s : State} (h : s.Ok) (c : Ctx) (p : Pfx) (e : Env) : (planSetHopBody c p e s).state.Ok := by
  unfold planSetHopBody
  split <;> simp [h]

@[simp] theorem planSetBody_ok {s : State} (h : s.Ok) (c : Ctx) (p : Pfx) (e : Env) : (planSetBody c p e s).state.Ok := by
  simp only [planSetBody]
  repeat' split
  all_goals simp [h]

@[simp] theorem stkRead_ok (k off : Nat) (s : State) : (stkRead k off s).2.Ok ↔ s.Ok := by
  simp only [stkRead]
  repeat' split
  all_goals simp

@[simp] theorem clearDrift_ok (p : Plan) (i : Nat) (s : State) : (clearDrift p i s).Ok ↔ s.Ok := by simp [clearDrift]

@[simp] theorem stkWrite_ok (k off : Nat) (v : W32) (s : State) : (stkWrite k off v s).Ok ↔ s.Ok := by
  simp only [stkWrite]
  repeat' split
  all_goals simp

@[simp] theorem stkShowBody_ok (_c : Ctx) (_p : Pfx) (e : Env) (s : State) : (stkShowBody _c _p e s).state.Ok ↔ s.Ok := by
  unfold stkShowBody
  split <;> simp

@[simp] theorem stkSetBody_ok (_c : Ctx) (_p : Pfx) (e : Env) (s : State) : (stkSetBody _c _p e s).state.Ok ↔ s.Ok := by
  simp only [stkSetBody]
  split <;> simp

/-! ### The Larder (Machine/Larder.lean) -/

@[simp] theorem putLine_ok (mru : Bool) (x : Line) (s : State) : (putLine mru x s).Ok ↔ s.Ok := by simp [putLine]

@[simp] theorem putRow_ok (mru : Bool) (t : Nat) (d : TableD) (r : Nat) (bs : List Byte) (s : State) : (putRow mru t d r bs s).Ok ↔ s.Ok := by
  simp [putRow]

@[simp] theorem startFetch_ok (g t r : Nat) (d : TableD) (prefetch : Bool) (s : State) : (startFetch g t r d prefetch s).Ok ↔ s.Ok := by
  unfold startFetch
  split <;> simp

@[simp] theorem completeServed_ok (s : State) : (completeServed s).Ok ↔ s.Ok := by
  rw [completeServed, State.forEach_ok]
  intro x t
  split
  · simp
  · split <;> simp

@[simp] theorem dropRouted_ok (x : Serve) (s : State) : (dropRouted x s).Ok ↔ s.Ok := by simp [dropRouted]

@[simp] theorem startWaits_ok (x : Serve) (s : State) : (startWaits x s).Ok ↔ s.Ok := by
  rw [startWaits]
  split
  · rfl
  · split
    · simp
    · refine State.forEach_ok s fun r t => ?_
      split <;> simp

@[simp] theorem prefetchRows_ok (x : Serve) (d : TableD) (s : State) : (prefetchRows x d s).Ok ↔ s.Ok := by
  simp only [prefetchRows]
  repeat' split
  all_goals simp

@[simp] theorem takeServe_ok (x : Serve) (s : State) : (takeServe x s).Ok ↔ s.Ok := by
  simp only [takeServe]
  repeat' split
  all_goals simp

@[simp] theorem loadPinned_ok (s : State) : (loadPinned s).Ok ↔ s.Ok := by
  simp only [loadPinned]
  repeat' split
  all_goals simp

@[simp] theorem execLarderServe_ok (s : State) : nextOk (execLarderServe s) ↔ s.Ok := by
  simp only [execLarderServe]
  repeat' split
  all_goals simp

@[simp] theorem execRowFetchDone_ok (slot : Nat) (ecc : Ecc) (s : State) : nextOk (execRowFetchDone slot ecc s) ↔ s.Ok := by
  simp only [execRowFetchDone]
  repeat' split
  all_goals simp

@[simp] theorem execDeliveryWrite_ok (g port : Nat) (cut : Bool) (s : State) : nextOk (execDeliveryWrite g port cut s) ↔ s.Ok := by
  unfold execDeliveryWrite
  split <;> simp

@[simp] theorem revokeNote_ok (res : String) (kind idx : Nat) (owner id : String) (okind oid : Nat) (s : State) :
    (revokeNote res kind idx owner id okind oid s).Ok ↔ s.Ok := by
  simp [revokeNote]

@[simp] theorem execLeaseRevoke_ok (l : Lease) (s : State) : nextOk (execLeaseRevoke l s) ↔ s.Ok := by
  simp only [execLeaseRevoke]
  repeat' split
  all_goals simp

@[simp] theorem execMr4Poll_ok (hot : Bool) (s : State) : nextOk (execMr4Poll hot s) ↔ s.Ok := by simp [execMr4Poll]
@[simp] theorem pinTable_ok (t : Nat) (d : TableD) (s : State) : (pinTable t d s).Ok ↔ s.Ok := by simp [pinTable]
@[simp] theorem putTable_ok (t : Nat) (d : TableD) (s : State) : (putTable t d s).Ok ↔ s.Ok := by simp [putTable]

@[simp] theorem ldrSetBody_ok (_c : Ctx) (_p : Pfx) (e : Env) (s : State) : (ldrSetBody _c _p e s).state.Ok ↔ s.Ok := by
  simp only [ldrSetBody]
  split <;> simp

@[simp] theorem ldrLoadBody_ok {s : State} (h : s.Ok) (_c : Ctx) (_p : Pfx) (e : Env) : (ldrLoadBody _c _p e s).state.Ok := by
  have hload : ∀ a bs, ({ s with ram := s.ram.writeN a bs } : State).Ok := fun a bs => State.withRam_ok h (Memory.wf_writeN a bs h.ram_wf)
  simp only [ldrLoadBody]
  repeat' split
  all_goals simp [h, hload]

@[simp] theorem ldrBindBody_ok (_c : Ctx) (_p : Pfx) (e : Env) (s : State) : (ldrBindBody _c _p e s).state.Ok ↔ s.Ok := by
  simp only [ldrBindBody]
  repeat' split
  all_goals simp

@[simp] theorem ldrUnbindBody_ok (c : Ctx) (_p : Pfx) (e : Env) (s : State) : (ldrUnbindBody c _p e s).state.Ok ↔ s.Ok := by simp [ldrUnbindBody]
@[simp] theorem ldrReqBody_ok {s : State} (h : s.Ok) (c : Ctx) (p : Pfx) (e : Env) : (ldrReqBody c p e s).state.Ok := by simp [ldrReqBody, h]

@[simp] theorem ldrPutBody_ok {s : State} (h : s.Ok) (c : Ctx) (p : Pfx) (e : Env) : (ldrPutBody c p e s).state.Ok := by
  simp only [ldrPutBody]
  split <;> simp [h]

@[simp] theorem ldrInvalBody_ok (_c : Ctx) (_p : Pfx) (e : Env) (s : State) : (ldrInvalBody _c _p e s).state.Ok ↔ s.Ok := by
  simp only [ldrInvalBody]
  split <;> simp

@[simp] theorem ldrShowBody_ok (_c : Ctx) (_p : Pfx) (e : Env) (s : State) : (ldrShowBody _c _p e s).state.Ok ↔ s.Ok := by
  simp only [ldrShowBody]
  repeat' split
  all_goals simp

@[simp] theorem memShowBody_ok (_c : Ctx) (_p : Pfx) (_e : Env) (s : State) : (memShowBody _c _p _e s).state.Ok ↔ s.Ok := by simp [memShowBody]
@[simp] theorem memSetBody_ok (_c : Ctx) (_p : Pfx) (e : Env) (s : State) : (memSetBody _c _p e s).state.Ok ↔ s.Ok := by simp [memSetBody]

@[simp] theorem ldrRead_ok (off : Nat) (s : State) : (ldrRead off s).2.Ok ↔ s.Ok := by
  unfold ldrRead
  split <;> simp

@[simp] theorem ldrWrite_ok (off : Nat) (v : W32) (s : State) : (ldrWrite off v s).Ok ↔ s.Ok := by
  unfold ldrWrite
  split <;> simp

@[simp] theorem memRead_ok (off : Nat) (s : State) : (memRead off s).2.Ok ↔ s.Ok := by
  unfold memRead
  split <;> simp

@[simp] theorem memWrite_ok (off : Nat) (v : W32) (s : State) : (memWrite off v s).Ok ↔ s.Ok := by
  unfold memWrite
  split <;> simp

/-! ### Routes (Machine/Coach.lean) -/

@[simp] theorem routeOpenBody_ok (_c : Ctx) (_p : Pfx) (e : Env) (s : State) : (routeOpenBody _c _p e s).state.Ok ↔ s.Ok := by simp [routeOpenBody]

@[simp] theorem routeCloseBody_ok (_c : Ctx) (_p : Pfx) (e : Env) (s : State) : (routeCloseBody _c _p e s).state.Ok ↔ s.Ok := by
  simp only [routeCloseBody]
  split <;> simp

@[simp] theorem closeRoute_ok (r : Nat) (s : State) : (closeRoute r s).Ok ↔ s.Ok := by simp [closeRoute]
@[simp] theorem execRouteClosed_ok (r : Nat) (s : State) : nextOk (execRouteClosed r s) ↔ s.Ok := by simp [execRouteClosed]

@[simp] theorem routeSetBody_ok (_c : Ctx) (_p : Pfx) (e : Env) (s : State) : (routeSetBody _c _p e s).state.Ok ↔ s.Ok := by
  simp only [routeSetBody]
  repeat' split
  all_goals simp

@[simp] theorem routeRecvBody_ok (_c : Ctx) (_p : Pfx) (e : Env) (s : State) : (routeRecvBody _c _p e s).state.Ok ↔ s.Ok := by simp [routeRecvBody]
@[simp] theorem routePostBody_ok (_c : Ctx) (_p : Pfx) (e : Env) (s : State) : (routePostBody _c _p e s).state.Ok ↔ s.Ok := by simp [routePostBody]

@[simp] theorem routeShowBody_ok (_c : Ctx) (_p : Pfx) (e : Env) (s : State) : (routeShowBody _c _p e s).state.Ok ↔ s.Ok := by
  simp only [routeShowBody]
  repeat' split
  all_goals simp

@[simp] theorem winOpenBody_ok (_c : Ctx) (_p : Pfx) (e : Env) (s : State) : (winOpenBody _c _p e s).state.Ok ↔ s.Ok := by simp [winOpenBody]
@[simp] theorem winCloseBody_ok (_c : Ctx) (_p : Pfx) (e : Env) (s : State) : (winCloseBody _c _p e s).state.Ok ↔ s.Ok := by simp [winCloseBody]

@[simp] theorem winShowBody_ok (_c : Ctx) (_p : Pfx) (e : Env) (s : State) : (winShowBody _c _p e s).state.Ok ↔ s.Ok := by
  simp only [winShowBody]
  repeat' split
  all_goals simp

@[simp] theorem advanceTail_ok (n k : Nat) (s : State) : (advanceTail n k s).Ok ↔ s.Ok := by simp [advanceTail]
@[simp] theorem cchRingBody_ok (_c : Ctx) (_p : Pfx) (e : Env) (s : State) : (cchRingBody _c _p e s).state.Ok ↔ s.Ok := by simp [cchRingBody]
@[simp] theorem cchShowBody_ok (_c : Ctx) (_p : Pfx) (_e : Env) (s : State) : (cchShowBody _c _p _e s).state.Ok ↔ s.Ok := by simp [cchShowBody]
@[simp] theorem ringDoorbell_ok (v : W32) (s : State) : (ringDoorbell v s).Ok ↔ s.Ok := by simp [ringDoorbell]
@[simp] theorem execCchDoorbell_ok (v : W32) (s : State) : nextOk (execCchDoorbell v s) ↔ s.Ok := by simp [execCchDoorbell]
@[simp] theorem writeTail_ok (v : W32) (s : State) : (writeTail v s).Ok ↔ s.Ok := by simp [writeTail]
@[simp] theorem execCchRingTailWrite_ok (v : W32) (s : State) : nextOk (execCchRingTailWrite v s) ↔ s.Ok := by simp [execCchRingTailWrite]

@[simp] theorem cchRead_ok (off : Nat) (s : State) : (cchRead off s).2.Ok ↔ s.Ok := by
  simp only [cchRead]
  repeat' split
  all_goals simp

@[simp] theorem cchWrite_ok (off : Nat) (v : W32) (s : State) : (cchWrite off v s).Ok ↔ s.Ok := by
  unfold cchWrite
  split <;> simp

@[simp] theorem execIssueWrite_ok (r : Nat) (s : State) : nextOk (execIssueWrite r s) ↔ s.Ok := by simp [execIssueWrite]
@[simp] theorem execIssueWriteImm_ok (r : Nat) (s : State) : nextOk (execIssueWriteImm r s) ↔ s.Ok := by simp [execIssueWriteImm]
@[simp] theorem execIssueRead_ok (r : Nat) (s : State) : nextOk (execIssueRead r s) ↔ s.Ok := by simp [execIssueRead]
@[simp] theorem execIssueSend_ok (r : Nat) (s : State) : nextOk (execIssueSend r s) ↔ s.Ok := by simp [execIssueSend]
@[simp] theorem execIssueFlush_ok (r : Nat) (s : State) : nextOk (execIssueFlush r s) ↔ s.Ok := by simp [execIssueFlush]
@[simp] theorem execIssueWait_ok (r : Nat) (s : State) : nextOk (execIssueWait r s) ↔ s.Ok := by simp [execIssueWait]
@[simp] theorem execIssueArm_ok (r : Nat) (s : State) : nextOk (execIssueArm r s) ↔ s.Ok := by simp [execIssueArm]

@[simp] theorem execWaybillComplete_ok (r : Nat) (s : State) : nextOk (execWaybillComplete r s) ↔ s.Ok := by
  unfold execWaybillComplete
  split <;> simp

/-! ### Packets (Machine/Wire.lean) -/

@[simp] theorem sendControl_ok (r kind apsn status cecnt : Nat) (s : State) : (sendControl r kind apsn status cecnt s).Ok ↔ s.Ok := by
  simp [sendControl]

@[simp] theorem onceClosed_ok (r : Nat) {send : State → State} {s : State} (h : (send s).Ok ↔ s.Ok) : (onceClosed r send s).Ok ↔ s.Ok := by
  simp [onceClosed, h]

@[simp] theorem nakClosed_ok (k : Packet) (s : State) : (nakClosed k s).Ok ↔ s.Ok := by simp [nakClosed]
@[simp] theorem noteCe_ok (r : Nat) (k : Packet) (s : State) : (noteCe r k s).Ok ↔ s.Ok := by simp [noteCe]

@[simp] theorem takePacket_ok (kind : Nat) (k : Packet) (s : State) : (takePacket kind k s).2.Ok ↔ s.Ok := by
  simp only [takePacket]
  repeat' split
  all_goals simp

@[simp] theorem sendAck_ok (r : Nat) (s : State) : (sendAck r s).Ok ↔ s.Ok := by simp [sendAck]
@[simp] theorem executed_ok (r n : Nat) (ar : Bool) (s : State) : (executed r n ar s).Ok ↔ s.Ok := by simp [executed]
@[simp] theorem sendNak_ok (r psn st : Nat) (s : State) : (sendNak r psn st s).Ok ↔ s.Ok := by simp [sendNak]

theorem request_ok {n : Nat → State → Nat} {again run : Nat → State → Except Nat State} (ha : ∀ r s, s.Ok → exceptOk (again r s))
    (hr : ∀ r s, s.Ok → exceptOk (run r s)) {s : State} (h : s.Ok) (kind : Nat) (k : Packet) : (request kind k n again run s).Ok := by
  have hk := (takePacket_ok kind k s).2 h
  unfold request
  split
  next heq => rwa [heq] at hk
  next r t heq =>
    rw [heq] at hk
    have ht : t.Ok := hk
    have hagain := ha r t ht
    have hrun := hr r t ht
    simp only
    split
    · simp [ht]
    · split
      · split
        next h1 =>
          rw [h1] at hrun
          simpa using hrun
        next => simp [ht]
      · split
        · split
          next h1 =>
            rw [h1] at hagain
            simpa using hagain
          next => simp [ht]
        · split <;> simp [ht]

@[simp] theorem onHop_ok (p : Plan) (j : Hop) (f : Hop → Hop) (s : State) : (onHop p j f s).Ok ↔ s.Ok := State.onPlan_ok _ _ _

@[simp] theorem placeIn_ok {s : State} (h : s.Ok) (w off : Nat) (bs : List Byte) : (placeIn w off bs s).Ok := by
  simp only [placeIn]
  split
  · exact State.withRam_ok h (Memory.wf_writeN _ _ h.ram_wf)
  · split
    · split <;> simp [h]
    · exact h

@[simp] theorem recordCame_ok (w off : Nat) (imm : W32) (s : State) : (recordCame w off imm s).Ok ↔ s.Ok := by
  simp only [recordCame]
  split <;> simp

@[simp] theorem execHopDeadline_ok (s : State) : nextOk (execHopDeadline s) ↔ s.Ok := by simp [execHopDeadline]

@[simp] theorem targetReceipt_ok (n r op len psn : Nat) (imm tagw : W32) (tally : Option Tally) (s : State) :
    (targetReceipt n r op len psn imm tagw tally s).Ok ↔ s.Ok := by
  simp [targetReceipt]

@[simp] theorem countIn_ok (r : Nat) (s : State) : (countIn r s).Ok ↔ s.Ok := by simp [countIn]
@[simp] theorem beginMessage_ok (r : Nat) (k : Packet) (s : State) : (beginMessage r k s).Ok ↔ s.Ok := by simp [beginMessage]

@[simp] theorem execReceiveWrite_ok {s : State} (h : s.Ok) (k : Packet) : nextOk (execReceiveWrite k s) := by
  unfold execReceiveWrite
  refine request_ok (fun _ _ ht => by exact ht) (fun r t ht => ?_) h 0 k
  split
  · exact placeIn_ok ht _ _ _
  · trivial

@[simp] theorem execReceiveWriteImm_ok {s : State} (h : s.Ok) (k : Packet) : nextOk (execReceiveWriteImm k s) := by
  unfold execReceiveWriteImm
  refine request_ok (fun _ _ ht => by exact ht) (fun r t ht => ?_) h 1 k
  have hput : ∀ w, (placeIn w k.roff k.payload (beginMessage r k t)).Ok := fun w => placeIn_ok (by simp [ht]) _ _ _
  split
  · trivial
  · extract_lets hop u v x start w y
    have hv : v.Ok := hput _
    have hy : y.Ok := by simp [y, w, hv]
    split
    · trivial
    · split
      · simp [hy]
      · exact hv

@[simp] theorem execReceiveReadReq_ok {s : State} (h : s.Ok) (k : Packet) (ecc : Ecc) : nextOk (execReceiveReadReq k ecc s) := by
  unfold execReceiveReadReq
  extract_lets run
  have hrun : ∀ r t, t.Ok → exceptOk (run r t) := fun r t ht => by
    simp only [run]
    split
    · trivial
    · simp [ht]
  exact request_ok hrun hrun h 2 k

@[simp] theorem execReceiveFlush_ok {s : State} (h : s.Ok) (k : Packet) : nextOk (execReceiveFlush k s) := by
  unfold execReceiveFlush
  exact request_ok (fun _ _ ht => by exact ht) (fun _ _ ht => by exact ht) h 4 k

@[simp] theorem takeRecords_ok (r : Nat) (msn : BitVec 16) (cut : Bool) (bs : List Byte) (s : State) : (takeRecords r msn cut bs s).Ok ↔ s.Ok := by
  simp [takeRecords]

@[simp] theorem fireArm_ok (r : Nat) (t : W32) (s : State) : (fireArm r t s).Ok ↔ s.Ok := by
  simp only [fireArm]
  repeat' split
  all_goals simp

@[simp] theorem execReceiveSend_ok {s : State} (h : s.Ok) (m : Arrival) : nextOk (execReceiveSend m s) := by
  unfold execReceiveSend
  refine request_ok (fun _ _ ht => by exact ht) (fun r t ht => ?_) h 3 m.packet
  extract_lets u x room bs v w src y
  have hv : v.Ok := by simp [v, u, ht]
  have hw : w.Ok := by simp [w, hv]
  have hy : y.Ok := by
    simp only [y]
    split
    · exact State.withRam_ok (s := src) hw (Memory.wf_writeN _ _ hw.ram_wf)
    · simp [hw]
    · simp [hw]
  clear_value room y
  split
  · trivial
  · split
    · trivial
    · split
      · trivial
      · split
        · simp [hy]
        · exact hv

@[simp] theorem execReceiveReadResp_ok {s : State} (h : s.Ok) (k : Packet) : nextOk (execReceiveReadResp k s) := by
  have hk := (takePacket_ok 5 k s).2 h
  unfold execReceiveReadResp
  split
  next heq => rwa [heq] at hk
  next r t heq =>
    rw [heq] at hk
    have ht : t.Ok := hk
    simp only
    split
    · exact ht
    · simp only [nextOk_next, settleRoute_ok]
      split
      · simp [ht]
      · exact State.withRam_ok (s := t.onRoute r _) ht (Memory.wf_writeN _ _ ht.ram_wf)

@[simp] theorem execReceiveAck_ok {s : State} (h : s.Ok) (k : Packet) : nextOk (execReceiveAck k s) := by
  have hk := (takePacket_ok 0x10 k s).2 h
  unfold execReceiveAck
  split
  next heq => rwa [heq] at hk
  next heq =>
    rw [heq] at hk
    simp [show State.Ok _ from hk]

@[simp] theorem resendFrom_ok (r psn : Nat) (s : State) : (resendFrom r psn s).Ok ↔ s.Ok := by simp [resendFrom]
@[simp] theorem failOwner_ok (r psn st : Nat) (s : State) : (failOwner r psn st s).Ok ↔ s.Ok := by simp [failOwner]

@[simp] theorem execReceiveNak_ok {s : State} (h : s.Ok) (k : Packet) : nextOk (execReceiveNak k s) := by
  have hk := (takePacket_ok 0x11 k s).2 h
  unfold execReceiveNak
  split
  next heq => rwa [heq] at hk
  next heq =>
    rw [heq] at hk
    simp [show State.Ok _ from hk]

@[simp] theorem execReceiveEase_ok {s : State} (h : s.Ok) (k : Packet) : nextOk (execReceiveEase k s) := by
  have hk := (takePacket_ok 0x12 k s).2 h
  unfold execReceiveEase
  split
  next heq => rwa [heq] at hk
  next heq =>
    rw [heq] at hk
    simp [show State.Ok _ from hk]

@[simp] theorem execAckTimer_ok (r : Nat) (s : State) : nextOk (execAckTimer r s) ↔ s.Ok := by simp [execAckTimer]

@[simp] theorem execRetransmitTimeout_ok (r : Nat) (s : State) : nextOk (execRetransmitTimeout r s) ↔ s.Ok := by
  unfold execRetransmitTimeout
  split <;> simp

@[simp] theorem execRnrRetry_ok (r : Nat) (s : State) : nextOk (execRnrRetry r s) ↔ s.Ok := by
  unfold execRnrRetry
  split <;> simp

@[simp] theorem execCcTimer_ok (r : Nat) (s : State) : nextOk (execCcTimer r s) ↔ s.Ok := by simp [execCcTimer]

/-! ### Network ports (Machine/Net.lean) -/

@[simp] theorem execPfcFrameReceived_ok (port vec : Nat) (xoff : Bool) (fifoFree : Nat) (s : State) :
    nextOk (execPfcFrameReceived port vec xoff fifoFree s) ↔ s.Ok := by
  simp [execPfcFrameReceived]

@[simp] theorem execLinkChange_ok (port : Nat) (lock fecok modp : Bool) (s : State) : nextOk (execLinkChange port lock fecok modp s) ↔ s.Ok := by
  simp [execLinkChange]

@[simp] theorem execArpRequest_ok (port : Nat) (target sender : String) (s : State) : nextOk (execArpRequest port target sender s) ↔ s.Ok := by
  simp [execArpRequest]

@[simp] theorem execNdpSolicitation_ok (port : Nat) (target sender : String) (s : State) :
    nextOk (execNdpSolicitation port target sender s) ↔ s.Ok := by
  simp [execNdpSolicitation]

@[simp] theorem execIcmpEcho_ok (port : Nat) (dst sender : String) (data : List Byte) (s : State) :
    nextOk (execIcmpEcho port dst sender data s) ↔ s.Ok := by
  simp [execIcmpEcho]

@[simp] theorem execIgmpQuery_ok (port version : Nat) (s : State) : nextOk (execIgmpQuery port version s) ↔ s.Ok := by simp [execIgmpQuery]
@[simp] theorem writeNetCtl_ok (p : Nat) (v : W32) (s : State) : (writeNetCtl p v s).Ok ↔ s.Ok := by simp [writeNetCtl]
@[simp] theorem execNetCtlWrite_ok (port : Nat) (v : W32) (s : State) : nextOk (execNetCtlWrite port v s) ↔ s.Ok := by simp [execNetCtlWrite]

@[simp] theorem netRead_ok (p off : Nat) (s : State) : (netRead p off s).2.Ok ↔ s.Ok := by
  unfold netRead
  split <;> simp

@[simp] theorem netWrite_ok (p off : Nat) (v : W32) (s : State) : (netWrite p off v s).Ok ↔ s.Ok := by
  unfold netWrite
  split <;> simp

@[simp] theorem netSetBody_ok (_c : Ctx) (_p : Pfx) (e : Env) (s : State) : (netSetBody _c _p e s).state.Ok ↔ s.Ok := by simp [netSetBody]

@[simp] theorem netLine_ok (named : Bool) (p : Nat) (s : State) : (netLine named p s).2.Ok ↔ s.Ok := by
  simp only [netLine]
  split <;> simp

@[simp] theorem netShowBody_ok (_c : Ctx) (_p : Pfx) (e : Env) (s : State) : (netShowBody _c _p e s).state.Ok ↔ s.Ok := by
  unfold netShowBody
  split <;> simp

@[simp] theorem ptpSetBody_ok (_c : Ctx) (_p : Pfx) (e : Env) (s : State) : (ptpSetBody _c _p e s).state.Ok ↔ s.Ok := by simp [ptpSetBody]
@[simp] theorem ptpShowBody_ok (_c : Ctx) (_p : Pfx) (e : Env) (s : State) : (ptpShowBody _c _p e s).state.Ok ↔ s.Ok := by simp [ptpShowBody]

/-! ### Audio commands (Machine/AudioCmd.lean) -/

@[simp] theorem onPort_ok (p : Nat) (f : TdmPort → TdmPort) (s : State) : (onPort p f s).Ok ↔ s.Ok := by simp [onPort]

@[simp] theorem execSlavePortLock_ok (port phase phasem : Nat) (s : State) : nextOk (execSlavePortLock port phase phasem s) ↔ s.Ok := by
  simp [execSlavePortLock]

@[simp] theorem execFsyncSlip_ok (port : Nat) (s : State) : nextOk (execFsyncSlip port s) ↔ s.Ok := by simp [execFsyncSlip]
@[simp] theorem onRx_ok (k : Nat) (f : Flow → Flow) (s : State) : (onRx k f s).Ok ↔ s.Ok := by simp [onRx]
@[simp] theorem onTx_ok (k : Nat) (f : Flow → Flow) (s : State) : (onTx k f s).Ok ↔ s.Ok := by simp [onTx]

@[simp] theorem execAes67Transmit_ok (flow : Nat) (s : State) : nextOk (execAes67Transmit flow s) ↔ s.Ok := by
  simp only [execAes67Transmit]
  split <;> simp

@[simp] theorem receiveRtp_ok (k seq ts : Nat) (samples : List (List W32)) (s : State) : (receiveRtp k seq ts samples s).Ok ↔ s.Ok := by
  simp [receiveRtp]

@[simp] theorem execAes67Receive_ok (flow seq ts : Nat) (samples : List (List W32)) (s : State) :
    nextOk (execAes67Receive flow seq ts samples s) ↔ s.Ok := by
  simp [execAes67Receive]

@[simp] theorem execAes67FlowLost_ok (flow : Nat) (s : State) : nextOk (execAes67FlowLost flow s) ↔ s.Ok := by simp [execAes67FlowLost]
@[simp] theorem setPort_ok (p : Nat) (n : TdmPort) (s : State) : (setPort p n s).Ok ↔ s.Ok := by simp [setPort]
@[simp] theorem writePortCtl_ok (p : Nat) (v : W32) (s : State) : (writePortCtl p v s).Ok ↔ s.Ok := by simp [writePortCtl]
@[simp] theorem onSelFlow_ok (f : Flow → Flow) (s : State) : (onSelFlow f s).Ok ↔ s.Ok := by simp [onSelFlow]

@[simp] theorem audRead_ok (off : Nat) (s : State) : (audRead off s).2.Ok ↔ s.Ok := by
  simp only [audRead]
  repeat' split
  all_goals simp

@[simp] theorem audWrite_ok (off : Nat) (v : W32) (s : State) : (audWrite off v s).Ok ↔ s.Ok := by
  unfold audWrite
  split <;> simp

@[simp] theorem audSetBody_ok (_c : Ctx) (_p : Pfx) (e : Env) (s : State) : (audSetBody _c _p e s).state.Ok ↔ s.Ok := by simp [audSetBody]

@[simp] theorem audMapBody_ok {s : State} (h : s.Ok) (c : Ctx) (p : Pfx) (e : Env) : (audMapBody c p e s).state.Ok := by
  unfold audMapBody
  split <;> simp [h]

@[simp] theorem audDryBody_ok (_c : Ctx) (_p : Pfx) (e : Env) (s : State) : (audDryBody _c _p e s).state.Ok ↔ s.Ok := by simp [audDryBody]
@[simp] theorem audMuteBody_ok {s : State} (h : s.Ok) (c : Ctx) (p : Pfx) (e : Env) : (audMuteBody c p e s).state.Ok := by simp [audMuteBody, h]

@[simp] theorem audShowBody_ok (_c : Ctx) (_p : Pfx) (e : Env) (s : State) : (audShowBody _c _p e s).state.Ok ↔ s.Ok := by
  simp only [audShowBody]
  repeat' split
  all_goals simp

@[simp] theorem joinGroup_ok (f : Flow) (s : State) : (joinGroup f s).Ok ↔ s.Ok := by simp [joinGroup]

@[simp] theorem putFlow_ok (tx : Bool) (k : Nat) (n : Flow) (en : Bool) (s : State) : (putFlow tx k n en s).Ok ↔ s.Ok := by
  unfold putFlow
  split <;> simp

@[simp] theorem aesSetBody_ok (_c : Ctx) (_p : Pfx) (e : Env) (s : State) : (aesSetBody _c _p e s).state.Ok ↔ s.Ok := by simp [aesSetBody]

@[simp] theorem aesShowBody_ok (_c : Ctx) (_p : Pfx) (e : Env) (s : State) : (aesShowBody _c _p e s).state.Ok ↔ s.Ok := by
  simp only [aesShowBody]
  repeat' split
  all_goals simp

/-! ### USB (Machine/Usb.lean) -/

@[simp] theorem usbReset_ok (stage : CtlStage) (st : UState) (cause : String) (s : State) : (usbReset stage st cause s).Ok ↔ s.Ok := by
  simp [usbReset]

@[simp] theorem busReset_ok (stage : CtlStage) (hs : Bool) (s : State) : (busReset stage hs s).Ok ↔ s.Ok := by simp [busReset]
@[simp] theorem execControlRequest_ok (q : CtlReq) (s : State) : nextOk (execControlRequest q s) ↔ s.Ok := by simp [execControlRequest]
@[simp] theorem busSuspend_ok (s : State) : (busSuspend s).Ok ↔ s.Ok := by simp [busSuspend]
@[simp] theorem execResume_ok (s : State) : nextOk (execResume s) ↔ s.Ok := by simp [execResume]
@[simp] theorem usbDetach_ok (s : State) : (usbDetach s).Ok ↔ s.Ok := by simp [usbDetach]
@[simp] theorem usbAttach_ok (s : State) : (usbAttach s).Ok ↔ s.Ok := by simp [usbAttach]
@[simp] theorem vbusLost_ok (stage : CtlStage) (s : State) : (vbusLost stage s).Ok ↔ s.Ok := by simp [vbusLost]
@[simp] theorem execVbusAttach_ok (s : State) : nextOk (execVbusAttach s) ↔ s.Ok := by simp [execVbusAttach]

@[simp] theorem setAttach_ok (a : Bool) (s : State) : (setAttach a s).Ok ↔ s.Ok := by
  simp only [setAttach]
  repeat' split
  all_goals simp

@[simp] theorem execUac2OutPacket_ok (samples : List (List W32)) (fb : W32) (s : State) : nextOk (execUac2OutPacket samples fb s) ↔ s.Ok := by
  simp [execUac2OutPacket]

@[simp] theorem usbRead_ok (off : Nat) (s : State) : (usbRead off s).2.Ok ↔ s.Ok := by
  unfold usbRead
  split <;> simp

@[simp] theorem usbWrite_ok (off : Nat) (v : W32) (s : State) : (usbWrite off v s).Ok ↔ s.Ok := by
  unfold usbWrite
  split <;> simp

@[simp] theorem usbShowBody_ok (_c : Ctx) (_p : Pfx) (_e : Env) (s : State) : (usbShowBody _c _p _e s).state.Ok ↔ s.Ok := by simp [usbShowBody]

/-! ### Ledger (Machine/Ledger.lean) -/

@[simp] theorem State.onPhys_ok (s : State) (k : Nat) (f : PhysPage → PhysPage) : (State.onPhys s k f).Ok ↔ s.Ok := by simp [State.onPhys]
@[simp] theorem pageFault_ok (l : Nat) (s : State) : (pageFault l s).Ok ↔ s.Ok := by simp [pageFault]

@[simp] theorem wear_ok (k stage part : Nat) (s : State) : (wear k stage part s).Ok ↔ s.Ok := by
  rw [wear, show ∀ (t : State), (notify "ldg" _ t).Ok ↔ t.Ok from notify_ok _ _, State.onLdg_ok, State.onPhys_ok]
  intro d
  split <;> rfl

@[simp] theorem retire_ok (k : Nat) (residue : Bool) (s : State) : (retire k residue s).Ok ↔ s.Ok := by
  simp only [retire]
  repeat' split
  all_goals simp

@[simp] theorem writePhys_ok (k : Nat) (img : List Byte) (part f : Nat) (residue : Bool) (s : State) :
    (writePhys k img part f residue s).1.Ok ↔ s.Ok := by
  simp only [writePhys]
  split <;> simp

-- The equation of `placePage` is found by unfolding the choice among all the pages of the pool, which is deep.
set_option maxRecDepth 100000 in
theorem placePage_succ (t l : Nat) (img : List Byte) (fails : List Nat) (residue : Bool) (s : State) :
    placePage (t + 1) l img fails residue s = match poolPick s with
      | none => (s, fails, none)
      | some k =>
        let w := writePhys k img (partOf l) (nextFail fails).1 residue (s.onPhys k fun x => { x with role := .transit })
        if w.2 then (w.1, (nextFail fails).2, some k) else placePage t l img (nextFail fails).2 residue w.1 := rfl

@[simp] theorem placePage_ok (tries l : Nat) (img : List Byte) (fails : List Nat) (residue : Bool) (s : State) :
    (placePage tries l img fails residue s).1.Ok ↔ s.Ok := by
  induction tries generalizing s fails with
  | zero => exact Iff.rfl
  | succ t ih =>
    rw [placePage_succ]
    split
    · exact Iff.rfl
    · simp only
      split <;> simp [ih]

set_option maxRecDepth 100000 in
theorem placeAll_cons (l : Nat) (img : List Byte) (r : List (Nat × List Byte)) (pairs : List (Nat × Nat)) (fails : List Nat)
    (residue : Bool) (s : State) : placeAll ((l, img) :: r) pairs fails residue s = match placePage 2 l img fails residue s with
      | (s, fails, some k) => placeAll r (pairs ++ [(l, k)]) fails residue s
      | (s, fails, none) => (s, fails, pairs, false) := rfl

@[simp] theorem placeAll_ok (pages : List (Nat × List Byte)) (pairs : List (Nat × Nat)) (fails : List Nat) (residue : Bool) (s : State) :
    (placeAll pages pairs fails residue s).1.Ok ↔ s.Ok := by
  induction pages generalizing s fails pairs with
  | nil => exact Iff.rfl
  | cons p r ih =>
    have hp := placePage_ok 2 p.1 p.2 fails residue s
    obtain ⟨l, img⟩ := p
    rw [placeAll_cons]
    generalize placePage 2 l img fails residue s = x at hp
    obtain ⟨t, fs, _ | k⟩ := x
    · exact hp
    · exact (ih _ _ _).trans hp

@[simp] theorem toPool_ok (ks : List Nat) (s : State) : (toPool ks s).Ok ↔ s.Ok := State.forEach_ok s fun k t => by simp

@[simp] theorem writeJournal_ok (j : Journal) (s : State) : (writeJournal j s).Ok ↔ s.Ok := by
  rw [writeJournal, State.onLdg_ok]
  intro d
  simp only
  repeat' split
  all_goals rfl

@[simp] theorem onNewJournal_ok (f : Journal → Journal) (s : State) : (onNewJournal f s).Ok ↔ s.Ok := by
  rw [onNewJournal, State.onLdg_ok]
  intro d
  split
  · split <;> rfl
  all_goals rfl

@[simp] theorem enterPairs_ok (pairs : List (Nat × Nat)) (s : State) : (enterPairs pairs s).1.Ok ↔ s.Ok := by simp [enterPairs]

@[simp] theorem releaseOld_ok (olds : List (Nat × Nat)) (zeroAll : Bool) (fails : List Nat) (residue : Bool) (s : State) :
    (releaseOld olds zeroAll fails residue s).1.Ok ↔ s.Ok := by
  induction olds generalizing s fails with
  | nil => rfl
  | cons o r ih =>
    rw [releaseOld]
    split
    · simp only [ih]
      split <;> simp
    · simp [ih]

theorem commitBatch_ok {atWord : State → State} (ha : ∀ t, t.Ok → (atWord t).Ok) {s : State} (h : s.Ok) (pages : List (Nat × List Byte))
    (zeroAll : Bool) (fails : List Nat) (upto : CommitEnd) (residue : Bool) :
    (commitBatch pages zeroAll atWord fails upto residue s).1.Ok := by
  have hp := (placeAll_ok pages [] fails residue s).2 h
  unfold commitBatch
  split
  next heq =>
    rw [heq] at hp
    simp [show State.Ok _ from hp]
  next t fs pairs heq =>
    rw [heq] at hp
    have hw : (atWord (onNewJournal (fun j => { j with word := true })
        ((writeJournal { seq := t.ldg.jseq, pairs := pairs, word := false, entered := false } t).onLdg fun d => { d with
          jseq := d.jseq + 1 }))).Ok := ha _ (by simp [show t.Ok from hp])
    simp only
    repeat' split
    all_goals simp [show t.Ok from hp, hw]

theorem commitMany_ok {atWord : State → State} (ha : ∀ t, t.Ok → (atWord t).Ok) {s : State} (h : s.Ok) (fuel : Nat)
    (pages : List (Nat × List Byte)) (zeroAll : Bool) (n : Nat) (fails : List Nat) (upto : CommitEnd) (residue : Bool) :
    (commitMany fuel pages zeroAll atWord n fails upto residue s).1.Ok := by
  induction fuel generalizing s pages n fails with
  | zero => exact h
  | succ f ih =>
    have hword : ∀ t, t.Ok → ((if (pages.drop 16).isEmpty then atWord else id) t).Ok := fun t ht => by
      split
      · exact ha t ht
      · exact ht
    have hb := commitBatch_ok hword h (pages.take 16) zeroAll fails upto residue
    rw [commitMany]
    split
    next heq =>
      rw [heq] at hb
      split
      · exact hb
      · exact ih hb _ _ _
    next => exact hb

@[simp] theorem applyUpd_ok {s : State} (h : s.Ok) (u : LUpd) : (applyUpd u s).Ok := by
  obtain ⟨hram, huser, hchans, hzones⟩ := h
  unfold applyUpd
  split
  case h_2 => exact (State.onLdg_ok _ fun d => by split <;> rfl).2 ⟨hram, huser, hchans, hzones⟩
  case h_11 => exact ⟨hram, Memory.wf_zero _ _ huser, hchans, hzones⟩
  all_goals exact ⟨hram, huser, hchans, hzones⟩

@[simp] theorem runJob_ok {s : State} (h : s.Ok) (j : LJob) (fails : List Nat) (upto : CommitEnd) (residue : Bool) :
    (runJob j fails upto residue s).1.Ok := by
  unfold runJob
  split
  · simp [h]
  · exact commitMany_ok (fun t ht => applyUpd_ok ht j.upd) h _ _ _ _ _ _ _

@[simp] theorem requestJob_ok (j : LJob) (s : State) : (requestJob j s).Ok ↔ s.Ok := by simp [requestJob]
@[simp] theorem lineJob_ok (o : Origin) (u : LUpd) (s : State) : (lineJob o u s).state.Ok ↔ s.Ok := by simp [lineJob]
@[simp] theorem endEnrol_ok (s : State) : (endEnrol s).Ok ↔ s.Ok := by simp [endEnrol]

@[simp] theorem answerJob_ok (j : LJob) (r : Commit) (s : State) : (answerJob j r s).Ok ↔ s.Ok := by
  unfold answerJob
  split <;> simp

@[simp] theorem runFirst_ok {s : State} (h : s.Ok) (fails : List Nat) (upto : CommitEnd) (residue : Bool) :
    (runFirst fails upto residue s).1.Ok := by
  unfold runFirst
  split
  · exact h
  next j r _ =>
    have hj := runJob_ok (s := s.onLdg fun d => { d with queue := r }) (by simp [h]) j fails upto residue
    simp only
    split
    next heq => rwa [heq] at hj
    next heq =>
      rw [heq] at hj
      simp [show State.Ok _ from hj]

@[simp] theorem runAllJobs_ok {s : State} (h : s.Ok) (fuel : Nat) : (runAllJobs fuel s).Ok := by
  induction fuel generalizing s with
  | zero => exact h
  | succ f ih =>
    rw [runAllJobs]
    split
    · exact h
    · exact ih (runFirst_ok h _ _ _)

@[simp] theorem commitLog_ok {s : State} (h : s.Ok) (fails : List Nat) : (commitLog fails s).Ok := by simp [commitLog, h]

@[simp] theorem recoverLedger_ok (s : State) : (recoverLedger s).Ok ↔ s.Ok := by
  unfold recoverLedger
  split <;> simp

@[simp] theorem saveOverflow_ok (s : State) : (saveOverflow s).Ok ↔ s.Ok := by simp [saveOverflow]

@[simp] theorem execLogBufferCommit_ok {s : State} (h : s.Ok) (fails : List Nat) : nextOk (execLogBufferCommit fails s) := by
  simp [execLogBufferCommit, h]

@[simp] theorem startRefresh_ok (s : State) : (startRefresh s).Ok ↔ s.Ok := by simp [startRefresh]

@[simp] theorem refreshRun_ok {s : State} (h : s.Ok) (weak early fade fails : List Nat) : (refreshRun weak early fade fails s).Ok := by
  unfold refreshRun
  extract_lets s0 s1 imgs pages r s2 ok s3 s4 s5
  have h0 : s0.Ok := by simp [s0, h]
  have h1 : s1.Ok := (State.forEach_ok _ fun k t => by split <;> simp).2 h0
  have hr : r.1.Ok := commitMany_ok (fun _ ht => ht) h1 _ _ _ _ _ _ _
  have h2 : s2.Ok := by simp only [s2, State.ite_ok, h1, hr, ite_self]
  have h3 : s3.Ok := by simp [s3, h2]
  simp [s5, s4, h3]

@[simp] theorem execRefreshRun_ok {s : State} (h : s.Ok) (weak early fade fails : List Nat) : nextOk (execRefreshRun weak early fade fails s) := by
  simp [execRefreshRun, h]

/-! ### Ledger commands (Machine/LedgerCmd.lean) -/

@[simp] theorem execPartitionLockoutEnd_ok (part : Nat) (s : State) : nextOk (execPartitionLockoutEnd part s) ↔ s.Ok := by
  simp [execPartitionLockoutEnd]

@[simp] theorem ldgKeyBody_ok (c : Ctx) (_p : Pfx) (e : Env) (s : State) : (ldgKeyBody c _p e s).state.Ok ↔ s.Ok := by
  unfold ldgKeyBody
  split <;> simp

@[simp] theorem dropKeys_ok (p : Nat) (w : Bool) (s : State) : (dropKeys p w s).Ok ↔ s.Ok := by simp [dropKeys]

@[simp] theorem ldgPassBody_ok (_c : Ctx) (_p : Pfx) (e : Env) (s : State) : (ldgPassBody _c _p e s).state.Ok ↔ s.Ok := by
  simp only [ldgPassBody]
  repeat' split
  all_goals simp

@[simp] theorem onSession_ok {s : State} {f : Nat → Res} (h : ∀ n, (f n).state.Ok ↔ s.Ok) (c : Ctx) : (onSession c s f).state.Ok ↔ s.Ok := by
  unfold onSession
  split
  · exact h _
  · rfl

@[simp] theorem ldgBatchBeginBody_ok (c : Ctx) (_p : Pfx) (_e : Env) (s : State) : (ldgBatchBeginBody c _p _e s).state.Ok ↔ s.Ok := by
  simp [ldgBatchBeginBody]

@[simp] theorem ldgBatchCommitBody_ok (c : Ctx) (_p : Pfx) (_e : Env) (s : State) : (ldgBatchCommitBody c _p _e s).state.Ok ↔ s.Ok := by
  refine onSession_ok (fun n => ?_) c
  split
  · rfl
  · split
    · rfl
    · split <;> simp

@[simp] theorem ldgBatchAbortBody_ok (c : Ctx) (_p : Pfx) (_e : Env) (s : State) : (ldgBatchAbortBody c _p _e s).state.Ok ↔ s.Ok := by
  unfold ldgBatchAbortBody
  split <;> simp

@[simp] theorem stagePut_ok (n l off : Nat) (bs : List Byte) (s : State) : (stagePut n l off bs s).state.Ok ↔ s.Ok := by
  simp only [stagePut]
  repeat' split
  all_goals simp

@[simp] theorem ldgPutBody_ok (c : Ctx) (_p : Pfx) (e : Env) (s : State) : (ldgPutBody c _p e s).state.Ok ↔ s.Ok := by
  simp only [ldgPutBody]
  repeat' split
  all_goals simp

@[simp] theorem ldgReadBody_ok {s : State} (h : s.Ok) (_c : Ctx) (_p : Pfx) (e : Env) : (ldgReadBody _c _p e s).state.Ok := by
  have hcopy : ∀ a bs, ({ s with ram := s.ram.writeN a bs } : State).Ok := fun a bs => State.withRam_ok h (Memory.wf_writeN a bs h.ram_wf)
  simp only [ldgReadBody]
  repeat' split
  all_goals simp [h, hcopy]

@[simp] theorem ldgSlateBody_ok {s : State} (h : s.Ok) (_c : Ctx) (_p : Pfx) (e : Env) : (ldgSlateBody _c _p e s).state.Ok := by
  have hput : ∀ b (l : List (Nat × Nat)), (s.forEach l fun v s => s.onLdg fun d => { d with
      user := d.user.writeW (b + 4 * v.1) (BitVec.ofNat 32 v.2) }).Ok := fun b l =>
    State.forEach_inv s State.Ok _ _ (fun v t ⟨hram, huser, hrest⟩ => ⟨hram, Memory.wf_writeW _ _ huser, hrest⟩) h
  simp only [ldgSlateBody]
  repeat' split
  all_goals simp [h, hput]

@[simp] theorem ldgWipeBody_ok (c : Ctx) (_p : Pfx) (e : Env) (s : State) : (ldgWipeBody c _p e s).state.Ok ↔ s.Ok := by simp [ldgWipeBody]

@[simp] theorem ldgRefreshBody_ok (_c : Ctx) (_p : Pfx) (_e : Env) (s : State) : (ldgRefreshBody _c _p _e s).state.Ok ↔ s.Ok := by
  simp [ldgRefreshBody]

@[simp] theorem ldgShowBody_ok (_c : Ctx) (_p : Pfx) (e : Env) (s : State) : (ldgShowBody _c _p e s).state.Ok ↔ s.Ok := by simp [ldgShowBody]
@[simp] theorem logShowBody_ok (_c : Ctx) (_p : Pfx) (_e : Env) (s : State) : (logShowBody _c _p _e s).state.Ok ↔ s.Ok := by simp [logShowBody]

@[simp] theorem logTailBody_ok (_c : Ctx) (_p : Pfx) (e : Env) (s : State) : (logTailBody _c _p e s).state.Ok ↔ s.Ok := by
  simp only [logTailBody]
  split <;> simp

@[simp] theorem logClearBody_ok (c : Ctx) (_p : Pfx) (_e : Env) (s : State) : (logClearBody c _p _e s).state.Ok ↔ s.Ok := by simp [logClearBody]

@[simp] theorem ldgRegRead_ok (off : Nat) (s : State) : (ldgRegRead off s).2.Ok ↔ s.Ok := by
  simp only [ldgRegRead]
  repeat' split
  all_goals simp

@[simp] theorem ldgRegWrite_ok (off : Nat) (v : W32) (s : State) : (ldgRegWrite off v s).Ok ↔ s.Ok := by
  unfold ldgRegWrite
  split <;> simp

/-! ### The Porter (Machine/Porter.lean) -/

@[simp] theorem settlePor_ok (s : State) : (settlePor s).Ok ↔ s.Ok := by simp [settlePor]
@[simp] theorem execVaonFall_ok (s : State) : nextOk (execVaonFall s) ↔ s.Ok := by simp [execVaonFall]
@[simp] theorem execVaonReturn_ok (s : State) : nextOk (execVaonReturn s) ↔ s.Ok := by simp [execVaonReturn]
@[simp] theorem execIslandColdStart_ok (s : State) : nextOk (execIslandColdStart s) ↔ s.Ok := by simp [execIslandColdStart]
@[simp] theorem execVbatFall_ok (s : State) : nextOk (execVbatFall s) ↔ s.Ok := by simp [execVbatFall]
@[simp] theorem assertWake_ok (word : Bool) (s : State) : (assertWake word s).Ok ↔ s.Ok := by simp [assertWake]
@[simp] theorem keywordToDesk_ok (k : Keyword) (sim : Nat) (s : State) : (keywordToDesk k sim s).Ok ↔ s.Ok := by simp [keywordToDesk]

@[simp] theorem drainKeywords_ok (fuel : Nat) (s : State) : (drainKeywords fuel s).Ok ↔ s.Ok := by
  induction fuel generalizing s with
  | zero => rfl
  | succ f ih =>
    rw [drainKeywords]
    split
    · rfl
    · split <;> simp [ih]

@[simp] theorem fireSlot_ok (k sim : Nat) (s : State) : (fireSlot k sim s).Ok ↔ s.Ok := by
  simp only [fireSlot]
  repeat' split
  all_goals simp

@[simp] theorem tick10_ok (s : State) : (tick10 s).Ok ↔ s.Ok := by simp [tick10]
@[simp] theorem aecFrame_ok (f : Feature) (s : State) : (aecFrame f s).Ok ↔ s.Ok := by simp [aecFrame]

@[simp] theorem featureFrame_ok (f : Feature) (s : State) : (featureFrame f s).Ok ↔ s.Ok := by
  simp only [featureFrame]
  repeat' split
  all_goals simp

@[simp] theorem execFeatureFrame_ok (f : Feature) (s : State) : nextOk (execFeatureFrame f s) ↔ s.Ok := by simp [execFeatureFrame]
@[simp] theorem execRefractoryEnd_ok (s : State) : nextOk (execRefractoryEnd s) ↔ s.Ok := by simp [execRefractoryEnd]
@[simp] theorem execPathChangeHoldEnd_ok (s : State) : nextOk (execPathChangeHoldEnd s) ↔ s.Ok := by simp [execPathChangeHoldEnd]
@[simp] theorem execDozeReturn_ok (s : State) : nextOk (execDozeReturn s) ↔ s.Ok := by simp [execDozeReturn]
@[simp] theorem sayCrc_ok (k : Nat) (s : State) : (sayCrc k s).Ok ↔ s.Ok := by simp [sayCrc]
@[simp] theorem execSlotCrcCheck_ok (bad : List Nat) (s : State) : nextOk (execSlotCrcCheck bad s) ↔ s.Ok := by simp [execSlotCrcCheck]
@[simp] theorem reloadSlots_ok (s : State) : (reloadSlots s).Ok ↔ s.Ok := by simp [reloadSlots]
@[simp] theorem enrolNote_ok (k : Nat) (rest : String) (s : State) : (enrolNote k rest s).Ok ↔ s.Ok := by simp [enrolNote]
@[simp] theorem startEnrol_ok (k : Nat) (s : State) : (startEnrol k s).Ok ↔ s.Ok := by simp [startEnrol]
@[simp] theorem dropEnrol_ok (s : State) : (dropEnrol s).Ok ↔ s.Ok := by simp [dropEnrol]

@[simp] theorem execEnrolTake_ok (t : Take) (s : State) : nextOk (execEnrolTake t s) ↔ s.Ok := by
  simp only [execEnrolTake]
  repeat' split
  all_goals simp

@[simp] theorem execEnrolTimeout_ok (s : State) : nextOk (execEnrolTimeout s) ↔ s.Ok := by
  unfold execEnrolTimeout
  split <;> simp

@[simp] theorem porEnrolBody_ok (_c : Ctx) (_p : Pfx) (e : Env) (s : State) : (porEnrolBody _c _p e s).state.Ok ↔ s.Ok := by simp [porEnrolBody]

@[simp] theorem porEnrolDoneBody_ok (c : Ctx) (_p : Pfx) (e : Env) (s : State) : (porEnrolDoneBody c _p e s).state.Ok ↔ s.Ok := by
  unfold porEnrolDoneBody
  split <;> simp

@[simp] theorem porEnrolAbortBody_ok (_c : Ctx) (_p : Pfx) (e : Env) (s : State) : (porEnrolAbortBody _c _p e s).state.Ok ↔ s.Ok := by
  simp [porEnrolAbortBody]

@[simp] theorem porEnrolWakeBody_ok (_c : Ctx) (_p : Pfx) (e : Env) (s : State) : (porEnrolWakeBody _c _p e s).state.Ok ↔ s.Ok := by
  simp [porEnrolWakeBody]

@[simp] theorem porSetBody_ok (_c : Ctx) (_p : Pfx) (e : Env) (s : State) : (porSetBody _c _p e s).state.Ok ↔ s.Ok := by
  unfold porSetBody
  extract_lets refs
  split
  · rfl
  · split
    · rfl
    · cases refs with
      | none => rfl
      | some l => exact (settlePor_ok _).trans (State.onPor_ok _ _)

@[simp] theorem porSlotBody_ok (c : Ctx) (_p : Pfx) (e : Env) (s : State) : (porSlotBody c _p e s).state.Ok ↔ s.Ok := by simp [porSlotBody]

@[simp] theorem porSlotClearBody_ok (c : Ctx) (_p : Pfx) (e : Env) (s : State) : (porSlotClearBody c _p e s).state.Ok ↔ s.Ok := by
  simp [porSlotClearBody]

@[simp] theorem gaugeCheck_ok (mv : Nat) (s : State) : (gaugeCheck mv s).Ok ↔ s.Ok := by simp [gaugeCheck]
@[simp] theorem execGaugeCheck_ok (mv : Nat) (s : State) : nextOk (execGaugeCheck mv s) ↔ s.Ok := by simp [execGaugeCheck]

@[simp] theorem reportGauge_ok (s : State) : (reportGauge s).Ok ↔ s.Ok := by
  simp only [reportGauge]
  split <;> simp

@[simp] theorem execCellRemoved_ok (s : State) : nextOk (execCellRemoved s) ↔ s.Ok := by simp [execCellRemoved]
@[simp] theorem execCellReturn_ok (s : State) : nextOk (execCellReturn s) ↔ s.Ok := by simp [execCellReturn]

@[simp] theorem porGaugeCheckBody_ok (_c : Ctx) (_p : Pfx) (_e : Env) (s : State) : (porGaugeCheckBody _c _p _e s).state.Ok ↔ s.Ok := by
  simp [porGaugeCheckBody]

@[simp] theorem porGaugeNewBody_ok (_c : Ctx) (_p : Pfx) (_e : Env) (s : State) : (porGaugeNewBody _c _p _e s).state.Ok ↔ s.Ok := by
  simp [porGaugeNewBody]

@[simp] theorem porGaugeUsedBody_ok (_c : Ctx) (_p : Pfx) (e : Env) (s : State) : (porGaugeUsedBody _c _p e s).state.Ok ↔ s.Ok := by
  simp [porGaugeUsedBody]

@[simp] theorem releaseWake_ok (s : State) : (releaseWake s).Ok ↔ s.Ok := by simp [releaseWake]
@[simp] theorem holdWake_ok (s : State) : (holdWake s).Ok ↔ s.Ok := by simp [holdWake]

@[simp] theorem porWakeReleaseBody_ok (_c : Ctx) (_p : Pfx) (_e : Env) (s : State) : (porWakeReleaseBody _c _p _e s).state.Ok ↔ s.Ok := by
  simp [porWakeReleaseBody]

@[simp] theorem porWakeHoldBody_ok (_c : Ctx) (_p : Pfx) (_e : Env) (s : State) : (porWakeHoldBody _c _p _e s).state.Ok ↔ s.Ok := by
  simp [porWakeHoldBody]

@[simp] theorem execWakeInAssert_ok (s : State) : nextOk (execWakeInAssert s) ↔ s.Ok := by simp [execWakeInAssert]
@[simp] theorem execWakeTimeout_ok (s : State) : nextOk (execWakeTimeout s) ↔ s.Ok := by simp [execWakeTimeout]

@[simp] theorem porRead_ok (off : Nat) (s : State) : (porRead off s).2.Ok ↔ s.Ok := by
  unfold porRead
  split <;> simp

@[simp] theorem porWrite_ok (off : Nat) (v : W32) (s : State) : (porWrite off v s).Ok ↔ s.Ok := by
  unfold porWrite
  split <;> simp

@[simp] theorem porShowBody_ok (_c : Ctx) (_p : Pfx) (_e : Env) (s : State) : (porShowBody _c _p _e s).state.Ok ↔ s.Ok := by simp [porShowBody]

/-! ### The Hearth (Machine/Hearth.lean) -/

@[simp] theorem postReady_ok (ch : Nat) (on cut : Bool) (s : State) : (postReady ch on cut s).Ok ↔ s.Ok := by simp [postReady]
@[simp] theorem setReady_ok (ch : Nat) (on cut : Bool) (s : State) : (setReady ch on cut s).Ok ↔ s.Ok := by simp [setReady]
@[simp] theorem toState_ok (ch : Nat) (st : HState) (cut : Bool) (s : State) : (toState ch st cut s).Ok ↔ s.Ok := by simp [toState]
@[simp] theorem latch_ok (ch : Nat) (f : HFault) (final cut : Bool) (s : State) : (latch ch f final cut s).Ok ↔ s.Ok := by simp [latch]
@[simp] theorem abortChan_ok (ch : Nat) (cut : Bool) (s : State) : (abortChan ch cut s).Ok ↔ s.Ok := by simp [abortChan]
@[simp] theorem setMode_ok (ch : Nat) (m : HMode) (cut : Bool) (s : State) : (setMode ch m cut s).Ok ↔ s.Ok := by simp [setMode]
@[simp] theorem clearChan_ok (ch : Nat) (s : State) : (clearChan ch s).Ok ↔ s.Ok := by simp [clearChan]
@[simp] theorem readyStep_ok (ch : Nat) (m : HMeas) (cut : Bool) (s : State) : (readyStep ch m cut s).Ok ↔ s.Ok := by simp [readyStep]

@[simp] theorem loopChan_ok (ch : Nat) (m : HMeas) (cut : Bool) (s : State) : (loopChan ch m cut s).Ok ↔ s.Ok := by
  simp only [loopChan]
  repeat' split
  all_goals simp

@[simp] theorem grantTokens_ok (fuel : Nat) (s : State) : (grantTokens fuel s).Ok ↔ s.Ok := by
  induction fuel generalizing s with
  | zero => rfl
  | succ f ih =>
    rw [grantTokens]
    split
    · rfl
    · split <;> simp [ih]

@[simp] theorem supplyLow_ok (vsup : Nat) (sup10 cut : Bool) (s : State) : (supplyLow vsup sup10 cut s).Ok ↔ s.Ok := by simp [supplyLow]
@[simp] theorem supplySag_ok (suprec cut : Bool) (s : State) : (supplySag suprec cut s).Ok ↔ s.Ok := by simp [supplySag]
@[simp] theorem driveGates_ok (s : State) : (driveGates s).Ok ↔ s.Ok := by simp [driveGates]

@[simp] theorem loopPeriod_ok (ms : List HMeas) (sns snsMean : Nat) (suprec sup10 vglow cut : Bool) (s : State) :
    (loopPeriod ms sns snsMean suprec sup10 vglow cut s).Ok ↔ s.Ok := by
  have hloop : ∀ (l : List (Nat × HMeas)) (t : State), (l.foldl (fun s e => loopChan e.1 e.2 cut s) t).Ok ↔ t.Ok :=
    fun l t => State.forEach_ok (l := l) (f := fun e s => loopChan e.1 e.2 cut s) t fun a t => by simp
  simp [loopPeriod, hloop]

@[simp] theorem execControlLoopPeriod_ok (ms : List HMeas) (sns snsMean : Nat) (suprec sup10 vglow cut : Bool) (s : State) :
    nextOk (execControlLoopPeriod ms sns snsMean suprec sup10 vglow cut s) ↔ s.Ok := by
  simp [execControlLoopPeriod]

@[simp] theorem execProbeEnd_ok (ch hv : Nat) (j : HShunt) (tamb : Nat) (s : State) : nextOk (execProbeEnd ch hv j tamb s) ↔ s.Ok := by
  unfold execProbeEnd
  split <;> simp

@[simp] theorem execShortTrip_ok (ch snsMean : Nat) (cut : Bool) (s : State) : nextOk (execShortTrip ch snsMean cut s) ↔ s.Ok := by
  simp [execShortTrip]

@[simp] theorem execAutoRetry_ok (ch : Nat) (s : State) : nextOk (execAutoRetry ch s) ↔ s.Ok := by simp [execAutoRetry]
@[simp] theorem execHoldTimeout_ok (s : State) : nextOk (execHoldTimeout s) ↔ s.Ok := by simp [execHoldTimeout]
@[simp] theorem execParkTimeout_ok (cut : Bool) (s : State) : nextOk (execParkTimeout cut s) ↔ s.Ok := by simp [execParkTimeout]
@[simp] theorem execBackoffEnd_ok (ch : Nat) (s : State) : nextOk (execBackoffEnd ch s) ↔ s.Ok := by simp [execBackoffEnd]

@[simp] theorem execBudgetExcess_ok (cut : Bool) (s : State) : nextOk (execBudgetExcess cut s) ↔ s.Ok := by
  simp only [execBudgetExcess]
  repeat' split
  all_goals simp

@[simp] theorem execGateWatchdog_ok (s : State) : nextOk (execGateWatchdog s) ↔ s.Ok := by simp [execGateWatchdog]

@[simp] theorem execHearthSupplyFault_ok (vg cut : Bool) (s : State) : nextOk (execHearthSupplyFault vg cut s) ↔ s.Ok := by
  simp only [execHearthSupplyFault]
  repeat' split
  all_goals simp

@[simp] theorem hearthOff_ok (s : State) : (hearthOff s).Ok ↔ s.Ok := by simp [hearthOff]
@[simp] theorem hearthOn_ok (s : State) : (hearthOn s).Ok ↔ s.Ok := by simp [hearthOn]

@[simp] theorem hthRead_ok (off : Nat) (s : State) : (hthRead off s).2.Ok ↔ s.Ok := by
  simp only [hthRead]
  repeat' split
  all_goals simp

@[simp] theorem writeMode_ok (ch m : Nat) (s : State) : (writeMode ch m s).Ok ↔ s.Ok := by simp [writeMode]
@[simp] theorem writeChCtl_ok (ch : Nat) (v : W32) (s : State) : (writeChCtl ch v s).Ok ↔ s.Ok := by simp [writeChCtl]

@[simp] theorem hthWrite_ok (off : Nat) (v : W32) (s : State) : (hthWrite off v s).Ok ↔ s.Ok := by
  simp only [hthWrite]
  repeat' split
  all_goals simp

@[simp] theorem execHthStatClearWrite_ok (ch : Nat) (v : W32) (s : State) : nextOk (execHthStatClearWrite ch v s) ↔ s.Ok := by
  simp [execHthStatClearWrite]

@[simp] theorem execHthModeWrite_ok (ch : Nat) (v : W32) (s : State) : nextOk (execHthModeWrite ch v s) ↔ s.Ok := by simp [execHthModeWrite]

@[simp] theorem hthSetBody_ok (c : Ctx) (_p : Pfx) (e : Env) (s : State) : (hthSetBody c _p e s).state.Ok ↔ s.Ok := by
  simp only [hthSetBody]
  repeat' split
  all_goals simp

@[simp] theorem hthClearBody_ok (_c : Ctx) (_p : Pfx) (e : Env) (s : State) : (hthClearBody _c _p e s).state.Ok ↔ s.Ok := by simp [hthClearBody]

@[simp] theorem hthShowBody_ok (_c : Ctx) (_p : Pfx) (e : Env) (s : State) : (hthShowBody _c _p e s).state.Ok ↔ s.Ok := by
  simp only [hthShowBody]
  repeat' split
  all_goals simp

/-! ### House moves (Machine/House.lean) -/

@[simp] theorem clocksOn_ok (d : Nat) (s : State) : (clocksOn d s).Ok ↔ s.Ok := by simp [clocksOn]
@[simp] theorem clocksOff_ok (d : Nat) (s : State) : (clocksOff d s).Ok ↔ s.Ok := by simp [clocksOff]
@[simp] theorem setDom_ok (d : Nat) (on : Bool) (s : State) : (setDom d on s).Ok ↔ s.Ok := by simp [setDom]
@[simp] theorem pd1On_ok (s : State) : (pd1On s).Ok ↔ s.Ok := by simp [pd1On]
@[simp] theorem pd1Off_ok (s : State) : (pd1Off s).Ok ↔ s.Ok := by simp [pd1Off]

@[simp] theorem pd2Off_ok {s : State} (h : s.Ok) : (pd2Off s).Ok := by
  obtain ⟨hram, huser, -, hzones⟩ : (if s.desk.deferred.any fun e => e.2 == .wakeRelease then releaseWake s else s).Ok := by simp [h]
  exact ⟨hram, huser, rfl, by simpa [pd2Off] using hzones⟩

@[simp] theorem pd2On_ok (s : State) : (pd2On s).Ok ↔ s.Ok := Iff.rfl

@[simp] theorem pd3On_ok (s : State) : (pd3On s).Ok ↔ s.Ok := by
  simp [pd3On]
  rfl

@[simp] theorem pd3Off_ok (s : State) : (pd3Off s).Ok ↔ s.Ok := by
  simp [pd3Off]
  rfl

@[simp] theorem pd5On_ok (s : State) : (pd5On s).Ok ↔ s.Ok := by simp [pd5On]
@[simp] theorem pd5Off_ok (s : State) : (pd5Off s).Ok ↔ s.Ok := by simp [pd5Off]
@[simp] theorem netOn_ok (p : Nat) (s : State) : (netOn p s).Ok ↔ s.Ok := by simp [netOn]
@[simp] theorem netOff_ok (p : Nat) (s : State) : (netOff p s).Ok ↔ s.Ok := by simp [netOff]
@[simp] theorem pd8On_ok (s : State) : (pd8On s).Ok ↔ s.Ok := State.forEach_ok { s with cch := {} } fun w t => by simp

@[simp] theorem pd8Off_ok (s : State) : (pd8Off s).Ok ↔ s.Ok := by
  simp only [pd8Off, State.onLdr_ok, State.onWeave_ok]
  exact State.forEach_ok s fun a t => leftOpen_ok a t

@[simp] theorem pd9On_ok (s : State) : (pd9On s).Ok ↔ s.Ok := by simp [pd9On]

@[simp] theorem pd9Off_ok {s : State} (h : s.Ok) : (pd9Off s).Ok := by
  have hwins : ∀ l : List Nat, (s.forEach l closeWindow).Ok := fun l => (State.forEach_ok s fun w t => closeWindow_ok w t).2 h
  have hguests : ∀ (t : State) (l : List Nat), t.Ok → (t.forEach l fun g s => s.onGuest g fun x => x.idle .registered).Ok :=
    fun t l ht => (State.forEach_ok t fun g u => State.onGuest_ok u g _).2 ht
  exact State.withRam_ok (s := { State.forEach _ _ _ with mem := _ }) (hguests _ _ (hwins _))
    (Memory.wf_filter _ (hguests _ _ (hwins _)).ram_wf)

@[simp] theorem pd10On_ok (s : State) : (pd10On s).Ok ↔ s.Ok := by simp [pd10On]

@[simp] theorem pd10Off_ok {s : State} (h : s.Ok) : (pd10Off s).Ok := by
  have hreg : (allRegistered s).Ok := by simp [h]
  simp [pd10Off, State.withRam_ok hreg (Memory.wf_zero _ _ hreg.ram_wf)]

@[simp] theorem pd11Off_ok (s : State) : (pd11Off s).Ok ↔ s.Ok := Iff.rfl
@[simp] theorem pd11On_ok (s : State) : (pd11On s).Ok ↔ s.Ok := by simp [pd11On]

@[simp] theorem quadOff_ok {s : State} (h : s.Ok) (q : Nat) : (quadOff q s).Ok := by
  have hplans : ∀ l : List Plan, (s.forEach l dropPlan).Ok := fun l => (State.forEach_ok s fun p t => dropPlan_ok p t).2 h
  exact State.withRam_ok ((State.onWeave_ok _ _).2 (hplans _)) (Memory.wf_zero _ _ (hplans _).ram_wf)

@[simp] theorem domOn_ok (d : Nat) (s : State) : (domOn d s).Ok ↔ s.Ok := by
  simp only [domOn]
  repeat' split
  all_goals simp

@[simp] theorem domOff_ok {s : State} (h : s.Ok) (d : Nat) : (domOff d s).Ok := by
  simp only [domOff]
  repeat' split
  all_goals simp [h]

@[simp] theorem cutAll_ok {s : State} (h : s.Ok) : (cutAll s).Ok :=
  State.forEach_inv (s.onDesk _) State.Ok offOrder (fun d s => domOff d s) (fun d _ ht => domOff_ok ht d) h

@[simp] theorem defer_ok (k : Nat) (f : Deferred) (s : State) : (defer k f s).Ok ↔ s.Ok := by simp [defer]

@[simp] theorem startRamp_ok (s : State) : (startRamp s).Ok ↔ s.Ok := by
  simp only [startRamp]
  repeat' split
  all_goals simp

@[simp] theorem reached_ok (k : House) (say : Bool) (s : State) : (reached k say s).Ok ↔ s.Ok := by cases say <;> simp [reached]

@[simp] theorem takePend_ok (s : State) : (takePend s).Ok ↔ s.Ok := by
  unfold takePend
  split <;> simp

@[simp] theorem hushRefresh_ok (s : State) : (hushRefresh s).Ok ↔ s.Ok := by simp [hushRefresh]
@[simp] theorem execMoveVaultToHush_ok (s : State) : nextOk (execMoveVaultToHush s) ↔ s.Ok := by simp [execMoveVaultToHush]
@[simp] theorem execMoveHushToLobby_ok (s : State) : nextOk (execMoveHushToLobby s) ↔ s.Ok := by simp [execMoveHushToLobby]

@[simp] theorem riseOn_ok (s : State) : (riseOn s).Ok ↔ s.Ok := by
  simp only [riseOn]
  repeat' split
  all_goals simp

@[simp] theorem execMoveLobbyToFull_ok (s : State) : nextOk (execMoveLobbyToFull s) ↔ s.Ok := by simp [execMoveLobbyToFull]
@[simp] theorem execQuadrantRampEnd_ok (q : Nat) (s : State) : nextOk (execQuadrantRampEnd q s) ↔ s.Ok := by simp [execQuadrantRampEnd]

@[simp] theorem execMoveFullToLobby_ok {s : State} (h : s.Ok) : nextOk (execMoveFullToLobby s) := by
  have hregs : ∀ (t : State) (l : List Nat), t.Ok → (t.forEach l fun g s => toRegistered g s).Ok := fun t l ht =>
    State.forEach_inv t State.Ok _ _ (fun g _ hu => toRegistered_ok hu g) ht
  have hdoms : ∀ (t : State) (l : List Nat), t.Ok → (t.forEach l domOff).Ok := fun t l ht =>
    State.forEach_inv t State.Ok _ _ (fun d _ hu => domOff_ok hu d) ht
  unfold execMoveFullToLobby
  split
  · simp only [nextOk_next, idleLoadcast_ok, reached_ok]
    exact (State.onPwr_ok _ fun _ => rfl).2 (hdoms _ _ (hregs _ _ (by simp [h])))
  · exact h

@[simp] theorem execMoveHushToVault_ok {s : State} (h : s.Ok) (mv : Nat) : nextOk (execMoveHushToVault mv s) := by
  have hlogs : ∀ (t : State) (l : List Nat), t.Ok → (l.foldl (fun s _ => commitLog [] s) t).Ok := fun t l ht =>
    State.forEach_inv t State.Ok l (fun _ s => commitLog [] s) (fun _ _ hu => commitLog_ok hu []) ht
  unfold execMoveHushToVault
  split
  · have hruns := hlogs _ (List.range 4) (runAllJobs_ok h (s.ldg.queue.length + 1))
    refine (State.onPwr_ok _ fun _ => rfl).2 (domOff_ok (domOff_ok ((reached_ok _ _ _).2 ?_) 2) 1)
    simp [hruns]
  · exact h

@[simp] theorem entryCheck_ok (s : State) : (entryCheck s).Ok ↔ s.Ok := by simp [entryCheck]

@[simp] theorem execPwrfail_ok {s : State} (h : s.Ok) (residue : Nat) : nextOk (execPwrfail residue s) := by
  unfold execPwrfail
  split
  · extract_lets s1 s2 s3 s4 s5
    have h2 : s2.Ok := by simp [s2, s1, h]
    have h3 : s3.Ok := runFirst_ok h2 _ _ _
    clear_value s3
    have h5 : s5.Ok := cutAll_ok (by simp [s4, h3])
    clear_value s5
    simp [h5]
  · exact h

@[simp] theorem pinCut_ok {s : State} (h : s.Ok)  : (pinCut s).Ok := by simp [pinCut, h]
@[simp] theorem setCause_ok (cold pin soft wdog2 : Bool) (s : State) : (setCause cold pin soft wdog2 s).Ok ↔ s.Ok := by simp [setCause]

@[simp] theorem pinReset_ok {s : State} (h : s.Ok) (bootsel : Option (BitVec 3)) (soft wdog2 : Bool) : (pinReset bootsel soft wdog2 s).Ok := by
  simp [pinReset, h]

@[simp] theorem execPinReset_ok {s : State} (h : s.Ok) (bootsel : BitVec 3) : nextOk (execPinReset bootsel s) := by simp [execPinReset, h]
@[simp] theorem execVaonWake_ok (bootsel : BitVec 3) (s : State) : nextOk (execVaonWake bootsel s) ↔ s.Ok := by simp [execVaonWake]
@[simp] theorem execTestmodeHigh_ok {s : State} (h : s.Ok)  : nextOk (execTestmodeHigh s) := by simp [execTestmodeHigh, h]
@[simp] theorem execMemTrainDone_ok (installed : Nat) (s : State) : nextOk (execMemTrainDone installed s) ↔ s.Ok := by simp [execMemTrainDone]
@[simp] theorem execMemTrainFail_ok (s : State) : nextOk (execMemTrainFail s) ↔ s.Ok := by simp [execMemTrainFail]

@[simp] theorem houseSetBody_ok (c : Ctx) (_p : Pfx) (e : Env) (s : State) : (houseSetBody c _p e s).state.Ok ↔ s.Ok := by
  simp only [houseSetBody]
  repeat' split
  all_goals simp

@[simp] theorem applyCfg_ok {s : State} (h : s.Ok) (c : BitVec 12) : (applyCfg c s).Ok := by
  have hoff : (s.forEach (cfgDrops c s) domOff).Ok := State.forEach_inv s State.Ok _ _ (fun d _ ht => domOff_ok ht d) h
  simp [applyCfg, hoff]

@[simp] theorem writeDomcfg_ok {s : State} (h : s.Ok) (v : W32) : (writeDomcfg v s).Ok := by simp [writeDomcfg, h]

@[simp] theorem pwrSetBody_ok {s : State} (h : s.Ok) (c : Ctx) (p : Pfx) (e : Env) : (pwrSetBody c p e s).state.Ok := by
  unfold pwrSetBody
  extract_lets point cfg withSet goal cfgV s1 s2 s3 s4
  clear_value point
  have hz : ∀ q, (withSet q).zones = q.zones := fun q => by
    simp only [withSet]
    cases point <;> rfl
  clear_value withSet
  have h1 : s1.Ok := (State.onPwr_ok _ fun q => by simp [hz]).2 h
  clear_value s1
  have h2 : s2.Ok := by simp only [s2]; split <;> simp [h1]
  have h3 : s3.Ok := by simp [s3, h2]
  have h4 : s4.Ok := by simp only [s4]; split <;> simp [h3]
  clear_value goal cfgV s4
  cases cfg
  all_goals
    repeat' split
    all_goals simp [h, h4]

@[simp] theorem houseShowBody_ok (_c : Ctx) (_p : Pfx) (_e : Env) (s : State) : (houseShowBody _c _p _e s).state.Ok ↔ s.Ok := by simp [houseShowBody]

/-! ### Boot and resets (Machine/Boot.lean) -/

@[simp] theorem useDir_ok (f : Flash) (d : Option Bool) (s : State) : (useDir f d s).Ok ↔ s.Ok := by simp [useDir]
@[simp] theorem applyPatch_ok (v : Nat) (ok : Bool) (s : State) : (applyPatch v ok s).Ok ↔ s.Ok := by simp [applyPatch]
@[simp] theorem romFallback_ok (s : State) : (romFallback s).Ok ↔ s.Ok := by simp [romFallback]

@[simp] theorem bootFlash_ok (octal : Bool) (f : Flash) (s : State) : (bootFlash octal f s).Ok ↔ s.Ok := by
  simp only [bootFlash]
  repeat' split
  all_goals simp

@[simp] theorem boot_ok (f : Flash) (s : State) : (boot f s).Ok ↔ s.Ok := by
  simp only [boot]
  split <;> simp

@[simp] theorem execBoot_ok (f : Flash) (s : State) : nextOk (execBoot f s) ↔ s.Ok := by simp [execBoot]

@[simp] theorem endWait_ok {s : State} (h : s.Ok) (patch : Option (Nat × Bool)) : (endWait patch s).Ok := by
  simp only [endWait]
  split <;> simp [h]

@[simp] theorem execBootWaitTimeout_ok {s : State} (h : s.Ok)  : nextOk (execBootWaitTimeout s) := by simp [execBootWaitTimeout, h]

@[simp] theorem execNetBootPatchReceived_ok {s : State} (h : s.Ok) (patch : Option (Nat × Bool)) : nextOk (execNetBootPatchReceived patch s) := by
  simp [execNetBootPatchReceived, h]

@[simp] theorem takeHeld_ok {s : State} (h : s.Ok) (f : Deferred) : (takeHeld f s).Ok := by
  cases f with
  | domains c => exact applyCfg_ok h c
  | wakeRelease => exact (releaseWake_ok s).2 h
  | uart b w => exact h
  | _ => exact h

@[simp] theorem warmReset_ok {s : State} (h : s.Ok) : (warmReset s).Ok := by
  have hheld : ∀ l : List Deferred, (s.forEach l takeHeld).Ok := fun l => State.forEach_inv s State.Ok _ _ (fun f _ ht => takeHeld_ok ht f) h
  unfold warmReset
  extract_lets s1 s2 s3 s4 s5
  have h2 : s2.Ok := runFirst_ok (hheld _) _ _ _
  have h4 : s4.Ok := (State.onLdg_ok s2 fun _ => rfl).2 h2
  have h5 : s5.Ok := by simp only [s5]; split <;> simp [h4]
  exact h5

@[simp] theorem warmByCommand_ok {s : State} (h : s.Ok)  : (warmByCommand s).Ok := by simp [warmByCommand, h]
@[simp] theorem fullReset_ok {s : State} (h : s.Ok)  : (fullReset s).Ok := by simp [fullReset, h]
@[simp] theorem execWatchdogExpiry_ok {s : State} (h : s.Ok)  : nextOk (execWatchdogExpiry s) := by simp [execWatchdogExpiry, h]

theorem sysResetBody_ok {eff : State → State} (he : ∀ s, s.Ok → (eff s).Ok) (f : Deferred) {s : State} (h : s.Ok) (c : Ctx) (_p : Pfx)
    (_e : Env) : (sysResetBody f eff c _p _e s).state.Ok := by
  unfold sysResetBody
  split
  · simp [h]
  · exact he s h

@[simp] theorem sysResetWarmBody_ok {s : State} (h : s.Ok) (c : Ctx) (p : Pfx) (e : Env) : (sysResetWarmBody c p e s).state.Ok := by
  refine sysResetBody_ok (fun t ht => ?_) _ h c p e
  simp [ht]

@[simp] theorem sysResetFullBody_ok {s : State} (h : s.Ok) (c : Ctx) (p : Pfx) (e : Env) : (sysResetFullBody c p e s).state.Ok := by
  refine sysResetBody_ok (fun t ht => ?_) _ h c p e
  simp [ht]

@[simp] theorem writeReset_ok {s : State} (h : s.Ok) (v : W32) : (writeReset v s).Ok := by simp [writeReset, h]
@[simp] theorem execSysResetWriteWarm_ok {s : State} (h : s.Ok) (v : W32) : nextOk (execSysResetWriteWarm v s) := by simp [execSysResetWriteWarm, h]
@[simp] theorem execSysResetWriteFull_ok {s : State} (h : s.Ok) (v : W32) : nextOk (execSysResetWriteFull v s) := by simp [execSysResetWriteFull, h]
@[simp] theorem fuseBody_ok (_c : Ctx) (_p : Pfx) (e : Env) (s : State) : (fuseBody _c _p e s).state.Ok ↔ s.Ok := by simp [fuseBody]
@[simp] theorem flashShowBody_ok (_c : Ctx) (_p : Pfx) (_e : Env) (s : State) : (flashShowBody _c _p _e s).state.Ok ↔ s.Ok := by simp [flashShowBody]

@[simp] theorem flashEraseBody_ok (_c : Ctx) (_p : Pfx) (e : Env) (s : State) : (flashEraseBody _c _p e s).state.Ok ↔ s.Ok := by
  simp only [flashEraseBody]
  repeat' split
  all_goals simp

@[simp] theorem flashWriteBody_ok (_c : Ctx) (_p : Pfx) (e : Env) (s : State) : (flashWriteBody _c _p e s).state.Ok ↔ s.Ok := by
  simp only [flashWriteBody]
  repeat' split
  all_goals simp

@[simp] theorem flashRescanBody_ok (_c : Ctx) (_p : Pfx) (_e : Env) (s : State) : (flashRescanBody _c _p _e s).state.Ok ↔ s.Ok := by
  unfold flashRescanBody
  split <;> simp

@[simp] theorem sysBootBody_ok (_c : Ctx) (_p : Pfx) (_e : Env) (s : State) : (sysBootBody _c _p _e s).state.Ok ↔ s.Ok := by simp [sysBootBody]
@[simp] theorem sysShowBody_ok (_c : Ctx) (_p : Pfx) (_e : Env) (s : State) : (sysShowBody _c _p _e s).state.Ok ↔ s.Ok := by simp [sysShowBody]
@[simp] theorem sysCapsBody_ok (_c : Ctx) (_p : Pfx) (_e : Env) (s : State) : (sysCapsBody _c _p _e s).state.Ok ↔ s.Ok := by simp [sysCapsBody]
@[simp] theorem sysMapBody_ok (_c : Ctx) (_p : Pfx) (_e : Env) (s : State) : (sysMapBody _c _p _e s).state.Ok ↔ s.Ok := by simp [sysMapBody]
@[simp] theorem sysModesBody_ok (_c : Ctx) (_p : Pfx) (_e : Env) (s : State) : (sysModesBody _c _p _e s).state.Ok ↔ s.Ok := by simp [sysModesBody]
@[simp] theorem sysHealthBody_ok (_c : Ctx) (_p : Pfx) (_e : Env) (s : State) : (sysHealthBody _c _p _e s).state.Ok ↔ s.Ok := by simp [sysHealthBody]

@[simp] theorem sysRead_ok (off : Nat) (s : State) : (sysRead off s).2.Ok ↔ s.Ok := by
  unfold sysRead
  split <;> simp

@[simp] theorem sysWrite_ok {s : State} (h : s.Ok) (off : Nat) (v : W32) : (sysWrite off v s).Ok := by
  unfold sysWrite
  split <;> simp [h]

@[simp] theorem tap_ok (ir : Nat) (f : JtagSt → JtagSt) (s : State) : (tap ir f s).Ok ↔ s.Ok := by simp [tap]
@[simp] theorem execExtest_ok (v : List Bool) (s : State) : nextOk (execExtest v s) ↔ s.Ok := by simp [execExtest]
@[simp] theorem execIdcode_ok (s : State) : nextOk (execIdcode s) ↔ s.Ok := by simp [execIdcode]
@[simp] theorem execSamplePreload_ok (v : List Bool) (s : State) : nextOk (execSamplePreload v s) ↔ s.Ok := by simp [execSamplePreload]
@[simp] theorem execClamp_ok (s : State) : nextOk (execClamp s) ↔ s.Ok := by simp [execClamp]
@[simp] theorem execHighz_ok (s : State) : nextOk (execHighz s) ↔ s.Ok := by simp [execHighz]
@[simp] theorem execBypass_ok (s : State) : nextOk (execBypass s) ↔ s.Ok := by simp [execBypass]
@[simp] theorem execClockLoss_ok {s : State} (h : s.Ok) (k : Clk) : nextOk (execClockLoss k s) := by simp [execClockLoss, h]
@[simp] theorem execClockReturn_ok (k : Clk) (s : State) : nextOk (execClockReturn k s) ↔ s.Ok := by simp [execClockReturn]

/-! ### Effects held for a reply (Machine/Held.lean) -/

@[simp] theorem takeDeferred_ok {s : State} (h : s.Ok) (f : Deferred) : (takeDeferred f s).Ok := by
  unfold takeDeferred
  split <;> simp [h]

@[simp] theorem settleRun_ok {s : State} (h : s.Ok) (fuel : Nat) : (settleRun fuel s).Ok := by
  induction fuel generalizing s with
  | zero => exact h
  | succ f ih =>
    rw [settleRun]
    split
    · exact ih (by simp [h])
    · exact h

@[simp] theorem settleDue_ok {s : State} (h : s.Ok) : (settleDue s).Ok := settleRun_ok h _

@[simp] theorem execDeferredEffect_ok {s : State} (h : s.Ok)  : nextOk (execDeferredEffect s) := by
  unfold execDeferredEffect
  split <;> simp [h]

@[simp] theorem execMoveLobbyToHush_ok {s : State} (h : s.Ok) : nextOk (execMoveLobbyToHush s) := by
  have hdoms : ∀ l : List Nat, (s.forEach l domOff).Ok := fun l => State.forEach_inv s State.Ok _ _ (fun d _ hu => domOff_ok hu d) h
  unfold execMoveLobbyToHush
  split
  · exact settleDue_ok ((hushRefresh_ok _).2 ((reportGauge_ok _).2 ((reloadSlots_ok _).2 ((reached_ok _ _ _).2 (hdoms _)))))
  · exact h

@[simp] theorem execPwrDomcfgWrite_ok {s : State} (h : s.Ok) (v : W32) : nextOk (execPwrDomcfgWrite v s) := by simp [execPwrDomcfgWrite, h]

@[simp] theorem pwrSetAll_ok {s : State} (h : s.Ok) (c : Ctx) (p : Pfx) (e : Env) : (pwrSetAll c p e s).state.Ok := by
  have hb := pwrSetBody_ok h c p e
  unfold pwrSetAll
  split
  next heq =>
    rw [heq] at hb
    exact settleDue_ok hb
  next => exact hb

@[simp] theorem execBusReset_ok {s : State} (h : s.Ok) (stage : CtlStage) (hs : Bool) : nextOk (execBusReset stage hs s) := by simp [execBusReset, h]
@[simp] theorem execSuspend_ok {s : State} (h : s.Ok)  : nextOk (execSuspend s) := by simp [execSuspend, h]
@[simp] theorem execVbusLoss_ok {s : State} (h : s.Ok) (stage : CtlStage) : nextOk (execVbusLoss stage s) := by simp [execVbusLoss, h]

@[simp] theorem usbSetBody_ok {s : State} (h : s.Ok) (_c : Ctx) (_p : Pfx) (e : Env) : (usbSetBody _c _p e s).state.Ok := by
  simp only [usbSetBody]
  repeat' split
  all_goals simp [h]

/-! ### Registers (Machine/Regs.lean) -/

@[simp] theorem dskRead_ok (off : Nat) (s : State) : (dskRead off s).2.Ok ↔ s.Ok := by
  unfold dskRead
  split <;> simp

@[simp] theorem dskWrite_ok (off : Nat) (v : W32) (s : State) : (dskWrite off v s).Ok ↔ s.Ok := by
  unfold dskWrite
  split <;> simp

@[simp] theorem blockRead_ok (b off : Nat) (s : State) : (blockRead b off s).2.Ok ↔ s.Ok := by
  unfold blockRead
  split <;> simp

@[simp] theorem blockWrite_ok {s : State} (h : s.Ok) (b off : Nat) (v : W32) : (blockWrite b off v s).Ok := by
  unfold blockWrite
  split <;> simp [h]

@[simp] theorem readPlace_ok {s : State} (h : s.Ok) (a : Nat) : (readPlace a s).2.Ok := by
  unfold readPlace
  split <;> simp [h]

@[simp] theorem writePlace_ok {s : State} (h : s.Ok) (a : Nat) (v : W32) : (writePlace a v s).Ok := by
  unfold writePlace
  split
  · exact h
  · split
    · simp [h]
    · simp [h]
    · simp [h]
    · exact State.withRam_ok h (Memory.wf_writeW _ _ h.ram_wf)

@[simp] theorem readRun_ok {s : State} (h : s.Ok) (n a : Nat) : (readRun n a s).2.Ok := by
  induction n generalizing a s with
  | zero => exact h
  | succ k ih => exact ih (readPlace_ok h a) (a + 4)

@[simp] theorem pokeRun_ok {s : State} (h : s.Ok) (o : Origin) (l : List W32) (a : Nat) : (pokeRun o l a s).Ok := by
  induction l generalizing a s with
  | nil => exact h
  | cons w r ih =>
    rw [pokeRun]
    refine ih ?_ (a + 4)
    split <;> simp [h]

@[simp] theorem peekBody_ok {s : State} (h : s.Ok) (_c : Ctx) (_p : Pfx) (e : Env) : (peekBody _c _p e s).state.Ok := by
  simp only [peekBody]
  split <;> simp [h]

@[simp] theorem pokeBody_ok {s : State} (h : s.Ok) (c : Ctx) (p : Pfx) (e : Env) : (pokeBody c p e s).state.Ok := by
  unfold pokeBody
  extract_lets a l
  split
  · exact h
  · split
    · exact h
    · split
      · exact h
      · exact settleDue_ok (pokeRun_ok h _ _ _)

@[simp] theorem execRegisterWrite_ok {s : State} (h : s.Ok) (addr : Nat) (v : W32) : nextOk (execRegisterWrite addr v s) := by
  simp [execRegisterWrite, h]

@[simp] theorem execDebug_ok {s : State} (h : s.Ok) (write : Bool) (addr : Nat) (v : W32) :
    nextOk (execDebug write addr v s) := by simp [execDebug, h]

@[simp] theorem bulkAnswer_ok (data : List Byte) (code moved : Nat) (s : State) : (bulkAnswer data code moved s).Ok ↔ s.Ok := by simp [bulkAnswer]
@[simp] theorem bulkEnd_ok {s : State} (h : s.Ok) (len : Nat) (patch : Option (Nat × Bool)) : (bulkEnd len patch s).Ok := by simp [bulkEnd, h]

@[simp] theorem execVendorBulkWrite_ok {s : State} (h : s.Ok) (b : BulkHdr) (data : List Byte) (body : Option PlanBody) :
    nextOk (execVendorBulkWrite b data body s) := by
  have hput : ∀ a bs, ({ s with ram := s.ram.writeN a bs } : State).Ok := fun a bs => State.withRam_ok h (Memory.wf_writeN a bs h.ram_wf)
  simp only [execVendorBulkWrite]
  repeat' split
  all_goals simp [h, hput]

@[simp] theorem execVendorBulkRead_ok {s : State} (h : s.Ok) (b : BulkHdr) : nextOk (execVendorBulkRead b s) := by
  simp only [execVendorBulkRead]
  repeat' split
  all_goals simp [h]

@[simp] theorem execVendorBulkEndWait_ok {s : State} (h : s.Ok) (len : Nat) (patch : Option (Nat × Bool)) :
    nextOk (execVendorBulkEndWait len patch s) := by
  simp [execVendorBulkEndWait, h]

/-! ### Sessions (Machine/Session.lean) -/

@[simp] theorem openSession_ok (k port : Nat) (peer : String) (s : State) : (openSession k port peer s).Ok ↔ s.Ok := by
  simp only [openSession]
  split <;> simp

@[simp] theorem execCdcDtrSet_ok (s : State) : nextOk (execCdcDtrSet s) ↔ s.Ok := by simp [execCdcDtrSet]
@[simp] theorem execCdcDtrClear_ok {s : State} (h : s.Ok)  : nextOk (execCdcDtrClear s) := by simp [execCdcDtrClear, h]

@[simp] theorem execTcpConnect_ok (port tcpPort : Nat) (peer : String) (s : State) : nextOk (execTcpConnect port tcpPort peer s) ↔ s.Ok := by
  simp [execTcpConnect]

@[simp] theorem execTcpClose_ok {s : State} (h : s.Ok) (k : Nat) : nextOk (execTcpClose k s) := by simp [execTcpClose, h]
@[simp] theorem execOutputBufferDrain_ok (k n : Nat) (s : State) : nextOk (execOutputBufferDrain k n s) ↔ s.Ok := by simp [execOutputBufferDrain]
@[simp] theorem deskDropped_ok (k : Nat) (s : State) : (deskDropped k s).Ok ↔ s.Ok := by simp [deskDropped]
@[simp] theorem execDeskDropped_ok (k : Nat) (s : State) : nextOk (execDeskDropped k s) ↔ s.Ok := by simp [execDeskDropped]

@[simp] theorem deskModeBody_ok (c : Ctx) (_p : Pfx) (e : Env) (s : State) : (deskModeBody c _p e s).state.Ok ↔ s.Ok := by
  unfold deskModeBody
  split <;> simp

@[simp] theorem deskNoticesBody_ok (c : Ctx) (_p : Pfx) (e : Env) (s : State) : (deskNoticesBody c _p e s).state.Ok ↔ s.Ok := by
  unfold deskNoticesBody
  split <;> simp

@[simp] theorem deskShowBody_ok (_c : Ctx) (_p : Pfx) (_e : Env) (s : State) : (deskShowBody _c _p _e s).state.Ok ↔ s.Ok := by simp [deskShowBody]

@[simp] theorem deskUartBody_ok {s : State} (h : s.Ok) (c : Ctx) (_p : Pfx) (e : Env) : (deskUartBody c _p e s).state.Ok := by
  unfold deskUartBody
  split <;> simp [h]

@[simp] theorem deskSetBody_ok (_c : Ctx) (_p : Pfx) (e : Env) (s : State) : (deskSetBody _c _p e s).state.Ok ↔ s.Ok := by simp [deskSetBody]

@[simp] theorem deskClaimBody_ok (c : Ctx) (_p : Pfx) (e : Env) (s : State) : (deskClaimBody c _p e s).state.Ok ↔ s.Ok := by
  unfold deskClaimBody
  split <;> simp

@[simp] theorem deskReleaseBody_ok (c : Ctx) (_p : Pfx) (e : Env) (s : State) : (deskReleaseBody c _p e s).state.Ok ↔ s.Ok := by
  unfold deskReleaseBody
  split <;> simp

@[simp] theorem deskPassBody_ok (c : Ctx) (_p : Pfx) (e : Env) (s : State) : (deskPassBody c _p e s).state.Ok ↔ s.Ok := by simp [deskPassBody]
@[simp] theorem unlockFailed_ok (k : Nat) (s : State) : (unlockFailed k s).Ok ↔ s.Ok := by simp [unlockFailed]

@[simp] theorem unlockBody_ok (c : Ctx) (_p : Pfx) (e : Env) (s : State) : (unlockBody c _p e s).state.Ok ↔ s.Ok := by
  unfold unlockBody
  split <;> simp

@[simp] theorem lockBody_ok (c : Ctx) (_p : Pfx) (_e : Env) (s : State) : (lockBody c _p _e s).state.Ok ↔ s.Ok := by
  unfold lockBody
  split <;> simp

@[simp] theorem execUnlockHoldoffEnd_ok (k : Nat) (s : State) : nextOk (execUnlockHoldoffEnd k s) ↔ s.Ok := by simp [execUnlockHoldoffEnd]
@[simp] theorem execUnlockLockoutEnd_ok (s : State) : nextOk (execUnlockLockoutEnd s) ↔ s.Ok := by simp [execUnlockLockoutEnd]
@[simp] theorem pingBody_ok (_c : Ctx) (_p : Pfx) (_e : Env) (s : State) : (pingBody _c _p _e s).state.Ok ↔ s.Ok := by simp [pingBody]

@[simp] theorem morningShowBody_ok (_c : Ctx) (_p : Pfx) (_e : Env) (s : State) : (morningShowBody _c _p _e s).state.Ok ↔ s.Ok := by
  simp [morningShowBody]

@[simp] theorem morningSetBody_ok (c : Ctx) (_p : Pfx) (e : Env) (s : State) : (morningSetBody c _p e s).state.Ok ↔ s.Ok := by
  simp only [morningSetBody]
  split <;> simp

@[simp] theorem morningDelBody_ok (c : Ctx) (_p : Pfx) (e : Env) (s : State) : (morningDelBody c _p e s).state.Ok ↔ s.Ok := by simp [morningDelBody]

@[simp] theorem morningClearBody_ok (c : Ctx) (_p : Pfx) (_e : Env) (s : State) : (morningClearBody c _p _e s).state.Ok ↔ s.Ok := by
  simp [morningClearBody]

@[simp] theorem morningRunBody_ok (c : Ctx) (_p : Pfx) (_e : Env) (s : State) : (morningRunBody c _p _e s).state.Ok ↔ s.Ok := by
  unfold morningRunBody
  split <;> simp

@[simp] theorem macroSetBody_ok (c : Ctx) (_p : Pfx) (e : Env) (s : State) : (macroSetBody c _p e s).state.Ok ↔ s.Ok := by simp [macroSetBody]
@[simp] theorem macroClearBody_ok (c : Ctx) (_p : Pfx) (e : Env) (s : State) : (macroClearBody c _p e s).state.Ok ↔ s.Ok := by simp [macroClearBody]
@[simp] theorem macroShowBody_ok (_c : Ctx) (_p : Pfx) (_e : Env) (s : State) : (macroShowBody _c _p _e s).state.Ok ↔ s.Ok := by simp [macroShowBody]
@[simp] theorem skipScript_ok (s : State) : (skipScript s).Ok ↔ s.Ok := by simp [skipScript]
@[simp] theorem execMorningSkip_ok (s : State) : nextOk (execMorningSkip s) ↔ s.Ok := by simp [execMorningSkip]

@[simp] theorem execMorningTimeout_ok (s : State) : nextOk (execMorningTimeout s) ↔ s.Ok := by
  unfold execMorningTimeout
  split <;> simp

@[simp] theorem execLedgerCommit_ok {s : State} (h : s.Ok) (fails : List Nat) (upto : CommitEnd) (residue : Bool) :
    nextOk (execLedgerCommit fails upto residue s) := by
  simp [execLedgerCommit, h]

/-! ### The catalogue (Machine/Catalogue.lean) -/

@[simp] theorem helpBody_ok (_c : Ctx) (_p : Pfx) (e : Env) (s : State) : (helpBody _c _p e s).state.Ok ↔ s.Ok := by
  simp only [helpBody]
  repeat' split
  all_goals simp

/-! ### Lines (Machine/Lines.lean) -/

/-- Every verb's body keeps the form of the state. -/
theorem verbs_ok : ∀ x ∈ verbs, ∀ c p e s, s.Ok → (x.2 c p e s).state.Ok := by
  simp only [verbs, plainVerbs, tallyVerbs, guestVerbs, planVerbs, larderVerbs, coachVerbs, netVerbs, audioVerbs, usbVerbs, ledgerVerbs,
    porterVerbs, hearthVerbs, houseVerbs, heldVerbs, sysVerbs, regVerbs, deskVerbs, List.forall_mem_append, List.forall_mem_cons,
    List.not_mem_nil, IsEmpty.forall_iff, implies_true, and_true]
  and_intros
  all_goals
    intro c p e s h
    simp [h]

/-- The form of a verb that fits best is one of those asked. -/
theorem bestForm_mem {l : List (Verb × (Ctx → Pfx → Env → State → Res))} {a : Args} {x : Verb × (Ctx → Pfx → Env → State → Res)}
    (h : bestForm l a = some x) : x ∈ l := by
  have hfold : ∀ (l : List (Verb × (Ctx → Pfx → Env → State → Res))) (b : Option (Verb × (Ctx → Pfx → Env → State → Res))),
      l.foldl (fun b x => match b with | none => some x | some y => if misfit x.1 a < misfit y.1 a then some x else b) b = some x →
      x ∈ l ∨ b = some x := by
    intro l
    induction l with
    | nil => exact fun b hb => .inr hb
    | cons y r ih =>
      intro b hb
      obtain hm | hm := ih _ hb
      · exact .inl (.tail _ hm)
      · cases b with
        | none => exact .inl (by cases hm; exact .head _)
        | some z =>
          simp only at hm
          split at hm
          · exact .inl (by cases hm; exact .head _)
          · exact .inr hm
  simpa using hfold l none h

/-- The verb that a line names is one of the catalogue. -/
theorem findVerb_mem {o n : String} {a : Args} {x : Verb × (Ctx → Pfx → Env → State → Res)} (h : findVerb o n a = .ok x) : x ∈ verbs := by
  unfold findVerb at h
  split at h
  · cases h
  · split at h
    next hb =>
      cases h
      exact (List.mem_filter.mp (bestForm_mem hb)).1
    next => cases h

theorem lineRes_ok {s : State} (h : s.Ok) (c : Ctx) (long : Bool) (t : List Char) : ∀ r ∈ lineRes c long t s, r.state.Ok := by
  intro r hr
  unfold lineRes at hr
  split at hr
  · cases hr; exact h
  · split at hr
    · cases hr
    · cases hr; exact h
    · split at hr
      · cases hr; exact h
      next hf =>
        cases hr
        exact runVerb_ok (verbs_ok _ (findVerb_mem hf)) c _ _ h

theorem typedLine_ok {s : State} (h : s.Ok) (c : Ctx) (text : String) : ∀ r ∈ typedLine c text s, r.state.Ok := lineRes_ok h c _ _

@[simp] theorem keepReply_ok (k : Nat) (text : String) (tag : Nat) (r : Res) : (keepReply k text tag r).state.Ok ↔ r.state.Ok := by
  cases r <;> rfl

@[simp] theorem machLine_ok {s : State} (h : s.Ok) (k : Nat) (text : String) (cut : Bool) : (machLine k text cut s).Ok := by
  unfold machLine
  split
  · exact h
  · refine (pushOut_ok _ _ _ _).2 ?_
    split <;> simp [h]
  · simp [h]
  next tag body _ =>
    extract_lets c t long
    have ht : t.Ok := by simp [t, h]
    rw [deliver_ok, keepReply_ok]
    cases hl : lineRes c long body t with
    | none => exact ht
    | some r => exact lineRes_ok ht _ _ _ r hl

@[simp] theorem readLine_ok {s : State} (h : s.Ok) (k : Nat) (text : String) (cut : Bool) : (readLine k text cut s).Ok := by
  unfold readLine
  split
  · simp [h]
  · split
    · simp [h]
    next heq => exact (deliver_ok _ _).2 (typedLine_ok h _ _ _ heq)

@[simp] theorem serveLine_ok {s : State} (h : s.Ok) (k : Nat) (cut : Bool) : (serveLine k cut s).Ok := by
  unfold serveLine
  split <;> simp [h]

@[simp] theorem takeLine_ok {s : State} (h : s.Ok) (k : Nat) (text : String) (cut : Bool) : (takeLine k text cut s).Ok := by simp [takeLine, h]

@[simp] theorem execLineReceived_ok {s : State} (h : s.Ok) (k : Nat) (text : String) (cut : Bool) : nextOk (execLineReceived k text cut s) := by
  simp [execLineReceived, h]

@[simp] theorem execReplyBuffered_ok {s : State} (h : s.Ok) (k : Nat) (cut : Bool) : nextOk (execReplyBuffered k cut s) := by
  simp [execReplyBuffered, h]

@[simp] theorem typeChar_ok (k : Nat) (ch : Char) (s : State) : (typeChar k ch s).Ok ↔ s.Ok := by simp [typeChar]
@[simp] theorem takeChar_ok {s : State} (h : s.Ok) (k ch : Nat) (cut : Bool) : (takeChar k ch cut s).Ok := by simp [takeChar, h]

@[simp] theorem execTypedCharacter_ok {s : State} (h : s.Ok) (k ch : Nat) (cut : Bool) : nextOk (execTypedCharacter k ch cut s) := by
  simp [execTypedCharacter, h]

@[simp] theorem morningLine_ok {s : State} (h : s.Ok) (cut : Bool) : (morningLine cut s).Ok := by
  unfold morningLine
  split
  · split <;> simp [h]
  · split
    · exact h
    · split
      · simp [h]
      · split
        · simp [h]
        · simp only
          split
          · simp [h]
          next heq => exact (deliver_ok _ _).2 (typedLine_ok (by simp [h]) _ _ _ heq)

@[simp] theorem execMorningLine_ok {s : State} (h : s.Ok) (cut : Bool) : nextOk (execMorningLine cut s) := by simp [execMorningLine, h]

@[simp] theorem runKeyword_ok {s : State} (h : s.Ok) (w : Keyword) (cut : Bool) : (runKeyword w cut s).Ok := by
  unfold runKeyword
  split
  · exact h
  · simp only
    split
    · exact h
    next heq => exact (deliver_ok _ _).2 (typedLine_ok h _ _ _ heq)

@[simp] theorem execKeywordMacroRun_ok {s : State} (h : s.Ok) (cut : Bool) : nextOk (execKeywordMacroRun cut s) := by
  simp only [execKeywordMacroRun]
  repeat' split
  all_goals simp [h]

@[simp] theorem runRouteLine_ok {s : State} (h : s.Ok) (r : Nat) (msn : BitVec 16) (bs : List Byte) (cut : Bool) :
    (runRouteLine r msn bs cut s).Ok := by
  simp only [runRouteLine]
  split
  · simp [h]
  next heq => exact (deliver_ok _ _).2 (typedLine_ok (by simp [h]) _ _ _ heq)

@[simp] theorem execDeskRouteLine_ok {s : State} (h : s.Ok) (r : Nat) (cut : Bool) : nextOk (execDeskRouteLine r cut s) := by
  unfold execDeskRouteLine
  split <;> simp [h]

/-! ### Every command -/

/-- Every command keeps the form of the state: one case for each row of the opcode table. -/
theorem exec_ok (i : Instr) {s : State} (hok : s.Ok) : nextOk (exec i s) := by
  cases i with
  | tallyEdge ins => exact execTallyEdge_ok hok ins
  | roundStart => exact execRoundStart_ok hok
  | rowJobComplete stake slot row sec => exact execRowJobComplete_ok hok stake slot row sec
  | rowAbandon => exact (execRowAbandon_ok s).2 hok
  | stakeDoubleBitError stake slot => exact (execStakeDoubleBitError_ok stake slot s).2 hok
  | eraStart => exact (execEraStart_ok s).2 hok
  | refclkLoss => exact (execRefclkLoss_ok s).2 hok
  | refclkReturn => exact (execRefclkReturn_ok s).2 hok
  | frequencyWindow ppm => exact (execFrequencyWindow_ok ppm s).2 hok
  | tallySourceLost => exact (execTallySourceLost_ok s).2 hok
  | tallySourceReturn => exact (execTallySourceReturn_ok s).2 hok
  | ptpSync m sec ns offsetNs => exact (execPtpSync_ok m sec ns offsetNs s).2 hok
  | tallyAlign phaseNs => exact (execTallyAlign_ok phaseNs s).2 hok
  | tallyLocked => exact (execTallyLocked_ok s).2 hok
  | eventEnqueue src seq stamp cut eff => exact (execEventEnqueue_ok src seq stamp cut eff s).2 hok
  | tlyNowLoRead => exact (execTlyNowLoRead_ok s).2 hok
  | tlyCntSkipLoRead => exact (execTlyCntSkipLoRead_ok s).2 hok
  | tlySourceWrite v => exact (execTlySourceWrite_ok v s).2 hok
  | tlyRateWrite v => exact (execTlyRateWrite_ok v s).2 hok
  | tlyEpochNsWrite v => exact (execTlyEpochNsWrite_ok v s).2 hok
  | tlySet c p a => exact ulc_ok (fun c p e s => (tlySetBody_ok c p e s).2) c p a hok
  | tlyLate c p a => exact ulc_ok (fun c p e s => (tlyLateBody_ok c p e s).2) c p a hok
  | tlyShow c p a => exact ulc_ok (fun c p e s => (tlyShowBody_ok c p e s).2) c p a hok
  | clkShow c p a => exact ulc_ok (fun c p e s => (clkShowBody_ok c p e s).2) c p a hok
  | registerWrite addr v => exact execRegisterWrite_ok hok addr v
  | cdcDtrSet => exact (execCdcDtrSet_ok s).2 hok
  | cdcDtrClear => exact execCdcDtrClear_ok hok
  | tcpConnect port tcpPort peer => exact (execTcpConnect_ok port tcpPort peer s).2 hok
  | tcpClose sess => exact execTcpClose_ok hok sess
  | typedCharacter sess ch cut => exact execTypedCharacter_ok hok sess ch cut
  | lineReceived sess text cut => exact execLineReceived_ok hok sess text cut
  | deskDropped sess => exact (execDeskDropped_ok sess s).2 hok
  | replyBuffered sess cut => exact execReplyBuffered_ok hok sess cut
  | outputBufferDrain sess n => exact (execOutputBufferDrain_ok sess n s).2 hok
  | deferredEffect => exact execDeferredEffect_ok hok
  | deskMode c p a => exact ulc_ok (fun c p e s => (deskModeBody_ok c p e s).2) c p a hok
  | deskNotices c p a => exact ulc_ok (fun c p e s => (deskNoticesBody_ok c p e s).2) c p a hok
  | deskShow c p a => exact ulc_ok (fun c p e s => (deskShowBody_ok c p e s).2) c p a hok
  | deskUart c p a => exact ulc_ok (fun c p e s h => deskUartBody_ok h c p e) c p a hok
  | deskSet c p a => exact ulc_ok (fun c p e s => (deskSetBody_ok c p e s).2) c p a hok
  | deskClaim c p a => exact ulc_ok (fun c p e s => (deskClaimBody_ok c p e s).2) c p a hok
  | deskRelease c p a => exact ulc_ok (fun c p e s => (deskReleaseBody_ok c p e s).2) c p a hok
  | deskPass c p a => exact ulc_ok (fun c p e s => (deskPassBody_ok c p e s).2) c p a hok
  | unlock c p a => exact ulc_ok (fun c p e s => (unlockBody_ok c p e s).2) c p a hok
  | lock c p a => exact ulc_ok (fun c p e s => (lockBody_ok c p e s).2) c p a hok
  | unlockHoldoffEnd sess => exact (execUnlockHoldoffEnd_ok sess s).2 hok
  | unlockLockoutEnd => exact (execUnlockLockoutEnd_ok s).2 hok
  | help c p a => exact ulc_ok (fun c p e s => (helpBody_ok c p e s).2) c p a hok
  | ping c p a => exact ulc_ok (fun c p e s => (pingBody_ok c p e s).2) c p a hok
  | peek c p a => exact ulc_ok (fun c p e s h => peekBody_ok h c p e) c p a hok
  | poke c p a => exact ulc_ok (fun c p e s h => pokeBody_ok h c p e) c p a hok
  | morningSkip => exact (execMorningSkip_ok s).2 hok
  | morningLine cut => exact execMorningLine_ok hok cut
  | morningTimeout => exact (execMorningTimeout_ok s).2 hok
  | morningShow c p a => exact ulc_ok (fun c p e s => (morningShowBody_ok c p e s).2) c p a hok
  | morningSet c p a => exact ulc_ok (fun c p e s => (morningSetBody_ok c p e s).2) c p a hok
  | morningDel c p a => exact ulc_ok (fun c p e s => (morningDelBody_ok c p e s).2) c p a hok
  | morningClear c p a => exact ulc_ok (fun c p e s => (morningClearBody_ok c p e s).2) c p a hok
  | morningRun c p a => exact ulc_ok (fun c p e s => (morningRunBody_ok c p e s).2) c p a hok
  | keywordMacroRun cut => exact execKeywordMacroRun_ok hok cut
  | macroSet c p a => exact ulc_ok (fun c p e s => (macroSetBody_ok c p e s).2) c p a hok
  | macroClear c p a => exact ulc_ok (fun c p e s => (macroClearBody_ok c p e s).2) c p a hok
  | macroShow c p a => exact ulc_ok (fun c p e s => (macroShowBody_ok c p e s).2) c p a hok
  | sysShow c p a => exact ulc_ok (fun c p e s => (sysShowBody_ok c p e s).2) c p a hok
  | sysCaps c p a => exact ulc_ok (fun c p e s => (sysCapsBody_ok c p e s).2) c p a hok
  | sysMap c p a => exact ulc_ok (fun c p e s => (sysMapBody_ok c p e s).2) c p a hok
  | sysModes c p a => exact ulc_ok (fun c p e s => (sysModesBody_ok c p e s).2) c p a hok
  | sysHealth c p a => exact ulc_ok (fun c p e s => (sysHealthBody_ok c p e s).2) c p a hok
  | houseShow c p a => exact ulc_ok (fun c p e s => (houseShowBody_ok c p e s).2) c p a hok
  | fmtShow c p a => exact ulc_ok (fun c p e s => (fmtShowBody_ok c p e s).2) c p a hok
  | fmtConv c p a => exact ulc_ok (fun c p e s => (fmtConvBody_ok c p e s).2) c p a hok
  | planSet c p a => exact ulc_ok (fun c p e s h => planSetBody_ok h c p e) c p a hok
  | planSetHop c p a => exact ulc_ok (fun c p e s h => planSetHopBody_ok h c p e) c p a hok
  | stkShow c p a => exact ulc_ok (fun c p e s => (stkShowBody_ok c p e s).2) c p a hok
  | stkSet c p a => exact ulc_ok (fun c p e s => (stkSetBody_ok c p e s).2) c p a hok
  | planLoad c p a => exact ulc_ok (fun c p e s h => planLoadBody_ok h c p e) c p a hok
  | planUnload c p a => exact ulc_ok (fun c p e s h => planUnloadBody_ok h c p e) c p a hok
  | planShow c p a => exact ulc_ok (fun c p e s => (planShowBody_ok c p e s).2) c p a hok
  | planHop c p a => exact ulc_ok (fun c p e s => (planHopBody_ok c p e s).2) c p a hok
  | guestSetStep c p a => exact ulc_ok (fun c p e s h => guestStepBody_ok h c p e) c p a hok
  | guestRegister c p a => exact ulc_ok (fun c p e s => (guestRegisterBody_ok c p e s).2) c p a hok
  | guestRegisterDrop c p a => exact ulc_ok (fun c p e s => (guestDropBody_ok c p e s).2) c p a hok
  | guestCheckin c p a => exact ulc_ok (fun c p e s h => guestCheckinBody_ok h c p e) c p a hok
  | guestCheckout c p a => exact ulc_ok (fun c p e s h => guestCheckoutBody_ok h c p e) c p a hok
  | guestAway c p a => exact ulc_ok (fun c p e s h => guestAwayBody_ok h c p e) c p a hok
  | guestReturn c p a => exact ulc_ok (fun c p e s h => guestReturnBody_ok h c p e) c p a hok
  | guestReopen c p a => exact ulc_ok (fun c p e s h => guestReopenBody_ok h c p e) c p a hok
  | guestSetClass c p a => exact ulc_ok (fun c p e s h => guestClassBody_ok h c p e) c p a hok
  | guestShow c p a => exact ulc_ok (fun c p e s => (guestShowBody_ok c p e s).2) c p a hok
  | roomShow c p a => exact ulc_ok (fun c p e s => (roomShowBody_ok c p e s).2) c p a hok
  | innShow c p a => exact ulc_ok (fun c p e s => (innShowBody_ok c p e s).2) c p a hok
  | innSet c p a => exact ulc_ok (fun c p e s => (innSetBody_ok c p e s).2) c p a hok
  | bundleSet c p a => exact ulc_ok (fun c p e s h => bundleSetBody_ok h c p e) c p a hok
  | bundleReopen c p a => exact ulc_ok (fun c p e s h => bundleReopenBody_ok h c p e) c p a hok
  | bundleShow c p a => exact ulc_ok (fun c p e s => (bundleShowBody_ok c p e s).2) c p a hok
  | roomZeroed room => exact execRoomZeroed_ok hok room
  | cellarWritebackDone g => exact execCellarWritebackDone_ok hok g
  | swapInDone g ecc => exact execSwapInDone_ok hok g ecc
  | leaseRevoke l => exact (execLeaseRevoke_ok l s).2 hok
  | thermalShed => exact (execThermalShed_ok s).2 hok
  | innCellarWrite hi v => exact (execInnCellarWrite_ok hi v s).2 hok
  | ldrSet c p a => exact ulc_ok (fun c p e s => (ldrSetBody_ok c p e s).2) c p a hok
  | ldrLoad c p a => exact ulc_ok (fun c p e s h => ldrLoadBody_ok h c p e) c p a hok
  | ldrBind c p a => exact ulc_ok (fun c p e s => (ldrBindBody_ok c p e s).2) c p a hok
  | ldrUnbind c p a => exact ulc_ok (fun c p e s => (ldrUnbindBody_ok c p e s).2) c p a hok
  | ldrReq c p a => exact ulc_ok (fun c p e s h => ldrReqBody_ok h c p e) c p a hok
  | ldrPut c p a => exact ulc_ok (fun c p e s h => ldrPutBody_ok h c p e) c p a hok
  | ldrInval c p a => exact ulc_ok (fun c p e s => (ldrInvalBody_ok c p e s).2) c p a hok
  | ldrShow c p a => exact ulc_ok (fun c p e s => (ldrShowBody_ok c p e s).2) c p a hok
  | larderServe => exact (execLarderServe_ok s).2 hok
  | rowFetchDone slot ecc => exact (execRowFetchDone_ok slot ecc s).2 hok
  | deliveryWrite g port cut => exact (execDeliveryWrite_ok g port cut s).2 hok
  | memTrainDone installed => exact (execMemTrainDone_ok installed s).2 hok
  | memTrainFail => exact (execMemTrainFail_ok s).2 hok
  | mr4Poll hot => exact (execMr4Poll_ok hot s).2 hok
  | memShow c p a => exact ulc_ok (fun c p e s => (memShowBody_ok c p e s).2) c p a hok
  | memSet c p a => exact ulc_ok (fun c p e s => (memSetBody_ok c p e s).2) c p a hok
  | routeOpen c p a => exact ulc_ok (fun c p e s => (routeOpenBody_ok c p e s).2) c p a hok
  | routeClose c p a => exact ulc_ok (fun c p e s => (routeCloseBody_ok c p e s).2) c p a hok
  | routeClosed r => exact (execRouteClosed_ok r s).2 hok
  | routeSet c p a => exact ulc_ok (fun c p e s => (routeSetBody_ok c p e s).2) c p a hok
  | routeRecv c p a => exact ulc_ok (fun c p e s => (routeRecvBody_ok c p e s).2) c p a hok
  | routePost c p a => exact ulc_ok (fun c p e s => (routePostBody_ok c p e s).2) c p a hok
  | routeShow c p a => exact ulc_ok (fun c p e s => (routeShowBody_ok c p e s).2) c p a hok
  | winOpen c p a => exact ulc_ok (fun c p e s => (winOpenBody_ok c p e s).2) c p a hok
  | winClose c p a => exact ulc_ok (fun c p e s => (winCloseBody_ok c p e s).2) c p a hok
  | winShow c p a => exact ulc_ok (fun c p e s => (winShowBody_ok c p e s).2) c p a hok
  | cchRing c p a => exact ulc_ok (fun c p e s => (cchRingBody_ok c p e s).2) c p a hok
  | cchShow c p a => exact ulc_ok (fun c p e s => (cchShowBody_ok c p e s).2) c p a hok
  | cchDoorbell v => exact (execCchDoorbell_ok v s).2 hok
  | cchRingTailWrite v => exact (execCchRingTailWrite_ok v s).2 hok
  | issueWrite r => exact (execIssueWrite_ok r s).2 hok
  | issueWriteImm r => exact (execIssueWriteImm_ok r s).2 hok
  | issueRead r => exact (execIssueRead_ok r s).2 hok
  | issueSend r => exact (execIssueSend_ok r s).2 hok
  | issueFlush r => exact (execIssueFlush_ok r s).2 hok
  | issueWait r => exact (execIssueWait_ok r s).2 hok
  | issueArm r => exact (execIssueArm_ok r s).2 hok
  | waybillComplete r => exact (execWaybillComplete_ok r s).2 hok
  | receiveWrite k => exact execReceiveWrite_ok hok k
  | receiveWriteImm k => exact execReceiveWriteImm_ok hok k
  | receiveReadReq k ecc => exact execReceiveReadReq_ok hok k ecc
  | receiveReadResp k => exact execReceiveReadResp_ok hok k
  | receiveSend m => exact execReceiveSend_ok hok m
  | deskRouteLine r cut => exact execDeskRouteLine_ok hok r cut
  | receiveFlush k => exact execReceiveFlush_ok hok k
  | receiveAck k => exact execReceiveAck_ok hok k
  | receiveNak k => exact execReceiveNak_ok hok k
  | receiveEase k => exact execReceiveEase_ok hok k
  | ackTimer r => exact (execAckTimer_ok r s).2 hok
  | retransmitTimeout r => exact (execRetransmitTimeout_ok r s).2 hok
  | rnrRetry r => exact (execRnrRetry_ok r s).2 hok
  | ccTimer r => exact (execCcTimer_ok r s).2 hok
  | pfcFrameReceived port vec xoff fifoFree => exact (execPfcFrameReceived_ok port vec xoff fifoFree s).2 hok
  | hopDeadline => exact (execHopDeadline_ok s).2 hok
  | linkChange port lock fecok modp => exact (execLinkChange_ok port lock fecok modp s).2 hok
  | arpRequest port target sender => exact (execArpRequest_ok port target sender s).2 hok
  | ndpSolicitation port target sender => exact (execNdpSolicitation_ok port target sender s).2 hok
  | icmpEcho port dst sender data => exact (execIcmpEcho_ok port dst sender data s).2 hok
  | igmpQuery port version => exact (execIgmpQuery_ok port version s).2 hok
  | netCtlWrite port v => exact (execNetCtlWrite_ok port v s).2 hok
  | netSet c p a => exact ulc_ok (fun c p e s => (netSetBody_ok c p e s).2) c p a hok
  | netShow c p a => exact ulc_ok (fun c p e s => (netShowBody_ok c p e s).2) c p a hok
  | ptpSet c p a => exact ulc_ok (fun c p e s => (ptpSetBody_ok c p e s).2) c p a hok
  | ptpShow c p a => exact ulc_ok (fun c p e s => (ptpShowBody_ok c p e s).2) c p a hok
  | audSet c p a => exact ulc_ok (fun c p e s => (audSetBody_ok c p e s).2) c p a hok
  | audMap c p a => exact ulc_ok (fun c p e s h => audMapBody_ok h c p e) c p a hok
  | audDry c p a => exact ulc_ok (fun c p e s => (audDryBody_ok c p e s).2) c p a hok
  | audMute c p a => exact ulc_ok (fun c p e s h => audMuteBody_ok h c p e) c p a hok
  | audShow c p a => exact ulc_ok (fun c p e s => (audShowBody_ok c p e s).2) c p a hok
  | aesSet c p a => exact ulc_ok (fun c p e s => (aesSetBody_ok c p e s).2) c p a hok
  | aesShow c p a => exact ulc_ok (fun c p e s => (aesShowBody_ok c p e s).2) c p a hok
  | slavePortLock port phase phasem => exact (execSlavePortLock_ok port phase phasem s).2 hok
  | fsyncSlip port => exact (execFsyncSlip_ok port s).2 hok
  | aes67Transmit flow => exact (execAes67Transmit_ok flow s).2 hok
  | aes67Receive flow seq ts samples => exact (execAes67Receive_ok flow seq ts samples s).2 hok
  | aes67FlowLost flow => exact (execAes67FlowLost_ok flow s).2 hok
  | busReset stage hs => exact execBusReset_ok hok stage hs
  | controlRequest q => exact (execControlRequest_ok q s).2 hok
  | suspend => exact execSuspend_ok hok
  | resume => exact (execResume_ok s).2 hok
  | vbusLoss stage => exact execVbusLoss_ok hok stage
  | vbusAttach => exact (execVbusAttach_ok s).2 hok
  | uac2OutPacket samples fb => exact (execUac2OutPacket_ok samples fb s).2 hok
  | vendorBulkWrite h data body => exact execVendorBulkWrite_ok hok h data body
  | vendorBulkRead h => exact execVendorBulkRead_ok hok h
  | vendorBulkEndWait len patch => exact execVendorBulkEndWait_ok hok len patch
  | usbSet c p a => exact ulc_ok (fun c p e s h => usbSetBody_ok h c p e) c p a hok
  | usbShow c p a => exact ulc_ok (fun c p e s => (usbShowBody_ok c p e s).2) c p a hok
  | vaonFall => exact (execVaonFall_ok s).2 hok
  | vaonReturn => exact (execVaonReturn_ok s).2 hok
  | islandColdStart => exact (execIslandColdStart_ok s).2 hok
  | featureFrame f => exact (execFeatureFrame_ok f s).2 hok
  | refractoryEnd => exact (execRefractoryEnd_ok s).2 hok
  | pathChangeHoldEnd => exact (execPathChangeHoldEnd_ok s).2 hok
  | dozeReturn => exact (execDozeReturn_ok s).2 hok
  | slotCrcCheck bad => exact (execSlotCrcCheck_ok bad s).2 hok
  | porSet c p a => exact ulc_ok (fun c p e s => (porSetBody_ok c p e s).2) c p a hok
  | porEnrol c p a => exact ulc_ok (fun c p e s => (porEnrolBody_ok c p e s).2) c p a hok
  | porEnrolDone c p a => exact ulc_ok (fun c p e s => (porEnrolDoneBody_ok c p e s).2) c p a hok
  | porEnrolAbort c p a => exact ulc_ok (fun c p e s => (porEnrolAbortBody_ok c p e s).2) c p a hok
  | porEnrolWake c p a => exact ulc_ok (fun c p e s => (porEnrolWakeBody_ok c p e s).2) c p a hok
  | enrolTake t => exact (execEnrolTake_ok t s).2 hok
  | enrolTimeout => exact (execEnrolTimeout_ok s).2 hok
  | porSlot c p a => exact ulc_ok (fun c p e s => (porSlotBody_ok c p e s).2) c p a hok
  | porSlotClear c p a => exact ulc_ok (fun c p e s => (porSlotClearBody_ok c p e s).2) c p a hok
  | porGaugeCheck c p a => exact ulc_ok (fun c p e s => (porGaugeCheckBody_ok c p e s).2) c p a hok
  | porGaugeNew c p a => exact ulc_ok (fun c p e s => (porGaugeNewBody_ok c p e s).2) c p a hok
  | porGaugeUsed c p a => exact ulc_ok (fun c p e s => (porGaugeUsedBody_ok c p e s).2) c p a hok
  | porWakeRelease c p a => exact ulc_ok (fun c p e s => (porWakeReleaseBody_ok c p e s).2) c p a hok
  | porWakeHold c p a => exact ulc_ok (fun c p e s => (porWakeHoldBody_ok c p e s).2) c p a hok
  | porShow c p a => exact ulc_ok (fun c p e s => (porShowBody_ok c p e s).2) c p a hok
  | gaugeCheck mv => exact (execGaugeCheck_ok mv s).2 hok
  | cellRemoved => exact (execCellRemoved_ok s).2 hok
  | cellReturn => exact (execCellReturn_ok s).2 hok
  | wakeInAssert => exact (execWakeInAssert_ok s).2 hok
  | wakeTimeout => exact (execWakeTimeout_ok s).2 hok
  | ldgBatchBegin c p a => exact ulc_ok (fun c p e s => (ldgBatchBeginBody_ok c p e s).2) c p a hok
  | ldgPut c p a => exact ulc_ok (fun c p e s => (ldgPutBody_ok c p e s).2) c p a hok
  | ldgBatchCommit c p a => exact ulc_ok (fun c p e s => (ldgBatchCommitBody_ok c p e s).2) c p a hok
  | ldgBatchAbort c p a => exact ulc_ok (fun c p e s => (ldgBatchAbortBody_ok c p e s).2) c p a hok
  | ledgerCommit fails upto residue => exact execLedgerCommit_ok hok fails upto residue
  | ldgRead c p a => exact ulc_ok (fun c p e s h => ldgReadBody_ok h c p e) c p a hok
  | ldgKey c p a => exact ulc_ok (fun c p e s => (ldgKeyBody_ok c p e s).2) c p a hok
  | ldgPass c p a => exact ulc_ok (fun c p e s => (ldgPassBody_ok c p e s).2) c p a hok
  | ldgSlate c p a => exact ulc_ok (fun c p e s h => ldgSlateBody_ok h c p e) c p a hok
  | ldgWipe c p a => exact ulc_ok (fun c p e s => (ldgWipeBody_ok c p e s).2) c p a hok
  | ldgRefresh c p a => exact ulc_ok (fun c p e s => (ldgRefreshBody_ok c p e s).2) c p a hok
  | ldgShow c p a => exact ulc_ok (fun c p e s => (ldgShowBody_ok c p e s).2) c p a hok
  | partitionLockoutEnd part => exact (execPartitionLockoutEnd_ok part s).2 hok
  | refreshRun weak early unreadable fails => exact execRefreshRun_ok hok weak early unreadable fails
  | logBufferCommit fails => exact execLogBufferCommit_ok hok fails
  | logShow c p a => exact ulc_ok (fun c p e s => (logShowBody_ok c p e s).2) c p a hok
  | logTail c p a => exact ulc_ok (fun c p e s => (logTailBody_ok c p e s).2) c p a hok
  | logClear c p a => exact ulc_ok (fun c p e s => (logClearBody_ok c p e s).2) c p a hok
  | hthSet c p a => exact ulc_ok (fun c p e s => (hthSetBody_ok c p e s).2) c p a hok
  | hthClear c p a => exact ulc_ok (fun c p e s => (hthClearBody_ok c p e s).2) c p a hok
  | hthStatClearWrite ch v => exact (execHthStatClearWrite_ok ch v s).2 hok
  | hthModeWrite ch v => exact (execHthModeWrite_ok ch v s).2 hok
  | hthShow c p a => exact ulc_ok (fun c p e s => (hthShowBody_ok c p e s).2) c p a hok
  | controlLoopPeriod ms sns snsMean suprec sup10 vglow cut => exact (execControlLoopPeriod_ok ms sns snsMean suprec sup10 vglow cut s).2 hok
  | shortTrip ch snsMean cut => exact (execShortTrip_ok ch snsMean cut s).2 hok
  | probeEnd ch hv h tamb => exact (execProbeEnd_ok ch hv h tamb s).2 hok
  | holdTimeout => exact (execHoldTimeout_ok s).2 hok
  | parkTimeout cut => exact (execParkTimeout_ok cut s).2 hok
  | backoffEnd ch => exact (execBackoffEnd_ok ch s).2 hok
  | autoRetry ch => exact (execAutoRetry_ok ch s).2 hok
  | budgetExcess cut => exact (execBudgetExcess_ok cut s).2 hok
  | gateWatchdog => exact (execGateWatchdog_ok s).2 hok
  | houseSet c p a => exact ulc_ok (fun c p e s => (houseSetBody_ok c p e s).2) c p a hok
  | moveVaultToHush => exact (execMoveVaultToHush_ok s).2 hok
  | moveHushToLobby => exact (execMoveHushToLobby_ok s).2 hok
  | moveLobbyToFull => exact (execMoveLobbyToFull_ok s).2 hok
  | moveFullToLobby => exact execMoveFullToLobby_ok hok
  | moveLobbyToHush => exact execMoveLobbyToHush_ok hok
  | moveHushToVault mv => exact execMoveHushToVault_ok hok mv
  | quadrantRampEnd q => exact (execQuadrantRampEnd_ok q s).2 hok
  | pwrfail residue => exact execPwrfail_ok hok residue
  | vaonWake bootsel => exact (execVaonWake_ok bootsel s).2 hok
  | pwrSet c p a => exact ulc_ok (fun c p e s h => pwrSetAll_ok h c p e) c p a hok
  | pwrDomcfgWrite v => exact execPwrDomcfgWrite_ok hok v
  | pwrSenseWrite v => exact (execPwrSenseWrite_ok v s).2 hok
  | pwrCrackClear c p a => exact ulc_ok (fun c p e s => (pwrCrackBody_ok c p e s).2) c p a hok
  | pwrFuse c p a => exact ulc_ok (fun c p e s => (fuseBody_ok c p e s).2) c p a hok
  | pwrShow c p a => exact ulc_ok (fun c p e s => (pwrShowBody_ok c p e s).2) c p a hok
  | pointRaise => exact (execPointRaise_ok s).2 hok
  | sentinelRead lows stood1ms => exact (execSentinelRead_ok lows stood1ms s).2 hok
  | droop on => exact (execDroop_ok on s).2 hok
  | avsbusFrame ok isWrite isStatus => exact (execAvsbusFrame_ok ok isWrite isStatus s).2 hok
  | zoneSample volts means => exact (execZoneSample_ok volts means s).2 hok
  | thermalSample tj below100 => exact execThermalSample_ok hok tj below100
  | thermalCapStep => exact (execThermalCapStep_ok s).2 hok
  | pinReset bootsel => exact execPinReset_ok hok bootsel
  | boot fl => exact (execBoot_ok fl s).2 hok
  | bootWaitTimeout => exact execBootWaitTimeout_ok hok
  | watchdogExpiry => exact execWatchdogExpiry_ok hok
  | sysResetWarm c p a => exact ulc_ok (fun c p e s h => sysResetWarmBody_ok h c p e) c p a hok
  | sysResetFull c p a => exact ulc_ok (fun c p e s h => sysResetFullBody_ok h c p e) c p a hok
  | sysResetWriteWarm v => exact execSysResetWriteWarm_ok hok v
  | sysResetWriteFull v => exact execSysResetWriteFull_ok hok v
  | sysBoot c p a => exact ulc_ok (fun c p e s => (sysBootBody_ok c p e s).2) c p a hok
  | sysFlashShow c p a => exact ulc_ok (fun c p e s => (flashShowBody_ok c p e s).2) c p a hok
  | sysFlashErase c p a => exact ulc_ok (fun c p e s => (flashEraseBody_ok c p e s).2) c p a hok
  | sysFlashWrite c p a => exact ulc_ok (fun c p e s => (flashWriteBody_ok c p e s).2) c p a hok
  | sysFlashRescan c p a => exact ulc_ok (fun c p e s => (flashRescanBody_ok c p e s).2) c p a hok
  | extest v => exact (execExtest_ok v s).2 hok
  | idcode => exact (execIdcode_ok s).2 hok
  | samplePreload v => exact (execSamplePreload_ok v s).2 hok
  | clamp => exact (execClamp_ok s).2 hok
  | highz => exact (execHighz_ok s).2 hok
  | bypass => exact (execBypass_ok s).2 hok
  | debug write addr v => exact execDebug_ok hok write addr v
  | clockLoss k => exact execClockLoss_ok hok k
  | clockReturn k => exact (execClockReturn_ok k s).2 hok
  | vbatFall => exact (execVbatFall_ok s).2 hok
  | hearthSupplyFault vg cut => exact (execHearthSupplyFault_ok vg cut s).2 hok
  | netBootPatchReceived patch => exact execNetBootPatchReceived_ok hok patch
  | testmodeHigh => exact execTestmodeHigh_ok hok

/-- Settles O60: on an empty queue nothing changes, and else the front command keeps the form (`exec_ok`). -/
theorem stepKeepsForm : Obligations.StepKeepsForm := by
  intro s t hstep h
  unfold step at hstep
  split at hstep
  · cases hstep
    exact h
  next c r _ =>
    have hexec := exec_ok c (s := { s with pending := r }) h
    rwa [hstep] at hexec

end Sys2Proof.Machine
end

section
/-! A frame edge (spec 02 R15 to R20): what it does to the tally, and what it leaves alone. -/

namespace Sys2Proof.Machine

/-! ### What a frame edge leaves alone -/

/-- The fields of the tally that an event cannot reach. -/
abbrev TlySt.edgeKept (t : TlySt) := (t.source, t.rate, t.state, t.epSec, t.epNs, t.now, t.skip, t.skipNext)

/-- The units that nothing done at a frame edge reaches, once the tally itself has advanced. -/
def State.edgeKept (s : State) :=
  (s.clk, s.pwr, s.hth, s.sys, s.jtag, s.neta, s.netb, s.mem, s.pending, s.tly.edgeKept, s.ldg.era, s.ldg.phys, s.ldg.map)

section Parts

variable (s : State)

@[simp] theorem State.onEvq_edgeKept (f : EvqSt → EvqSt) : (s.onEvq f).edgeKept = s.edgeKept := rfl
@[simp] theorem State.onDesk_edgeKept (f : DeskSt → DeskSt) : (s.onDesk f).edgeKept = s.edgeKept := rfl
@[simp] theorem State.onWeave_edgeKept (f : WeaveSt → WeaveSt) : (s.onWeave f).edgeKept = s.edgeKept := rfl
@[simp] theorem State.onInn_edgeKept (f : InnSt → InnSt) : (s.onInn f).edgeKept = s.edgeKept := rfl
@[simp] theorem State.onLdr_edgeKept (f : LdrSt → LdrSt) : (s.onLdr f).edgeKept = s.edgeKept := rfl
@[simp] theorem State.onCch_edgeKept (f : CchSt → CchSt) : (s.onCch f).edgeKept = s.edgeKept := rfl
@[simp] theorem State.onAud_edgeKept (f : AudSt → AudSt) : (s.onAud f).edgeKept = s.edgeKept := rfl
@[simp] theorem State.onUsb_edgeKept (f : UsbSt → UsbSt) : (s.onUsb f).edgeKept = s.edgeKept := rfl
@[simp] theorem State.onPor_edgeKept (f : PorSt → PorSt) : (s.onPor f).edgeKept = s.edgeKept := rfl
@[simp] theorem State.onSess_edgeKept (n : Nat) (f : Session → Session) : (s.onSess n f).edgeKept = s.edgeKept := rfl
@[simp] theorem State.onGuest_edgeKept (g : Nat) (f : Guest → Guest) : (s.onGuest g f).edgeKept = s.edgeKept := rfl
@[simp] theorem State.onPlan_edgeKept (n : String) (f : Plan → Plan) : (s.onPlan n f).edgeKept = s.edgeKept := rfl
@[simp] theorem State.onRoute_edgeKept (r : Nat) (f : Route → Route) : (s.onRoute r f).edgeKept = s.edgeKept := rfl

theorem OnlyDesk.edgeKept {t : State} (h : OnlyDesk s t) : t.edgeKept = s.edgeKept := by
  unfold OnlyDesk at h
  rw [h, State.onDesk_edgeKept]

/-- An update of the tally that leaves those fields. -/
@[simp] theorem State.onTly_edgeKept {f : TlySt → TlySt} (h : ∀ t, (f t).edgeKept = t.edgeKept) : (s.onTly f).edgeKept = s.edgeKept := by
  simp [State.edgeKept, h]

@[simp] theorem State.ite_edgeKept {c : Prop} [Decidable c] (a b : State) : (if c then a else b).edgeKept = if c then a.edgeKept else b.edgeKept := by
  split <;> rfl

@[simp] theorem State.forEach_edgeKept {α : Type} {l : List α} {f : α → State → State} (h : ∀ a t, (f a t).edgeKept = t.edgeKept) :
    (s.forEach l f).edgeKept = s.edgeKept := State.forEach_keeps s State.edgeKept l f h

end Parts

@[simp] theorem pushLog_edgeKept (e : LogEntry) (s : State) : (pushLog e s).edgeKept = s.edgeKept := by
  have hpages : (pushLog e s).ldg.phys = s.ldg.phys ∧ (pushLog e s).ldg.map = s.ldg.map := by
    simp only [pushLog, State.onLdg_ldg]
    split <;> split <;> exact ⟨rfl, rfl⟩
  simp [State.edgeKept, hpages]

@[simp] theorem logEv_edgeKept (src code evseq arg arg2 : Nat) (s : State) : (logEv src code evseq arg arg2 s).edgeKept = s.edgeKept := by
  simp [logEv]

@[simp] theorem logAt_edgeKept (t : Tally) (late : Bool) (src code evseq arg arg2 : Nat) (s : State) :
    (logAt t late src code evseq arg arg2 s).edgeKept = s.edgeKept := by
  simp [logAt]

@[simp] theorem pushOut_edgeKept (k : Nat) (kind : OutKind) (text : String) (s : State) : (pushOut k kind text s).edgeKept = s.edgeKept :=
  (pushOut_only k kind text s).edgeKept

@[simp] theorem notify_edgeKept (obj rest : String) (s : State) : (notify obj rest s).edgeKept = s.edgeKept := (notify_only obj rest s).edgeKept

@[simp] theorem notifyOne_edgeKept (k : Nat) (obj rest : String) (s : State) : (notifyOne k obj rest s).edgeKept = s.edgeKept :=
  (notifyOne_only k obj rest s).edgeKept

@[simp] theorem deskFail_edgeKept (e : Event) (code : Nat) (s : State) : (deskFail e code s).edgeKept = s.edgeKept := by
  unfold deskFail
  split <;> simp

@[simp] theorem rejectEv_edgeKept (e : Event) (s : State) : (rejectEv e s).edgeKept = s.edgeKept := by
  simp [rejectEv]

@[simp] theorem countLate_edgeKept (e : Event) (due : Nat) (s : State) : (countLate e due s).edgeKept = s.edgeKept := by
  simp [countLate]

@[simp] theorem lateTo_edgeKept (e : Event) (due : Nat) (s : State) : (lateTo e due s).edgeKept = s.edgeKept := by
  unfold lateTo
  split <;> simp

@[simp] theorem handleLate_edgeKept (e : Event) (due : Nat) (s : State) : (handleLate e due s).edgeKept = s.edgeKept := by
  simp only [handleLate]
  repeat' split
  all_goals simp

@[simp] theorem lateSkipped_edgeKept (n m : Nat) (s : State) : (lateSkipped n m s).edgeKept = s.edgeKept := by simp [lateSkipped]

@[simp] theorem queueRequest_edgeKept (src : Src) (seq : BitVec 16) (named stamp : Tally) (r : LdrReq) (s : State) :
    (queueRequest src seq named stamp r s).edgeKept = s.edgeKept := by
  simp [queueRequest]

@[simp] theorem enqueue_edgeKept (e : Event) (cut : Bool) (s : State) : (enqueue e cut s).edgeKept = s.edgeKept := by
  simp only [enqueue]
  repeat' split
  all_goals simp

@[simp] theorem finishUnbind_edgeKept (r : Nat) (s : State) : (finishUnbind r s).edgeKept = s.edgeKept := by simp [finishUnbind]

@[simp] theorem drainRoute_edgeKept (fuel r : Nat) (cut : Bool) (s : State) : (drainRoute fuel r cut s).edgeKept = s.edgeKept := by
  induction fuel generalizing s with
  | zero => rfl
  | succ f ih =>
    rw [drainRoute]
    split
    · split <;> simp
    · simp [ih]
    · split <;> simp [ih]

@[simp] theorem drainRoutes_edgeKept (cut : Bool) (s : State) : (drainRoutes cut s).edgeKept = s.edgeKept := by simp [drainRoutes]

@[simp] theorem postDelivery_edgeKept (cut : Bool) (d : Delivery) (s : State) : (postDelivery cut d s).edgeKept = s.edgeKept := by
  simp [postDelivery]

@[simp] theorem postStored_edgeKept (cut : Bool) (s : State) : (postStored cut s).edgeKept = s.edgeKept := by simp [postStored]
@[simp] theorem admitHeld_edgeKept (cut : Bool) (s : State) : (admitHeld cut s).edgeKept = s.edgeKept := by simp [admitHeld]
@[simp] theorem dropJobs_edgeKept (rs : List Nat) (s : State) : (dropJobs rs s).edgeKept = s.edgeKept := by simp [dropJobs]
@[simp] theorem askZero_edgeKept (checkin : Bool) (rs : List Nat) (s : State) : (askZero checkin rs s).edgeKept = s.edgeKept := by simp [askZero]
@[simp] theorem holdRooms_edgeKept (g r n : Nat) (s : State) : (holdRooms g r n s).edgeKept = s.edgeKept := by simp [holdRooms]

@[simp] theorem doCheckin_edgeKept (s : State) (g : Nat) (p : Plan) (prec : Prec) (cls : Option GClass) (c : Nat) :
    (doCheckin s g p prec cls c).edgeKept = s.edgeKept := by
  simp only [doCheckin]
  repeat' split
  all_goals simp

@[simp] theorem setStep_edgeKept (g : Nat) (code : StepCode) (to_ : LeaveTo) (s : State) : (setStep g code to_ s).edgeKept = s.edgeKept := by
  simp [setStep]

@[simp] theorem dropImage_edgeKept (g : Nat) (s : State) : (dropImage g s).edgeKept = s.edgeKept := by rfl
@[simp] theorem takeChans_edgeKept (g lo hi n : Nat) (s : State) : (takeChans g lo hi n s).edgeKept = s.edgeKept := by simp [takeChans]
@[simp] theorem assignChans_edgeKept (s : State) : (assignChans s).edgeKept = s.edgeKept := by simp [assignChans]

@[simp] theorem doReturn_edgeKept (s : State) (g c : Nat) : (doReturn s g c).edgeKept = s.edgeKept := by
  simp only [doReturn]
  split <;> simp

@[simp] theorem applyScale_edgeKept (p : Plan) (i : Nat) (mode : Option SMode) (win hr : Option Nat) (exp : Option Int) (s : State) :
    (applyScale p i mode win hr exp s).edgeKept = s.edgeKept := by
  unfold applyScale
  split
  · have hw : ∀ m, ({ s with ram := m } : State).edgeKept = s.edgeKept := fun _ => rfl
    simp only
    split
    · rw [State.forEach_edgeKept _ fun g t => State.onGuest_edgeKept t g _]
      split <;> simp [hw]
    · split <;> simp [hw]
  · rfl

/-- An effect that succeeds leaves those units. -/
theorem applyEffect_edgeKept {e : Event} {t : Nat} {s u : State} (h : applyEffect e t s = .ok u) : u.edgeKept = s.edgeKept := by
  simp only [applyEffect] at h
  repeat' split at h
  all_goals cases h
  all_goals simp

@[simp] theorem applyOne_edgeKept (t : Nat) (e : Event) (s : State) : (applyOne t e s).edgeKept = s.edgeKept := by
  unfold applyOne
  split
  next heq => exact applyEffect_edgeKept heq
  next => simp

@[simp] theorem applyTally_edgeKept (t : Nat) (s : State) : (applyTally t s).edgeKept = s.edgeKept := by
  simp only [applyTally, admitHeld_edgeKept]
  rw [State.forEach_edgeKept]
  · simp
  · intro e u
    split <;> simp

@[simp] theorem passNaks_edgeKept (s : State) : (passNaks s).edgeKept = s.edgeKept := by simp [passNaks]

@[simp] theorem countHoldover_edgeKept (s : State) : (countHoldover s).edgeKept = s.edgeKept :=
  State.onTly_edgeKept s fun t => by split <;> rfl

@[simp] theorem fillSteps_edgeKept (s : State) : (fillSteps s).edgeKept = s.edgeKept :=
  State.forEach_edgeKept s fun g t => State.onGuest_edgeKept t g _

@[simp] theorem takeInputs_edgeKept (ins : List (Nat × W32)) (s : State) : (takeInputs ins s).edgeKept = s.edgeKept := by simp [takeInputs]
@[simp] theorem resampleRef_edgeKept (r : F32) (s : State) : (resampleRef r s).edgeKept = s.edgeKept := by simp [resampleRef]

/-! ### The step of the tally -/

/-- Without a skip due only the tally's count and its target move. -/
theorem advanceTally_edgeKept_of_noSkip {s : State} (h : s.tly.skipNext = 0) :
    (advanceTally s).edgeKept = (s.onTly fun t => { t with now := t.now + 1 }).edgeKept := by
  simp only [advanceTally, h]
  rfl

/-- A skip due is carried by the count, entered in the skip count, and spent. -/
theorem advanceTally_edgeKept_of_skip {s : State} (h : s.tly.skipNext ≠ 0) :
    (advanceTally s).edgeKept = (s.onTly fun t => { t with
      now := BitVec.ofNat 64 (s.tly.now.toNat + 1 + s.tly.skipNext), skip := t.skip + BitVec.ofNat 64 s.tly.skipNext, skipNext := 0 }).edgeKept := by
  simp only [advanceTally, if_neg h, lateSkipped_edgeKept, logAt_edgeKept]
  rfl

/-- After the tally's step, a frame edge leaves those units. -/
theorem frameEdge_edgeKept (ins : List (Nat × W32)) (s : State) : (frameEdge ins s).edgeKept = (advanceTally s).edgeKept := by
  unfold frameEdge
  extract_lets s₁ e s₂ outs s₃ s₄ s₅
  have h₄ : s₄.edgeKept = s₃.edgeKept := by
    simp only [s₄]
    split <;> simp
  have h₅ : s₅.edgeKept = (advanceTally s).edgeKept := by
    simp [s₅, h₄, s₃, s₂, s₁]
  split
  · exact h₅
  · rw [applyTally_edgeKept, h₅]

theorem exec_tallyEdge_on (ins : List (Nat × W32)) {s : State} (h : s.on 3 = true) : exec (.tallyEdge ins) s = .next (frameEdge ins s) := by
  simp [exec, execTallyEdge, h]

theorem exec_tallyEdge_off (ins : List (Nat × W32)) {s : State} (h : s.on 3 = false) : exec (.tallyEdge ins) s = .next s := by
  simp [exec, execTallyEdge, h]

/-- Settles O2: the edge's only step of the tally is `advanceTally`; nothing after it reaches the count or the skip. -/
theorem tallyEdge : Obligations.TallyEdge := by
  unfold Obligations.TallyEdge
  refine fun ins s => ⟨fun hon hk => ⟨_, exec_tallyEdge_on ins hon, ?_⟩, fun hon hk => ⟨_, exec_tallyEdge_on ins hon, ?_⟩, exec_tallyEdge_off ins⟩
  · have h := (frameEdge_edgeKept ins s).trans (advanceTally_edgeKept_of_noSkip hk)
    simp only [State.edgeKept, Prod.mk.injEq] at h
    simp [h, hk]
  · have h := (frameEdge_edgeKept ins s).trans (advanceTally_edgeKept_of_skip hk)
    simp only [State.edgeKept, Prod.mk.injEq] at h
    simp [h]

/-- Settles O3: neither the tally's step nor what follows it at the edge reaches those units. -/
theorem tallyEdgeFrame : Obligations.TallyEdgeFrame := by
  unfold Obligations.TallyEdgeFrame
  intro ins s t h
  by_cases hon : s.on 3 = true
  · rw [exec_tallyEdge_on ins hon] at h
    cases h
    by_cases hk : s.tly.skipNext = 0
    · have h := (frameEdge_edgeKept ins s).trans (advanceTally_edgeKept_of_noSkip hk)
      simp only [State.edgeKept, Prod.mk.injEq] at h
      simp [h]
    · have h := (frameEdge_edgeKept ins s).trans (advanceTally_edgeKept_of_skip hk)
      simp only [State.edgeKept, Prod.mk.injEq] at h
      simp [h]
  · rw [exec_tallyEdge_off ins (by simpa using hon)] at h
    cases h
    simp

end Sys2Proof.Machine
end

section
/-! REFCLK, the tally source, PTP and the alignment of the tally (spec 02). -/

namespace Sys2Proof.Machine

/-! ### One bit of a register -/

theorem getLsbD_setBit {w : Nat} (v : BitVec w) (k i : Nat) (b : Bool) :
    (setBit v k b).getLsbD i = if i = k ∧ i < w then b else v.getLsbD i := by
  have ht : (BitVec.ofNat w (2 ^ k)).getLsbD i = (decide (i < w) && decide (i = k)) := by
    rw [BitVec.getLsbD_ofNat, Nat.testBit_two_pow, decide_eq_decide.mpr eq_comm]
  unfold setBit
  by_cases hw : i < w
  · rw [decide_eq_true hw, Bool.true_and] at ht
    by_cases hk : i = k
    · subst hk
      cases b <;> simp only [if_true, Bool.false_eq_true, if_false, BitVec.getLsbD_or, BitVec.getLsbD_and, BitVec.getLsbD_not, ht, hw] <;> simp
    · cases b <;> simp only [if_true, Bool.false_eq_true, if_false, BitVec.getLsbD_or, BitVec.getLsbD_and, BitVec.getLsbD_not, ht, hw, hk] <;> simp
  · rw [BitVec.getLsbD_of_ge _ _ (by omega), BitVec.getLsbD_of_ge v i (by omega)]
    simp [hw]

@[simp] theorem getElem_setBit {w : Nat} (v : BitVec w) (k i : Nat) (b : Bool) (h : i < w) :
    (setBit v k b)[i] = if i = k then b else v[i] := by
  simpa [h, BitVec.getLsbD_eq_getElem] using getLsbD_setBit v k i b

/-! ### REFCLK -/

@[simp] theorem setClk_pwr (k : Clk) (on : Bool) (s : State) : (setClk k on s).pwr = s.pwr := rfl
@[simp] theorem setClk_desk (k : Clk) (on : Bool) (s : State) : (setClk k on s).desk = s.desk := rfl
@[simp] theorem setClk_tly (k : Clk) (on : Bool) (s : State) : (setClk k on s).tly = s.tly := rfl

theorem setClk_stat (k : Clk) (on : Bool) (s : State) : (setClk k on s).clk.stat = setBit s.clk.stat (clkBit k) on := rfl

/-- A clock that fails adds its own fault and takes none back. -/
theorem setClk_fault_getLsbD {k : Clk} {on : Bool} {s : State} {i : Nat} (h : s.clk.fault.getLsbD i = true) :
    (setClk k on s).clk.fault.getLsbD i = true := by
  simp only [setClk, State.onClk_clk]
  split
  · simp [getLsbD_setBit, h]
  · exact h

/-- A clock other than CORE that comes back touches CLK_STAT alone. -/
theorem setClk_true {k : Clk} (h : k ≠ .core) (s : State) :
    setClk k true s = s.onClk fun c => { c with stat := setBit c.stat (clkBit k) true } := by
  simp [setClk, h]

theorem onClk_onClk (f g : ClkSt → ClkSt) (s : State) : (s.onClk g).onClk f = s.onClk fun c => f (g c) := rfl

/-- Settles O5: the loss is one write of CLK_STAT and CLK_FAULT per clock and one of the goal; the return touches CLK_STAT alone. -/
theorem refclkLossAndReturn : Obligations.RefclkLossAndReturn := by
  unfold Obligations.RefclkLossAndReturn
  refine ⟨fun s hon hhouse => ?_, fun s hon => ?_⟩
  · have hnum : ¬ houseNum s.pwr.house ≤ 1 := by
      rcases hhouse with h | h <;> simp [h, houseNum]
    refine ⟨_, rfl, ?_⟩
    simp only [hon, if_true, setClk_pwr, State.onClk_pwr, hnum, if_false]
    refine ⟨?_, ?_, ?_, rfl, rfl, rfl, rfl⟩
    · simp [setClk_stat, clkBit]
    · simp [setClk_stat, clkBit]
    · iterate 5 refine setClk_fault_getLsbD ?_
      simp
  · refine ⟨_, by simp only [exec, execRefclkReturn, hon, if_true]; rfl, ?_⟩
    rw [setClk_true (k := .desk) (by decide), setClk_true (k := .refclk) (by decide), onClk_onClk, onClk_onClk]
    refine ⟨?_, ?_, rfl, rfl⟩ <;> simp [clkBit]

/-! ### The tally source -/

/-- The loss of a source that is not yet lost, outside FREE-RUN. -/
theorem sourceLost_eq {s : State} (hon : s.on 3 = true) (hs : s.tly.state ≠ .freeRun) (hl : s.tly.lost = false) :
    sourceLost s = notify "tly" "lost" ((s.onTly fun t => { t with
      lost := true, holdEdges := if t.state == .holdover then t.holdEdges else 0
      state := if t.state == .locked then .holdover else t.state }).onClk fun c =>
        { c with fault := setBit c.fault 8 true, stat := setBit c.stat 8 false }) := by
  simp [sourceLost, hon, hs, hl]

@[simp] theorem sourceLost_now (s : State) : (sourceLost s).tly.now = s.tly.now := by
  unfold sourceLost; split <;> simp

@[simp] theorem sourceLost_target (s : State) : (sourceLost s).tly.target = s.tly.target := by
  unfold sourceLost; split <;> simp

@[simp] theorem sourceLost_servoNs (s : State) : (sourceLost s).tly.servoNs = s.tly.servoNs := by
  unfold sourceLost; split <;> simp

@[simp] theorem sourceLost_net (s : State) (p : Nat) : (sourceLost s).net p = s.net p := by
  unfold sourceLost; split <;> simp [State.net]

theorem sourceLost_lost {s : State} (hon : s.on 3 = true) (hs : s.tly.state ≠ .freeRun) : (sourceLost s).tly.lost = true := by
  cases hl : s.tly.lost with
  | true => simp [sourceLost, hl]
  | false => simp [sourceLost_eq hon hs hl]

@[simp] theorem settleAud_fault (s : State) : (settleAud s).clk.fault = s.clk.fault := rfl

/-- Settles O6: the loss is `sourceLost`, which a bad window runs too; a return touches LOST, the holdover count and CLK_STAT. -/
theorem tallySourceLoss : Obligations.TallySourceLoss := by
  unfold Obligations.TallySourceLoss
  refine ⟨fun s hon hs hl => ⟨_, rfl, ?_⟩, fun ppm s hon hs hl hsrc hp => ⟨_, rfl, ?_⟩, fun ppm s hp => ?_, fun s => ⟨_, rfl, ?_⟩⟩
  · rw [sourceLost_eq hon hs hl]
    simp
  · rw [if_pos ⟨hp, hsrc⟩, sourceLost_eq hon hs hl]
    simp
  · show execFrequencyWindow ppm s = _
    rw [execFrequencyWindow, if_neg (by omega)]
  · simp +contextual

/-! ### PTP and the alignment -/

theorem ptp_target_of_unit {sec ns es en fs c : Nat} (h : es * c + en ≤ sec * c + ns) :
    (((sec : Int) - es) * c + ((ns : Int) - en)) * fs / c = (((sec * c + ns - (es * c + en)) * fs / c : Nat) : Int) := by
  rw [Int.natCast_ediv, Int.natCast_mul, Int.natCast_sub h]
  push_cast
  congr 2
  ring

/-- The tally that a PTP time at or after the epoch names. -/
theorem ptp_target {sec ns es en fs : Nat} (h : es * 10 ^ 9 + en ≤ sec * 10 ^ 9 + ns) :
    (((sec : Int) - es) * 10 ^ 9 + ((ns : Int) - en)) * fs / 10 ^ 9 = (((sec * 10 ^ 9 + ns - (es * 10 ^ 9 + en)) * fs / 10 ^ 9 : Nat) : Int) := by
  have hc : ((10 ^ 9 : Nat) : Int) = 10 ^ 9 := by norm_num
  rw [← hc]
  exact ptp_target_of_unit h

/-- What a message does that the source's port follows. -/
theorem exec_ptpSync_followed {port sec ns dom prio : Nat} {off : Int} {s : State} (hon : s.on 3 = true)
    (hpd : s.on (portDom port) = true) (hl : (s.net port).link = true) (hd : (s.net port).domain = dom)
    (hp : prio ≤ (s.net port).prio1) (hs : s.tly.source = 3) (hport : s.tly.ptpport = (port == 1))
    (he : s.tly.epSec.toNat * 10 ^ 9 + s.tly.epNs.toNat ≤ sec * 10 ^ 9 + ns) :
    exec (.ptpSync ⟨port, dom, prio⟩ sec ns off) s = .next (
      let u := (s.onNet port fun n => { n with master := false, synced := true }).onTly fun t => { t with
        servoNs := off
        target := some (BitVec.ofNat 64 ((sec * 10 ^ 9 + ns - (s.tly.epSec.toNat * 10 ^ 9 + s.tly.epNs.toNat)) * s.fs / 10 ^ 9)) }
      if 1000 < off.natAbs then sourceLost u else u) := by
  have hlead : decide ((s.net port).prio1 < prio) = false := decide_eq_false (by omega)
  have hfol : (s.on (portDom port) && (s.net port).link && (s.net port).domain == dom) = true := by simp [hpd, hl, hd]
  have hsrc : (s.on 3 && s.tly.source == 3 && s.tly.ptpport == (port == 1)) = true := by simp [hon, hs, hport]
  have hv := ptp_target (fs := s.fs) he
  show execPtpSync _ _ _ _ _ = _
  unfold execPtpSync
  rw [if_pos hfol]
  extract_lets lead u t v w
  rw [if_neg (by simp [lead, hlead]), if_pos (by simpa [u, State.on] using hsrc)]
  have hu : u = s.onNet port fun n => { n with master := false, synced := true } := by simp [u, lead, hlead]
  have hvv : v = (((sec * 10 ^ 9 + ns - (s.tly.epSec.toNat * 10 ^ 9 + s.tly.epNs.toNat)) * s.fs / 10 ^ 9 : Nat) : Int) := by
    rw [← hv]
    simp only [v, t, u, State.onNet_tly, State.fs]
  have htar : BitVec.ofInt 64 (if v < 0 then 0 else v) =
      BitVec.ofNat 64 ((sec * 10 ^ 9 + ns - (s.tly.epSec.toNat * 10 ^ 9 + s.tly.epNs.toNat)) * s.fs / 10 ^ 9) := by
    rw [if_neg (show ¬ v < 0 by rw [hvv]; omega), hvv, BitVec.ofInt_natCast]
  simp only [w, htar, hu]
  rfl

/-- A message that the source's port follows takes the target it names; one whose servo offset is above 1 µs is a loss. -/
theorem ptpSync_followed {port sec ns dom prio : Nat} {off : Int} {s : State} (hon : s.on 3 = true)
    (hpd : s.on (portDom port) = true) (hl : (s.net port).link = true) (hd : (s.net port).domain = dom)
    (hp : prio ≤ (s.net port).prio1) (hs : s.tly.source = 3) (hport : s.tly.ptpport = (port == 1))
    (he : s.tly.epSec.toNat * 10 ^ 9 + s.tly.epNs.toNat ≤ sec * 10 ^ 9 + ns) :
    Gives (.ptpSync ⟨port, dom, prio⟩ sec ns off) s fun t =>
      t.tly.target = some (BitVec.ofNat 64 ((sec * 10 ^ 9 + ns - (s.tly.epSec.toNat * 10 ^ 9 + s.tly.epNs.toNat)) * s.fs / 10 ^ 9)) ∧
      t.tly.servoNs = off ∧ (t.net port).synced = true ∧ (t.net port).master = false ∧ t.tly.now = s.tly.now ∧
      (1000 < off.natAbs → s.tly.state ≠ .freeRun → t.tly.lost = true) := by
  refine ⟨_, exec_ptpSync_followed hon hpd hl hd hp hs hport he, ?_⟩
  extract_lets u
  have hnet : u.net port = { s.net port with master := false, synced := true } := State.onNet_net s port _
  split
  · refine ⟨by simp [u], by simp [u], by simp [hnet], by simp [hnet], by simp [u], fun _ hs => sourceLost_lost ?_ ?_⟩
    · simpa [u, State.on] using hon
    · simpa [u] using hs
  · next hoff => exact ⟨by simp [u], by simp [u], by simp [hnet], by simp [hnet], by simp [u], fun h => absurd h hoff⟩

/-- The nearest whole number of frames to an error: at most half a frame is left. -/
theorem nearestFrame_bounds {err : Int} (h : 0 ≤ err) :
    -10 ^ 9 ≤ 2 * (err - (((2 * err + 10 ^ 9) / (2 * 10 ^ 9)).toNat : Int) * 10 ^ 9) ∧
      2 * (err - (((2 * err + 10 ^ 9) / (2 * 10 ^ 9)).toNat : Int) * 10 ^ 9) < 10 ^ 9 := by
  omega

/-- What an alignment to a target does, by the sign and the size of the error. -/
theorem exec_tallyAlign_target (ph : Int) {v : Tally} {s : State} (hon : s.on 3 = true) (hl : s.tly.lost = false)
    (hfr : s.tly.state ≠ .freeRun) (hah : s.tly.state ≠ .ahead) (hsrc : ¬ s.tly.source.toNat = 1 ∧ ¬ s.tly.source.toNat = 2)
    (ht : s.tly.target = some v) :
    let err := alignError ((v.toNat : Int) - s.tly.now.toNat) ph s.fs
    let k := (2 * err + 10 ^ 9) / (2 * 10 ^ 9)
    exec (.tallyAlign ph) s = .next (
      if 0 ≤ err then
        if s.tly.aligned = false ∨ 4096 * 10 ^ 9 < err ∨ s.tly.relock = true then
          s.onTly fun t => { t with skipNext := k.toNat, slewNs := (err - k * 10 ^ 9) / s.fs, aligned := true }
        else s.onTly fun t => { t with slewNs := err / s.fs }
      else if err < -4096 * 10 ^ 9 then
        settleAud (notify "tly" "ahead" (s.onTly fun t => { t with state := .ahead, slewNs := 0, aligned := true, holdEdges := 0 }))
      else s.onTly fun t => { t with slewNs := err / s.fs, aligned := true }) := by
  intro err k
  have hg : (!s.on 3 || s.tly.lost || s.tly.state == .freeRun || s.tly.state == .ahead) = false := by
    simp [hon, hl, hfr, hah]
  simp only [exec, execTallyAlign, hg, Bool.false_eq_true, if_false]
  split
  next h => exact absurd h hsrc.1
  next h => exact absurd h hsrc.2
  next => rw [ht]

/-- Settles O7: PTP's target by `ptpSync_followed`; the alignment's three answers by the sign and the size of the error. -/
theorem ptpAndAlignment : Obligations.PtpAndAlignment := by
  unfold Obligations.PtpAndAlignment
  refine ⟨fun port sec ns dom prio off s _ hon hpd hl hd hp hs hport he => ptpSync_followed hon hpd hl hd hp hs hport he,
    fun port sec ns dom prio off s hpd hl hd hp => ?_, fun port sec ns dom prio off s hd => ?_, ?_, ?_, ?_⟩
  · simp [exec, execPtpSync, hpd, hl, hd, hp]
  · simp [exec, execPtpSync, hd]
  · intro ph v s hon hl hfr hah hsrc ht
    have hmatch : ¬ s.tly.source.toNat = 1 ∧ ¬ s.tly.source.toNat = 2 := by rcases hsrc with h | h <;> simp [h]
    intro err frame
    refine ⟨_, exec_tallyAlign_target ph hon hl hfr hah hmatch ht, ?_⟩
    split
    next h0 =>
      split
      next hskip =>
        refine ⟨rfl, fun _ _ => ⟨(nearestFrame_bounds h0).1, (nearestFrame_bounds h0).2, rfl⟩, fun _ ha hb hr => ?_, fun hn => ?_, fun hn => ?_⟩
        · simp [ha, hr] at hskip
          omega
        all_goals omega
      next hslew => exact ⟨rfl, fun _ h => absurd h hslew, fun _ _ _ _ => rfl, fun hn => by omega, fun hn => by omega⟩
    next h0 =>
      split
      next hfar => exact ⟨by simp, fun h => absurd h h0, fun h => absurd h h0, fun _ => by simp, fun _ hn => absurd hn (by omega)⟩
      next hnear => exact ⟨rfl, fun h => absurd h h0, fun h => absurd h h0, fun hn => absurd hn hnear, fun _ _ => ⟨rfl, rfl⟩⟩
  · intro ph s hon hl hfr hah hsrc
    rcases hsrc with h | h <;> simp [exec, execTallyAlign, hon, hl, hfr, hah, h]
  · intro s hon hl hs
    have hg : (s.on 3 && !s.tly.lost && (s.tly.state == .acquire || s.tly.state == .holdover)) = true := by
      rcases hs with h | h <;> simp [hon, hl, h]
    refine ⟨_, by simp only [exec, execTallyLocked, hg, if_true]; rfl, ?_⟩
    have hdom : s.pwr.dom[3] = true := by simpa [State.on] using hon
    simp [settleAud, State.on, hl, hdom]

/-! ### A write of the source -/

theorem reSource_of_ne {src : BitVec 2} {port : Bool} {s : State} (h : src ≠ s.tly.source) :
    reSource src port s = settleAud (flowsWait (s.onTly fun t => { t with
      source := src, ptpport := port, state := startState src, lost := false, holdEdges := 0, skipNext := 0, slewNs := 0
      target := none })) := by
  simp [reSource, h]

@[simp] theorem flowsWait_evq (s : State) : (flowsWait s).evq = s.evq := (flowsWait_only s).elim fun _ h => h.evq
@[simp] theorem settleAud_evq (s : State) : (settleAud s).evq = s.evq := rfl

/-- Settles O8: the write settles the source and, with the rate it has, starts no era. -/
theorem sourceWrite : Obligations.SourceWrite := by
  unfold Obligations.SourceWrite
  intro v s hon hsrc hrate
  refine ⟨_, rfl, ?_⟩
  have hzero : (BitVec.ofNat 2 (fld v 0 2) = 0) ↔ fld v 0 2 = 0 := by
    have : fld v 0 2 < 4 := Nat.mod_lt _ (by decide)
    rw [← BitVec.toNat_inj]
    simp [Nat.mod_eq_of_lt this]
  have hstart : startState (BitVec.ofNat 2 (fld v 0 2)) = if fld v 0 2 = 0 then .freeRun else .acquire := by
    simp only [startState, hzero]
  rw [if_pos hon]
  unfold writeTlyCtl
  extract_lets sl u w r
  have hw : w = settleAud (flowsWait (u.onTly fun t => { t with
      source := BitVec.ofNat 2 (fld v 0 2), ptpport := v.getLsbD 9, state := startState (BitVec.ofNat 2 (fld v 0 2)), lost := false
      holdEdges := 0, skipNext := 0, slewNs := 0, target := none })) := reSource_of_ne hsrc
  have hrate : r = w.tly.rate.toNat := by simpa [hw, u] using hrate
  clear_value w
  split
  · simp [hw, u, hstart]
  · rw [if_pos (Or.inl hrate : r = w.tly.rate.toNat ∨ 5 < r)]
    simp [hw, u, hstart]

end Sys2Proof.Machine
end

section
/-! The order in which a line's checks refuse it (spec 03, check orders 5 to 7). -/

namespace Sys2Proof.Machine

/-- A session below the verb's level is denied before anything else is looked at. -/
theorem checkKeys_of_level {v : Verb} {c : Ctx} {a : Args} {s : State} (h : (s.levelOf c.origin).rank < (v.needs a).rank) :
    checkKeys v c a s = .error (20, "") := by
  simp [checkKeys, h]

/-- Check orders 6 and 7: a key the line lacks, then the values it gives. -/
def argCheck (v : Verb) (a : Args) (s : State) : Except (Nat × String) Env :=
  match missingKey v.keys a with
  | some k => .error (14, k)
  | none => match v.lacks a s with
    | some k => .error (14, k)
    | none => checkArgs v.keys a

theorem argCheck_missing {v : Verb} {a : Args} {s : State} {k : String} (h : missingKey v.keys a = some k) : argCheck v a s = .error (14, k) := by
  rw [argCheck, h]

theorem argCheck_lacks {v : Verb} {a : Args} {s : State} {k : String} (hm : missingKey v.keys a = none) (h : v.lacks a s = some k) :
    argCheck v a s = .error (14, k) := by
  rw [argCheck, hm]
  simp only [h]

theorem argCheck_full {v : Verb} {a : Args} {s : State} (hm : missingKey v.keys a = none) (h : v.lacks a s = none) :
    argCheck v a s = checkArgs v.keys a := by
  rw [argCheck, hm]
  simp only [h]

/-- A line that no check of order 5 stops goes on to its keys. -/
theorem checkKeys_of_free {v : Verb} {c : Ctx} {a : Args} {s : State} (hl : (v.needs a).rank ≤ (s.levelOf c.origin).rank)
    (hd : v.obj ≠ "desk") (hp : guardOf v a = none) (hu : v.name ≠ "unlock") (hcl : claimBars v c.origin a s = false) (hk : v.obj ≠ "ldg") :
    checkKeys v c a s = argCheck v a s := by
  have hpass : passBars v c.origin a s = false := by rw [passBars, hp]
  have hun : unlockBars v c.origin s = false := by simp [unlockBars, hu]
  have hkl : keyLocked v c.origin a s = false := by
    unfold keyLocked
    cases c.origin <;> simp [hk]
  have hrt : (match c.origin with | .route .. => v.obj == "desk" && (v.name == "claim" || v.name == "release") | _ => false) = false := by
    cases c.origin <;> simp [hd]
  unfold checkKeys
  extract_lets rc
  have hrc : rc = false := hrt
  rw [if_neg (by simp [hrc, hpass, hl]), if_neg (by simp [hun, hcl, hkl])]
  rfl

/-- Where no object is claimed, no claim stops a line. -/
theorem claimBars_of_noClaim {v : Verb} {o : Origin} {a : Args} {s : State} (h : s.desk.claims = []) : claimBars v o a s = false := by
  unfold claimBars
  cases o <;> simp [h]

/-- No claim stops a line that changes nothing. -/
theorem claimBars_of_reads {v : Verb} {o : Origin} {a : Args} {s : State} (h : v.changes = false) : claimBars v o a s = false := by
  simp [claimBars, h]

/-- No key of a line of the verb carries a partition password, where the object is not the Ledger. -/
theorem keyWrong_of_obj {v : Verb} (h : v.obj ≠ "ldg") (o : Origin) (a : Args) (s : State) : keyWrong v o a s = none := by
  cases o <;> simp [keyWrong, keyPart, h]

theorem lowerS_policy : lowerS "policy" = "policy" := by decide

theorem missingKey_audDry (v : Val) : missingKey audDryV.keys [⟨"policy", v⟩] = some "guest" := by
  simp [missingKey, audDryV, kInt, kEnum, lowerS_policy]

theorem checkKeys_audDry_noGuest {c : Ctx} {v : Val} {s : State} (hl : Level.keeper.rank ≤ (s.levelOf c.origin).rank)
    (hc : s.desk.claims = []) : checkKeys audDryV c [⟨"policy", v⟩] s = .error (14, "guest") := by
  rw [checkKeys_of_free (v := audDryV) (c := c) (s := s) hl (by decide) rfl (by decide) (claimBars_of_noClaim hc) (by decide),
    argCheck_missing (missingKey_audDry v)]

/-- What the checks say of a `lock`: it takes no key. -/
theorem checkKeys_lock {c : Ctx} {a : Args} {s : State} (hc : s.desk.claims = []) (hm : missingKey lockV.keys a = none) :
    checkKeys lockV c a s = checkArgs lockV.keys a := by
  rw [checkKeys_of_free (Nat.zero_le _) (by decide) rfl (by decide) (claimBars_of_noClaim hc) (by decide), argCheck_full hm rfl]

/-- A line with a tally its verb does not take is a bad value, where its checks and its body find no earlier fault. -/
theorem refuses_of_prefix {v : Verb} {body : Ctx → Pfx → Env → State → Res} {i : Instr} {c : Ctx} {p : Pfx} {a : Args} {e : Env}
    {s : State} (hi : exec i s = ulc v body c p a s) (h : canRun c.origin s = true) (hk : checkKeys v c a s = .ok e)
    (hp : strayPrefix v p = true) (hb : settled (body c p e s) s = .err 13 "" s) : Refuses i c s 13 "" := by
  unfold Refuses
  rw [hi]
  unfold ulc runCommand runVerb
  rw [h, hk]
  simp [hp, hb]

/-- A `lock` outside a session fails with none of the codes that stand before a stray tally. -/
theorem settled_lockBody (c : Ctx) (p : Pfx) (e : Env) (s : State) : settled (lockBody c p e s) s = .err 13 "" s := by
  unfold lockBody
  cases c.origin <;> simp [settled]

/-- Settles O13: each refusal is the first of the checks that finds a fault. -/
theorem checkOrder : Obligations.CheckOrder := by
  unfold Obligations.CheckOrder
  refine ⟨fun c p a s hr hl => ?_, fun n tag cut p a s hr hl hc => ?_, fun c p v s hr hl hc => ⟨?_, ?_, fun hp => ?_⟩⟩
  · exact refuses_of_check rfl hr (checkKeys_of_level hl) (.inl rfl)
  · refine refuses_of_check rfl hr ?_ (.inr (.inl rfl))
    obtain ⟨m, hm, hmem⟩ := hc
    have hcl : claimBars audSetV (.sess n) a s = true := by
      simp only [claimBars, audSetV]
      simpa using ⟨m, hmem, hm⟩
    have hpass : passBars audSetV (.sess n) a s = false := rfl
    have hlev : ¬ (s.levelOf (.sess n)).rank < (audSetV.needs a).rank := Nat.not_lt.mpr hl
    simp [checkKeys, hlev, hpass, hcl]
  · exact refuses_of_check rfl hr (checkKeys_audDry_noGuest hl hc) (.inr (.inr (keyWrong_of_obj (by decide) _ _ _)))
  · exact refuses_of_check rfl hr (checkKeys_lock hc rfl) (.inr (.inr (keyWrong_of_obj (by decide) _ _ _)))
  · exact refuses_of_prefix rfl hr (checkKeys_lock hc rfl) (by simp [strayPrefix, lockV, hp]) (settled_lockBody c p [] s)

end Sys2Proof.Machine
end

section
/-! What a session is sent, and how a line is answered (spec 03). -/

namespace Sys2Proof.Machine

/-! ### A session's record -/

theorem DeskSt.setSess_setSess (d : DeskSt) (n : Nat) (x y : Session) : (d.setSess n x).setSess n y = d.setSess n y := by
  match n with
  | 0 | 1 | 2 | 3 | _ + 4 => rfl

theorem State.onSess_onSess (s : State) {n : Nat} (hn : n < 4) (f g : Session → Session) :
    (s.onSess n f).onSess n g = s.onSess n fun x => g (f x) := by
  unfold State.onSess State.onDesk
  simp only [DeskSt.sess_setSess _ _ _ hn, DeskSt.setSess_setSess]

theorem State.onSess_congr {s : State} {n : Nat} {f g : Session → Session} (h : f (s.sess n) = g (s.sess n)) : s.onSess n f = s.onSess n g :=
  congrArg (fun x => { s with desk := s.desk.setSess n x }) h

/-- Another session is left as it was. -/
theorem State.onSess_sess_ne (s : State) {n m : Nat} (hn : n < 4) (hm : m < 4) (h : m ≠ n) (f : Session → Session) :
    (s.onSess n f).sess m = s.sess m := DeskSt.sess_setSess_ne _ n m _ hn hm h

/-! ### The output buffer -/

theorem countDrops_zero (k : Nat) (d : DeskSt) : countDrops k 0 d = d := by
  have hid : (fun c : BitVec 8 => satAdd c 0) = id := by
    funext c
    simp [satAdd, c.isLt]
  unfold countDrops lmod
  rw [hid, List.modify_id]

/-- What fits is put behind what waits in the buffer, and nothing is discarded. -/
theorem pushOut_of_room {k : Nat} {kind : OutKind} {text : String} {s : State} (hw : (s.sess k).waiting = none)
    (hr : outUsed (s.sess k) + text.length ≤ outCap) :
    pushOut k kind text s = s.onSess k fun x => { x with out := x.out ++ [⟨kind, text, 0⟩], mid := leavesMid x.mid text } := by
  have hroom : makeRoom ((s.sess k).out.length + 1) text.length (s.sess k).out = ((s.sess k).out, 0, 0) := if_pos hr
  have hkeep : (s.onSess k fun x => { x with out := (s.sess k).out, dropPend := x.dropPend + 0 }).onDesk (countDrops k 0) = s := by
    rw [State.onSess_self (f := fun x => { x with out := (s.sess k).out, dropPend := x.dropPend + 0 }) rfl]
    simp [State.onDesk, countDrops_zero]
  unfold pushOut
  simp only [hw, Option.isSome_none, Bool.and_false, Bool.false_eq_true, if_false, hroom, hkeep, Option.isNone_none, Bool.and_true,
    show ((List.map (fun i => i.text.length - i.sent) (s.sess k).out).sum + text.length ≤ outCap) from hr, decide_true, if_true]

theorem outUsed_append (x : Session) (l : List OutItem) (m : Bool) :
    outUsed { x with out := x.out ++ l, mid := m } = outUsed x + (l.map fun i => i.text.length - i.sent).sum := by
  simp [outUsed]

theorem leavesMid_prompt (m : Bool) : leavesMid m promptS = true := by
  have hlast : promptS.toList.getLast? = some ' ' := by decide
  simp [leavesMid, hlast]

/-- A reply of a TYPED session that fits is followed by the prompt. -/
theorem sessReply_of_room {n : Nat} {text : String} {s : State} (hn : n < 4) (hm : (s.sess n).machine = false)
    (hw : (s.sess n).waiting = none) (hr : outUsed (s.sess n) + text.length + promptS.length ≤ outCap) :
    sessReply n text s = s.onSess n fun x => { x with out := x.out ++ [⟨.reply, text, 0⟩, ⟨.prompt, promptS, 0⟩], mid := true } := by
  have hused : outUsed ((s.onSess n fun x => { x with out := x.out ++ [⟨.reply, text, 0⟩], mid := leavesMid x.mid text }).sess n) +
      promptS.length ≤ outCap := by
    rw [State.onSess_sess s hn, outUsed_append]
    simpa using hr
  unfold sessReply
  simp only [hm, Bool.false_eq_true, if_false]
  rw [pushOut_of_room hw (by omega), pushOut_of_room (by rw [State.onSess_sess s hn]; exact hw) hused, State.onSess_onSess s hn]
  refine State.onSess_congr ?_
  simp [leavesMid_prompt]

/-! ### The answer to a line -/

/-- The answer to an open session of a Desk that serves. -/
theorem sessAnswer_of_open {n : Nat} {tag : Option Nat} {r : Except (Nat × String) (List String)} {s : State}
    (ho : (s.sess n).opened = true) (hr : s.desk.ready = true) :
    sessAnswer n tag r s = sessReply n (replyText (s.sess n).machine tag r) s := by
  simp [sessAnswer, ho, hr]

theorem sessAnswer_of_closed {n : Nat} {tag : Option Nat} {r : Except (Nat × String) (List String)} {s : State}
    (ho : (s.sess n).opened = false) : sessAnswer n tag r s = s := by
  simp [sessAnswer, ho]

/-- A session with no mode that waits for its reply keeps its mode. -/
theorem switchMode_of_none {n : Nat} {s : State} (h : (s.sess n).next = none) : switchMode (.sess n) s = s := by
  unfold switchMode
  exact State.onSess_self (by simp only [h])

/-- A line that runs no more moves nothing. -/
theorem answer_morning_stale {l : Nat} {tag : Option Nat} {r : Except (Nat × String) (List String)} {s : State}
    (h : runsLine l s = false) : answer (.morning l) tag r s = s := by
  simp [answer, h]

/-- Settles O14: a typed answer by `sessReply_of_room`; a closed carrier by `sessAnswer_of_closed`; the script by the line it is at. -/
theorem lineAnswers : Obligations.LineAnswers := by
  unfold Obligations.LineAnswers
  refine ⟨fun n cut ls s hn ho hr hm hw hx hroom => ?_, fun n cut ls s hn ho hx => ?_, fun l w cut ls s h => ?_, fun k l w cut ls s h hk => ?_⟩
  · show switchMode (.sess n) (sessAnswer n none (.ok ls) s) = _
    rw [sessAnswer_of_open ho hr, hm, replyText, sessReply_of_room hn hm hw hroom]
    exact switchMode_of_none (by rw [State.onSess_sess s hn]; exact hx)
  · show switchMode (.sess n) (sessAnswer n none (.ok ls) s) = _
    rw [sessAnswer_of_closed ho, switchMode_of_none hx]
  · show answer (.morning l) none (.ok ls) s = _
    simp [answer, runsLine, h]
  · show answer (.morning k) none (.ok ls) s = s
    exact answer_morning_stale (by simp [runsLine, h, Ne.symm hk])

end Sys2Proof.Machine
end

section
/-! The sessions of the Desk: opening and closing, and what passes over their carriers (spec 03). -/

namespace Sys2Proof.Machine

/-! ### What a text sent to a session leaves -/

/-- A session but for what it is sent. -/
def Session.quiet (x : Session) : Session := { x with out := [], mid := false, dropPend := 0, waiting := none }

/-- The Desk but for what its sessions are sent and the counts of what was discarded. -/
def DeskSt.quiet (d : DeskSt) : DeskSt :=
  { d with sess0 := d.sess0.quiet, sess1 := d.sess1.quiet, sess2 := d.sess2.quiet, sess3 := d.sess3.quiet, drop := [] }

theorem DeskSt.quiet_setSess {d : DeskSt} {n : Nat} {x : Session} (h : x.quiet = (d.sess n).quiet) : (d.setSess n x).quiet = d.quiet := by
  match n with
  | 0 | 1 | 2 | 3 =>
    simp only [DeskSt.sess] at h
    simp only [DeskSt.setSess, DeskSt.quiet, h]
  | _ + 4 => rfl

theorem DeskSt.sess_quiet (d : DeskSt) (n : Nat) : d.quiet.sess n = (d.sess n).quiet := by
  match n with
  | 0 | 1 | 2 | _ + 3 => rfl

theorem State.onSess_quiet {s : State} {n : Nat} {f : Session → Session} (h : ∀ x, (f x).quiet = x.quiet) : (s.onSess n f).desk.quiet = s.desk.quiet :=
  DeskSt.quiet_setSess (h _)

theorem countDrops_quiet (k n : Nat) (d : DeskSt) : (countDrops k n d).quiet = d.quiet := rfl

@[simp] theorem pushOut_quiet (k : Nat) (kind : OutKind) (text : String) (s : State) : (pushOut k kind text s).desk.quiet = s.desk.quiet := by
  have hcount : ∀ (t : State) (n : Nat), (t.onDesk (countDrops k n)).desk.quiet = t.desk.quiet := fun _ _ => rfl
  unfold pushOut
  extract_lets x note
  split
  · exact (hcount _ _).trans (State.onSess_quiet (by intro; rfl))
  split
  extract_lets fits u
  have hu : u.desk.quiet = s.desk.quiet := (hcount _ _).trans (State.onSess_quiet (by intro; rfl))
  clear_value u
  repeat' split
  · exact (State.onSess_quiet (by intro; rfl)).trans hu
  · exact ((hcount _ _).trans (State.onSess_quiet (by intro; rfl))).trans hu
  · exact (State.onSess_quiet (by intro; rfl)).trans hu

@[simp] theorem sayTo_quiet (k : Nat) (obj text : String) (s : State) : (sayTo k obj text s).desk.quiet = s.desk.quiet := by
  simp only [sayTo]
  split <;> simp

@[simp] theorem notify_quiet (obj rest : String) (s : State) : (notify obj rest s).desk.quiet = s.desk.quiet := by simp [notify]

/-- Another session is sent nothing. -/
theorem pushOut_sess_ne {k m : Nat} (hk : k < 4) (hm : m < 4) (h : m ≠ k) (kind : OutKind) (text : String) (s : State) :
    (pushOut k kind text s).sess m = s.sess m := by
  have hs : ∀ (t : State) f, (t.onSess k f).sess m = t.sess m := fun t f => t.onSess_sess_ne hk hm h f
  unfold pushOut
  extract_lets x note
  split
  · exact (countDrops_sess _ _ _ _).trans (hs _ _)
  split
  extract_lets fits u
  have hu : u.sess m = s.sess m := (countDrops_sess _ _ _ _).trans (hs _ _)
  clear_value u
  repeat' split
  · exact (hs _ _).trans hu
  · exact ((countDrops_sess _ _ _ _).trans (hs _ _)).trans hu
  · exact (hs _ _).trans hu

theorem sayTo_sess_ne {k m : Nat} (hk : k < 4) (hm : m < 4) (h : m ≠ k) (obj text : String) (s : State) :
    (sayTo k obj text s).sess m = s.sess m := by
  simp only [sayTo]
  split
  · exact pushOut_sess_ne hk hm h _ _ _
  · rfl

/-- A closed session is sent no notice. -/
theorem sayTo_sess_of_closed {k m : Nat} (hk : k < 4) (hm : m < 4) {s : State} (h : (s.sess m).opened = false) (obj text : String) :
    (sayTo k obj text s).sess m = s.sess m := by
  by_cases hkm : m = k
  · subst hkm
    simp [sayTo, h]
  · exact sayTo_sess_ne hk hm hkm _ _ _

theorem notify_sess_of_closed {m : Nat} (hm : m < 4) {s : State} (h : (s.sess m).opened = false) (obj rest : String) :
    (notify obj rest s).sess m = s.sess m := by
  simp only [notify]
  have h0 := fun t => sayTo_sess_of_closed (k := 0) (by decide) hm h obj t
  have h1 := fun t u => sayTo_sess_of_closed (k := 1) (by decide) hm ((congrArg Session.opened (h0 u)).trans h) obj t
  have h2 := fun t u v => sayTo_sess_of_closed (k := 2) (by decide) hm ((congrArg Session.opened ((h1 u v).trans (h0 v))).trans h) obj t
  rw [sayTo_sess_of_closed (by decide) hm (by rw [h2, h1, h0, h]), h2, h1, h0]

section Fields

variable {s t : State} (h : t.desk.quiet = s.desk.quiet)
include h

theorem claims_of_quiet : t.desk.claims = s.desk.claims := (congrArg DeskSt.claims h : t.desk.quiet.claims = s.desk.quiet.claims)
theorem deferred_of_quiet : t.desk.deferred = s.desk.deferred := (congrArg DeskSt.deferred h : t.desk.quiet.deferred = s.desk.quiet.deferred)
theorem script_of_quiet : t.desk.script = s.desk.script := (congrArg DeskSt.script h : t.desk.quiet.script = s.desk.quiet.script)
theorem ready_of_quiet : t.desk.ready = s.desk.ready := (congrArg DeskSt.ready h : t.desk.quiet.ready = s.desk.quiet.ready)
theorem refused_of_quiet : t.desk.refused = s.desk.refused := (congrArg DeskSt.refused h : t.desk.quiet.refused = s.desk.quiet.refused)
theorem kwq_of_quiet : t.desk.kwq = s.desk.kwq := (congrArg DeskSt.kwq h : t.desk.quiet.kwq = s.desk.quiet.kwq)

theorem sess_of_quiet (n : Nat) : (t.sess n).quiet = (s.sess n).quiet := by
  rw [State.sess, State.sess, ← DeskSt.sess_quiet, h, DeskSt.sess_quiet]

end Fields

/-! ### Opening and closing -/

/-- A session opens in TYPED mode at VISITOR, and is sent its first prompt once the Desk serves. -/
theorem openSession_eq (k port : Nat) (peer : String) {s : State} (hk : k < 4) :
    openSession k port peer s = s.onSess k fun _ =>
      { opened := true, port := port, peer := peer, out := if s.desk.ready then [⟨.prompt, promptS, 0⟩] else [], mid := s.desk.ready } := by
  have hready : (s.onSess k fun _ => ({ opened := true, port := port, peer := peer } : Session)).desk.ready = s.desk.ready := by
    match k with
    | 0 | 1 | 2 | 3 | _ + 4 => rfl
  have hroom : outUsed ({ opened := true, port := port, peer := peer } : Session) + promptS.length ≤ outCap := by
    show 0 + promptS.length ≤ outCap
    decide
  unfold openSession
  simp only [hready]
  split
  next hr =>
    rw [pushOut_of_room (by rw [State.onSess_sess s hk]) (by rw [State.onSess_sess s hk]; exact hroom), State.onSess_onSess s hk]
    simp [hr, leavesMid_prompt]
  next hr => simp [hr]

/-- What the end of a session changes, before its notice. -/
def endedSession (k : Nat) (s : State) : State :=
  (((s.onSess k fun _ => {}).onDesk fun d => { d with
    claims := d.claims.filter fun c => c.2 != k, deferred := d.deferred.map fun e => if e.1 = k then (4, e.2) else e }).onLdg fun d =>
      { d with queue := d.queue.map (forget k) }).onEvq fun q => { q with entries := q.entries.map (orphan k), held := q.held.map (orphan k) }

theorem endSession_eq {k : Nat} {s : State} (h : (s.sess k).opened = true) :
    endSession k s = notify "desk" ("end " ++ kn "sess" k) (endedSession k s) := by
  simp only [endSession, h, if_true]
  rfl

theorem endedSession_claims (k : Nat) (s : State) : (endedSession k s).desk.claims = s.desk.claims.filter fun c => c.2 != k := by
  have hk : (s.onSess k fun _ => ({} : Session)).desk.claims = s.desk.claims := by
    match k with
    | 0 | 1 | 2 | 3 | _ + 4 => rfl
  show (s.onSess k fun _ => ({} : Session)).desk.claims.filter _ = _
  rw [hk]

theorem endedSession_deferred (k : Nat) (s : State) :
    (endedSession k s).desk.deferred = s.desk.deferred.map fun e => if e.1 = k then (4, e.2) else e := by
  have hk : (s.onSess k fun _ => ({} : Session)).desk.deferred = s.desk.deferred := by
    match k with
    | 0 | 1 | 2 | 3 | _ + 4 => rfl
  show (s.onSess k fun _ => ({} : Session)).desk.deferred.map _ = _
  rw [hk]

theorem endedSession_sess {k : Nat} (hk : k < 4) (s : State) : (endedSession k s).sess k = {} := State.onSess_sess s hk _

/-- The notice of a session's end is sent to others than itself. -/
theorem endSession_sess {k : Nat} (hk : k < 4) {s : State} (h : (s.sess k).opened = true) : (endSession k s).sess k = {} := by
  rw [endSession_eq h, notify_sess_of_closed hk (by rw [endedSession_sess hk]), endedSession_sess hk]

theorem endSession_claims {k : Nat} {s : State} (h : (s.sess k).opened = true) :
    (endSession k s).desk.claims = s.desk.claims.filter fun c => c.2 != k := by
  rw [endSession_eq h, claims_of_quiet (notify_quiet _ _ _), endedSession_claims]

theorem endSession_deferred {k : Nat} {s : State} (h : (s.sess k).opened = true) :
    (endSession k s).desk.deferred = s.desk.deferred.map fun e => if e.1 = k then (4, e.2) else e := by
  rw [endSession_eq h, deferred_of_quiet (notify_quiet _ _ _), endedSession_deferred]

/-- Nothing settles while no effect is due for a session that has ended. -/
theorem settleRun_of_none {s : State} (h : ∀ e ∈ s.desk.deferred, e.1 ≠ 4) (fuel : Nat) : settleRun fuel s = s := by
  have hf : (s.desk.deferred.find? fun e => e.1 == 4) = none := by simpa using h
  cases fuel with
  | zero => rfl
  | succ f => rw [settleRun, hf]

theorem settleDue_of_none {s : State} (h : ∀ e ∈ s.desk.deferred, e.1 ≠ 4) : settleDue s = s := settleRun_of_none h _

theorem takeDeferred_uart (b : BitVec 22) (f : Bool) (s : State) :
    takeDeferred (.uart (some b) (some f)) s = s.onDesk fun d => { d with baud := b, flow := f } := rfl

theorem onDesk_erase_single {e : Nat × Deferred} {s : State} (h : s.desk.deferred = [e]) :
   s.onDesk (fun d => { d with deferred := d.deferred.erase e }) = s.onDesk fun d => { d with deferred := [] } := by
  have herase : s.desk.deferred.erase e = [] := by rw [h, List.erase_cons_head]
  exact congrArg (fun l => s.onDesk fun d => { d with deferred := l }) herase

/-- A rate held for the reply of a session that has ended is taken at once. -/
theorem settleDue_uart {b : BitVec 22} {f : Bool} {s : State} (h : s.desk.deferred = [(4, .uart (some b) (some f))]) :
    settleDue s = s.onDesk fun d => { d with deferred := [], baud := b, flow := f } := by
  unfold settleDue
  rw [h]
  show settleRun 1 s = _
  rw [settleRun, h]
  show settleRun 0 (takeDeferred (.uart (some b) (some f)) (s.onDesk fun d => { d with deferred := d.deferred.erase (4, .uart (some b) (some f)) })) = _
  rw [onDesk_erase_single h, takeDeferred_uart]
  rfl

/-- The end of a session for which no effect is held settles none. -/
theorem settleDue_endSession {k : Nat} {s : State} (h : (s.sess k).opened = true) (hd : ∀ e ∈ s.desk.deferred, e.1 ≠ k ∧ e.1 ≠ 4) :
    settleDue (endSession k s) = endSession k s := by
  refine settleDue_of_none ?_
  rw [endSession_deferred h]
  intro e he
  obtain ⟨x, hx, rfl⟩ := List.mem_map.mp he
  simp [(hd x hx).1, (hd x hx).2]

theorem not_mem_claims_endSession {k : Nat} {s : State} (h : (s.sess k).opened = true) : ∀ e ∈ (endSession k s).desk.claims, e.2 ≠ k := by
  rw [endSession_claims h]
  intro e he
  simpa using (List.mem_filter.mp he).2

/-- Settles O15: `openSession_eq` for the openings, `endSession_eq` for the ends, `settleDue` for the effects held. -/
theorem sessions : Obligations.Sessions := by
  unfold Obligations.Sessions
  refine ⟨fun s h2 h5 hu hc hw ho => ?_, fun s ho hd => ?_, fun b f s ho hd => ?_, fun port tcp peer s hp h2 hpd hl ht htp hw => ?_,
    fun k s hk ho hd => ?_⟩
  · refine ⟨_, rfl, ?_⟩
    simp only [h2, h5, hu, hc, hw, ho, Bool.not_false, Bool.and_true, beq_self_eq_true, if_true, openSession_eq 1 0 "" (show 1 < 4 by decide)]
    exact ⟨rfl, rfl, rfl, rfl, rfl, rfl⟩
  · refine ⟨_, rfl, ?_⟩
    simp only [settleDue_endSession ho hd]
    refine ⟨by rw [endSession_sess (by decide) ho], not_mem_claims_endSession ho, ?_⟩
    rw [endSession_eq ho]
    exact notify_usb _ _ _
  · have hdue : (endSession 1 s).desk.deferred = [(4, .uart (some b) (some f))] := by
      rw [endSession_deferred ho, hd, List.map_cons, List.map_nil, if_pos rfl]
    refine ⟨_, rfl, ?_⟩
    rw [settleDue_uart hdue]
    exact ⟨congrArg Session.opened (endSession_sess (k := 1) (by decide) ho), rfl, rfl, rfl⟩
  · have hg : (s.on 2 && decide (port < 2) && s.on (portDom port) && (s.net port).link && s.desk.tcpen && s.desk.tcpPort.toNat == tcp &&
        !s.sys.waiting) = true := by simp [h2, hp, hpd, hl, ht, htp, hw]
    refine ⟨fun h => ?_, fun h h' => ?_, fun h h' => ?_⟩
    · refine ⟨_, rfl, ?_⟩
      simp only [hg, h, Bool.not_false, if_true, openSession_eq 2 port peer (show 2 < 4 by decide)]
      exact ⟨rfl, rfl, rfl, rfl⟩
    · refine ⟨_, rfl, ?_⟩
      simp only [hg, h, h', Bool.not_false, Bool.not_true, Bool.false_eq_true, if_false, if_true, openSession_eq 3 port peer (show 3 < 4 by decide)]
      exact ⟨rfl, rfl, rfl, rfl⟩
    · refine ⟨_, rfl, ?_⟩
      simp only [hg, h, h', Bool.not_true, Bool.false_eq_true, if_false, if_true]
      exact ⟨rfl, rfl, List.length_append⟩
  · have hk4 : k < 4 := by omega
    refine ⟨_, rfl, ?_⟩
    simp only [if_pos hk, settleDue_endSession ho hd]
    refine ⟨by rw [endSession_sess hk4 ho], not_mem_claims_endSession ho, ?_⟩
    rw [endSession_eq ho]
    simp [endedSession]

end Sys2Proof.Machine
end

section
/-! What passes over a session's carrier (spec 03). -/

namespace Sys2Proof.Machine

/-! ### Characters and lines -/

theorem listens_iff {k : Nat} {s : State} :
    listens k s = true ↔ s.on 2 = true ∧ k < 4 ∧ (s.sess k).opened = true ∧ s.desk.ready = true := by
  simp [listens, and_assoc]

@[simp] theorem DeskSt.setSess_ready (d : DeskSt) (n : Nat) (x : Session) : (d.setSess n x).ready = d.ready := by
  match n with
  | 0 | 1 | 2 | 3 | _ + 4 => rfl

@[simp] theorem State.onSess_on (s : State) (n : Nat) (f : Session → Session) (d : Nat) : (s.onSess n f).on d = s.on d := rfl

/-- A line is read only by an open session of a Desk that serves, which owes no answer. -/
theorem canRun_sess {k : Nat} {s : State} :
    canRun (.sess k) s = true ↔ listens k s = true ∧ (s.sess k).busy = false ∧ (s.sess k).waiting = none := by
  simp [canRun, listens, and_assoc]

theorem serveLine_of_empty {k : Nat} {s : State} (h : (s.sess k).inq = []) (cut : Bool) : serveLine k cut s = s := by
  simp only [serveLine, h]

theorem serveLine_of_busy {k : Nat} {s : State} (h : canRun (.sess k) s = false) (cut : Bool) : serveLine k cut s = s := by
  simp only [serveLine, h]
  split <;> rfl

/-- The oldest line is read by a session that can run it. -/
theorem serveLine_of_line {k : Nat} {t : String} {r : List String} {s : State} (h : (s.sess k).inq = t :: r) (hc : canRun (.sess k) s = true)
    (cut : Bool) : serveLine k cut s = readLine k t cut (s.onSess k fun x => { x with inq := r }) := by
  simp only [serveLine, h, hc, if_true]

/-- A line taken by a session that owes an answer waits. -/
theorem takeLine_of_busy {k : Nat} {text : String} {s : State} (hk : k < 4) (hb : (s.sess k).busy = true) (cut : Bool) :
    takeLine k text cut s = s.onSess k fun x => { x with inq := x.inq ++ [text], typed := "", esc := false } := by
  refine serveLine_of_busy (Bool.eq_false_iff.mpr fun h => ?_) cut
  obtain ⟨-, hnot, -⟩ := canRun_sess.mp h
  rw [State.onSess_sess s hk] at hnot
  simp [hb] at hnot

/-- A session with no line before it that owes no answer reads a line as it is taken. -/
theorem takeLine_of_idle {k : Nat} {text : String} {s : State} (hl : listens k s = true) (hb : (s.sess k).busy = false)
    (hw : (s.sess k).waiting = none) (hq : (s.sess k).inq = []) (cut : Bool) :
    takeLine k text cut s = readLine k text cut (s.onSess k fun x => { x with inq := [], typed := "", esc := false }) := by
  obtain ⟨h2, hk, ho, hr⟩ := listens_iff.mp hl
  unfold takeLine
  rw [serveLine_of_line (t := text) (r := []), State.onSess_onSess s hk]
  · rw [State.onSess_sess s hk, hq, List.nil_append]
  · rw [canRun_sess, listens_iff, State.onSess_sess s hk]
    simp [h2, hk, ho, hr, hb, hw]

theorem echoed_printable {ch : Nat} (h0 : 0x20 ≤ ch) (h1 : ch ≤ 0x7E) :
    printable (Char.ofNat ch) = true ∧ (Char.ofNat ch).toNat = ch := by
  have : ∀ c : Fin 127, 0x20 ≤ c.val → printable (Char.ofNat c.val) = true ∧ (Char.ofNat c.val).toNat = c.val := by decide
  exact this ⟨ch, by omega⟩ h0

/-- A printable character joins the partial line and is echoed. -/
theorem typeChar_printable {k ch : Nat} {s : State} (he : (s.sess k).esc = false) (h0 : 0x20 ≤ ch) (h1 : ch ≤ 0x7E) :
    typeChar k (Char.ofNat ch) s = pushOut k .echo (echoOf (s.sess k).typed (Char.ofNat ch))
      (s.onSess k fun x => { x with typed := x.typed.push (Char.ofNat ch) }) := by
  obtain ⟨hp, hn⟩ := echoed_printable h0 h1
  have hcodes : ch ≠ 0x1B ∧ ch ≠ 0x08 ∧ ch ≠ 0x7F ∧ ch ≠ 0x15 ∧ ch ≠ 0x03 := by omega
  simp [typeChar, he, hn, hp, hcodes]

theorem length_echoOf (t : String) (c : Char) : (echoOf t c).length = 1 := by
  simp [echoOf]

theorem pLine_empty : pLine "".toList = .blank := by decide
theorem pLine_ping : pLine "ping".toList = .cmd .none "" "ping" [] := by decide
theorem findVerb_ping : findVerb "" "ping" [] = .ok (pingV, pingBody) := rfl

theorem typedLine_empty (c : Ctx) (s : State) : typedLine c "" s = none := by
  have hlen : decide (240 < "".length) = false := by decide
  have hall : "".toList.all printable = true := by decide
  simp only [typedLine, lineRes, hlen, hall, pLine_empty, Bool.not_true, Bool.or_self, Bool.false_eq_true, if_false]

theorem runVerb_ping (c : Ctx) (s : State) : runVerb pingV pingBody c .none [] s = .ok [] s := by
  have hc : checkKeys pingV c [] s = .ok [] := by
    rw [checkKeys_of_free (Nat.zero_le _) (by decide) rfl (by decide) (claimBars_of_reads rfl) (by decide), argCheck_full rfl rfl]
    rfl
  unfold runVerb
  rw [hc]
  rfl

theorem typedLine_ping (c : Ctx) (s : State) : typedLine c "ping" s = some (.ok [] s) := by
  have hlen : decide (240 < "ping".length) = false := by decide
  have hall : "ping".toList.all printable = true := by decide
  simp only [typedLine, lineRes, hlen, hall, pLine_ping, findVerb_ping, runVerb_ping, Bool.not_true, Bool.or_self, Bool.false_eq_true, if_false]

/-- What a TYPED session is sent for a line it reads: the prompt alone for an empty one. -/
theorem readLine_empty {k : Nat} {cut : Bool} {s : State} (hm : (s.sess k).machine = false) (hw : (s.sess k).waiting = none)
    (ho : (s.sess k).out = []) : readLine k "" cut s = s.onSess k fun x => { x with out := [⟨.prompt, promptS, 0⟩], mid := true } := by
  have hroom : outUsed (s.sess k) + promptS.length ≤ outCap := by
    rw [outUsed, ho]
    decide
  simp only [readLine, hm, Bool.false_eq_true, if_false, typedLine_empty]
  rw [pushOut_of_room hw hroom]
  refine State.onSess_congr ?_
  rw [ho, leavesMid_prompt]
  rfl

theorem readLine_ping {k : Nat} {cut : Bool} {s : State} (hl : listens k s = true) (hm : (s.sess k).machine = false)
    (hw : (s.sess k).waiting = none) (ho : (s.sess k).out = []) (hx : (s.sess k).next = none) :
    readLine k "ping" cut s = s.onSess k fun x => { x with out := [⟨.reply, okText false none [], 0⟩, ⟨.prompt, promptS, 0⟩], mid := true } := by
  obtain ⟨-, hk, hopen, hr⟩ := listens_iff.mp hl
  have hroom : outUsed (s.sess k) + (okText false none []).length + promptS.length ≤ outCap := by
    rw [outUsed, ho]
    decide
  simp only [readLine, hm, Bool.false_eq_true, if_false, typedLine_ping]
  rw [lineAnswers.1 k cut [] s hk hopen hr hm hw hx hroom]
  refine State.onSess_congr ?_
  rw [ho]
  rfl

theorem listens_onSess {k : Nat} {f : Session → Session} {s : State} (hk : k < 4) (hf : ∀ x, (f x).opened = x.opened) :
    listens k (s.onSess k f) = listens k s := by
  unfold listens
  rw [State.onSess_sess s hk, hf, State.onSess_on, State.onSess_desk, DeskSt.setSess_ready]

/-- A line taken by a TYPED session that owes nothing is read at once. -/
theorem lineReceived_idle {k : Nat} {text : String} {cut : Bool} {s : State} (hl : listens k s = true) (hb : (s.sess k).busy = false)
    (hw : (s.sess k).waiting = none) (hq : (s.sess k).inq = []) :
    exec (.lineReceived k text cut) s = .next (readLine k text cut (s.onSess k fun x => { x with cr := false, inq := [], typed := "", esc := false })) := by
  obtain ⟨-, hk, -, -⟩ := listens_iff.mp hl
  show execLineReceived k text cut s = _
  rw [execLineReceived, if_pos hl, takeLine_of_idle, State.onSess_onSess s hk]
  · rw [listens_onSess hk (by intro; rfl)]
    exact hl
  all_goals rw [State.onSess_sess s hk]; assumption

/-! ### What leaves -/

theorem drainOut_part {i : OutItem} {n : Nat} (h : i.sent + n < i.text.length) (r : List OutItem) :
    drainOut n (i :: r) = { i with sent := i.sent + n } :: r := by
  rw [drainOut, if_neg (by omega)]

theorem deskDropped_of_empty {k : Nat} {s : State} (ho : (s.sess k).out = []) (hw : (s.sess k).waiting = none)
    (hd : 0 < (s.sess k).dropPend)
    (hr : (noticeText (s.sess k) ("!desk.dropped " ++ kn "n" (s.sess k).dropPend ++ " " ++ kv "t" (noticeT s))).length ≤ outCap) :
    deskDropped k s = s.onSess k fun x => { x with
      out := [⟨.dropped (s.sess k).dropPend, noticeText (s.sess k) ("!desk.dropped " ++ kn "n" (s.sess k).dropPend ++ " " ++ kv "t" (noticeT s)), 0⟩]
      dropPend := 0
      mid := leavesMid x.mid (noticeText (s.sess k) ("!desk.dropped " ++ kn "n" (s.sess k).dropPend ++ " " ++ kv "t" (noticeT s))) } := by
  have hcond : ¬ ((s.sess k).dropPend = 0 ∨ (s.sess k).waiting.isSome = true ∨
      outCap < (noticeText (s.sess k) ("!desk.dropped " ++ kn "n" (s.sess k).dropPend ++ " " ++ kv "t" (noticeT s))).length) := by
    simp [hw]
    omega
  simp only [deskDropped, ho, List.map_nil, List.sum_nil, Nat.add_zero, List.filter_nil, outUsed, Nat.zero_add, List.nil_append]
  exact if_neg hcond

/-- A printable character that a TYPED session's buffer has room for. -/
theorem takeChar_printable {k ch : Nat} {s : State} (hk : k < 4) (he : (s.sess k).esc = false) (hw : (s.sess k).waiting = none)
    (hr : outUsed (s.sess k) < outCap) (h0 : 0x20 ≤ ch) (h1 : ch ≤ 0x7E) (cut : Bool) :
    takeChar k ch cut s = s.onSess k fun x => { x with
      cr := ch == 0x0D, typed := x.typed.push (Char.ofNat ch), out := x.out ++ [⟨.echo, echoOf x.typed (Char.ofNat ch), 0⟩]
      mid := leavesMid x.mid (echoOf x.typed (Char.ofNat ch)) } := by
  have hcr : ¬ (ch = 0x0A ∧ (s.sess k).cr = true) := by omega
  have hend : ¬ (ch = 0x0D ∨ ch = 0x0A) := by omega
  simp only [takeChar, he, hcr, hend, Bool.false_eq_true, if_false]
  rw [typeChar_printable (by rw [State.onSess_sess s hk]; exact he) h0 h1, State.onSess_onSess s hk, State.onSess_sess s hk,
    pushOut_of_room (by rw [State.onSess_sess s hk]; exact hw), State.onSess_onSess s hk]
  · exact State.onSess_congr rfl
  · rw [State.onSess_sess s hk, length_echoOf]
    change outUsed (s.sess k) + 1 ≤ outCap
    exact Nat.succ_le_of_lt hr

/-- A reply of one text that fits now is buffered whole. -/
theorem refill_one {k f : Nat} {t : String} {s : State} (hk : k < 4) (hw : (s.sess k).waiting = some [t]) (hr : outUsed (s.sess k) + t.length ≤ outCap) :
    refill (f + 2) k s = s.onSess k fun x => { x with out := x.out ++ [⟨.reply, t, 0⟩], waiting := none } := by
  rw [refill, hw]
  simp only [show t.length ≤ outCap - outUsed (s.sess k) by omega, if_true]
  rw [refill, State.onSess_sess s hk]
  rfl

/-! ### Effects held for a reply -/

theorem deferredEffect_of_only {n : Nat} {f : Deferred} {s : State} (hd : s.desk.deferred = [(n, f)]) :
    exec .deferredEffect s = .next (settleDue (takeDeferred f (s.onDesk fun d => { d with deferred := [] }))) := by
  have hpick : (s.desk.deferred.find? fun e => allSent e.1 s).or s.desk.deferred.head? = some (n, f) := by
    rw [hd]
    cases h : allSent n s <;> simp [h]
  show execDeferredEffect s = _
  rw [execDeferredEffect, hpick]
  simp only [onDesk_erase_single hd]

/-- The first effect whose reply has left is taken before any other; nothing else in the list changes. -/
theorem deferredEffect_uart {n : Nat} {b : BitVec 22} {f : Bool} {l r : List (Nat × Deferred)} {s : State}
    (hd : s.desk.deferred = l ++ (n, .uart (some b) (some f)) :: r) (hl : ∀ e ∈ l, allSent e.1 s = false) (hn : allSent n s = true)
    (h4 : ∀ e ∈ l ++ r, e.1 ≠ 4) :
    exec .deferredEffect s = .next (s.onDesk fun d => { d with deferred := l ++ r, baud := b, flow := f }) := by
  have hpick : (s.desk.deferred.find? fun e => allSent e.1 s) = some (n, .uart (some b) (some f)) := by
    rw [hd, List.find?_append, List.find?_eq_none.mpr (by simpa using hl), Option.none_or]
    exact List.find?_cons_of_pos (p := fun e : Nat × Deferred => allSent e.1 s) hn
  have herase : s.desk.deferred.erase (n, .uart (some b) (some f)) = l ++ r := by
    rw [hd, List.erase_append_right _ (fun h => by simpa [hn] using hl _ h), List.erase_cons_head]
  have hdesk : (s.onDesk fun d => { d with deferred := d.deferred.erase (n, .uart (some b) (some f)) }) =
      s.onDesk fun d => { d with deferred := l ++ r } :=
    congrArg (fun l => s.onDesk fun d => { d with deferred := l }) herase
  show execDeferredEffect s = _
  rw [execDeferredEffect, hpick]
  simp only [Option.some_or, hdesk, takeDeferred_uart]
  exact congrArg _ (settleDue_of_none h4)

/-- Settles O16: each clause is the equation of the operation it names, in the session's own record. -/
theorem deskCarriers : Obligations.DeskCarriers := by
  unfold Obligations.DeskCarriers
  refine ⟨?_, ?_, ?_, ?_, ?_, ?_, ?_, ?_, ?_, ?_⟩
  · intro k ch cut s hl hm hw he h0 h1 hroom
    obtain ⟨-, hk, -, -⟩ := listens_iff.mp hl
    have hg : ((s.sess k).machine || (s.sess k).waiting.isSome || decide (outCap ≤ outUsed (s.sess k)) || decide (256 ≤ ch)) = false := by
      simp [hm, hw]
      omega
    refine ⟨_, rfl, ?_⟩
    simp only [hl, if_true, hg, Bool.false_eq_true, if_false]
    rw [takeChar_printable hk he hw hroom h0 h1, State.onSess_sess s hk]
    exact ⟨rfl, rfl, rfl, rfl⟩
  · intro k text cut s hl hb
    obtain ⟨-, hk, -, -⟩ := listens_iff.mp hl
    refine ⟨_, rfl, ?_⟩
    simp only [hl, if_true]
    rw [takeLine_of_busy hk (by rw [State.onSess_sess s hk]; exact hb), State.onSess_onSess s hk, State.onSess_sess s hk]
    exact ⟨rfl, rfl, rfl⟩
  · intro k cut s hl hm hb hw hq ho
    obtain ⟨-, hk, -, -⟩ := listens_iff.mp hl
    refine ⟨_, lineReceived_idle hl hb hw hq, ?_⟩
    rw [readLine_empty, State.onSess_onSess s hk]
    beta_reduce
    rw [State.onSess_sess s hk]
    · exact ⟨rfl, rfl⟩
    all_goals rw [State.onSess_sess s hk]; assumption
  · intro k cut s hl hm hb hw hq ho hx
    obtain ⟨-, hk, -, -⟩ := listens_iff.mp hl
    refine ⟨_, lineReceived_idle hl hb hw hq, ?_⟩
    rw [readLine_ping, State.onSess_onSess s hk]
    beta_reduce
    rw [State.onSess_sess s hk]
    · exact ⟨rfl, rfl, rfl⟩
    · rw [listens_onSess hk (by intro; rfl)]
      exact hl
    all_goals rw [State.onSess_sess s hk]; assumption
  · intro k n i r s hk ho hi
    show execOutputBufferDrain k n s = _
    rw [execOutputBufferDrain, if_pos hk]
    exact congrArg _ (State.onSess_congr (by rw [ho, drainOut_part hi]))
  · intro k s hk ho hr hout hw hd n text hlen
    show execDeskDropped k s = _
    rw [execDeskDropped, if_pos hk, if_pos (by simp [ho, hr]), deskDropped_of_empty hout hw hd hlen]
  · intro k cut t s hl hw hq hr
    obtain ⟨-, hk, -, -⟩ := listens_iff.mp hl
    refine ⟨_, rfl, ?_⟩
    rw [if_pos hl, hw]
    show ((serveLine k cut (refill (1 + 2) k s)).sess k).waiting = none ∧ ((serveLine k cut (refill (1 + 2) k s)).sess k).out = _
    rw [refill_one hk hw hr, serveLine_of_empty (by rw [State.onSess_sess s hk]; exact hq), State.onSess_sess s hk]
    exact ⟨rfl, rfl⟩
  · intro n f s hd
    exact deferredEffect_of_only hd
  · intro n b f r s hr hs hd
    exact deferredEffect_uart (l := []) (r := r) hd (by simp) hs (by simpa using hr)
  · intro m n b f g s hm hms hns hd
    exact deferredEffect_uart (l := [(m, g)]) (r := []) hd (by simp [hms]) hns (by simpa using hm)

end Sys2Proof.Machine
end

section
/-! The desk verbs, the levels and their limits (spec 03). -/

namespace Sys2Proof.Machine

/-! ### The desk verbs -/

/-- A verb that a session's claim of its object, or of the object it names, locks out. -/
theorem refuses_of_claim {v : Verb} {body : Ctx → Pfx → Env → State → Res} {i : Instr} {n : Nat} {tag : Option Nat} {cut : Bool} {p : Pfx}
    {a : Args} {s : State} (hi : exec i s = ulc v body ⟨.sess n, tag, cut⟩ p a s) (hr : canRun (.sess n) s = true)
    (hl : (v.needs a).rank ≤ (s.levelOf (.sess n)).rank) (hg : guardOf v a = none) (hc : claimBars v (.sess n) a s = true) :
    Refuses i ⟨.sess n, tag, cut⟩ s 21 "" := by
  refine refuses_of_check hi hr ?_ (.inr (.inl rfl))
  have hpass : passBars v (.sess n) a s = false := by rw [passBars, hg]
  have hlev : ¬ (s.levelOf (.sess n)).rank < (v.needs a).rank := Nat.not_lt.mpr hl
  simp [checkKeys, hlev, hpass, hc]

/-- The claim and the release of an object that another session has claimed. -/
theorem claimBars_of_claim {v : Verb} {n m : Nat} {a : Args} {o : String} {s : State} (hd : v.obj = "desk")
    (hv : v.name = "claim" ∨ v.name = "release" ∧ hasWord a "force" = false) (hch : v.changes = true) (ho : keyIsWord a "obj" o = true)
    (hm : (o, m) ∈ s.desk.claims) (hn : m ≠ n) : claimBars v (.sess n) a s = true := by
  have hany : (s.desk.claims.any fun c => c.2 != n && (c.1 == v.obj || keyIsWord a "obj" c.1)) = true :=
    List.any_eq_true.mpr ⟨(o, m), hm, by simp [hn, ho]⟩
  rcases hv with h | ⟨h, hf⟩
  · simpa [claimBars, hd, h, hch] using hany
  · simpa [claimBars, hd, h, hch, hf] using hany

theorem deskClaimBody_free {c : Ctx} {p : Pfx} {e : Env} {s : State} {k : Nat} (hc : c.origin = .sess k)
    (hf : ∀ x ∈ s.desk.claims, x.1 ≠ e.word "obj") :
    deskClaimBody c p e s = .ok [] (s.onDesk fun d => { d with claims := d.claims ++ [(e.word "obj", k)] }) := by
  have hnone : (s.desk.claims.any fun x => x.1 == e.word "obj") = false := by simpa using hf
  simp only [deskClaimBody, hc, hnone, Bool.false_eq_true, if_false]

theorem deskNoticesBody_off {c : Ctx} {p : Pfx} {e : Env} {s : State} {k : Nat} (hc : c.origin = .sess k) (hon : e.words "on" = [])
    (hoff : e.words "off" = ["tly"]) (he : e ≠ []) (ht : "tly" ∉ (s.sess k).off) :
    deskNoticesBody c p e s = .ok [] (s.onSess k fun x => { x with off := x.off ++ ["tly"] }) := by
  have hemp : e.isEmpty = false := by cases e <;> simp_all
  simp only [deskNoticesBody, hc, hemp, Bool.false_eq_true, if_false]
  refine congrArg _ (State.onSess_congr ?_)
  simp [hon, hoff, ht]

/-- Settles O17: each verb's body on a line that passes its checks; a claim of another session by `claimBars_of_claim`. -/
theorem deskVerbsAnswer : Obligations.DeskVerbs := by
  unfold Obligations.DeskVerbs
  refine ⟨fun c p a e s k h hc => ?_, fun c p a e s k h hc hon hoff he ht => ?_, fun c p a e s h => ?_, fun c p a e s k h hc => ?_,
    fun c p a e s h => ?_, fun c p a e s k h hc hf => ?_, fun n tag cut p a s o m hr hl ho hm hn => ⟨?_, fun hf => ?_⟩, fun c p a e s k h hc => ?_⟩
  · exact answersOk_of_body rfl h (by rw [deskModeBody, hc])
  · exact answersOk_of_body rfl h (deskNoticesBody_off hc hon hoff he ht)
  · exact answersWith_of_body rfl h ⟨_, _, rfl, rfl, by simp⟩
  · exact answersOk_of_body rfl h (by simp only [deskUartBody, hc]; rfl)
  · exact answersOk_of_body rfl h rfl
  · exact answersOk_of_body rfl h (deskClaimBody_free hc hf)
  · exact refuses_of_claim rfl hr hl rfl (claimBars_of_claim rfl (.inl rfl) rfl ho hm hn)
  · have hneeds : Verb.needs deskReleaseV a = .keeper := by
      show (if hasWord a "force" then Level.owner else Level.keeper) = .keeper
      rw [hf]
      rfl
    exact refuses_of_claim rfl hr (by rw [hneeds]; exact hl) rfl (claimBars_of_claim rfl (.inr ⟨rfl, hf⟩) rfl ho hm hn)
  · exact answersOk_of_body rfl h (by simp only [deskReleaseBody, hc])

/-! ### The levels -/

/-- What a body answers that asks for a commit while the part has power. -/
theorem lineJob_eq {s : State} (h : s.pwr.pfail = false) (o : Origin) (u : LUpd) :
    lineJob o u s = .work (s.onLdg fun d => { d with queue := d.queue ++ [{ pages := [], upd := u, who := .line o }] }) := by
  simp only [lineJob, h, Bool.false_eq_true, if_false]
  rfl

theorem refuses_unlock {c : Ctx} {p : Pfx} {a : Args} {s : State} {k : Nat} (hr : canRun c.origin s = true) (hc : c.origin = .sess k)
    (hb : (s.sess k).held = true ∨ 20 ≤ s.ldg.unlockFails.toNat) : Refuses (.unlock c p a) c s 21 "" := by
  refine refuses_of_check rfl hr ?_ (.inr (.inl rfl))
  have hlev : ¬ (s.levelOf c.origin).rank < (unlockV.needs a).rank := Nat.not_lt_zero _
  have hpass : passBars unlockV c.origin a s = false := rfl
  have hun : unlockBars unlockV c.origin s = true := by simpa [unlockBars, unlockV, hc] using hb
  have hrt : (match c.origin with | .route .. => unlockV.obj == "desk" && (unlockV.name == "claim" || unlockV.name == "release") | _ => false) = false := by
    rw [hc]
  unfold checkKeys
  extract_lets rc
  have hrc : rc = false := hrt
  rw [if_neg (by simp [hrc, hpass, hlev]), if_pos (by simp [hun])]

/-- Settles O18: `unlock` by whether the passphrase is the level's; its limits by the two tests of `unlockBars`. -/
theorem levels : Obligations.Levels := by
  unfold Obligations.Levels
  refine ⟨fun c p a e s k h hc hl hw => ?_, fun c p a e s k h hc hl hw => ?_, fun c p a e s k h hc hl hw => ?_, fun c p a s k hr hc hb => ?_,
    fun c p a e s k h hc => ?_, fun k s hk hh => ?_, fun s h2 hf ht => ?_, fun c p a e s h hp => ?_⟩
  · exact answersOk_of_body rfl h (by simp [unlockBody, hc, hl, hw])
  · exact answersOk_of_body rfl h (by simp [unlockBody, hc, hl, hw])
  · show ulc unlockV unlockBody c p a s = _
    rw [ulc_body h]
    simp [unlockBody, hc, hl, Ne.symm hw, unlockFailed]
  · exact refuses_unlock hr hc hb
  · exact answersOk_of_body rfl h (by simp only [lockBody, hc])
  · show execUnlockHoldoffEnd k s = _
    rw [execUnlockHoldoffEnd, if_pos hk]
    exact congrArg _ (State.onSess_congr (if_pos hh))
  · show execUnlockLockoutEnd s = _
    rw [execUnlockLockoutEnd, if_pos (by simp [h2, hf, ht])]
  · exact begins_of_body rfl h ⟨_, lineJob_eq hp _ _, rfl⟩

end Sys2Proof.Machine
end

section
/-! The morning script, keyword macros and the lines of routes (spec 03). -/

namespace Sys2Proof.Machine

/-! ### Whether the Desk serves, and its script -/

/-- Whether the Desk serves, and where its script stands. -/
def State.serving (s : State) : Bool × Script := (s.desk.ready, s.desk.script)

@[simp] theorem notify_serving (obj rest : String) (s : State) : (notify obj rest s).serving = s.serving :=
  Prod.ext (ready_of_quiet (notify_quiet _ _ _)) (script_of_quiet (notify_quiet _ _ _))

@[simp] theorem logEv_serving (src code evseq arg arg2 : Nat) (s : State) : (logEv src code evseq arg arg2 s).serving = s.serving := rfl
@[simp] theorem onSys_serving (f : SysSt → SysSt) (s : State) : (s.onSys f).serving = s.serving := rfl

@[simp] theorem takeVaultWords_serving (s : State) : (takeVaultWords s).serving = s.serving := by
  unfold takeVaultWords
  extract_lets heard q u v
  have hu : u.serving = s.serving := State.forEach_keeps s State.serving _ _ fun _ _ => notify_serving _ _ _
  have hv : v.serving = u.serving := State.forEach_keeps u State.serving _ _ fun _ _ => logEv_serving _ _ _ _ _ _
  exact hv.trans hu

/-- Once the Desk is ready its script has ended. -/
theorem deskReady_serving (how : String) (s : State) : (deskReady how s).serving = (true, .idle) := by
  unfold deskReady
  extract_lets u v w x
  have hw : w.serving = v.serving := by
    simp only [w]
    split <;> simp
  rw [takeVaultWords_serving]
  simp only [x, onSys_serving, hw, v, notify_serving]
  rfl

theorem serving_iff {s : State} {b : Bool} {x : Script} : s.serving = (b, x) ↔ s.desk.ready = b ∧ s.desk.script = x := by
  simp [State.serving]

/-! ### The morning script -/

theorem scriptEnd_of_starting {s : State} (h : s.desk.ready = false) (how : String) : scriptEnd how s = deskReady how s := by
  simp [scriptEnd, h]

/-- A line of the script that runs. -/
theorem morningLine_running {l : Nat} {s : State} (hs : s.desk.script = .running l .no) (hm : s.desk.morning = true) (cut : Bool) :
    morningLine cut s = match nextScript l s.ldg with
      | none => scriptEnd "done" s
      | some (n, t) => match typedLine ⟨.morning n, none, cut⟩ t (s.onDesk fun d => { d with script := .running n .no }) with
        | none => s.onDesk fun d => { d with script := .running (n + 1) .no }
        | some r => deliver ⟨.morning n, none, cut⟩ r := by
  simp only [morningLine, hs, hm, bne_self_eq_false, Bool.not_true, Bool.and_false, Bool.false_eq_true, if_false]
  rfl

theorem exec_morningLine {cut : Bool} {s : State} (h2 : s.on 2 = true) (hb : s.sys.booted = true) :
    exec (.morningLine cut) s = .next (morningLine cut s) := by
  show execMorningLine cut s = _
  rw [execMorningLine, if_pos (by simp [h2, hb])]

/-- A script line that is `ping` moves the script on by one line and does no more. -/
theorem morningLine_ping {l n : Nat} {s : State} (hs : s.desk.script = .running l .no) (hm : s.desk.morning = true)
    (hn : nextScript l s.ldg = some (n, "ping")) (cut : Bool) :
    morningLine cut s = s.onDesk fun d => { d with script := .running (n + 1) .no } := by
  rw [morningLine_running hs hm, hn]
  simp only [typedLine_ping]
  rw [lineAnswers.2.2.1 n .no cut [] _ rfl]
  rfl

theorem morningSetBody_line {c : Ctx} {p : Pfx} {e : Env} {s : State} {n : Nat} {x : String} (hl : e.nat? "line" = some n)
    (ht : e.word? "text" = some x) (ho : e.word? "onerr" = none) (hf : lineFits x (tget s.ldg.lines n) s.ldg = true) :
    morningSetBody c p e s = lineJob c.origin (.line n (some x) none) s := by
  simp [morningSetBody, hl, ht, ho, hf]

/-- Settles O20: what ends the script is `deskReady`; the verbs that edit it ask for a commit by `lineJob_eq`. -/
theorem morningScript : Obligations.MorningScript := by
  unfold Obligations.MorningScript
  refine ⟨fun s h2 hf hr hs hb => ?_, fun cut l s h2 hb hs hr hm hn => ?_, fun cut l n s h2 hb hs hr hm hn => ?_, fun l w s hs hr => ?_,
    fun c p a e s h => ?_, fun c p a e s n x h hl ht ho hf hp => ?_, fun c p a e s h hp => ?_, fun c p a e s h hp => ?_, fun c p a e s k h hc hs => ?_⟩
  · have hskip : exec .morningSkip s = .next (deskReady "skipped" s) := by
      show Host.Outcome.next (skipScript s) = _
      simp [skipScript, h2, hf, hr, hs, hb]
    exact ⟨_, hskip, serving_iff.mp (deskReady_serving "skipped" s)⟩
  · refine ⟨_, exec_morningLine h2 hb, ?_⟩
    rw [morningLine_running hs hm, hn]
    exact serving_iff.mp (by rw [scriptEnd_of_starting hr, deskReady_serving])
  · refine ⟨_, exec_morningLine h2 hb, ?_⟩
    rw [morningLine_ping hs hm hn]
    exact ⟨rfl, hr, rfl⟩
  · have hend : exec .morningTimeout s = .next (deskReady "stopped" (logEv 0 0x0102 0 l 0 s)) := by
      show execMorningTimeout s = _
      rw [execMorningTimeout, hs]
      simp only
      rw [scriptEnd_of_starting (by simpa using hr)]
    obtain ⟨hready, hidle⟩ := serving_iff.mp (deskReady_serving "stopped" (logEv 0 0x0102 0 l 0 s))
    exact ⟨_, hend, hidle, hready⟩
  · exact answersOk_of_body rfl h rfl
  · exact begins_of_body rfl h ⟨_, (morningSetBody_line hl ht ho hf).trans (lineJob_eq hp _ _), rfl⟩
  · exact begins_of_body rfl h ⟨_, lineJob_eq hp _ _, rfl⟩
  · exact begins_of_body rfl h ⟨_, lineJob_eq hp _ _, rfl⟩
  · exact answersOk_of_body rfl h (by simp [morningRunBody, hc, hs])

/-! ### Keyword macros and the lines of routes -/

theorem State.onRoute_congr {s : State} {r : Nat} {f g : Route → Route} (h : f (s.route r) = g (s.route r)) : s.onRoute r f = s.onRoute r g :=
  congrArg (fun x => s.onCch fun c => { c with routes := tset s.cch.routes r x }) h

/-- A keyword whose line succeeds with nothing to say is reported by its slot alone. -/
theorem deliver_keyword_ok (slot : Nat) (seq : BitVec 16) (t : Option Tally) (cut : Bool) (s : State) :
    deliver ⟨.keyword slot seq t, none, cut⟩ (.ok [] s) = notify "desk" ("macro " ++ kn "slot" slot) s := by
  show notify "desk" ("macro " ++ kn "slot" slot ++ "") s = _
  rw [String.append_empty]

theorem deliver_route_ok {r : Nat} {msn : BitVec 16} {cut : Bool} {s : State} (h : (s.route r).reply = false) :
    deliver ⟨.route r msn, none, cut⟩ (.ok [] s) = s := by
  show routeReply r (plainReply []) none s = s
  simp [routeReply, h]

theorem exec_keywordMacroRun {w : Keyword} {r : List Keyword} {s : State} (h2 : s.on 2 = true) (hr : s.desk.ready = true)
    (hk : s.desk.kwq = w :: r) (cut : Bool) :
    exec (.keywordMacroRun cut) s = .next (runKeyword w cut (s.onDesk fun d => { d with kwq := r })) := by
  show execKeywordMacroRun cut s = _
  rw [execKeywordMacroRun, if_pos (by simp [h2, hr]), hk]

/-- Settles O21: a keyword runs its slot's line, a route its oldest, each through `typedLine`. -/
theorem macrosAndRouteLines : Obligations.MacrosAndRouteLines := by
  unfold Obligations.MacrosAndRouteLines
  refine ⟨fun cut w r s h2 hr hk => ⟨fun hn => ?_, fun hp => ⟨_, exec_keywordMacroRun h2 hr hk cut, ?_⟩⟩, fun c p a e s h hp hf => ?_,
    fun c p a e s h hp => ?_, fun c p a e s h => ?_, fun r msn bs l cut s h2 hr hb ho hl hbs hrep => ?_⟩
  · rw [exec_keywordMacroRun h2 hr hk]
    simp [runKeyword, hn]
  · simp only [runKeyword, State.onDesk_ldg, hp, typedLine_ping, deliver_keyword_ok]
  · exact begins_of_body rfl h ⟨_, (if_pos hf).trans (lineJob_eq hp _ _), rfl⟩
  · exact begins_of_body rfl h ⟨_, lineJob_eq hp _ _, rfl⟩
  · exact answersOk_of_body rfl h rfl
  · have hrun : (s.desk.ready && canRun (.route r msn) s) = true := by simp [canRun, h2, hr, hb, ho]
    have hping : String.ofList (bs.map fun b => Char.ofNat b.toNat) = "ping" := by
      subst hbs
      decide
    have hfree : (s.onRoute r fun x => { x with lines := x.lines.tail, pool := x.pool + 1 }) =
        s.onRoute r fun x => { x with lines := l, pool := x.pool + 1 } := State.onRoute_congr (by simp [hl])
    refine ⟨_, rfl, ?_⟩
    simp only [hl, hrun, if_true, runRouteLine, hping, typedLine_ping]
    rw [hfree, deliver_route_ok (by rw [State.onRoute_route]; exact hrep)]

end Sys2Proof.Machine
end

section
/-! `fmt.show` and `fmt.conv` (spec 04). -/

namespace Sys2Proof.Machine

/-- The answer of `fmt.conv` for one value. -/
def convText (dst z : Nat) (sexp : Int) (x : X) : String :=
  let c := fmtConv dst z (x.shift (-sexp))
  spaced [kv "code" (hexS (fmtDigits dst) c.code), kv "value" (((fmtVal dst z c.code).shift sexp).dec),
    kn "clip" ([c].filter (·.clip)).length, kn "nan" ([c].filter (·.nan)).length]

/-- The answer of `fmt.conv` for a block of G6. -/
def blockText (sexp : Int) (xs : List X) : String :=
  let (se, cs) := g6Block (xs.map fun x => x.shift (-sexp))
  spaced [kv "e" (hexS 2 se), kv "codes" (commas (cs.map fun c => intS (sext 6 c.code))),
    kv "values" (commas (cs.map fun c => ((g6Val se c.code).shift sexp).dec)), kn "clip" (cs.filter (·.clip)).length,
    kn "nan" (cs.filter (·.nan)).length]

/-- One value of a format other than G6 is converted, and nothing changes. -/
theorem fmtConvBody_one {c : Ctx} {p : Pfx} {e : Env} {s : State} {i : Item} {x : X}
    (ht : fmtNames.idxOf (e.word "to") ≠ 9) (hv : (e.raw? "value").map valItems = some [i])
    (hx : convSource (fmtNames.idxOf (e.word "from")) (e.nat "z") (e.nat "e") i = some x) :
    fmtConvBody c p e s = .ok [convText (fmtNames.idxOf (e.word "to")) (e.nat "z") (e.int "sexp") x] s := by
  have hall : allSome ([i].map (convSource (fmtNames.idxOf (e.word "from")) (e.nat "z") (e.nat "e"))) = some [x] := by
    simp [allSome, hx]
  unfold fmtConvBody
  extract_lets src dst items z
  have hitems : items = [i] := by simp only [items, hv, Option.getD_some]
  rw [if_neg (by simp [hitems]), hitems, hall]
  simp only [if_neg ht, dst]
  rfl

/-- Values converted to a block of G6. -/
theorem fmtConvBody_block {c : Ctx} {p : Pfx} {e : Env} {s : State} {l : List Item} {xs : List X} (ht : fmtNames.idxOf (e.word "to") = 9)
    (hv : (e.raw? "value").map valItems = some l) (hl : l ≠ []) (hn : l.length ≤ 32)
    (hx : allSome (l.map (convSource (fmtNames.idxOf (e.word "from")) (e.nat "z") (e.nat "e"))) = some xs) :
    fmtConvBody c p e s = .ok [blockText (e.int "sexp") xs] s := by
  unfold fmtConvBody
  extract_lets src dst items z
  have hitems : items = l := by simp only [items, hv, Option.getD_some]
  have hdst : dst = 9 := ht
  rw [if_neg (by simp [hitems, hdst, hl, hn]), hitems, hx]
  simp only [hdst, if_true]
  rfl

/-- The checks of `fmt.conv` look at its keys alone: it takes no level and changes nothing. -/
theorem checkKeys_fmtConv (c : Ctx) (a : Args) (s : State) :
    checkKeys fmtConvV c a s = argCheck fmtConvV a s :=
  checkKeys_of_free (Nat.zero_le _) (by decide) rfl (by decide) (claimBars_of_reads rfl) (by decide)

/-- What a `fmt.conv` of a source other than G6 lacks is seen in its keys. -/
theorem lacks_fmtConv (a : Args) (s : State) :
    fmtConvV.lacks a s = if keyIsWord a "from" "g6" && !hasKey a "e" then some "e" else none := rfl

theorem passes_fmtConv {c : Ctx} {a : Args} {e : Env} {s : State} (hr : canRun c.origin s = true) (hm : missingKey fmtConvV.keys a = none)
    (hg : keyIsWord a "from" "g6" = false) (he : checkArgs fmtConvV.keys a = .ok e) : Passes fmtConvV c .none a e s := by
  refine ⟨hr, ?_⟩
  unfold checkLine
  rw [checkKeys_fmtConv, argCheck_full hm (by simp [lacks_fmtConv, hg]), he]
  rfl

/-- A G6 source needs its exponent. -/
theorem checkKeys_fmtConv_g6 (c : Ctx) (v w : Val) (s : State) :
    checkKeys fmtConvV c [⟨"from", .item (.word "G6")⟩, ⟨"to", v⟩, ⟨"value", w⟩] s = .error (14, "e") := by
  have hlow : lowerS "from" = "from" ∧ lowerS "to" = "to" ∧ lowerS "value" = "value" ∧ lowerS "G6" = "g6" := by decide
  obtain ⟨hfrom, hto, hvalue, hg6⟩ := hlow
  have hm : missingKey fmtConvV.keys [⟨"from", .item (.word "G6")⟩, ⟨"to", v⟩, ⟨"value", w⟩] = none := by
    simp [missingKey, fmtConvV, kEnum, kInt, hfrom, hto, hvalue]
  have hg : keyIsWord [⟨"from", .item (.word "G6")⟩, ⟨"to", v⟩, ⟨"value", w⟩] "from" "g6" = true := by
    simp [keyIsWord, hfrom, itemName, hg6]
  have he : hasKey [⟨"from", .item (.word "G6")⟩, ⟨"to", v⟩, ⟨"value", w⟩] "e" = false := by
    simp [hasKey, hfrom, hto, hvalue]
  rw [checkKeys_fmtConv]
  exact argCheck_lacks hm (by simp [lacks_fmtConv, hg, he])

/-! ### The worked examples of chapter 4 -/

/-- 0.3 of F32 in E4M3. -/
def argsE4M3 : Args := [⟨"from", .item (.word "F32")⟩, ⟨"to", .item (.word "E4M3")⟩, ⟨"value", .item (.num false 3 1 "")⟩]
def envE4M3 : Env := [("from", .word "f32"), ("to", .word "e4m3"), ("value", .raw (.item (.num false 3 1 "")))]

/-- 21 of F32 in S8 under the exponent −3. -/
def argsS8 : Args := [⟨"from", .item (.word "F32")⟩, ⟨"to", .item (.word "S8")⟩, ⟨"value", .item (.num false 210 1 "")⟩,
  ⟨"sexp", .item (.num true 3 0 "")⟩]
def envS8 : Env := [("from", .word "f32"), ("to", .word "s8"), ("value", .raw (.item (.num false 210 1 ""))), ("sexp", .num (-3))]

/-- Three values of F32 in a block of G6. -/
def itemsG6 : List Item := [.num false 75 2 "", .num true 3 1 "", .num false 15625 6 ""]
def argsG6 : Args := [⟨"from", .item (.word "F32")⟩, ⟨"to", .item (.word "G6")⟩, ⟨"value", .list itemsG6⟩]
def envG6 : Env := [("from", .word "f32"), ("to", .word "g6"), ("value", .raw (.list itemsG6))]

/-- A worked example of one value, by what its keys are taken as and by the value its source item stands for. -/
theorem answersOk_fmtConv_one {c : Ctx} {a : Args} {e : Env} {s : State} {i : Item} {x : X} {t : String} (hr : canRun c.origin s = true)
    (hm : missingKey fmtConvV.keys a = none) (hg : keyIsWord a "from" "g6" = false) (he : checkArgs fmtConvV.keys a = .ok e)
    (ht : fmtNames.idxOf (e.word "to") ≠ 9) (hv : (e.raw? "value").map valItems = some [i])
    (hx : convSource (fmtNames.idxOf (e.word "from")) (e.nat "z") (e.nat "e") i = some x)
    (htext : convText (fmtNames.idxOf (e.word "to")) (e.nat "z") (e.int "sexp") x = t) : AnswersOk (.fmtConv c .none a) c s [t] s := by
  refine answersOk_of_body rfl (passes_fmtConv hr hm hg he) ?_
  rw [fmtConvBody_one ht hv hx, htext]

theorem answersOk_fmtConv_e4m3 {c : Ctx} {s : State} (hr : canRun c.origin s = true) :
    AnswersOk (.fmtConv c .none argsE4M3) c s ["code=0x2A value=0.3125 clip=0 nan=0"] s :=
  answersOk_fmtConv_one (e := envE4M3) (i := .num false 3 1 "") (x := .fin ⟨false, 10066330, 33554432⟩) hr (by decide +kernel) (by decide +kernel)
    (by decide +kernel) (by decide +kernel) (by decide +kernel) (by decide +kernel) (by decide +kernel)

theorem answersOk_fmtConv_s8 {c : Ctx} {s : State} (hr : canRun c.origin s = true) :
    AnswersOk (.fmtConv c .none argsS8) c s ["code=0x7F value=15.875 clip=1 nan=0"] s :=
  answersOk_fmtConv_one (e := envS8) (i := .num false 210 1 "") (x := .fin ⟨false, 11010048, 524288⟩) hr (by decide +kernel) (by decide +kernel)
    (by decide +kernel) (by decide +kernel) (by decide +kernel) (by decide +kernel) (by decide +kernel)

theorem answersOk_fmtConv_block {c : Ctx} {s : State} (hr : canRun c.origin s = true) :
    AnswersOk (.fmtConv c .none argsG6) c s ["e=0x7A codes=24,-10,1 values=0.75,-0.3125,0.03125 clip=0 nan=0"] s := by
  refine answersOk_of_body rfl (passes_fmtConv (e := envG6) hr (by decide +kernel) (by decide +kernel) (by decide +kernel)) ?_
  rw [fmtConvBody_block (l := itemsG6)
    (xs := [.fin ⟨false, 12582912, 16777216⟩, .fin ⟨true, 10066330, 33554432⟩, .fin ⟨false, 8388608, 536870912⟩])
    (by decide +kernel) (by decide +kernel) (by decide) (by decide) (by decide +kernel),
    show blockText _ _ = "e=0x7A codes=24,-10,1 values=0.75,-0.3125,0.03125 clip=0 nan=0" by decide +kernel]

/-- Settles O22: a conversion by `fmtConvBody_one`, the worked examples by their source values. -/
theorem formatVerbs : Obligations.FormatVerbs := by
  unfold Obligations.FormatVerbs
  refine ⟨fun c p a e s h => ?_, fun c p a e s i x h _ ht hv hx => ?_, fun c p v w s hr => ?_, fun c s hr =>
    ⟨answersOk_fmtConv_e4m3 hr, answersOk_fmtConv_s8 hr, answersOk_fmtConv_block hr⟩⟩
  · cases hw : e.word? "fmt" with
    | none =>
      have hb : fmtShowBody c p e s = .ok ((List.range 13).map fmtLine) s := by simp only [fmtShowBody, hw]
      exact answersWith_of_body rfl h ⟨_, _, hb, rfl, by simp⟩
    | some w =>
      have hb : fmtShowBody c p e s = .ok [fmtLine (fmtNames.idxOf w)] s := by simp only [fmtShowBody, hw]
      exact answersWith_of_body rfl h ⟨_, _, hb, rfl, by simp⟩
  · exact answersWith_of_body rfl h ⟨_, _, fmtConvBody_one ht hv hx, rfl, rfl⟩
  · exact refuses_of_check rfl hr (checkKeys_fmtConv_g6 c v w s) (.inr (.inr (keyWrong_of_obj (by decide) _ _ _)))

end Sys2Proof.Machine
end

section
/-! What the checks of a line say of the values it gives (check order 7). -/

namespace Sys2Proof.Machine

theorem mem_of_matchPos {ks : List KeySpec} {vs : List Val} {l : List (KeySpec × Val)} (h : matchPos ks vs = some l) {x : KeySpec × Val}
    (hx : x ∈ l) : x.1 ∈ ks := by
  induction vs generalizing ks l with
  | nil =>
    rw [matchPos] at h
    cases h
    cases hx
  | cons v r ih =>
    cases ks with
    | nil => cases h
    | cons k ks' =>
      rw [matchPos] at h
      obtain ⟨l', hl', rfl⟩ := Option.map_eq_some_iff.mp h
      rcases List.mem_cons.mp hx with rfl | hx
      · exact List.mem_cons_self
      · have hmem := ih hl' hx
        split at hmem
        · exact hmem
        · exact List.mem_cons_of_mem k hmem

theorem mem_of_bindArgs {ks : List KeySpec} {a : Args} {l : List (KeySpec × Val)} (h : bindArgs ks a = .ok l) {x : KeySpec × Val} (hx : x ∈ l) :
    x.1 ∈ ks := by
  simp only [bindArgs] at h
  split at h
  · cases h
  split at h
  · cases h
  next l' hl' =>
    cases h
    rcases List.mem_append.mp hx with hx | hx
    · exact (List.mem_filter.mp (mem_of_matchPos hl' hx)).1
    · obtain ⟨q, hq, hqx⟩ := List.mem_filterMap.mp hx
      obtain ⟨y, hy, rfl⟩ := List.mem_map.mp hq
      obtain ⟨k, hk, rfl⟩ := Option.map_eq_some_iff.mp hqx
      exact List.mem_of_find?_eq_some hk

/-- Every value of a line's environment is one that its key's type takes. -/
theorem value_of_checkArgs {ks : List KeySpec} {a : Args} {e : Env} (h : checkArgs ks a = .ok e) {k : String} {x : V} (hx : (k, x) ∈ e) :
    ∃ y ∈ ks, y.name = k ∧ ∃ v, y.ty.check v = some x := by
  unfold checkArgs at h
  split at h
  · cases h
  split at h
  · cases h
  next l hl =>
    split at h
    · cases h
    · cases h
      obtain ⟨q, hq, hqx⟩ := List.mem_filterMap.mp hx
      obtain ⟨y, hy, hyk⟩ := Option.map_eq_some_iff.mp hqx
      cases hyk
      exact ⟨q.1, mem_of_bindArgs hl hq, rfl, q.2, hy⟩

theorem checkArgs_of_checkKeys {v : Verb} {c : Ctx} {a : Args} {e : Env} {s : State} (h : checkKeys v c a s = .ok e) :
    checkArgs v.keys a = .ok e := by
  unfold checkKeys at h
  extract_lets rc at h
  split at h
  · cases h
  split at h
  · cases h
  split at h
  · cases h
  split at h
  · cases h
  · exact h

theorem Passes.value {v : Verb} {c : Ctx} {p : Pfx} {a : Args} {e : Env} {s : State} (h : Passes v c p a e s) {k : String} {x : V}
    (hx : e.v k = some x) : ∃ y ∈ v.keys, y.name = k ∧ ∃ w, y.ty.check w = some x := by
  have hargs := checkArgs_of_checkKeys (checkLine_ok h.2).1
  unfold Env.v at hx
  obtain ⟨q, hq, rfl⟩ := Option.map_eq_some_iff.mp hx
  have hname : q.1 = k := by simpa using List.find?_some hq
  subst hname
  exact value_of_checkArgs hargs (List.mem_of_find?_eq_some hq)

theorem check_int_range {u : String} {lo hi : Int} {w : Val} {n : Int} (h : (KTy.int u lo hi).check w = some (.num n)) : lo ≤ n ∧ n ≤ hi := by
  unfold KTy.check at h
  simp only [Option.bind_eq_some_iff] at h
  obtain ⟨m, -, hm⟩ := h
  split at hm
  next hr =>
    cases hm
    exact hr
  next => cases hm

theorem Env.nat?_eq_some {e : Env} {k : String} {n : Nat} (h : e.nat? k = some n) : ∃ i : Int, e.v k = some (.num i) ∧ i.toNat = n := by
  unfold Env.nat? Env.int? at h
  obtain ⟨i, hi, rfl⟩ := Option.map_eq_some_iff.mp h
  split at hi
  next j hj =>
    cases hi
    exact ⟨i, hj, rfl⟩
  next => cases hi

/-- A whole number that a line gives lies in the range of its key. -/
theorem Passes.nat_range {v : Verb} {c : Ctx} {p : Pfx} {a : Args} {e : Env} {s : State} (h : Passes v c p a e s) {k : String} {n : Nat} {u : String} {lo hi : Int}
    (hn : e.nat? k = some n) (hk : ∀ y ∈ v.keys, y.name = k → y.ty = .int u lo hi) (hlo : 0 ≤ lo) : lo ≤ n ∧ (n : Int) ≤ hi := by
  obtain ⟨i, hi, rfl⟩ := Env.nat?_eq_some hn
  obtain ⟨y, hy, hname, w, hw⟩ := h.value hi
  rw [hk y hy hname] at hw
  have hr := check_int_range hw
  omega

end Sys2Proof.Machine
end

section
/-! `plan.load` and its refusals (spec 05, 15). -/

namespace Sys2Proof.Machine

/-! ### Writes leave other bytes -/

/-- A write leaves every other byte, in a memory of any form. -/
theorem Memory.read_write_other (m : Memory) (a : Nat) (b : Byte) {k : Nat} (h : k ≠ a) : (m.write a b).read k = m.read k := by
  induction m with
  | nil =>
    unfold Memory.write
    split
    · rfl
    · exact if_neg (Ne.symm h)
  | cons c r ih =>
    unfold Memory.write
    split
    · split
      · rfl
      · exact if_neg (Ne.symm h)
    split
    next hc =>
      have hskip : Memory.read (c :: r) k = Memory.read r k := if_neg (by rw [hc]; exact Ne.symm h)
      split
      · exact hskip.symm
      · exact (if_neg (Ne.symm h)).trans hskip.symm
    · by_cases hc : c.1 = k
      · exact (if_pos hc).trans (if_pos hc).symm
      · exact (if_neg hc).trans (ih.trans (if_neg hc).symm)

theorem Memory.read_writeN_other (m : Memory) (a : Nat) (bs : List Byte) {k : Nat} (h : k < a ∨ a + bs.length ≤ k) :
    (m.writeN a bs).read k = m.read k := by
  induction bs generalizing m a with
  | nil => rfl
  | cons b r ih =>
    rw [List.length_cons] at h
    unfold Memory.writeN
    rw [ih _ _ (by omega), Memory.read_write_other _ _ _ (by omega)]

/-! ### How long the areas of a plan's stake are -/

@[simp] theorem length_padBytes (n : Nat) (l : List Byte) : (padBytes n l).length = n := by
  simp [padBytes]
  omega

@[simp] theorem length_f32Bytes (n : Nat) (l : List F32) : (f32Bytes n l).length = 4 * n := length_padBytes _ _
@[simp] theorem length_wordBytes (w : W32) : (wordBytes w).length = 4 := rfl

/-- The length of a list of pieces, each of a known length. -/
theorem length_flatten_map {α β : Type} {l : List α} {f : α → List β} {n : α → Nat} (h : ∀ a, (f a).length = n a) :
    (l.map f).flatten.length = (l.map n).sum := by
  rw [List.length_flatten, List.map_map]
  exact congrArg List.sum (List.map_congr_left fun a _ => h a)

theorem sum_map_const {α : Type} (l : List α) (c : Nat) : (l.map fun _ => c).sum = l.length * c := by
  simp

theorem length_weightArea (ls : List Layer) : (weightArea ls).length = (ls.map fun ly => matrixBytes ly + vectorBytes ly).sum := by
  have hrows : ∀ ly : Layer, ((List.range (ly.blocks * ly.h)).map (weightRow ly)).flatten.length = matrixBytes ly := fun ly => by
    rw [length_flatten_map (f := weightRow ly) (n := fun _ => fmtBytes ly.wfmt (layerGroups ly * ly.glen)) fun k => length_padBytes _ _,
      sum_map_const, List.length_range]
    rfl
  have hvecs : ∀ ly : Layer, (ly.vecs.map fun v => (v.map wordBytes).flatten).flatten.length = vectorBytes ly := fun ly => by
    rw [length_flatten_map (n := fun v => 4 * v.length)]
    · rw [vectorBytes, List.sum_map_mul_left]
    · intro v
      rw [length_flatten_map (n := fun _ => 4) length_wordBytes, sum_map_const, Nat.mul_comm]
  rw [weightArea, List.length_append, length_flatten_map hrows, length_flatten_map hvecs, List.sum_map_add]

theorem length_scalePart (ly : Layer) (e : Int) : (scalePart ly e).length = 4 * scaleEntries ly := by
  have htiles : ((List.range ((ly.blocks * ly.h + 63) / 64)).map fun t => f32Bytes (layerGroups ly) (ly.gscale.getD t [])).flatten.length =
      (ly.blocks * ly.h + 63) / 64 * (4 * layerGroups ly) := by
    rw [length_flatten_map fun t => length_f32Bytes _ _, sum_map_const, List.length_range]
  have hexp : (if hasExpEntry ly then wordBytes (intF32 e) else []).length = 4 * b2n (hasExpEntry ly) := by
    cases hasExpEntry ly <;> rfl
  simp only [scalePart, List.length_append, htiles, hexp, length_f32Bytes, scaleEntries]
  ring

theorem length_sumPart (b : PlanBody) (ly : Layer) : (sumPart b ly).length = 4 * sumEntries b ly := by
  unfold sumPart sumEntries
  split
  · rw [length_flatten_map fun t => length_f32Bytes _ _, sum_map_const, List.length_range]
    ring
  · rfl

/-- What fits one stake of an accepted image. -/
theorem planFits_stake {p : Plan} (h : planFits p = true) {j : Nat} (hj : j < p.stakes) :
    let ls := (layersOn p j).map (·.2)
    (ls.map fun ly => matrixBytes ly + vectorBytes ly).sum ≤ 1768 * 1024 ∧ (ls.map scaleEntries).sum ≤ 4096 ∧
      (ls.map (sumEntries p.body)).sum ≤ 32768 ∧ (stakeTables p.body ls).length ≤ 16 := by
  intro ls
  unfold planFits at h
  extract_lets b rooms at h
  obtain ⟨h, -⟩ := (Bool.and_eq_true _ _).mp h
  obtain ⟨-, hall⟩ := (Bool.and_eq_true _ _).mp h
  have hj := List.all_eq_true.mp hall j (List.mem_range.mpr hj)
  simp only [Bool.and_eq_true, decide_eq_true_eq] at hj
  obtain ⟨⟨⟨⟨⟨-, hscale⟩, hsum⟩, hbytes⟩, htables⟩, -⟩ := hj
  exact ⟨hbytes, hscale, hsum, htables⟩

/-- The extra bytes of an accepted image lie in its stakes. -/
theorem planFits_store {p : Plan} (h : planFits p = true) {e : Nat × Nat × Byte} (he : e ∈ p.body.store) : e.1 < p.stakes ∧ e.2.1 < 0x200000 := by
  unfold planFits at h
  extract_lets b rooms at h
  simp only [Bool.and_eq_true] at h
  obtain ⟨⟨⟨⟨-, hstore⟩, -⟩, -⟩, -⟩ := h
  simpa using List.all_eq_true.mp hstore e he

/-- Every area of an accepted image's stake ends inside the stake. -/
theorem stakeAreas_fit {p : Plan} (h : planFits p = true) {j : Nat} (hj : j < p.stakes) {a : Nat × List Byte} (ha : a ∈ stakeAreas p j) :
    a.1 + a.2.length ≤ 0x200000 := by
  have hfit := planFits_stake h hj
  unfold stakeAreas at ha
  extract_lets ls lys ex at ha
  obtain ⟨hbytes, hscale, hsum, htables⟩ : (lys.map fun ly => matrixBytes ly + vectorBytes ly).sum ≤ 1768 * 1024 ∧
    (lys.map scaleEntries).sum ≤ 4096 ∧ (lys.map (sumEntries p.body)).sum ≤ 32768 ∧ (stakeTables p.body lys).length ≤ 16 := hfit
  have hw : (weightArea lys).length = (lys.map fun ly => matrixBytes ly + vectorBytes ly).sum := length_weightArea lys
  have hs : ((ls.map fun e => scalePart e.2 (ex e)).flatten).length = 4 * (lys.map scaleEntries).sum := by
    rw [length_flatten_map (n := fun e => 4 * scaleEntries e.2) fun e => length_scalePart e.2 (ex e), List.sum_map_mul_left, List.map_map]
    rfl
  have hm : ((lys.map (sumPart p.body)).flatten).length = 4 * (lys.map (sumEntries p.body)).sum := by
    rw [length_flatten_map (n := fun ly => 4 * sumEntries p.body ly) (length_sumPart p.body), List.sum_map_mul_left]
  have ht : ∀ g : Nat → List F32, (((stakeTables p.body lys).map fun t => f32Bytes 1024 (g t)).flatten).length = (stakeTables p.body lys).length * 4096 := fun g => by
    rw [length_flatten_map (n := fun _ => 4096) fun t => length_f32Bytes 1024 _, sum_map_const]
  clear_value lys
  simp only [List.mem_cons, List.not_mem_nil, or_false] at ha
  rcases ha with rfl | rfl | rfl | rfl
  · show 0 + (weightArea lys).length ≤ _
    omega
  · show 0x1BC000 + ((ls.map fun e => scalePart e.2 (ex e)).flatten).length ≤ _
    omega
  · show 0x1C0000 + ((lys.map (sumPart p.body)).flatten).length ≤ _
    omega
  · show 0x1E0000 + (List.map _ (stakeTables p.body lys)).flatten.length ≤ _
    rw [ht]
    omega

/-! ### What a placement changes -/

/-- What each pass over the items of a list keeps, the whole keeps. -/
theorem State.forEach_keeps_of_mem {α β : Type} (p : State → β) {l : List α} {f : α → State → State} (h : ∀ a ∈ l, ∀ t, p (f a t) = p t) (s : State) :
    p (s.forEach l f) = p s := by
  induction l generalizing s with
  | nil => rfl
  | cons a r ih =>
    rw [State.forEach_cons, ih (fun b hb => h b (List.mem_cons_of_mem a hb)), h a List.mem_cons_self]

/-- An address outside the stores of a plan's stakes. -/
def OutsideStakes (p : Plan) (k : Nat) : Prop := ∀ j < p.stakes, k < stakeBase (p.base + j) ∨ stakeBase (p.base + j) + 0x200000 ≤ k

theorem fillStores_read {p : Plan} (h : planFits p = true) {k : Nat} (hk : OutsideStakes p k) (s : State) :
    (fillStores p s).ram.read k = s.ram.read k := by
  have hread {α : Type} {l : List α} {f : α → State → State} (hf : ∀ a ∈ l, ∀ t, (f a t).ram.read k = t.ram.read k) (u : State) :
      (u.forEach l f).ram.read k = u.ram.read k := State.forEach_keeps_of_mem (fun t => t.ram.read k) hf u
  unfold fillStores
  extract_lets u v
  have hu : u.ram.read k = s.ram.read k := hread (fun j hj t => by
    have := hk j (List.mem_range.mp hj)
    rw [Memory.read_zero, if_neg (by omega)]) s
  have hv : v.ram.read k = u.ram.read k := hread (fun e he t => by
    obtain ⟨hs, ho⟩ := planFits_store h he
    have := hk e.1 hs
    exact Memory.read_write_other _ _ _ (by omega)) u
  rw [hread, hv, hu]
  intro j hj t
  refine hread (fun a ha w => Memory.read_writeN_other _ _ _ ?_) t
  have hfit := stakeAreas_fit h (List.mem_range.mp hj) ha
  have := hk j (List.mem_range.mp hj)
  omega

/-- What a write of memory leaves, the filling of the stores leaves. -/
theorem fillStores_keeps {β : Type} (g : State → β) (h : ∀ t m, g { t with ram := m } = g t) (p : Plan) (s : State) : g (fillStores p s) = g s := by
  unfold fillStores
  extract_lets u v
  have hu : g u = g s := State.forEach_keeps s g _ _ fun _ _ => h _ _
  have hv : g v = g u := State.forEach_keeps u g _ _ fun _ _ => h _ _
  exact (State.forEach_keeps v g _ _ fun j t => State.forEach_keeps t g _ _ fun _ _ => h _ _).trans (hv.trans hu)

/-- A plan without hops is placed by filling its stores and listing it. -/
theorem placePlan_of_noHops {p : Plan} (h : p.hops = []) (s : State) :
    placePlan p s = (fillStores p s).onWeave fun w => { w with plans := w.plans ++ [p] } := by
  rw [placePlan, h]
  rfl

/-! ### The answer and the refusals -/

/-- The name a load gives the plan. -/
def loadName (e : Env) : String := if e.has "as" then e.plan "as" else e.plan "name"

section

variable {c : Ctx} {p : Pfx} {a : Args} {e : Env} {s : State} {x : Image}

/-- An image that the part accepts, its signature good, is placed at its base. -/
theorem planLoadBody_placed {q : Plan} {b : Nat} (hx : loadImage e s = .ok x) (hf : placeFail e (loadName e) x s = none) (hm : x.magicOk = true)
    (hq : checkImage (loadName e) (e.plan "name") x s = .ok (q, false)) (hb : placeBase e q.stakes s = some b) :
    planLoadBody c p e s = .ok [planLine { q with base := b }] (placePlan { q with base := b } s) := by
  unfold loadName at hf hq
  simp only [planLoadBody, hx, hf, hm, Bool.not_true, Bool.false_eq_true, if_false, hq, hb]

theorem planLoadBody_placeFail {n : Nat} {k : String} (hx : loadImage e s = .ok x) (hf : placeFail e (loadName e) x s = some (n, k)) :
    planLoadBody c p e s = .err n k s := by
  unfold loadName at hf
  simp only [planLoadBody, hx, hf]

theorem planLoadBody_magic (hx : loadImage e s = .ok x) (hf : placeFail e (loadName e) x s = none) (hm : x.magicOk = false) :
    planLoadBody c p e s = .err 61 "" s := by
  unfold loadName at hf
  simp only [planLoadBody, hx, hf, hm, Bool.not_false, if_true]

theorem planLoadBody_image {n : Nat} {k : String} (hx : loadImage e s = .ok x) (hf : placeFail e (loadName e) x s = none) (hm : x.magicOk = true)
    (hq : checkImage (loadName e) (e.plan "name") x s = .error (n, k)) : planLoadBody c p e s = .err n k s := by
  unfold loadName at hf hq
  simp only [planLoadBody, hx, hf, hm, Bool.not_true, Bool.false_eq_true, if_false, hq]

end

theorem loadName_of_name {e : Env} (h : e.has "as" = false) : loadName e = e.plan "name" := by simp [loadName, h]

/-- An image with a slot whose key is not programmed has no good signature. -/
theorem checkImage_unsigned {x : Image} {s : State} (he : s.sys.sigenf = true) (hk : s.sys.keyprog.getLsbD x.slot = false) (name src : String) :
    checkImage name src x s = .error (60, "") := by
  simp [checkImage, sigVerifies, he, hk]

/-- What an accepted image gives fits the part. -/
theorem planFits_of_checkImage {name src : String} {x : Image} {s : State} {q : Plan} {u : Bool} (h : checkImage name src x s = .ok (q, u)) :
    planFits q = true := by
  simp only [checkImage] at h
  split at h
  · cases h
  split at h
  · cases h
  split at h
  next hfit =>
    cases h
    exact hfit
  next => cases h

theorem findBase_fits {n b : Nat} {s : State} (h : findBase n s = some b) : b + n ≤ 48 := by
  have := List.find?_some h
  simp only [Bool.and_eq_true, decide_eq_true_eq] at this
  exact this.1

/-- With every stake's domain on, a name in use is what a load without a base lacks first. -/
theorem placeFail_name {e : Env} {x : Image} {s : State} {q : Plan} (ha : e.has "as" = false) (hb : e.nat? "base" = none)
    (hon : ∀ k < 48, s.on (12 + k / 12) = true) (hq : s.plan? (e.plan "name") = some q) : placeFail e (e.plan "name") x s = some (30, "name") := by
  unfold placeFail
  extract_lets n layers off
  have hoff : (placeBase e n s).any off = false := by
    rw [placeBase, hb, Option.none_or]
    cases hf : findBase n s with
    | none => rfl
    | some b =>
      have hfit := findBase_fits hf
      have hall : ∀ j < n, s.on (12 + (b + j) / 12) = true := fun j hj => hon (b + j) (by omega)
      show off b = false
      simp only [off, List.any_eq_false, List.mem_range]
      intro j hj
      simp [hall j hj]
  rw [if_neg (by simp [hb]), if_neg (by simp [hoff]), if_pos (by simp [hq]), ha]
  rfl

/-- An image without its magic places nothing, so that nothing is lacking for it. -/
theorem placeFail_noMagic {e : Env} {x : Image} {s : State} {name : String} (hb : ∀ b, e.nat? "base" = some b → b ≤ 48) (hm : x.magicOk = false)
    (hn : s.plan? name = none) : placeFail e name x s = none := by
  have hbase : ¬ ((e.nat? "base").any fun b => decide (48 < b + 0)) = true := by
    cases h : e.nat? "base" with
    | none => simp
    | some b => simpa using hb b h
  have hnone : ∀ (o : Option Nat) (f : Nat → Nat → Bool), (o.any fun b => (List.range 0).any (f b)) = false := by
    intro o f
    cases o <;> rfl
  simp only [placeFail, hm, Bool.false_eq_true, if_false]
  rw [if_neg hbase, hnone, hnone, hn]
  rfl

theorem planLoad_base_le {c : Ctx} {p : Pfx} {a : Args} {e : Env} {s : State} (h : Passes planLoadV c p a e s) {b : Nat}
    (hb : e.nat? "base" = some b) : b ≤ 48 := by
  have hr := h.nat_range (u := "") (lo := 0) (hi := 47) hb (by decide) (by decide)
  omega

theorem magicOk_of_ne {x : Image} (h : x.le 0 4 ≠ 0x50575641) : x.magicOk = false := by simp [Image.magicOk, h]

/-- Settles O23: the placed plan by `planLoadBody_placed` and `fillStores_read`; the refusals in the order of the load's checks. -/
theorem planLoad : Obligations.PlanLoad := by
  unfold Obligations.PlanLoad
  refine ⟨fun c p a e s x q b h hx hf hm hq hb hh => ?_, fun c p a e s x n k h hx ha hf => ?_, fun c p a e s x q h hx ha hb hon hq => ?_,
    fun c p a e s x h hx ha hn hm => ?_, fun c p a e s x h hx ha hf hm he hk => ?_⟩
  · refine answersWith_of_body rfl h ⟨_, _, planLoadBody_placed hx hf hm hq hb, rfl, ?_⟩
    have hfit : planFits q = true := planFits_of_checkImage hq
    rw [placePlan_of_noHops (p := { q with base := b }) hh]
    have hkeep := fillStores_keeps (fun t => (t.weave, t.inn, t.tly)) (fun _ _ => rfl) { q with base := b } s
    simp only [Prod.mk.injEq] at hkeep
    obtain ⟨hweave, hinn, htly⟩ := hkeep
    exact ⟨by simp [hweave], by simp [hinn], by simp [htly], by simp [hweave],
      fun k hk => fillStores_read (p := { q with base := b }) hfit hk s⟩
  · exact refuses_of_body rfl h (planLoadBody_placeFail hx (by rw [loadName_of_name ha]; exact hf))
  · exact refuses_of_body rfl h (planLoadBody_placeFail hx (by rw [loadName_of_name ha]; exact placeFail_name ha hb hon hq))
  · have hmagic := magicOk_of_ne hm
    exact refuses_of_body rfl h (planLoadBody_magic hx (by rw [loadName_of_name ha]; exact placeFail_noMagic (fun b hb => planLoad_base_le h hb) hmagic hn) hmagic)
  · exact refuses_of_body rfl h (planLoadBody_image hx (by rw [loadName_of_name ha]; exact hf) hm (checkImage_unsigned he hk _ _))

end Sys2Proof.Machine
end

section
/-! Events posted by a line, and the verbs of plans and stakes (spec 02, 05). -/

namespace Sys2Proof.Machine

/-! ### A line that posts an event -/

section

variable (o : Origin) (s : State)

@[simp] theorem bumpSeq_tly : (bumpSeq o s).tly = s.tly := by cases o <;> rfl
@[simp] theorem bumpSeq_ldr : (bumpSeq o s).ldr = s.ldr := by cases o <;> rfl
@[simp] theorem bumpSeq_cch : (bumpSeq o s).cch = s.cch := by cases o <;> rfl
@[simp] theorem bumpSeq_weave : (bumpSeq o s).weave = s.weave := by cases o <;> rfl
@[simp] theorem bumpSeq_entries : (bumpSeq o s).evq.entries = s.evq.entries := by cases o <;> rfl
@[simp] theorem bumpSeq_held : (bumpSeq o s).evq.held = s.evq.held := by cases o <;> rfl
@[simp] theorem bumpSeq_pwr : (bumpSeq o s).pwr = s.pwr := by cases o <;> rfl

end

/-- An event that its checks accept is queued for its own tally. -/
theorem enqueue_accepted {e : Event} {cut : Bool} {s : State} (hd : isDup e.src e.seq e.stamp e.eff s = false) (hs : shareFull e.src s = false)
    (ht : onTime e.stamp.toNat cut s = true) (hr : ∀ r, e.eff ≠ .request r) :
    enqueue e cut s = s.onEvq fun q => { q with entries := q.entries ++ [{ e with due := e.stamp }] } := by
  unfold enqueue
  rw [if_neg (by simp [hd]), if_neg (by simp [hs])]
  extract_lets isOn
  have hon : isOn = true := ht
  split
  next r h => exact absurd h (hr r)
  next => rw [if_pos hon]

/-- What an accepted event's line is answered, and what it does. -/
theorem postChecked_accepted {check : Bool} {c : Ctx} {p : Pfx} {eff : Effect} {t : Nat} {s : State} (h : Acceptable c p eff t s) :
    postChecked check c p eff s = .ok (eventReply c t s) (enqueue (eventOf c p eff t s) c.cut (bumpSeq c.origin s)) := by
  obtain ⟨h3, hp, ht, hmax, hw, hon, ⟨u, hu⟩, hs, -⟩ := h
  unfold postChecked
  split
  next src seq hsrc =>
    extract_lets ev badPlus full
    have hplus : badPlus = false := by
      unfold badPlus
      cases p with
      | none | abs _ => rfl
      | plus n =>
        cases n with
        | zero => exact absurd rfl hp
        | succ _ => rfl
    have hev : ev (BitVec.ofNat 64 t) = eventOf c p eff t s := by
      simp only [ev, eventOf, hsrc]
    simp only [hsrc] at hs
    rw [if_neg (by simp [hplus]), if_neg (by simp [h3]), ht]
    have hfull : full = [] := by simp [full, hs]
    simp only [hfull, hev, hu, hon, Bool.not_true, Bool.false_and, Bool.false_eq_true, if_false, List.append_nil]
    rw [if_neg (by omega)]
    simp only [eventReply, hsrc]
    rfl

/-- The Desk's sequence number is not among what the queue's checks look at. -/
theorem isDup_bumpSeq (o : Origin) (src : Src) (seq : BitVec 16) (stamp : Tally) (eff : Effect) (s : State) :
    isDup src seq stamp eff (bumpSeq o s) = isDup src seq stamp eff s := by
  cases o <;> rfl

theorem shareFull_bumpSeq (o : Origin) (src : Src) (s : State) : shareFull src (bumpSeq o s) = shareFull src s := by
  cases o <;> rfl

theorem onTime_bumpSeq (o : Origin) (t : Nat) (cut : Bool) (s : State) : onTime t cut (bumpSeq o s) = onTime t cut s := by
  cases o <;> rfl

theorem Acceptable.stamp_toNat {c : Ctx} {p : Pfx} {eff : Effect} {t : Nat} {s : State} (h : Acceptable c p eff t s) :
    (BitVec.ofNat 64 t).toNat = t := by
  obtain ⟨-, -, -, -, hw, -⟩ := h
  rw [BitVec.toNat_ofNat, Nat.mod_eq_of_lt hw]

/-- A line whose body posts an event that the checks accept stages that event. -/
theorem postChecked_stages {check : Bool} {c : Ctx} {p : Pfx} {eff : Effect} {t : Nat} {s : State} (h : Acceptable c p eff t s)
    (hr : ∀ r, eff ≠ .request r) :
    postChecked check c p eff s = .ok (eventReply c t s)
      ((bumpSeq c.origin s).onEvq fun q => { q with entries := q.entries ++ [eventOf c p eff t s] }) := by
  obtain ⟨-, -, -, -, -, hon, -, hs, hd⟩ := id h
  rw [postChecked_accepted h, enqueue_accepted (by rw [isDup_bumpSeq]; exact hd) (by rw [shareFull_bumpSeq]; exact hs)
    (by rw [onTime_bumpSeq]; exact h.stamp_toNat.symm ▸ hon) hr]
  rfl

theorem stages_of_body {v : Verb} {body : Ctx → Pfx → Env → State → Res} {i : Instr} {c : Ctx} {p : Pfx} {a : Args} {e : Env} {eff : Effect} {t : Nat}
    {s : State} (hi : exec i s = ulc v body c p a s) (hp : Passes v c p a e s) (hb : body c p e s = postEvent c p eff s)
    (h : Acceptable c p eff t s) (hr : ∀ r, eff ≠ .request r) : Stages i c p eff t s :=
  answersOk_of_body hi hp (hb.trans (postChecked_stages h hr))

/-! ### `plan.set` -/

/-- `plan.set` of a layer that the plan carries, compiled for the mode, posts its event. -/
theorem planSetBody_post {c : Ctx} {p : Pfx} {e : Env} {s : State} {q : Plan} {ly : Layer} (hq : s.plan? (e.plan "name") = some q)
    (hf : q.body.first ≤ e.nat "layer") (hly : q.body.layers[e.nat "layer" - q.body.first]? = some ly)
    (hm : (e.word? "smode").all (fun w => modeAllowed ly (smodeOf w)) = true) :
    planSetBody c p e s = postEvent c p
      (.scale q.name (e.nat "layer") ((e.word? "smode").map smodeOf) (e.nat? "win") (e.nat? "hr") (e.int? "exp")) s := by
  have hany : (((e.word? "smode").map smodeOf).any fun m => !modeAllowed ly m) = false := by
    cases h : e.word? "smode" with
    | none => rfl
    | some w => simpa [h] using hm
  simp only [planSetBody, hq, Nat.not_lt.mpr hf, if_false, idxOf, hly, hany, Bool.false_eq_true]

theorem planSetBody_mode {c : Ctx} {p : Pfx} {e : Env} {s : State} {q : Plan} {ly : Layer} {w : String} (hq : s.plan? (e.plan "name") = some q)
    (hf : q.body.first ≤ e.nat "layer") (hly : q.body.layers[e.nat "layer" - q.body.first]? = some ly) (hw : e.word? "smode" = some w)
    (hm : modeAllowed ly (smodeOf w) = false) : planSetBody c p e s = .err 13 "smode" s := by
  simp only [planSetBody, hq, Nat.not_lt.mpr hf, if_false, idxOf, hly, hw, Option.map_some, Option.any_some, hm, Bool.not_false, if_true]

/-- Settles O25: the events by `stages_of_body`, the refusals by the plan's layers and hops. -/
theorem planSettings : Obligations.PlanSettings := by
  unfold Obligations.PlanSettings
  refine ⟨fun c p a e s q ly t h hq hf hly hm _ => ?_, fun c p a e s q ly w h hq hf hly hw hm => ?_, fun c p a e s q t h hq hh => ?_,
    fun c p a e s q h hq hh => ?_⟩
  · intro eff hacc
    exact stages_of_body rfl h (planSetBody_post hq hf hly hm) hacc (fun r => by simp [eff])
  · exact refuses_of_body rfl h (planSetBody_mode hq hf hly hw hm)
  · intro eff hacc
    have hany : (q.hops.any fun j => j.def_.hop == e.nat "hop") = true := by simpa using hh
    exact stages_of_body rfl h (by simp only [planSetHopBody, hq, hany, if_true]; rfl) hacc (fun r => by simp [eff])
  · have hany : (q.hops.any fun j => j.def_.hop == e.nat "hop") = false := by simpa using hh
    exact refuses_of_body rfl h (by simp only [planSetHopBody, hq, hany, Bool.false_eq_true, if_false])

/-! ### What a guest that returns to REGISTERED leaves -/

/-- All but the Innkeeper's state and the memory. -/
def State.besideRooms (s : State) : State := { s with inn := {}, ram := [] }

@[simp] theorem State.onInn_besideRooms (s : State) (f : InnSt → InnSt) : (s.onInn f).besideRooms = s.besideRooms := rfl
@[simp] theorem State.onGuest_besideRooms (s : State) (g : Nat) (f : Guest → Guest) : (s.onGuest g f).besideRooms = s.besideRooms := rfl

@[simp] theorem askZero_besideRooms (checkin : Bool) (rs : List Nat) (s : State) : (askZero checkin rs s).besideRooms = s.besideRooms := rfl

@[simp] theorem settleRoom_besideRooms (g : Nat) (s : State) : (settleRoom g s).besideRooms = s.besideRooms := by
  simp only [settleRoom]
  split
  · split <;> rfl
  · rfl

@[simp] theorem freeRooms_besideRooms (g : Nat) (s : State) : (freeRooms g s).besideRooms = s.besideRooms := by simp [freeRooms]
@[simp] theorem freeChans_besideRooms (g : Nat) (s : State) : (freeChans g s).besideRooms = s.besideRooms := rfl
@[simp] theorem takeChans_besideRooms (g lo hi n : Nat) (s : State) : (takeChans g lo hi n s).besideRooms = s.besideRooms := rfl

@[simp] theorem assignChans_besideRooms (s : State) : (assignChans s).besideRooms = s.besideRooms :=
  State.forEach_keeps s State.besideRooms _ _ fun g t => by
    dsimp only
    split <;> simp

@[simp] theorem toRegistered_besideRooms (g : Nat) (s : State) : (toRegistered g s).besideRooms = s.besideRooms := by simp [toRegistered]

/-- The guests of a bundle that return to REGISTERED leave all else. -/
theorem reopened_besideRooms (gs : List Nat) (s : State) : (s.forEach gs toRegistered).besideRooms = s.besideRooms :=
  State.forEach_keeps s State.besideRooms _ _ fun g t => toRegistered_besideRooms g t

theorem reopenBundle_eq (n : String) (s : State) :
    ∃ u : State, u.besideRooms = s.besideRooms ∧ reopenBundle n s = u.onPlan n fun p => { p with quar := false } :=
  ⟨_, reopened_besideRooms _ s, rfl⟩

section

variable {s u : State} (h : u.besideRooms = s.besideRooms)
include h

theorem tly_of_besideRooms : u.tly = s.tly := (congrArg State.tly h : u.besideRooms.tly = s.besideRooms.tly)
theorem pwr_of_besideRooms : u.pwr = s.pwr := (congrArg State.pwr h : u.besideRooms.pwr = s.besideRooms.pwr)
theorem weave_of_besideRooms : u.weave = s.weave := (congrArg State.weave h : u.besideRooms.weave = s.besideRooms.weave)
theorem cch_of_besideRooms : u.cch = s.cch := (congrArg State.cch h : u.besideRooms.cch = s.besideRooms.cch)

end

/-! ### `plan.unload` -/

theorem State.onStake_stake_ne (s : State) (k i : Nat) (f : Stake → Stake) (h : i ≠ k) : (s.onStake k f).stake i = s.stake i := by
  simp [State.onStake, State.stake, State.onWeave, tgetD_tmod_ne _ _ _ _ _ h]

/-- What a pass gives its item, and the others leave it, holds of every item at the end. -/
theorem State.forEach_establishes {α : Type} {P : α → State → Prop} {f : α → State → State} {l : List α} (hf : ∀ a t, P a (f a t))
    (hk : ∀ a b t, P b t → P b (f a t)) (s : State) : ∀ a ∈ l, P a (s.forEach l f) := by
  induction l generalizing s with
  | nil => simp
  | cons x r ih =>
    intro a ha
    rcases List.mem_cons.mp ha with rfl | ha
    · exact State.forEach_inv _ (P a) r f (fun b t => hk b a t) (hf a s)
    · exact ih (f x s) a ha

theorem dropPlan_fault {p : Plan} {j : Nat} (hj : j < p.stakes) (s : State) : ((dropPlan p s).stake (p.base + j)).fault = false := by
  unfold dropPlan
  extract_lets u v
  have hu : (u.stake (p.base + j)).fault = false := by
    refine State.forEach_establishes (P := fun j t => (t.stake (p.base + j)).fault = false) (fun a t => ?_) (fun a b t hb => ?_) s j (List.mem_range.mpr hj)
    · simp [State.onStake_stake]
    · by_cases hab : p.base + b = p.base + a
      · rw [hab]
        simp [State.onStake_stake]
      · rw [State.onStake_stake_ne _ _ _ _ hab]
        exact hb
  have hv : v.weave = u.weave := State.forEach_keeps u State.weave _ _ fun _ _ => rfl
  show (tgetD v.weave.stakes (p.base + j) {}).fault = false
  rw [hv]
  exact hu

theorem dropPlan_gone (p : Plan) (s : State) : (dropPlan p s).plan? p.name = none := by
  simp [dropPlan, State.plan?]

theorem dropPlan_tly (p : Plan) (s : State) : (dropPlan p s).tly = s.tly ∧ (dropPlan p s).pwr = s.pwr := by
  unfold dropPlan
  extract_lets u v
  have hu : (u.tly, u.pwr) = (s.tly, s.pwr) := State.forEach_keeps s (fun t => (t.tly, t.pwr)) _ _ fun _ _ => rfl
  have hv : (v.tly, v.pwr) = (u.tly, u.pwr) := State.forEach_keeps u (fun t => (t.tly, t.pwr)) _ _ fun _ _ => rfl
  exact Prod.mk.inj (hv.trans hu)

theorem planUnloadBody_done {c : Ctx} {p : Pfx} {e : Env} {s : State} {q : Plan} (hq : s.plan? (e.plan "name") = some q)
    (hr : s.rowsOf q.name Guest.inRounds = []) (ha : q.quar = true ∨ s.rowsOf q.name (fun x => x.state == .away) = []) :
    planUnloadBody c p e s = .ok [] (dropPlan q (reopenBundle q.name s)) := by
  simp only [planUnloadBody, hq]
  rw [if_neg]
  rintro (h | ⟨h, h'⟩)
  · exact h hr
  · rcases ha with ha | ha
    · simp [ha] at h
    · exact h' ha

/-! ### `plan.hop`, `stk.show` and `stk.set` -/

/-- What both directions of `plan.hop` find first: the hop, an open route that nothing else uses, and no guest of the plan that holds a room. -/
theorem planHopBody_out {c : Ctx} {p : Pfx} {e : Env} {s : State} {q : Plan} {j : Hop} (hq : s.plan? (e.plan "name") = some q)
    (hj : q.hops.find? (fun h => h.def_.hop == e.nat "hop") = some j) (hout : j.def_.pchip = q.chip)
    (ho : (s.route (e.nat "route")).state = .opened) (hb : (s.route (e.nat "route")).bind = .none) (hh : s.rowsOf q.name Guest.isHeld = []) :
    planHopBody c p e s = .ok [spaced ([kn "hop" j.def_.hop, kv "dir" "out", kn "rec" j.def_.size] ++ hopBudget q j (e.nat "route") s)]
      (s.onPlan q.name fun y => { y with hops := y.hops.map fun x => if x.def_.hop = j.def_.hop then
        { x with route := some (e.nat "route"), key := some (BitVec.ofNat 32 (e.nat "key")) } else x }) := by
  simp [planHopBody, hq, hj, hout, ho, hb, hh]

theorem planHopBody_in {c : Ctx} {p : Pfx} {e : Env} {s : State} {q : Plan} {j : Hop} {w : Nat} (hq : s.plan? (e.plan "name") = some q)
    (hj : q.hops.find? (fun h => h.def_.hop == e.nat "hop") = some j) (hin : j.def_.pchip ≠ q.chip) (hw : j.win = some w)
    (ho : (s.route (e.nat "route")).state = .opened) (hb : (s.route (e.nat "route")).bind = .none) (hh : s.rowsOf q.name Guest.isHeld = []) :
    ∃ l, planHopBody c p e s = .ok [l] ((s.onWin w fun x => { x with route := some (e.nat "route") }).onPlan q.name fun y =>
      { y with hops := y.hops.map fun x => if x.def_.hop = j.def_.hop then { x with route := some (e.nat "route") } else x }) :=
  ⟨spaced [kn "hop" j.def_.hop, kv "dir" "in", kn "rec" j.def_.size,
      kv "key" (hexS 8 (winKey w (s.onWin w fun x => { x with route := some (e.nat "route") })).toNat)],
    by simp only [planHopBody, hq, hj, beq_eq_false_iff_ne.mpr hin, ho, hb, hh, hw, ne_eq, not_true_eq_false, or_self, if_false, Bool.false_eq_true]⟩

theorem stkShowBody_on {c : Ctx} {p : Pfx} {e : Env} {s : State} (h : s.on (12 + e.nat "k" / 12) = true) :
    ∃ ls, stkShowBody c p e s = .ok ls s ∧ ls ≠ [] := by
  unfold stkShowBody
  extract_lets k
  rw [if_neg (by simp [k, h])]
  split
  · exact ⟨_, rfl, by simp [stkJobs]⟩
  · refine ⟨_, rfl, ?_⟩
    split
    · simp
    next hne => simpa using hne
  · exact ⟨_, rfl, by simp⟩

/-- Settles O24: each verb's body on a line that passes its checks. -/
theorem plansAndStakes : Obligations.PlansAndStakes := by
  unfold Obligations.PlansAndStakes
  refine ⟨fun c p a e s q h hq hr ha => ?_, fun c p a e s q h hq hr => ?_, fun c p a e s h hn => ?_, fun c p a e s q j h hq hj hout _ ho hb hh => ?_,
    fun c p a e s q j w h hq hj hin hw ho hb hh => ?_, fun c p a e s h hon => ?_, fun c p a e s h hon => ?_, fun c p a e s q i ly st h hon hf => ?_⟩
  · refine answersWith_of_body rfl h ⟨_, _, planUnloadBody_done hq hr ha, rfl, dropPlan_gone _ _, fun j hj => dropPlan_fault hj _, ?_⟩
    obtain ⟨u, hu, heq⟩ := reopenBundle_eq q.name s
    obtain ⟨htly, hpwr⟩ := dropPlan_tly q (reopenBundle q.name s)
    rw [htly, hpwr, heq, State.onPlan_tly, State.onPlan_pwr]
    exact ⟨tly_of_besideRooms hu, pwr_of_besideRooms hu⟩
  · exact refuses_of_body rfl h (by simp only [planUnloadBody, hq]; exact if_pos (.inl hr))
  · have hb : planShowBody c p e s = .ok (if s.weave.plans.isEmpty then ["plans=none"] else s.weave.plans.map planLine) s := by
      simp [planShowBody, hn]
    refine answersWith_of_body rfl h ⟨_, _, hb, rfl, ?_⟩
    cases s.weave.plans with
    | nil => rfl
    | cons x r => simp
  · exact answersWith_of_body rfl h ⟨_, _, planHopBody_out hq hj hout ho hb hh, rfl, rfl⟩
  · obtain ⟨l, hbody⟩ := planHopBody_in (c := c) (p := p) hq hj hin hw ho hb hh
    exact answersWith_of_body rfl h ⟨_, _, hbody, rfl, by simp [State.win, State.onCch, State.onWin], rfl⟩
  · obtain ⟨ls, hbody, hne⟩ := stkShowBody_on (c := c) (p := p) hon
    exact answersWith_of_body rfl h ⟨_, _, hbody, rfl, hne⟩
  · exact refuses_of_body rfl h (by simp [stkShowBody, hon])
  · exact answersOk_of_body rfl h (by simp only [stkSetBody, hf, hon, reduceCtorEq, if_false]; rfl)

end Sys2Proof.Machine
end

section
/-! Registration, dropping and reopening of guests and bundles (spec 06). -/

namespace Sys2Proof.Machine

/-! ### Tables -/

@[simp] theorem tget_tdel_same {α : Type} (t : Tab α) (k : Nat) : tget (tdel t k) k = none := by
  induction t with
  | nil => rfl
  | cons e r ih =>
    obtain ⟨j, v⟩ := e
    by_cases h : j = k
    · simpa [tdel, h] using ih
    · simpa [tdel, h, tget] using ih

theorem tget_tdel_ne {α : Type} (t : Tab α) (k i : Nat) (h : i ≠ k) : tget (tdel t k) i = tget t i := by
  induction t with
  | nil => rfl
  | cons e r ih =>
    obtain ⟨j, v⟩ := e
    by_cases hj : j = k
    · have hji : ¬ j = i := fun hh => h (hh.symm.trans hj)
      simpa [tdel, hj, tget, if_neg (hj ▸ hji : ¬ k = i)] using ih
    · by_cases hi : j = i
      · simp [tdel, tget, hi, h]
      · simpa [tdel, hj, tget, hi] using ih

/-- An entry that is read stands in the table. -/
theorem mem_of_tget {α : Type} {t : Tab α} {k : Nat} {v : α} (h : tget t k = some v) : (k, v) ∈ t := by
  induction t with
  | nil => cases h
  | cons e r ih =>
    obtain ⟨j, w⟩ := e
    rw [tget] at h
    split at h
    next hj =>
      cases h
      rw [hj]
      exact List.mem_cons_self
    next => exact List.mem_cons_of_mem _ (ih h)

theorem tget_foldl_tdel {α : Type} {l : List Nat} {t : Tab α} {k : Nat} (h : k ∈ l) : tget (l.foldl (fun t r => tdel t r) t) k = none := by
  have hkeep : ∀ (l : List Nat) (t : Tab α), tget t k = none → tget (l.foldl (fun t r => tdel t r) t) k = none := by
    intro l
    induction l with
    | nil => exact fun _ ht => ht
    | cons a r ih =>
      intro t ht
      refine ih _ ?_
      by_cases hk : k = a
      · rw [hk, tget_tdel_same]
      · rw [tget_tdel_ne _ _ _ hk, ht]
  induction l generalizing t with
  | nil => cases h
  | cons a r ih =>
    rcases List.mem_cons.mp h with rfl | h
    · exact hkeep r _ (tget_tdel_same _ _)
    · exact ih h

theorem tget_foldl_tset {α : Type} {l : List Nat} {t : Tab α} {v : α} {k : Nat} (h : k ∈ l) :
    tget (l.foldl (fun t r => tset t r v) t) k = some v := by
  have hkeep : ∀ (l : List Nat) (t : Tab α), tget t k = some v → tget (l.foldl (fun t r => tset t r v) t) k = some v := by
    intro l
    induction l with
    | nil => exact fun _ ht => ht
    | cons a r ih =>
      intro t ht
      refine ih _ ?_
      by_cases hk : k = a
      · rw [hk, tget_tset_same]
      · rw [tget_tset_ne _ _ _ _ hk, ht]
  induction l generalizing t with
  | nil => cases h
  | cons a r ih =>
    rcases List.mem_cons.mp h with rfl | h
    · exact hkeep r _ (tget_tset_same _ _ _)
    · exact ih h

/-! ### A guest that returns to REGISTERED -/

/-- What giving out the cellar's channels leaves of the Innkeeper. -/
def InnSt.besideChans (i : InnSt) : InnSt := { i with chans := [] }

theorem takeChans_besideChans (g lo hi n : Nat) (s : State) : (takeChans g lo hi n s).inn.besideChans = s.inn.besideChans := rfl

theorem assignChans_besideChans (s : State) : (assignChans s).inn.besideChans = s.inn.besideChans :=
  State.forEach_keeps s (fun t => t.inn.besideChans) _ _ fun g t => by
    dsimp only
    split <;> rfl

theorem assignChans_guest (s : State) (g : Nat) : (assignChans s).guest g = s.guest g :=
  (congrArg (fun i : InnSt => tgetD i.guests g {}) (assignChans_besideChans s) :
    tgetD (assignChans s).inn.besideChans.guests g {} = tgetD s.inn.besideChans.guests g {})

theorem assignChans_rooms (s : State) : (assignChans s).inn.rooms = s.inn.rooms :=
  (congrArg InnSt.rooms (assignChans_besideChans s) : (assignChans s).inn.besideChans.rooms = s.inn.besideChans.rooms)

theorem assignChans_inUse (s : State) : (assignChans s).inn.inUse = s.inn.inUse :=
  (congrArg InnSt.inUse (assignChans_besideChans s) : (assignChans s).inn.besideChans.inUse = s.inn.besideChans.inUse)

theorem assignChans_ram (s : State) : (assignChans s).ram = s.ram :=
  State.forEach_keeps s State.ram _ _ fun g t => by
    dsimp only
    split <;> rfl

/-- What a room that is settled leaves: all but memory. -/
theorem settleRoom_inn (g : Nat) (s : State) : (settleRoom g s).inn = s.inn := by
  simp only [settleRoom]
  split
  · split <;> rfl
  · rfl

/-- The guest whose row its rooms hold takes part in the rounds. -/
theorem liveRow_inRounds {n k : Nat} {p : Plan} {s : State} (h : liveRow n s = some (k, p)) : (s.guest k).inRounds = true := by
  unfold liveRow at h
  split at h
  next g hg =>
    dsimp only at h
    split at h
    next hlive =>
      obtain ⟨q, -, hq⟩ := Option.map_eq_some_iff.mp h
      cases hq
      simp only [Bool.and_eq_true] at hlive
      exact hlive.1.1
    next => cases h
  next => cases h

/-- A guest outside the rounds has no row to put down. -/
theorem settleRoom_of_idle {g : Nat} {s : State} (h : (s.guest g).inRounds = false) : settleRoom g s = s := by
  simp only [settleRoom]
  split
  next k p hk =>
    split
    next hkg =>
      have hlive := liveRow_inRounds hk
      rw [hkg, h] at hlive
      cases hlive
    next => rfl
  next => rfl

@[simp] theorem askZero_ram (checkin : Bool) (rs : List Nat) (s : State) : (askZero checkin rs s).ram = s.ram := rfl

@[simp] theorem freeRooms_ram (g : Nat) (s : State) : (freeRooms g s).ram = (settleRoom g s).ram := by simp [freeRooms]

theorem toRegistered_guest_same (g : Nat) (s : State) : ((toRegistered g s).guest g).state = .registered := by
  unfold toRegistered
  rw [assignChans_guest]
  show (((freeRooms g s).onGuest g fun x => x.idle .registered).guest g).state = _
  rw [State.onGuest_guest]
  rfl

theorem toRegistered_guest_ne {g k : Nat} (h : k ≠ g) (s : State) : (toRegistered g s).guest k = s.guest k := by
  unfold toRegistered
  rw [assignChans_guest]
  show ((freeRooms g s).onGuest g fun x => x.idle .registered).guest k = _
  rw [State.onGuest_guest_ne _ _ _ _ h]
  show tgetD (settleRoom g s).inn.guests k {} = _
  rw [settleRoom_inn]
  rfl

/-- The rooms a guest gives back are held by nobody and are to be zeroed. -/
theorem toRegistered_rooms {g r : Nat} {s : State} (hr : r ∈ heldRooms g s) :
    tget (toRegistered g s).inn.rooms r = none ∧ tget (toRegistered g s).inn.inUse r = some .zeroing := by
  unfold toRegistered
  rw [assignChans_rooms, assignChans_inUse]
  exact ⟨tget_foldl_tdel hr, tget_foldl_tset hr⟩

theorem toRegistered_ram {g : Nat} {s : State} (h : (s.guest g).inRounds = false) : (toRegistered g s).ram = s.ram := by
  have hfree : ∀ t : State, (freeChans g t).ram = t.ram := fun _ => rfl
  rw [toRegistered, assignChans_ram, hfree, State.onGuest_ram, freeRooms_ram, settleRoom_of_idle h]

/-- A guest in quarantine takes no part in the rounds. -/
theorem inRounds_of_quarantined {x : Guest} (h : x.state = .quarantined) : x.inRounds = false := by
  simp [Guest.inRounds, h, GState.inRounds]

/-! ### `guest.register`, `guest.reopen` -/

theorem guestReopenBody_done {c : Ctx} {p : Pfx} {e : Env} {s : State} (h : (s.guest (e.nat "id")).state = .quarantined) :
    ∃ u, guestReopenBody c p e s = .ok [] u ∧ u.inn = (toRegistered (e.nat "id") s).inn ∧ u.ram = (toRegistered (e.nat "id") s).ram := by
  unfold guestReopenBody
  extract_lets g x u
  rw [if_neg (not_not.mpr h)]
  split
  · refine ⟨_, rfl, ?_, ?_⟩ <;> split <;> rfl
  · exact ⟨_, rfl, rfl, rfl⟩

/-! ### `bundle.reopen` -/

theorem State.onPlan_plan? (s : State) (n : String) {f : Plan → Plan} (hf : ∀ p, (f p).name = p.name) :
    (s.onPlan n f).plan? n = (s.plan? n).map f := by
  unfold State.plan?
  rw [State.onPlan_weave]
  induction s.weave.plans with
  | nil => rfl
  | cons q r ih =>
    by_cases hq : q.name = n
    · simp [hq, hf]
    · simpa [hq] using ih

/-- Every quarantined guest of the bundle is REGISTERED once it is reopened. -/
theorem reopened_state {n : String} {g : Nat} {s : State} (hg : (s.guest g).state = .quarantined) (hp : (s.guest g).plan = n) :
    ((reopenBundle n s).guest g).state = .registered := by
  have hmem : g ∈ (s.rowsOf n fun x => x.state == .quarantined).map (·.1) := by
    unfold State.guest tgetD at hg hp
    cases ht : tget s.inn.guests g with
    | none => simp [ht] at hg
    | some x =>
      rw [ht] at hg hp
      refine List.mem_map.mpr ⟨(g, x), List.mem_filter.mpr ⟨mem_of_tget ht, ?_⟩, rfl⟩
      simpa using ⟨hp, hg⟩
  refine State.forEach_establishes (P := fun g t => (t.guest g).state = .registered) (fun a t => toRegistered_guest_same a t) (fun a b t hb => ?_) s g hmem
  by_cases hab : b = a
  · rw [hab]
    exact toRegistered_guest_same a t
  · rw [toRegistered_guest_ne hab]
    exact hb

/-- Settles O27: the registers of a guest by the writes of the bodies, the rooms by `toRegistered_rooms`. -/
theorem registrations : Obligations.Registrations := by
  unfold Obligations.Registrations
  refine ⟨fun c p a e s h hst => ?_, fun c p a e s h hst => ?_, fun c p a e s h hst => ?_, fun c p a e s h hst => ?_, fun c p a e s h hst => ?_,
    fun c p a e s h hst => ?_, fun c p a e s q h hq hf => ?_, fun c p a e s q h hq hf => ?_⟩
  · have hb : ¬ ((s.guest (e.nat "id")).state ≠ .free ∧ (s.guest (e.nat "id")).state ≠ .registered) := by tauto
    refine answersWith_of_body rfl h ⟨_, _, if_neg hb, rfl, ?_⟩
    refine ⟨?_, ?_, ?_, ?_, ?_, fun k hk => State.onGuest_guest_ne _ _ _ _ hk, rfl, rfl, rfl⟩ <;> rw [State.onGuest_guest]
  · exact refuses_of_body rfl h (by simp [guestRegisterBody, hst, guestErr])
  · exact refuses_of_body rfl h (by simp [guestRegisterBody, hst, guestErr])
  · refine answersWith_of_body rfl h ⟨_, _, if_neg (not_not.mpr hst), rfl, ?_, fun k hk => ?_⟩
    · simp [State.guest, State.onInn, tgetD]
    · simp [State.guest, State.onInn, tgetD, tget_tdel_ne _ _ _ hk]
  · obtain ⟨u, hbody, hinn, hram⟩ := guestReopenBody_done (c := c) (p := p) hst
    refine answersWith_of_body rfl h ⟨_, _, hbody, rfl, ?_, fun r hr => ?_, ?_⟩
    · show (tgetD u.inn.guests (e.nat "id") {}).state = _
      rw [hinn]
      exact toRegistered_guest_same _ s
    · rw [hinn]
      exact toRegistered_rooms hr
    · rw [hram, toRegistered_ram (inRounds_of_quarantined hst)]
  · exact refuses_of_body rfl h (by simp [guestReopenBody, hst])
  · exact refuses_of_body rfl h (by simp [bundleReopenBody, hq, hf])
  · have hb : bundleReopenBody c p e s = .ok [] (reopenBundle q.name s) := by simp [bundleReopenBody, hq, hf]
    refine answersWith_of_body rfl h ⟨_, _, hb, rfl, fun g hg hp => reopened_state hg hp, ?_⟩
    obtain ⟨u, hu, heq⟩ := reopenBundle_eq q.name s
    have hname : q.name = e.plan "plan" := by simpa using List.find?_some hq
    have huq : u.plan? q.name = some q := by
      show u.weave.plans.find? _ = _
      rw [weave_of_besideRooms hu, hname]
      exact hq
    rw [heq, State.onPlan_plan? _ _ (by intro; rfl), huq]
    exact ⟨_, rfl, rfl⟩

end Sys2Proof.Machine
end

section
/-! Rooms being zeroed, written to the cellar and swapped in (spec 06). -/

namespace Sys2Proof.Machine

/-! ### A bank's engine -/

theorem zeroNow_mem {b : Nat} {j : ZeroJob} {s : State} (h : zeroNow b s = some j) : j ∈ s.inn.zeroq ∧ j.room / 4 = b := by
  have hl : j ∈ s.inn.zeroq.filter fun k => k.room / 4 == b := by
    unfold zeroNow at h
    extract_lets l at h
    cases hf : l.find? (·.checkin) with
    | some k =>
      rw [hf] at h
      cases h
      exact List.mem_of_find?_eq_some hf
    | none =>
      rw [hf, Option.none_or] at h
      exact List.mem_of_head? h
  simpa using List.mem_filter.mp hl

/-- A check-in's zeroing is done before any other of its bank. -/
theorem zeroNow_checkin {b : Nat} {j : ZeroJob} {s : State} (h : zeroNow b s = some j)
    (hc : ∃ k ∈ s.inn.zeroq, k.room / 4 = b ∧ k.checkin = true) : j.checkin = true := by
  obtain ⟨k, hk, hb, hck⟩ := hc
  unfold zeroNow at h
  extract_lets l at h
  have hkl : k ∈ l := List.mem_filter.mpr ⟨hk, by simpa using hb⟩
  cases hf : l.find? (·.checkin) with
  | some x =>
    rw [hf] at h
    cases h
    exact List.find?_some hf
  | none => exact absurd hck (List.find?_eq_none.mp hf k hkl)

theorem exec_roomZeroed {r : Nat} {s : State} (h : s.on 10 = true) (hz : (zeroNow (r / 4) s).map (·.room) = some r) :
    exec (.roomZeroed r) s = .next (roomZeroed r s) := by
  show execRoomZeroed r s = _
  rw [execRoomZeroed, if_pos ⟨h, hz⟩]

/-- What the departures that a finished zeroing completes leave of the Innkeeper. -/
def InnSt.besideHeld (i : InnSt) : InnSt := { i with guests := [], rooms := [] }

theorem awayWhenZeroed_besideHeld (s : State) : (awayWhenZeroed s).inn.besideHeld = s.inn.besideHeld :=
  State.forEach_keeps s (fun t => t.inn.besideHeld) _ _ fun _ _ => rfl

theorem awayWhenZeroed_ram (s : State) : (awayWhenZeroed s).ram = s.ram :=
  State.forEach_keeps s State.ram _ _ fun _ _ => rfl

theorem awayWhenZeroed_inUse (s : State) : (awayWhenZeroed s).inn.inUse = s.inn.inUse :=
  (congrArg InnSt.inUse (awayWhenZeroed_besideHeld s) : (awayWhenZeroed s).inn.besideHeld.inUse = s.inn.besideHeld.inUse)

theorem awayWhenZeroed_zeroq (s : State) : (awayWhenZeroed s).inn.zeroq = s.inn.zeroq :=
  (congrArg InnSt.zeroq (awayWhenZeroed_besideHeld s) : (awayWhenZeroed s).inn.besideHeld.zeroq = s.inn.besideHeld.zeroq)

/-- A room whose zeroing ends is no longer in use, waits for no zeroing, and reads as zero; no other byte changes. -/
theorem roomZeroed_room (r : Nat) (s : State) :
    tget (roomZeroed r s).inn.inUse r = none ∧ (∀ j ∈ (roomZeroed r s).inn.zeroq, j.room ≠ r) ∧
      ∀ k, (roomZeroed r s).ram.read k = if roomBase r ≤ k ∧ k < roomBase r + 0x10000 then Memory.blank else s.ram.read k := by
  unfold roomZeroed
  rw [awayWhenZeroed_inUse, awayWhenZeroed_zeroq, awayWhenZeroed_ram]
  refine ⟨tget_tdel_same _ _, fun j hj => ?_, fun k => Memory.read_zero _ _ _ k⟩
  simpa using (List.mem_filter.mp hj).2

/-! ### The last zeroing of a write-back -/

theorem tget_foldl_tdel_of_notMem {α : Type} {l : List Nat} {t : Tab α} {k : Nat} (h : k ∉ l) :
    tget (l.foldl (fun t r => tdel t r) t) k = tget t k := by
  induction l generalizing t with
  | nil => rfl
  | cons a r ih =>
    rw [List.mem_cons, not_or] at h
    exact (ih h.2).trans (tget_tdel_ne _ _ _ h.1)

/-- A guest's row whose rooms have all been written and zeroed. -/
def leftAway (x : Guest) : Guest := { x with
  state := .away, room := 0, row := 0, code := .run, leaveTo := .registered, ended := false, writing := false, gone := false
  layers := [], steps := [], ports := [], portsN := [] }

/-- The rooms the guest has held are given back. -/
def giveRooms (g : Nat) (s : State) : State :=
  (s.onInn fun i => { i with rooms := (heldRooms g s).foldl (fun t k => tdel t k) i.rooms }).onGuest g leftAway

theorem awayWhenZeroed_single {g : Nat} {x : Guest} {s : State} (hg : s.inn.guests = [(g, x)]) (hw : x.writing = true)
    (hr : ∀ r ∈ x.run, tget s.inn.inUse r = none) : awayWhenZeroed s = giveRooms g s := by
  have hdone : (s.inn.guests.filter fun e => e.2.writing && e.2.run.all fun r => (tget s.inn.inUse r).isNone) = [(g, x)] := by
    have hall : (x.run.all fun r => (tget s.inn.inUse r).isNone) = true :=
      List.all_eq_true.mpr fun r h => by rw [hr r h]; rfl
    simp [hg, hw, hall]
  unfold awayWhenZeroed
  rw [hdone]
  rfl

/-- None of the rooms of the guest is held by it any more. -/
theorem giveRooms_rooms {g k : Nat} {s : State} (hk : k ∈ (s.guest g).run) : tget (giveRooms g s).inn.rooms k ≠ some g := by
  show tget ((heldRooms g s).foldl (fun t k => tdel t k) s.inn.rooms) k ≠ some g
  by_cases h : k ∈ heldRooms g s
  · rw [tget_foldl_tdel h]
    simp
  · rw [tget_foldl_tdel_of_notMem h]
    intro hkg
    exact h (List.mem_filter.mpr ⟨hk, by simpa using hkg⟩)

theorem roomZeroed_away {g : Nat} {x : Guest} {j : ZeroJob} {s : State} (hg : s.inn.guests = [(g, x)]) (hw : x.writing = true)
    (hu : s.inn.inUse = [(j.room, .zeroing)]) :
    roomZeroed j.room s = giveRooms g (zeroRoom j.room (dropJobs [j.room] s)) := by
  refine awayWhenZeroed_single hg hw fun r _ => ?_
  have hnone : (zeroRoom j.room (dropJobs [j.room] s)).inn.inUse = [] := by
    show tdel s.inn.inUse j.room = []
    rw [hu]
    simp [tdel]
  rw [hnone]
  rfl

/-! ### A room written to the cellar -/

section

variable {i j : InnSt} (h : i.besideChans = j.besideChans)
include h

theorem besideChans_rooms : i.rooms = j.rooms := (congrArg InnSt.rooms h : i.besideChans.rooms = j.besideChans.rooms)
theorem besideChans_inUse : i.inUse = j.inUse := (congrArg InnSt.inUse h : i.besideChans.inUse = j.besideChans.inUse)
theorem besideChans_zeroq : i.zeroq = j.zeroq := (congrArg InnSt.zeroq h : i.besideChans.zeroq = j.besideChans.zeroq)
theorem besideChans_guests : i.guests = j.guests := (congrArg InnSt.guests h : i.besideChans.guests = j.besideChans.guests)
theorem besideChans_quarG : i.quarG = j.quarG := (congrArg InnSt.quarG h : i.besideChans.quarG = j.besideChans.quarG)
theorem besideChans_cRevoke : i.cRevoke = j.cRevoke := (congrArg InnSt.cRevoke h : i.besideChans.cRevoke = j.besideChans.cRevoke)
theorem besideChans_cellarHi : i.cellarHi = j.cellarHi := (congrArg InnSt.cellarHi h : i.besideChans.cellarHi = j.besideChans.cellarHi)
theorem besideChans_cellarLo : i.cellarLo = j.cellarLo := (congrArg InnSt.cellarLo h : i.besideChans.cellarLo = j.besideChans.cellarLo)

end

theorem freeOneChan_besideChans (g : Nat) (s : State) : (freeOneChan g s).inn.besideChans = s.inn.besideChans := by
  unfold freeOneChan
  split <;> rfl

theorem freeOneChan_ram (g : Nat) (s : State) : (freeOneChan g s).ram = s.ram := by
  unfold freeOneChan
  split <;> rfl

theorem freeOneChan_mem (g : Nat) (s : State) : (freeOneChan g s).mem = s.mem := by
  unfold freeOneChan
  split <;> rfl

theorem freeOneChan_guest (g k : Nat) (s : State) : (freeOneChan g s).guest k = s.guest k :=
  (congrArg (fun i : InnSt => tgetD i.guests k {}) (freeOneChan_besideChans g s) :
    tgetD (freeOneChan g s).inn.besideChans.guests k {} = tgetD s.inn.besideChans.guests k {})

theorem assignChans_mem (s : State) : (assignChans s).mem = s.mem :=
  State.forEach_keeps s State.mem _ _ fun g t => by
    dsimp only
    split <;> rfl

/-- What a channel that has written a room does. -/
theorem exec_cellarWritebackDone {g r : Nat} {l : List Nat} {s : State} (h : s.on 10 = true) (hc : ∃ c, (c, g) ∈ s.inn.chans)
    (hw : roomsToWrite s (s.guest g) = r :: l) :
    exec (.cellarWritebackDone g) s = .next (assignChans (freeOneChan g (askZero false [r]
      (copyRoom (roomBase r) (slotRoom s g (r - (s.guest g).room)) s)))) := by
  have hany : (s.inn.chans.any fun e => e.2 == g) = true := by
    obtain ⟨c, hc⟩ := hc
    exact List.any_eq_true.mpr ⟨(c, g), hc, by simp⟩
  show execCellarWritebackDone g s = _
  rw [execCellarWritebackDone, if_pos (by simp [h, hany]), hw]

theorem writtenRoom_inn (g r : Nat) (s : State) :
    (assignChans (freeOneChan g (askZero false [r] s))).inn.besideChans = (askZero false [r] s).inn.besideChans := by
  rw [assignChans_besideChans, freeOneChan_besideChans]

theorem writtenRoom_ram (g r : Nat) (s : State) : (assignChans (freeOneChan g (askZero false [r] s))).ram = s.ram := by
  rw [assignChans_ram, freeOneChan_ram, askZero_ram]

/-! ### A room swapped in -/

/-- What resuming a row leaves: all but its guest. -/
theorem resumeRow_inn (g : Nat) (s : State) : ∃ l, (resumeRow g s).inn = { s.inn with guests := l } := by
  unfold resumeRow
  extract_lets u
  split <;> exact ⟨_, rfl⟩

theorem resumeRow_ram (g : Nat) (s : State) : (resumeRow g s).ram = s.ram := by
  unfold resumeRow
  extract_lets u
  split <;> rfl

theorem resumeRow_mem (g : Nat) (s : State) : (resumeRow g s).mem = s.mem := by
  unfold resumeRow
  extract_lets u
  split <;> rfl

theorem resumeRow_guest (g : Nat) (s : State) :
    ((resumeRow g s).guest g).filled = 0 ∧ ((resumeRow g s).guest g).swapping = false ∧ ((resumeRow g s).guest g).image = [] := by
  unfold resumeRow
  extract_lets u
  have hu : u.guest g = { s.guest g with swapping := false, lates := false, filled := 0, image := [] } := State.onGuest_guest s g _
  split
  · rw [State.onGuest_guest, hu]
    exact ⟨rfl, rfl, rfl⟩
  · rw [hu]
    exact ⟨rfl, rfl, rfl⟩

/-- The error counts that a swap-in adds to. -/
theorem countEcc_inn (ecc : Ecc) (s : State) : (countEcc ecc s).inn = s.inn := by
  cases ecc <;> rfl

theorem countEcc_ram (ecc : Ecc) (s : State) : (countEcc ecc s).ram = s.ram := by
  cases ecc <;> rfl

/-- The state in which a swap-in that has ended is taken: the channel free, the room copied, the guest one room further. -/
def swappedIn (g : Nat) (ecc : Ecc) (s : State) : State :=
  let u := freeOneChan g (countEcc ecc s)
  let w := (copyRoom (slotRoom u g (u.guest g).filled) (roomBase ((u.guest g).room + (u.guest g).filled)) u).onGuest g fun x =>
    { x with filled := x.filled + 1 }
  match ecc with
  | .ded _ => w.onInn fun i => { i with quarG := i.quarG ++ [(g, 5)] }
  | _ => w

theorem exec_swapInDone {g : Nat} {s : State} (ecc : Ecc) (h : s.on 10 = true) (hc : ∃ c, (c, g) ∈ s.inn.chans)
    (hs : (s.guest g).swapping = true) :
    exec (.swapInDone g ecc) s = .next (assignChans (if ((swappedIn g ecc s).guest g).join ≤ ((swappedIn g ecc s).guest g).filled then
      resumeRow g (swappedIn g ecc s) else swappedIn g ecc s)) := by
  have hany : (s.inn.chans.any fun e => e.2 == g) = true := by
    obtain ⟨c, hc⟩ := hc
    exact List.any_eq_true.mpr ⟨(c, g), hc, by simp⟩
  refine congrArg Host.Outcome.next ((if_pos (by simp [h, hs, hany])).trans ?_)
  cases ecc <;> rfl

/-- The channel freed and the error counted, before the room is copied. -/
theorem freedChan_inn (g : Nat) (ecc : Ecc) (s : State) : (freeOneChan g (countEcc ecc s)).inn.besideChans = s.inn.besideChans := by
  rw [freeOneChan_besideChans, countEcc_inn]

theorem freedChan_guest (g : Nat) (ecc : Ecc) (s : State) (k : Nat) : (freeOneChan g (countEcc ecc s)).guest k = s.guest k := by
  rw [freeOneChan_guest]
  exact congrArg (fun i : InnSt => tgetD i.guests k {}) (countEcc_inn ecc s)

theorem freedChan_slotRoom (g : Nat) (ecc : Ecc) (s : State) (k : Nat) : slotRoom (freeOneChan g (countEcc ecc s)) g k = slotRoom s g k := by
  rw [slotRoom, slotRoom, cellarSlot, cellarSlot, State.cellar, State.cellar, besideChans_cellarHi (freedChan_inn g ecc s),
    besideChans_cellarLo (freedChan_inn g ecc s)]

theorem swappedIn_guest (g : Nat) (ecc : Ecc) (s : State) : (swappedIn g ecc s).guest g = { s.guest g with filled := (s.guest g).filled + 1 } := by
  have hcopy : ∀ (a b : Nat) (u : State), (copyRoom a b u).guest g = u.guest g := fun _ _ _ => rfl
  have hq : (swappedIn g ecc s).guest g = ((copyRoom (slotRoom (freeOneChan g (countEcc ecc s)) g ((freeOneChan g (countEcc ecc s)).guest g).filled)
      (roomBase (((freeOneChan g (countEcc ecc s)).guest g).room + ((freeOneChan g (countEcc ecc s)).guest g).filled))
      (freeOneChan g (countEcc ecc s))).onGuest g fun x => { x with filled := x.filled + 1 }).guest g := by
    cases ecc <;> rfl
  rw [hq, State.onGuest_guest, hcopy, freedChan_guest]

theorem swappedIn_ram (g : Nat) (ecc : Ecc) (s : State) :
    (swappedIn g ecc s).ram = (copyRoom (slotRoom s g (s.guest g).filled) (roomBase ((s.guest g).room + (s.guest g).filled)) s).ram := by
  have hram : (freeOneChan g (countEcc ecc s)).ram = s.ram := by rw [freeOneChan_ram, countEcc_ram]
  have hr : (swappedIn g ecc s).ram = (freeOneChan g (countEcc ecc s)).ram.copy
      (slotRoom (freeOneChan g (countEcc ecc s)) g ((freeOneChan g (countEcc ecc s)).guest g).filled)
      (roomBase (((freeOneChan g (countEcc ecc s)).guest g).room + ((freeOneChan g (countEcc ecc s)).guest g).filled)) 0x10000 := by
    cases ecc <;> rfl
  rw [hr, hram, freedChan_slotRoom, freedChan_guest]
  rfl

theorem swappedIn_mem (g : Nat) (ecc : Ecc) (s : State) : (swappedIn g ecc s).mem = (countEcc ecc s).mem := by
  have hm : (swappedIn g ecc s).mem = (freeOneChan g (countEcc ecc s)).mem := by
    cases ecc <;> rfl
  rw [hm, freeOneChan_mem]

theorem freedChan_quarG (g : Nat) (ecc : Ecc) (s : State) : (freeOneChan g (countEcc ecc s)).inn.quarG = s.inn.quarG :=
  besideChans_quarG (freedChan_inn g ecc s)

theorem swappedIn_quarG_ok (g : Nat) (s : State) : (swappedIn g .ok s).inn.quarG = s.inn.quarG := freedChan_quarG g .ok s

theorem swappedIn_quarG_ded (g k : Nat) (s : State) : (swappedIn g (.ded k) s).inn.quarG = s.inn.quarG ++ [(g, 5)] :=
  congrArg (· ++ [(g, 5)]) (freedChan_quarG g (.ded k) s)

theorem assignChans_quarG (s : State) : (assignChans s).inn.quarG = s.inn.quarG :=
  besideChans_quarG (assignChans_besideChans s)

theorem resumeRow_quarG (g : Nat) (s : State) : (resumeRow g s).inn.quarG = s.inn.quarG := by
  obtain ⟨l, h⟩ := resumeRow_inn g s
  rw [h]

/-- What a swap-in that has ended leaves: its memory, error counts and quarantines are those of the room copied. -/
theorem swapInDone_kept (g : Nat) (w : State) :
    let t := assignChans (if (w.guest g).join ≤ (w.guest g).filled then resumeRow g w else w)
    t.ram = w.ram ∧ t.mem = w.mem ∧ t.inn.quarG = w.inn.quarG := by
  intro t
  simp only [t, assignChans_ram, assignChans_mem, assignChans_quarG]
  split
  · rw [resumeRow_ram, resumeRow_mem, resumeRow_quarG]
    exact ⟨rfl, rfl, rfl⟩
  · exact ⟨rfl, rfl, rfl⟩

/-- Settles O31: the room zeroed by `roomZeroed_room`, the last of a write-back by `giveRooms`, the copies by `copyRoom_eq`. -/
theorem roomsAndCellar : Obligations.RoomsAndCellar := by
  unfold Obligations.RoomsAndCellar
  refine ⟨fun r s h hz => ?_, fun r s hz => ?_, fun b j s hj => ?_, fun g x j s h hg hw hq hu => ?_, fun g r l s h hm hc hw => ?_,
    fun g ecc s h hm hc hs => ?_, fun r g ecc s h => ?_⟩
  · obtain ⟨huse, hqueue, hram⟩ := roomZeroed_room r s
    refine ⟨_, exec_roomZeroed h hz, huse, hqueue, fun k hlo hhi => ?_, fun k hk => ?_⟩
    · rw [hram, if_pos ⟨hlo, hhi⟩]
      rfl
    · rw [hram, if_neg (by omega)]
  · show execRoomZeroed r s = _
    rw [execRoomZeroed, if_neg fun hh => hz hh.2]
  · exact ⟨(zeroNow_mem hj).1, (zeroNow_mem hj).2, zeroNow_checkin hj⟩
  · have hz : (zeroNow (j.room / 4) s).map (·.room) = some j.room := by
      cases hck : j.checkin <;> simp [zeroNow, hq, hck]
    have hx : (zeroRoom j.room (dropJobs [j.room] s)).guest g = x := by
      show tgetD s.inn.guests g {} = x
      simp [hg, tgetD, tget]
    refine ⟨_, exec_roomZeroed h hz, ?_⟩
    rw [roomZeroed_away hg hw hu]
    have hguest : (giveRooms g (zeroRoom j.room (dropJobs [j.room] s))).guest g = leftAway x := by
      rw [giveRooms, State.onGuest_guest, ← hx]
      rfl
    beta_reduce
    rw [hguest]
    exact ⟨rfl, rfl, rfl, rfl, fun k hk => giveRooms_rooms (by rw [hx]; exact hk)⟩
  · obtain ⟨m, hcopy, -, hin, hout⟩ := copyRoom_eq (roomBase r) (slotRoom s g (r - (s.guest g).room)) s hm
    have hram := writtenRoom_ram g r (copyRoom (roomBase r) (slotRoom s g (r - (s.guest g).room)) s)
    have hinn := writtenRoom_inn g r (copyRoom (roomBase r) (slotRoom s g (r - (s.guest g).room)) s)
    refine ⟨_, exec_cellarWritebackDone h hc hw, ?_, ?_, ?_, fun k hk => ?_, fun k hk => ?_⟩
    · rw [besideChans_rooms hinn]
      rfl
    · rw [besideChans_inUse hinn]
      exact tget_foldl_tset (List.mem_singleton_self r)
    · refine ⟨⟨r, false, 0⟩, ?_, rfl, rfl⟩
      rw [besideChans_zeroq hinn]
      exact List.mem_append_right _ (List.mem_singleton_self _)
    · rw [hram, hcopy]
      exact hin k hk
    · rw [hram, hcopy]
      exact hout k hk
  · obtain ⟨m, hcopy, -, hin, hout⟩ :=
      copyRoom_eq (slotRoom s g (s.guest g).filled) (roomBase ((s.guest g).room + (s.guest g).filled)) s hm
    have hram : (swappedIn g ecc s).ram = m := by rw [swappedIn_ram, hcopy]
    obtain ⟨hkram, hkmem, hkquar⟩ := swapInDone_kept g (swappedIn g ecc s)
    refine ⟨_, exec_swapInDone ecc h hc hs, fun k hk => ?_, fun k hk => ?_, fun hj => ?_, fun hj => ?_, fun he => ?_, fun k he => ?_⟩
    · rw [hkram, hram]
      exact hin k hk
    · rw [hkram, hram]
      exact hout k hk
    · rw [assignChans_guest, if_neg (by rw [swappedIn_guest]; exact Nat.not_le.mpr hj), swappedIn_guest]
      exact ⟨rfl, hs⟩
    · rw [assignChans_guest, if_pos (by rw [swappedIn_guest]; exact hj)]
      exact resumeRow_guest g _
    · subst he
      rw [hkmem, hkquar, swappedIn_mem, swappedIn_quarG_ok]
      exact ⟨rfl, rfl⟩
    · subst he
      rw [hkmem, hkquar, swappedIn_mem, swappedIn_quarG_ded]
      exact ⟨rfl, rfl, rfl⟩
  · refine ⟨?_, ?_, ?_⟩
    · show execRoomZeroed r s = _
      simp [execRoomZeroed, h]
    · show execCellarWritebackDone g s = _
      simp [execCellarWritebackDone, h]
    · exact congrArg Host.Outcome.next (if_neg (by simp [h]))

end Sys2Proof.Machine
end

section
/-! What a revoked lease does to its owner (spec 06, 07). -/

namespace Sys2Proof.Machine

/-! ### Nothing that waits -/

/-- A queue with nothing held back, no record in a route and no delivery stored admits nothing. -/
theorem admitHeld_of_nothing {cut : Bool} {s : State} (hh : s.evq.held = []) (hr : s.cch.routes = []) (hst : s.ldr.store = []) :
    admitHeld cut s = s := by
  have hevq : (s.onEvq fun q => { q with held := [] }) = s := by
    show { s with evq := { s.evq with held := [] } } = s
    rw [← hh]
  unfold admitHeld
  simp only [hh, hevq, State.forEach_nil]
  unfold drainRoutes postStored
  simp only [hr, List.filter_nil, State.forEach_nil, hst]

/-! ### The bundle of a revoked lease -/

/-- A bundle that is put up for quarantine. -/
def pended (cause : Nat) (p : Plan) : Plan := { p with pendQuar := if p.quar then p.pendQuar else some (p.pendQuar.getD cause) }

theorem pendBundle_plan? {n : String} {cause : Nat} {s : State} {q : Plan} (hq : s.plan? n = some q) (hn : q.quar = false) (hp : q.pendQuar = none) :
    ((pendBundle n cause s).plan? n).bind (·.pendQuar) = some cause := by
  have hf : (pendBundle n cause s).plan? n = (s.plan? n).map (pended cause) := s.onPlan_plan? n (by intro; rfl)
  rw [hf, hq]
  simp [pended, hn, hp]

/-- No bundle of that name wants a port once it is put up for quarantine. -/
theorem portWanted_pendBundle {n : String} {cause k : Nat} {s : State} {w : Nat × String} (h : portWanted (pendBundle n cause s) k = some w) :
    w.2 ≠ n := by
  unfold portWanted at h
  split at h
  next t u row ht =>
    obtain ⟨p, hp, hw⟩ := Option.bind_eq_some_iff.mp h
    split at hw
    next => cases hw
    next hfree =>
      obtain ⟨e, -, rfl⟩ := Option.map_eq_some_iff.mp hw
      rintro rfl
      have hmem : p ∈ s.weave.plans.map fun q => if q.name == p.name then pended cause q else q := List.mem_of_find?_eq_some hp
      obtain ⟨q, -, hq⟩ := List.mem_map.mp hmem
      split at hq
      next =>
        apply hfree
        rw [← hq]
        cases hquar : q.quar <;> simp [pended, hquar]
      next hname =>
        subst hq
        simp at hname
  next => cases h

theorem mem_tset {α : Type} {t : Tab α} {k : Nat} {v : α} {e : Nat × α} (h : e ∈ tset t k v) : e = (k, v) ∨ e ∈ t := by
  induction t with
  | nil => simpa [tset] using h
  | cons x r ih =>
    obtain ⟨j, w⟩ := x
    rw [tset] at h
    split at h
    · simpa using h
    split at h
    · rcases List.mem_cons.mp h with rfl | h
      · exact .inl rfl
      · exact .inr (List.mem_cons_of_mem _ h)
    · rcases List.mem_cons.mp h with rfl | h
      · exact .inr List.mem_cons_self
      · exact (ih h).imp id (List.mem_cons_of_mem _)

theorem mem_leasePort {t : Tab (Nat × String)} {k : Nat} {w : Nat × String} {e : Nat × Nat × String} (h : e ∈ leasePort t k w) :
    e.2 = (k, w.2) ∨ e ∈ t := by
  unfold leasePort at h
  split at h
  · exact .inr h
  split at h
  · exact (mem_tset h).imp (fun he => by rw [he]) id
  · exact .inr h

/-- After the bank ports are settled each is leased for a stake that wants one, and for its bundle. -/
theorem settlePorts_wanted {s : State} {e : Nat × Nat × String} (h : e ∈ (settlePorts s).inn.ports) :
    ∃ w, portWanted s e.2.1 = some w ∧ w.2 = e.2.2 := by
  unfold settlePorts at h
  extract_lets want at h
  have hwant : ∀ x ∈ want, portWanted s x.1 = some x.2 := by
    intro x hx
    obtain ⟨k, -, hk⟩ := List.mem_filterMap.mp hx
    obtain ⟨w, hw, rfl⟩ := Option.map_eq_some_iff.mp hk
    exact hw
  have hfold : ∀ (l : List (Nat × Nat × String)) (t : Tab (Nat × String)), (∀ x ∈ l, portWanted s x.1 = some x.2) →
      (∀ e ∈ t, ∃ w, portWanted s e.2.1 = some w ∧ w.2 = e.2.2) →
      ∀ e ∈ l.foldl (fun t w => leasePort t w.1 w.2) t, ∃ w, portWanted s e.2.1 = some w ∧ w.2 = e.2.2 := by
    intro l
    induction l with
    | nil => exact fun _ _ ht => ht
    | cons x r ih =>
      intro t hl ht
      refine ih _ (fun y hy => hl y (List.mem_cons_of_mem x hy)) fun e he => ?_
      rcases mem_leasePort he with he | he
      · exact ⟨x.2, by rw [he]; exact hl x List.mem_cons_self, by rw [he]⟩
      · exact ht e he
  refine hfold want _ hwant (fun e he => ?_) e h
  have hc := (List.mem_filter.mp he).2
  exact ⟨(e.1 / 4, e.2.2), hwant (e.2.1, e.1 / 4, e.2.2) (by simpa using hc), rfl⟩

/-! ### The note of a revocation -/

section

variable (res : String) (kind idx : Nat) (owner id : String) (okind oid : Nat) (s : State)

@[simp] theorem revokeNote_inn : (revokeNote res kind idx owner id okind oid s).inn = { s.inn with cRevoke := satInc s.inn.cRevoke } := by
  simp [revokeNote]

@[simp] theorem revokeNote_weave : (revokeNote res kind idx owner id okind oid s).weave = s.weave := by simp [revokeNote]
@[simp] theorem revokeNote_ram : (revokeNote res kind idx owner id okind oid s).ram = s.ram := by simp [revokeNote]
@[simp] theorem revokeNote_evq : (revokeNote res kind idx owner id okind oid s).evq = s.evq := by simp [revokeNote]
@[simp] theorem revokeNote_cch : (revokeNote res kind idx owner id okind oid s).cch = s.cch := by simp [revokeNote]
@[simp] theorem revokeNote_ldr : (revokeNote res kind idx owner id okind oid s).ldr = s.ldr := by simp [revokeNote]

theorem revokeNote_plan? (n : String) : (revokeNote res kind idx owner id okind oid s).plan? n = s.plan? n := by
  unfold State.plan?
  rw [revokeNote_weave]

end

/-! ### A cellar channel -/

theorem mem_takeChans {g lo hi n : Nat} {s : State} {e : Nat × Nat} (h : e ∈ (takeChans g lo hi n s).inn.chans) : e.2 = g ∨ e ∈ s.inn.chans := by
  have hfold : ∀ (l : List Nat) (c : Tab Nat), e ∈ l.foldl (fun t c => tset t c g) c → e.2 = g ∨ e ∈ c := by
    intro l
    induction l with
    | nil => exact fun _ h => .inr h
    | cons a r ih =>
      intro c h
      rcases ih _ h with h | h
      · exact .inl h
      · exact (mem_tset h).imp (fun he => by rw [he]) id
  exact hfold _ _ h

/-- One waiting guest's share of the free channels. -/
def giveChans (g : Nat) (s : State) : State :=
  let x := s.guest g
  let has := (s.inn.chans.filter fun e => e.2 == g).length
  if x.swapping then takeChans g 0 5 (x.join - x.filled - has) s else takeChans g 6 7 ((roomsToWrite s x).length - has) s

theorem mem_giveChans {g : Nat} {s : State} {e : Nat × Nat} (h : e ∈ (giveChans g s).inn.chans) : e.2 = g ∨ e ∈ s.inn.chans := by
  simp only [giveChans] at h
  split at h
  · exact mem_takeChans h
  · exact mem_takeChans h

/-- The channels given out go to guests that wait, none of which is up for quarantine. -/
theorem assignChans_chans {s : State} {e : Nat × Nat} (h : e ∈ (assignChans s).inn.chans) : e ∈ s.inn.chans ∨ ∀ q ∈ s.inn.quarG, q.1 ≠ e.2 := by
  unfold assignChans at h
  extract_lets waiting at h
  have hwait : ∀ g ∈ waiting.map (·.1), ∀ q ∈ s.inn.quarG, q.1 ≠ g := by
    intro g hg q hq hqg
    obtain ⟨x, hx, rfl⟩ := List.mem_map.mp hg
    have hnot := (List.mem_filter.mp hx).2
    simp only [Bool.and_eq_true, Bool.not_eq_true', List.any_eq_false, beq_iff_eq] at hnot
    exact hnot.2 q hq hqg
  have hloop : ∀ (l : List Nat) (t : State), (∀ g ∈ l, ∀ q ∈ s.inn.quarG, q.1 ≠ g) →
      e ∈ (t.forEach l giveChans).inn.chans → e ∈ t.inn.chans ∨ ∀ q ∈ s.inn.quarG, q.1 ≠ e.2 := by
    intro l
    induction l with
    | nil => exact fun _ _ h => .inl h
    | cons g r ih =>
      intro t hl he
      rcases ih (giveChans g t) (fun k hk => hl k (List.mem_cons_of_mem _ hk)) he with he | he
      · rcases mem_giveChans he with hg | he
        · exact .inr (hg ▸ hl g List.mem_cons_self)
        · exact .inl he
      · exact .inr he
  exact hloop _ s hwait h

theorem assignChans_weave (s : State) : (assignChans s).weave = s.weave := weave_of_besideRooms (assignChans_besideRooms s)

/-! ### A fetch slot -/

/-- A slot that nothing waits on is released; with no route in Coach that is all. -/
theorem releaseSlot_free {n : Nat} {f : Fetch} {s : State} (hs : s.ldr.slots = [(n, f)]) (hv : s.ldr.serving = []) (hr : s.cch.routes = []) :
    releaseSlot n f s = s.onLdr fun l => { l with slots := [] } := by
  have hdel : tdel s.ldr.slots n = [] := by simp [hs, tdel]
  have hadd : satAdd s.ldr.cMiss 0 = s.ldr.cMiss := by simp [satAdd, s.ldr.cMiss.isLt]
  have hcch : ∀ t : State, t.cch.routes = [] → (t.onCch fun c => { c with routes := c.routes.map fun e => (e.1, { e.2 with
      sendq := e.2.sendq.map fun w => if w.larder = some n then { w with larder := some 64 } else w }) }) = t := by
    intro t ht
    show { t with cch := { t.cch with routes := _ } } = t
    rw [ht, List.map_nil, ← ht]
  have hldr : (s.onLdr fun l => { l with slots := tdel l.slots n, cMiss := satAdd l.cMiss 0 }) = s.onLdr fun l => { l with slots := [] } := by
    show { s with ldr := { s.ldr with slots := tdel s.ldr.slots n, cMiss := satAdd s.ldr.cMiss 0 } } = _
    rw [hdel, hadd]
    rfl
  unfold releaseSlot
  simp only [hv, List.filter_nil, State.forEach_nil, List.length_nil, hldr]
  exact hcch _ hr

/-- The delivery that waits on a released slot is a miss. -/
theorem releaseSlot_missed {n : Nat} {f : Fetch} {x : Serve} {s : State} (hs : s.ldr.slots = [(n, f)]) (hv : s.ldr.serving = [x])
    (ht : x.req.table = f.table) (hw : x.wait = [f.row]) :
    (releaseSlot n f s).ldr.serving = [] ∧ (releaseSlot n f s).ldr.slots = [] ∧ (releaseSlot n f s).ldr.cMiss = satAdd s.ldr.cMiss 1 ∧
      (releaseSlot n f s).ldr.store = s.ldr.store ∧ (releaseSlot n f s).evq = s.evq ∧ (s.cch.routes = [] → (releaseSlot n f s).cch.routes = []) := by
  have hgone : (s.ldr.serving.filter fun x => x.req.table == f.table && x.wait.contains f.row) = [x] := by simp [hv, ht, hw]
  have hsame : x.same x = true := by simp [Serve.same]
  unfold releaseSlot
  simp only [hgone, State.forEach_cons, State.forEach_nil, List.length_cons, List.length_nil]
  refine ⟨?_, ?_, rfl, rfl, rfl, fun h => ?_⟩
  · show s.ldr.serving.filter _ = []
    simp [hv, hsame]
  · show tdel s.ldr.slots n = []
    simp [hs, tdel]
  · show s.cch.routes.map _ = []
    rw [h, List.map_nil]

section

variable {s : State} (hh : s.evq.held = []) (hr : s.cch.routes = []) (hst : s.ldr.store = [])
include hh hr hst

/-- A revocation's note admits nothing where nothing waits. -/
theorem admitHeld_revokeNote (res : String) (kind idx : Nat) (owner id : String) (okind oid : Nat) :
    admitHeld false (revokeNote res kind idx owner id okind oid s) = revokeNote res kind idx owner id okind oid s :=
  admitHeld_of_nothing (by simpa using hh) (by simpa using hr) (by simpa using hst)

end

/-- The bundle whose slot is revoked: put up for quarantine, its ports given back, and noted. -/
def slotBundle (n : Nat) (plan : String) (s : State) : State :=
  revokeNote "slot" 3 n "bundle" plan 0 (rowZero s plan) (settlePorts (pendBundle plan 3 s))

/-- What a revoked slot does after its release. -/
theorem exec_leaseRevoke_slot {n : Nat} {f : Fetch} {s : State} (h : s.on 10 = true) (hs : tget s.ldr.slots n = some f) :
    exec (.leaseRevoke (.slot n)) s = .next (match f.route with
      | some r => admitHeld false (revokeNote "slot" 3 n "route" (natS r) 2 r (releaseSlot n f s))
      | none => admitHeld false (slotBundle n ((releaseSlot n f s).guest f.guest).plan (releaseSlot n f s))) := by
  show execLeaseRevoke (.slot n) s = _
  rw [execLeaseRevoke, if_pos h]
  simp only [hs]
  rfl

section

variable (n : Nat) (plan : String) (s : State)

theorem slotBundle_ldr : (slotBundle n plan s).ldr = s.ldr := by simp [slotBundle, settlePorts, pendBundle]
theorem slotBundle_cch : (slotBundle n plan s).cch = s.cch := by simp [slotBundle, settlePorts, pendBundle]
theorem slotBundle_evq : (slotBundle n plan s).evq = s.evq := by simp [slotBundle, settlePorts, pendBundle]
theorem slotBundle_cRevoke : (slotBundle n plan s).inn.cRevoke = satInc s.inn.cRevoke := by simp [slotBundle, settlePorts, pendBundle]

theorem slotBundle_plan? (m : String) : (slotBundle n plan s).plan? m = (pendBundle plan 3 s).plan? m := revokeNote_plan? _ _ _ _ _ _ _ _ _

end

/-- What a revoked slot leaves behind, where nothing waits for the Larder once it is released. -/
theorem leaseRevoke_slot {n : Nat} {f : Fetch} {s : State} (h : s.on 10 = true) (hs : tget s.ldr.slots n = some f)
    (hh : (releaseSlot n f s).evq.held = []) (hr : (releaseSlot n f s).cch.routes = []) (hst : (releaseSlot n f s).ldr.store = []) :
    Gives (.leaseRevoke (.slot n)) s fun t => t.inn.cRevoke = satInc (releaseSlot n f s).inn.cRevoke ∧ t.ldr = (releaseSlot n f s).ldr ∧
      (f.route ≠ none → t.weave = (releaseSlot n f s).weave) ∧
      (f.route = none → ∀ m, t.plan? m = (pendBundle ((releaseSlot n f s).guest f.guest).plan 3 (releaseSlot n f s)).plan? m) := by
  have hexec := exec_leaseRevoke_slot h hs
  generalize releaseSlot n f s = u at hexec hh hr hst ⊢
  cases hroute : f.route with
  | some r =>
    rw [hroute] at hexec
    simp only [admitHeld_revokeNote hh hr hst] at hexec
    exact ⟨_, hexec, by simp, by simp, fun _ => by simp, fun hn => by cases hn⟩
  | none =>
    rw [hroute] at hexec
    have hadmit : admitHeld false (slotBundle n (u.guest f.guest).plan u) = slotBundle n (u.guest f.guest).plan u :=
      admitHeld_of_nothing (by rw [slotBundle_evq, hh]) (by rw [slotBundle_cch, hr]) (by rw [slotBundle_ldr, hst])
    simp only [hadmit] at hexec
    exact ⟨_, hexec, slotBundle_cRevoke _ _ _, slotBundle_ldr _ _ _, fun hn => absurd rfl hn, fun _ m => slotBundle_plan? _ _ _ m⟩

/-- A revoked port: its bundle is put up for quarantine and keeps no port. -/
theorem leaseRevoke_port {b k z : Nat} {q : Plan} {s : State} (h : s.on 10 = true) (hp : tget s.inn.ports (4 * b + k) = some (z, q.name))
    (hq : s.plan? q.name = some q) (hn : q.quar = false) (hpd : q.pendQuar = none) :
    Gives (.leaseRevoke (.port b k)) s fun t => t.inn.cRevoke = satInc s.inn.cRevoke ∧
      (t.plan? q.name).bind (·.pendQuar) = some 2 ∧ (∀ e ∈ t.inn.ports, e.2.2 ≠ q.name) ∧ t.inn.guests = s.inn.guests ∧ t.ram = s.ram := by
  have hexec : exec (.leaseRevoke (.port b k)) s =
      .next (revokeNote "port" 1 (4 * b + k) "bundle" q.name 0 (rowZero s q.name) (settlePorts (pendBundle q.name 2 s))) := by
    show execLeaseRevoke (.port b k) s = _
    rw [execLeaseRevoke, if_pos h]
    simp only [hp]
  refine ⟨_, hexec, ?_, ?_, fun e he => ?_, ?_, ?_⟩
  · rw [revokeNote_inn]
    rfl
  · rw [revokeNote_plan?]
    exact pendBundle_plan? hq hn hpd
  · rw [revokeNote_inn] at he
    obtain ⟨w, hw, hwe⟩ := settlePorts_wanted he
    rw [← hwe]
    exact portWanted_pendBundle hw
  · rw [revokeNote_inn]
    rfl
  · rw [revokeNote_ram]
    rfl

/-- A revoked cellar channel: its guest is put up for quarantine and keeps no channel. -/
theorem leaseRevoke_cellar {ch g : Nat} {s : State} (h : s.on 10 = true) (hc : tget s.inn.chans ch = some g) :
    Gives (.leaseRevoke (.cellar ch)) s fun t =>
      t.inn.cRevoke = satInc s.inn.cRevoke ∧ t.inn.quarG = s.inn.quarG ++ [(g, 4)] ∧ (∀ e ∈ t.inn.chans, e.2 ≠ g) ∧
      t.inn.guests = s.inn.guests ∧ t.weave = s.weave := by
  have hexec : exec (.leaseRevoke (.cellar ch)) s = .next (revokeNote "cellar" 2 ch "guest" (natS g) 1 g (assignChans
      (s.onInn fun i => { i with chans := i.chans.filter fun e => e.2 != g, quarG := i.quarG ++ [(g, 4)] }))) := by
    show execLeaseRevoke (.cellar ch) s = _
    rw [execLeaseRevoke, if_pos h]
    simp only [hc]
  have hinn := assignChans_besideChans (s.onInn fun i => { i with chans := i.chans.filter fun e => e.2 != g, quarG := i.quarG ++ [(g, 4)] })
  refine ⟨_, hexec, ?_, ?_, fun e he => ?_, ?_, ?_⟩
  · rw [revokeNote_inn]
    exact congrArg satInc ((besideChans_cRevoke hinn).trans rfl)
  · rw [revokeNote_inn]
    exact (besideChans_quarG hinn).trans rfl
  · rw [revokeNote_inn] at he
    rcases assignChans_chans he with he | he
    · simpa using (List.mem_filter.mp he).2
    · exact (he (g, 4) (List.mem_append_right _ (List.mem_singleton_self _))).symm
  · rw [revokeNote_inn]
    exact (besideChans_guests hinn).trans rfl
  · rw [revokeNote_weave, assignChans_weave]
    rfl

/-- Settles O33: ports, channels and slots by the three lemmas on what their revocation leaves. -/
theorem leases : Obligations.Leases := by
  unfold Obligations.Leases
  refine ⟨fun b k z q s h hp hq hn hpd => leaseRevoke_port h hp hq hn hpd, fun ch g s h hc => leaseRevoke_cellar h hc,
    fun n f s h hs hv hst hh hr => ?_, fun n f x s h hs hv ht hw hst hh hr => ?_, fun b k ch n s => ⟨fun hn => ?_, fun hn => ?_, fun hn => ?_⟩,
    fun l s h => ?_⟩
  · have hrel := releaseSlot_free (f := f) hs hv hr
    obtain ⟨t, hexec, hrev, hldr, hweave, hplan⟩ := leaseRevoke_slot (n := n) (f := f) h (by simp [hs, tget]) (by rw [hrel]; exact hh)
      (by rw [hrel]; exact hr) (by rw [hrel]; exact hst)
    rw [hrel] at hrev hldr hweave hplan
    refine ⟨t, hexec, hrev, by rw [hldr]; rfl, by rw [hldr]; rfl, hweave, fun q hf hq hn hpd => ?_⟩
    have hname : q.name = (s.guest f.guest).plan := by simpa using List.find?_some hq
    rw [hplan hf, hname]
    exact pendBundle_plan? (s := s.onLdr fun l => { l with slots := [] }) hq hn hpd
  · obtain ⟨hserv, hslots, hmiss, hstore, hevq, hroutes⟩ := releaseSlot_missed hs hv ht hw
    obtain ⟨t, hexec, -, hldr, -, -⟩ := leaseRevoke_slot (n := n) (f := f) h (by simp [hs, tget]) (by rw [hevq]; exact hh) (hroutes hr)
      (by rw [hstore]; exact hst)
    exact ⟨t, hexec, by rw [hldr]; exact hserv, by rw [hldr]; exact hslots, by rw [hldr]; exact hmiss⟩
  · show execLeaseRevoke (.port b k) s = _
    simp [execLeaseRevoke, hn]
  · show execLeaseRevoke (.cellar ch) s = _
    simp [execLeaseRevoke, hn]
  · show execLeaseRevoke (.slot n) s = _
    simp [execLeaseRevoke, hn]
  · show execLeaseRevoke l s = _
    simp [execLeaseRevoke, h]

end Sys2Proof.Machine
end

section
/-! Rounds (spec 05 R194 to R208, 06 R271): their start, the jobs of a round, and a double-bit error. -/

namespace Sys2Proof.Machine

/-! ### What the work of a round leaves alone -/

/-- What no job of a round reaches: the tally, the power registers, the jobs outstanding, and the error and overrun counts of the stakes. -/
def State.workKept (s : State) := (s.tly, s.pwr, s.weave.todo, fun k => ((s.stake k).sec, (s.stake k).ovr))

/-- What neither idle rows nor the rounds' bookkeeping reach: the queue, the round's number, and the guests' mutes. -/
def State.idleKept (s : State) := (s.evq, s.inn.round, fun g => (s.guest g).mute)

section

variable (s : State)

@[simp] theorem State.onCch_workKept (f : CchSt → CchSt) : (s.onCch f).workKept = s.workKept := rfl
@[simp] theorem State.onCch_idleKept (f : CchSt → CchSt) : (s.onCch f).idleKept = s.idleKept := rfl
@[simp] theorem State.onRing_workKept (k : Nat) (f : Ring → Ring) : (s.onRing k f).workKept = s.workKept := rfl
@[simp] theorem State.onRing_idleKept (k : Nat) (f : Ring → Ring) : (s.onRing k f).idleKept = s.idleKept := rfl
@[simp] theorem State.onRoute_workKept (k : Nat) (f : Route → Route) : (s.onRoute k f).workKept = s.workKept := rfl
@[simp] theorem State.onRoute_idleKept (k : Nat) (f : Route → Route) : (s.onRoute k f).idleKept = s.idleKept := rfl
@[simp] theorem State.onDesk_workKept (f : DeskSt → DeskSt) : (s.onDesk f).workKept = s.workKept := rfl
@[simp] theorem State.onDesk_idleKept (f : DeskSt → DeskSt) : (s.onDesk f).idleKept = s.idleKept := rfl
@[simp] theorem State.onInn_workKept (f : InnSt → InnSt) : (s.onInn f).workKept = s.workKept := rfl
@[simp] theorem State.onWeave_idleKept (f : WeaveSt → WeaveSt) : (s.onWeave f).idleKept = s.idleKept := rfl
@[simp] theorem State.onStake_idleKept (k : Nat) (f : Stake → Stake) : (s.onStake k f).idleKept = s.idleKept := rfl
@[simp] theorem State.onPlan_workKept (n : String) (f : Plan → Plan) : (s.onPlan n f).workKept = s.workKept := rfl
@[simp] theorem State.onPlan_idleKept (n : String) (f : Plan → Plan) : (s.onPlan n f).idleKept = s.idleKept := rfl
@[simp] theorem State.onGuest_workKept (g : Nat) (f : Guest → Guest) : (s.onGuest g f).workKept = s.workKept := rfl

theorem State.onGuest_idleKept {f : Guest → Guest} (h : ∀ x, (f x).mute = x.mute) (g : Nat) : (s.onGuest g f).idleKept = s.idleKept := by
  have hm : (fun k => ((s.onGuest g f).guest k).mute) = fun k => (s.guest k).mute := by
    funext k
    by_cases hk : k = g
    · rw [hk, State.onGuest_guest, h]
    · rw [State.onGuest_guest_ne s g k f hk]
  exact congrArg (fun m => (s.evq, s.inn.round, m)) hm

theorem State.onStake_workKept {f : Stake → Stake} (h : ∀ x, (f x).sec = x.sec ∧ (f x).ovr = x.ovr) (k : Nat) :
    (s.onStake k f).workKept = s.workKept := by
  have hm : (fun i => (((s.onStake k f).stake i).sec, ((s.onStake k f).stake i).ovr)) = fun i => ((s.stake i).sec, (s.stake i).ovr) := by
    funext i
    by_cases hk : i = k
    · rw [hk, State.onStake_stake, (h _).1, (h _).2]
    · rw [State.onStake_stake_ne s k i f hk]
  exact congrArg (fun m => (s.tly, s.pwr, s.weave.todo, m)) hm

theorem workKept_of_besideRooms {t : State} (h : t.besideRooms = s.besideRooms) : t.workKept = s.workKept :=
  (congrArg State.workKept h : t.besideRooms.workKept = s.besideRooms.workKept)

theorem OnlyDesk.workKept {t : State} (h : OnlyDesk s t) : t.workKept = s.workKept := by
  unfold OnlyDesk at h
  rw [h, State.onDesk_workKept]

theorem OnlyDesk.idleKept {t : State} (h : OnlyDesk s t) : t.idleKept = s.idleKept := by
  unfold OnlyDesk at h
  rw [h, State.onDesk_idleKept]

@[simp] theorem logEv_workKept (src code evseq arg arg2 : Nat) : (logEv src code evseq arg arg2 s).workKept = s.workKept := by
  simp [State.workKept, State.stake]

end

/-! ### Posting a waybill touches Coach alone -/

/-- The state without Coach. -/
def State.besideCoach (s : State) : State := { s with cch := {} }

theorem finishHead_besideCoach (r status : Nat) (s : State) : (finishHead r status s).besideCoach = s.besideCoach := by
  unfold finishHead
  split
  · rfl
  · extract_lets x ok u w
    split <;> rfl

theorem flushAll_besideCoach (fuel r status : Nat) (s : State) : (flushAll fuel r status s).besideCoach = s.besideCoach := by
  induction fuel generalizing s with
  | zero => rfl
  | succ f ih =>
    rw [flushAll]
    split
    · rfl
    · rw [ih, finishHead_besideCoach]

theorem postWaybill_besideCoach (r : Nat) (w : Waybill) (s : State) : (postWaybill r w s).besideCoach = s.besideCoach := by
  unfold postWaybill
  extract_lets x a b c
  split
  · rw [flushAll_besideCoach]
    rfl
  · rfl

@[simp] theorem postWaybill_workKept (r : Nat) (w : Waybill) (s : State) : (postWaybill r w s).workKept = s.workKept :=
  (congrArg State.workKept (postWaybill_besideCoach r w s) : (postWaybill r w s).besideCoach.workKept = s.besideCoach.workKept)

@[simp] theorem postWaybill_idleKept (r : Nat) (w : Waybill) (s : State) : (postWaybill r w s).idleKept = s.idleKept :=
  (congrArg State.idleKept (postWaybill_besideCoach r w s) : (postWaybill r w s).besideCoach.idleKept = s.besideCoach.idleKept)

theorem postRecord_eq (p : Plan) (h : Hop) (n row : Nat) (bytes : List Byte) (s : State) :
    postRecord p h n row bytes s = s ∨ ∃ r w, postRecord p h n row bytes s = postWaybill r w s := by
  unfold postRecord
  split
  · dsimp only
    split
    · exact .inr ⟨_, _, rfl⟩
    · exact .inl rfl
  · exact .inl rfl

@[simp] theorem postRecord_workKept (p : Plan) (h : Hop) (n row : Nat) (bytes : List Byte) (s : State) :
    (postRecord p h n row bytes s).workKept = s.workKept := by
  obtain hp | ⟨r, w, hp⟩ := postRecord_eq p h n row bytes s <;> simp [hp]

@[simp] theorem postRecord_idleKept (p : Plan) (h : Hop) (n row : Nat) (bytes : List Byte) (s : State) :
    (postRecord p h n row bytes s).idleKept = s.idleKept := by
  obtain hp | ⟨r, w, hp⟩ := postRecord_eq p h n row bytes s <;> simp [hp]

@[simp] theorem postRecords_workKept (p : Plan) (i n g : Nat) (code : StepCode) (mute : Bool) (s : State) :
    (postRecords p i n g code mute s).workKept = s.workKept := by
  unfold postRecords
  extract_lets x
  split
  · exact State.forEach_keeps s State.workKept _ _ fun _ _ => postRecord_workKept ..
  · rfl

@[simp] theorem postRecords_idleKept (p : Plan) (i n g : Nat) (code : StepCode) (mute : Bool) (s : State) :
    (postRecords p i n g code mute s).idleKept = s.idleKept := by
  unfold postRecords
  extract_lets x
  split
  · exact State.forEach_keeps s State.idleKept _ _ fun _ _ => postRecord_idleKept ..
  · rfl

@[simp] theorem pushResult_idleKept (g : Nat) (vals : List W32) (mute : Bool) (s : State) : (pushResult g vals mute s).idleKept = s.idleKept :=
  State.onGuest_idleKept s (by intro; rfl) g

@[simp] theorem releaseRow_workKept (g : Nat) (s : State) : (releaseRow g s).workKept = s.workKept := by
  unfold releaseRow
  split
  · exact workKept_of_besideRooms s (by simp)
  · exact workKept_of_besideRooms s (by simp)

@[simp] theorem raiseDrift_workKept (p : Plan) (i stake slot : Nat) (ly : Layer) (s : State) :
    (raiseDrift p i stake slot ly s).workKept = s.workKept := by
  unfold raiseDrift
  split
  · split
    · rfl
    · simp [(notify_only _ _ _).workKept]
  · rfl

@[simp] theorem afterJob_workKept (p : Plan) (i g : Nat) (r : StepRec) (s : State) : (afterJob p i g r s).workKept = s.workKept := by
  unfold afterJob
  extract_lets x n u w
  have hu : u.workKept = s.workKept := by
    simp only [u]
    split
    · split <;> rfl
    · rfl
  split <;> simp [w, hu]

/-- A completed job changes neither the jobs outstanding nor a stake's error counts. -/
theorem completeJob_workKept (stake slot row : Nat) (s : State) : (completeJob stake slot row s).workKept = s.workKept := by
  unfold completeJob
  split
  · rfl
  · split
    · split
      · split
        extract_lets o a b clips c d
        have hc : c.workKept = s.workKept := State.onStake_workKept b (by intro; exact ⟨rfl, rfl⟩) stake
        have hd : d.workKept = s.workKept := by
          simp only [d]
          split <;> simp [hc]
        simp [hd]
      · rfl
    · rfl

/-! ### A row's job -/

theorem settlePorts_workKept (s : State) : (settlePorts s).workKept = s.workKept := rfl

/-- The state in which the job a stake is at completes: the job no longer outstanding, its corrected errors counted. -/
def jobTaken (k j r n : Nat) (s : State) : State :=
  (s.onWeave fun w => { w with todo := w.todo.filter fun e => e != (k, j, r) }).onStake k fun x => { x with sec := satAdd x.sec n }

theorem exec_rowJobComplete {k j r : Nat} (n : Nat) {s : State} (h : s.weave.todo.find? (fun e => e.1 == k) = some (k, j, r)) :
    exec (.rowJobComplete k j r n) s = .next (settlePorts (completeJob k j r (jobTaken k j r n s))) := by
  show execRowJobComplete k j r n s = _
  rw [execRowJobComplete, if_pos h]
  rfl

theorem jobTaken_stake (k j r n : Nat) (s : State) :
    (jobTaken k j r n s).stake k = { s.stake k with sec := satAdd (s.stake k).sec n } := State.onStake_stake _ k _

/-! ### Jobs abandoned -/

/-- The job's stake counts an overrun, and its row is noted. -/
def abandonJob (e : Nat × Nat × Nat) (s : State) : State :=
  let u := s.onStake e.1 fun k => { k with ovr := satInc k.ovr }
  match (u.planAt e.1).bind fun p => u.guestOfRow p.name e.2.2 with
  | some (g, _) => u.onWeave fun w => { w with abandoned := if w.abandoned.contains g then w.abandoned else w.abandoned ++ [g] }
  | none => u

theorem abandonRest_eq (s : State) : abandonRest s = (s.forEach s.weave.todo abandonJob).onWeave fun w => { w with todo := [] } := rfl

theorem abandonJob_kept (e : Nat × Nat × Nat) (s : State) :
    (abandonJob e s).tly = s.tly ∧ (abandonJob e s).inn = s.inn ∧ (abandonJob e s).weave.plans = s.weave.plans := by
  simp only [abandonJob]
  split <;> exact ⟨rfl, rfl, rfl⟩

theorem abandonJob_stake (e : Nat × Nat × Nat) (s : State) :
    (abandonJob e s).stake e.1 = { s.stake e.1 with ovr := satInc (s.stake e.1).ovr } := by
  have hu := State.onStake_stake s e.1 fun k => { k with ovr := satInc k.ovr }
  simp only [abandonJob]
  split <;> exact hu

theorem abandonRest_kept (s : State) :
    (abandonRest s).weave.todo = [] ∧ (abandonRest s).tly = s.tly ∧ (abandonRest s).inn = s.inn ∧ (abandonRest s).weave.plans = s.weave.plans :=
  ⟨rfl, State.forEach_keeps s State.tly _ _ fun e t => (abandonJob_kept e t).1, State.forEach_keeps s State.inn _ _ fun e t => (abandonJob_kept e t).2.1,
    State.forEach_keeps s (fun t => t.weave.plans) _ _ fun e t => (abandonJob_kept e t).2.2⟩

/-- Without an outstanding job no stake holds a port. -/
theorem settlePorts_of_noJobs {s : State} (h : s.weave.todo = []) : (settlePorts s).inn = { s.inn with ports := [] } := by
  have hw : ∀ k, portWanted s k = none := fun k => by
    unfold portWanted
    rw [h]
    rfl
  have hnone : ((List.range 48).filterMap fun k => (portWanted s k).map fun w => (k, w)) = [] := by
    rw [List.filterMap_eq_nil_iff]
    intro k _
    rw [hw k]
    rfl
  unfold settlePorts
  rw [hnone]
  simp

/-! ### A double-bit error -/

theorem releaseSlot_kept (n : Nat) (f : Fetch) (s : State) :
    (releaseSlot n f s).weave = s.weave ∧ (releaseSlot n f s).inn = s.inn := by
  unfold releaseSlot
  extract_lets gone u
  exact ⟨State.forEach_keeps s State.weave _ _ fun _ _ => rfl, State.forEach_keeps s State.inn _ _ fun _ _ => rfl⟩

theorem releaseSlots_weave (n : String) (s : State) : (releaseSlots n s).weave = s.weave :=
  State.forEach_keeps s State.weave _ _ fun e t => (releaseSlot_kept e.1 e.2 t).1

theorem releaseSlots_inn (n : String) (s : State) : (releaseSlots n s).inn = s.inn :=
  State.forEach_keeps s State.inn _ _ fun e t => (releaseSlot_kept e.1 e.2 t).2

/-- What a port is wanted for rests on the rounds and the guests alone. -/
theorem portWanted_congr {s t : State} (hw : t.weave = s.weave) (hi : t.inn = s.inn) (k : Nat) : portWanted t k = portWanted s k := by
  unfold portWanted State.planAt State.guestOfRow State.rowsOf
  rw [hw, hi]

theorem undoJob_kept (p : Plan) (i g : Nat) (old : LayerRow) (s : State) :
    (undoJob p i g old s).weave = s.weave ∧ (undoJob p i g old s).inn.rooms = s.inn.rooms := by
  unfold undoJob
  split <;> exact ⟨rfl, rfl⟩

theorem undoJobs_kept (k j : Nat) (p : Plan) (s : State) :
    (undoJobs k j p s).weave = s.weave ∧ (undoJobs k j p s).inn.rooms = s.inn.rooms := by
  unfold undoJobs
  split
  · extract_lets l
    exact ⟨State.forEach_keeps s State.weave _ _ fun _ t => (undoJob_kept ..).1,
      State.forEach_keeps s (fun t => t.inn.rooms) _ _ fun _ t => (undoJob_kept ..).2⟩
  · exact ⟨rfl, rfl⟩

/-- The row's layer is again as it was before the job, where the row is still in the rounds. -/
theorem undoJob_layers {p : Plan} {i g : Nat} {old : LayerRow} {s : State} (h : (s.guest g).inRounds = true) :
    ((undoJob p i g old s).guest g).layers = (s.guest g).layers.set i old := by
  unfold undoJob
  rw [if_pos h, State.onGuest_guest]

theorem undoJobs_single {k j i g : Nat} {p : Plan} {ly : Layer} {old : LayerRow} {s : State} (hl : (layersOn p (k - p.base))[j]? = some (i, ly))
    (hu : s.weave.undo = [(k, j, g, old)]) : undoJobs k j p s = undoJob p i g old s := by
  unfold undoJobs
  rw [hl]
  simp [hu]

/-- The error counted, the job unfinished, and both reported. -/
def faultNoted (k j : Nat) (s : State) : State :=
  logEv 6 0x0201 0 k 0 (notify "stk" ("fault " ++ kn "k" k) ((s.onStake k fun x => { x with fault := true, ded := satInc x.ded }).onWeave fun w =>
    { w with todo := w.todo.filter fun e => !(e.1 == k && e.2.1 == j) }))

/-- The bundle of a stake whose store has failed gives back what it has leased, and is put up for quarantine. -/
def faultBundle (k j : Nat) (p : Plan) (s : State) : State := settlePorts (releaseSlots p.name (pendBundle p.name 1 (undoJobs k j p s)))

theorem exec_stakeDoubleBitError {k : Nat} (j : Nat) {s : State} (hk : k < 48) (hon : s.on (12 + k / 12) = true) :
    exec (.stakeDoubleBitError k j) s = .next (match s.planAt k with | some p => faultBundle k j p (faultNoted k j s) | none => faultNoted k j s) := by
  have hplan : (faultNoted k j s).planAt k = s.planAt k := by
    simp [faultNoted, State.planAt, State.onStake]
  rw [← hplan]
  show execStakeDoubleBitError k j s = _
  rw [execStakeDoubleBitError, if_pos (by simp [hk, hon])]
  rfl

theorem faultNoted_inn (k j : Nat) (s : State) : (faultNoted k j s).inn = s.inn := by simp [faultNoted]

theorem faultNoted_weave (k j : Nat) (s : State) : (faultNoted k j s).weave =
    { s.weave with
      todo := s.weave.todo.filter fun e => !(e.1 == k && e.2.1 == j)
      stakes := tmod s.weave.stakes k {} fun x => { x with fault := true, ded := satInc x.ded } } := by
  simp [faultNoted, State.onStake]

theorem faultNoted_stake (k j : Nat) (s : State) :
    (faultNoted k j s).stake k = { s.stake k with fault := true, ded := satInc (s.stake k).ded } := by
  have h := State.onStake_stake s k fun x => { x with fault := true, ded := satInc x.ded }
  unfold State.stake
  rw [faultNoted_weave]
  exact h

theorem pendBundle_weave (n : String) (cause : Nat) (s : State) :
    (pendBundle n cause s).weave = { s.weave with plans := s.weave.plans.map fun q => if q.name == n then pended cause q else q } := rfl

theorem faultBundle_weave (k j : Nat) (p : Plan) (s : State) : (faultBundle k j p s).weave =
    { s.weave with plans := s.weave.plans.map fun q => if q.name == p.name then pended 1 q else q } := by
  have h : (faultBundle k j p s).weave = (pendBundle p.name 1 (undoJobs k j p s)).weave := releaseSlots_weave _ _
  rw [h, pendBundle_weave, (undoJobs_kept k j p s).1]

theorem faultBundle_stake (k j i : Nat) (p : Plan) (s : State) : (faultBundle k j p s).stake i = s.stake i := by
  unfold State.stake
  rw [faultBundle_weave]

theorem faultBundle_rooms (k j : Nat) (p : Plan) (s : State) : (faultBundle k j p s).inn.rooms = s.inn.rooms := by
  show (releaseSlots p.name (pendBundle p.name 1 (undoJobs k j p s))).inn.rooms = _
  rw [releaseSlots_inn]
  exact (undoJobs_kept k j p s).2

theorem faultBundle_guest (k j g : Nat) (p : Plan) (s : State) : (faultBundle k j p s).guest g = (undoJobs k j p s).guest g :=
  (congrArg (fun i : InnSt => tgetD i.guests g {}) (releaseSlots_inn p.name (pendBundle p.name 1 (undoJobs k j p s))) :)

/-- A stake whose bundle is up for quarantine holds no port. -/
theorem faultBundle_ports {k : Nat} (j : Nat) {p : Plan} {s : State} (hp : s.planAt k = some p) {e : Nat × Nat × String}
    (he : e ∈ (faultBundle k j p s).inn.ports) : e.2.1 ≠ k := by
  obtain ⟨w, hw, -⟩ := settlePorts_wanted he
  rintro rfl
  rw [portWanted_congr (releaseSlots_weave _ _) (releaseSlots_inn _ _)] at hw
  have hplan : (pendBundle p.name 1 (undoJobs e.2.1 j p s)).planAt e.2.1 = some (pended 1 p) := by
    have hmap : (pendBundle p.name 1 (undoJobs e.2.1 j p s)).weave.plans = s.weave.plans.map fun q => if q.name == p.name then pended 1 q else q := by
      rw [pendBundle_weave, (undoJobs_kept e.2.1 j p s).1]
    have hcomp : ((fun q : Plan => decide (q.base ≤ e.2.1) && decide (e.2.1 < q.base + q.stakes)) ∘
        fun q => if q.name == p.name then pended 1 q else q) = fun q => decide (q.base ≤ e.2.1) && decide (e.2.1 < q.base + q.stakes) := by
      funext q
      simp only [Function.comp]
      split <;> rfl
    unfold State.planAt at hp ⊢
    rw [hmap, List.find?_map, hcomp, hp]
    simp
  unfold portWanted at hw
  split at hw
  · rw [hplan] at hw
    simp only [Option.bind_some] at hw
    cases hq : p.quar <;> simp [pended, hq] at hw
  · simp at hw

/-! ### The start of a round -/

theorem roundsStart {s : State} (h : roundsRun s = true) : exec .roundStart s = .next (startRound s.tly.now.toNat s) := by
  show execRoundStart s = _
  rw [execRoundStart, if_pos h]

theorem noteCosts_idleKept (n : Nat) (p : Plan) (s : State) : (noteCosts n p s).idleKept = s.idleKept :=
  State.forEach_keeps s State.idleKept _ _ fun _ _ => rfl

theorem idleRow_idleKept (n : Nat) (p : Plan) (g : Nat) (s : State) : (idleRow n p g s).idleKept = s.idleKept := by
  unfold idleRow
  extract_lets x u
  have hu : u.idleKept = s.idleKept := by
    simp only [u]
    split
    · split
      · exact (State.onGuest_idleKept _ (by intro; rfl) g).trans (pushResult_idleKept ..)
      · rfl
    · rfl
  refine (State.forEach_keeps u State.idleKept _ _ fun i t => ?_).trans hu
  split
  · split <;> simp
  · simp

/-- The rounds' costs noted, and what idle rows do. -/
def idleRows (n : Nat) (s : State) : State :=
  let ps := s.weave.plans.filter fun p => !p.quar
  let s := s.onWeave fun w => { w with stakes := w.stakes.map fun e => (e.1, { e.2 with last := 0 }) }
  let s := s.forEach ps fun p s => noteCosts n p s
  s.forEach ps fun p s => s.forEach ((roundRows n p s).map (·.1)) fun g s => idleRow n p g s

theorem idleRows_idleKept (n : Nat) (s : State) : (idleRows n s).idleKept = s.idleKept := by
  unfold idleRows
  extract_lets ps a b
  have hb : b.idleKept = s.idleKept := State.forEach_keeps a State.idleKept _ _ fun p t => noteCosts_idleKept n p t
  exact (State.forEach_keeps b State.idleKept _ _ fun p t => State.forEach_keeps t State.idleKept _ _ fun g u => idleRow_idleKept n p g u).trans hb

/-- What follows the events of a round's start. -/
def roundSteps (n : Nat) (s : State) : State := takeHops n (enterSteps n (lateReturns n (swapHalves s)))

/-- What precedes the events of a round's start. -/
def roundBefore (s : State) : State :=
  fallbackMoves (shedHot (shedDue (takeQuarantines (roundPoint (releasePassed (recordRound (abandonRest (endCheckinZeroing s))))))))

/-- The round numbered. -/
def roundNumbered (n : Nat) (s : State) : State :=
  (roundSteps n (applyTally n (roundBefore s))).onInn fun i => { i with round := BitVec.ofNat 32 n }

/-- The jobs of the round that starts. -/
def roundJobs (n : Nat) (s : State) : List (Nat × Nat × Nat) :=
  (((roundNumbered n s).weave.plans.filter fun p => !p.quar).map fun p => planJobs n p (idleRows n (roundNumbered n s))).flatten

/-- The round's jobs handed out. -/
def jobsGiven (jobs : List (Nat × Nat × Nat)) (s : State) : State := settlePorts (s.onWeave fun w => { w with todo := jobs, undo := [], round := true })

theorem startRound_eq (n : Nat) (s : State) : startRound n s = setForecast (n + 1) (jobsGiven (roundJobs n s) (idleRows n (roundNumbered n s))) := by
  simp only [startRound, jobsGiven, roundJobs, idleRows, roundNumbered, roundSteps, roundBefore]

theorem setForecast_kept (n : Nat) (s : State) :
    (setForecast n s).weave = s.weave ∧ (setForecast n s).inn = s.inn ∧ (setForecast n s).evq = s.evq := by
  simp [setForecast, strobe]

theorem jobsGiven_kept (jobs : List (Nat × Nat × Nat)) (s : State) : (jobsGiven jobs s).weave.round = true ∧
    (jobsGiven jobs s).inn.round = s.inn.round ∧ (jobsGiven jobs s).inn.guests = s.inn.guests ∧ (jobsGiven jobs s).evq = s.evq := by
  simp [jobsGiven, settlePorts]

theorem roundNumbered_kept (n : Nat) (s : State) : (roundNumbered n s).inn.round = BitVec.ofNat 32 n ∧
    (roundNumbered n s).evq = (roundSteps n (applyTally n (roundBefore s))).evq ∧
    (roundNumbered n s).inn.guests = (roundSteps n (applyTally n (roundBefore s))).inn.guests := by
  unfold roundNumbered
  generalize roundSteps n (applyTally n (roundBefore s)) = u
  exact ⟨rfl, rfl, rfl⟩

/-- After a round's start the round stands, and it has left the queue and the mutes as its events and rows have. -/
theorem startRound_round (n : Nat) (s : State) : (startRound n s).weave.round = true ∧ (startRound n s).inn.round = BitVec.ofNat 32 n ∧
    (startRound n s).evq = (roundSteps n (applyTally n (roundBefore s))).evq ∧
    ∀ g, ((startRound n s).guest g).mute = ((roundSteps n (applyTally n (roundBefore s))).guest g).mute := by
  have hk := idleRows_idleKept n (roundNumbered n s)
  simp only [State.idleKept, Prod.mk.injEq] at hk
  obtain ⟨hevq, hround, hmute⟩ := hk
  obtain ⟨hweave, hinn, hqueue⟩ := setForecast_kept (n + 1) (jobsGiven (roundJobs n s) (idleRows n (roundNumbered n s)))
  obtain ⟨hw, hr, hg, he⟩ := jobsGiven_kept (roundJobs n s) (idleRows n (roundNumbered n s))
  obtain ⟨hnum, hnumq, hnumg⟩ := roundNumbered_kept n s
  refine ⟨by rw [startRound_eq, hweave, hw], by rw [startRound_eq, hinn, hr, hround, hnum], by rw [startRound_eq, hqueue, he, hevq, hnumq], fun g => ?_⟩
  have hm := congrFun hmute g
  unfold State.guest at hm ⊢
  rw [startRound_eq, hinn, hg, hm, hnumg]

/-! ### The mutes through the round's bookkeeping -/

theorem tgetD_map_same {α β : Type} {f : Nat × α → Nat × α} {p : α → β} (hk : ∀ e, (f e).1 = e.1) (hp : ∀ e, p (f e).2 = p e.2) (t : Tab α) (k : Nat)
    (d : α) : p (tgetD (t.map f) k d) = p (tgetD t k d) := by
  induction t with
  | nil => rfl
  | cons e r ih =>
    obtain ⟨j, v⟩ := e
    have h1 := hk (j, v)
    have h2 := hp (j, v)
    simp only [tgetD, List.map_cons] at ih ⊢
    rw [tget, h1, tget]
    by_cases hj : j = k
    · subst hj
      simpa using h2
    · simpa [hj] using ih

theorem swapHalves_idleKept (s : State) : (swapHalves s).idleKept = s.idleKept := by
  have hm : (fun g => ((swapHalves s).guest g).mute) = fun g => (s.guest g).mute := by
    funext g
    exact tgetD_map_same (p := Guest.mute) (fun e => by dsimp only; split <;> rfl) (fun e => by dsimp only; split <;> rfl) s.inn.guests g {}
  exact congrArg (fun m => (s.evq, s.inn.round, m)) hm

theorem lateReturns_idleKept (n : Nat) (s : State) : (lateReturns n s).idleKept = s.idleKept :=
  State.forEach_keeps s State.idleKept _ _ fun g t => by
    dsimp only
    rw [State.onGuest_idleKept]
    · split <;> rfl
    · intro; rfl

theorem enterSteps_idleKept (n : Nat) (s : State) : (enterSteps n s).idleKept = s.idleKept :=
  State.forEach_keeps s State.idleKept _ _ fun g t => State.onGuest_idleKept t (by intro; rfl) g

theorem markStep_idleKept (g k : Nat) (f : StepRec → StepRec) (s : State) : (markStep g k f s).idleKept = s.idleKept :=
  State.onGuest_idleKept s (by intro; rfl) g

theorem noteHop_idleKept (p : Plan) (h : Hop) (n : Nat) (s : State) : (noteHop p h n s).idleKept = s.idleKept := by
  unfold noteHop
  extract_lets due
  split
  · rw [State.onPlan_idleKept, (notify_only _ _ _).idleKept]
  · rfl

theorem hopTake_idleKept (n : Nat) (p : Plan) (h : Hop) (g : Nat) (s : State) : (hopTake n p h g s).idleKept = s.idleKept := by
  unfold hopTake
  extract_lets x k own setPrev follow old head bs b u c
  split
  · rfl
  · have hset : ∀ bs t, (setPrev bs t).idleKept = t.idleKept := fun _ _ => rfl
    have hfollow : ∀ c m t, (follow c m t).idleKept = t.idleKept := fun _ _ _ => markStep_idleKept ..
    have hu : u.idleKept = s.idleKept := noteHop_idleKept p h n s
    split
    · rw [hfollow, hset]
    · split
      · rw [hfollow, hu]
      · rw [hfollow, hset, hu]
      · rw [markStep_idleKept, hu]

theorem takeHops_idleKept (n : Nat) (s : State) : (takeHops n s).idleKept = s.idleKept := by
  unfold takeHops
  extract_lets l u v
  have hu : u.idleKept = s.idleKept := State.forEach_keeps s State.idleKept _ _ fun e t =>
    State.forEach_keeps t State.idleKept _ _ fun x w => hopTake_idleKept n e.1 e.2 x.1 w
  exact hu

theorem roundSteps_idleKept (n : Nat) (s : State) : (roundSteps n s).idleKept = s.idleKept := by
  unfold roundSteps
  rw [takeHops_idleKept, enterSteps_idleKept, lateReturns_idleKept, swapHalves_idleKept]

/-! ### A round start on a part with nothing under way but one guest -/

/-- The part has no plan and no job, and its one guest is not in the rounds; what it has queued is as in `s`. -/
structure OneGuest (g : Nat) (s t : State) : Prop where
  evq : t.evq = s.evq
  cch : t.cch = s.cch
  ldr : t.ldr = s.ldr
  plans : t.weave.plans = []
  todo : t.weave.todo = []
  abandoned : t.weave.abandoned = []
  quar : t.inn.quarG = []
  last : t.inn.lastAband = []
  hot : t.inn.hotShed = false
  guest : ∃ x, t.inn.guests = [(g, x)] ∧ (x.state = .registered ∨ x.state = .away)

namespace OneGuest

variable {g : Nat} {s t : State} (h : OneGuest g s t)
include h

/-- A change of the Innkeeper that leaves its guest, its quarantines and its sheds. -/
theorem onInn {f : InnSt → InnSt} (hq : (f t.inn).quarG = t.inn.quarG) (hl : (f t.inn).lastAband = t.inn.lastAband)
    (hh : (f t.inn).hotShed = t.inn.hotShed) (hg : (f t.inn).guests = t.inn.guests) : OneGuest g s (t.onInn f) :=
  ⟨h.evq, h.cch, h.ldr, h.plans, h.todo, h.abandoned, hq.trans h.quar, hl.trans h.last, hh.trans h.hot, by
    obtain ⟨x, hx⟩ := h.guest
    exact ⟨x, hg.trans hx.1, hx.2⟩⟩

theorem inRounds : ∀ e ∈ t.inn.guests, e.2.inRounds = false := by
  obtain ⟨x, hx, hst⟩ := h.guest
  intro e he
  rw [hx, List.mem_singleton] at he
  rw [he]
  rcases hst with hst | hst <;> simp [Guest.inRounds, GState.inRounds, hst]

theorem roomZeroed (r : Nat) : OneGuest g s (roomZeroed r t) := by
  have hz : OneGuest g s (zeroRoom r (dropJobs [r] t)) := ⟨h.evq, h.cch, h.ldr, h.plans, h.todo, h.abandoned, h.quar, h.last, h.hot, h.guest⟩
  unfold Sys2Proof.Machine.roomZeroed
  generalize zeroRoom r (dropJobs [r] t) = u at hz ⊢
  obtain ⟨x, hx, hst⟩ := hz.guest
  by_cases hw : (x.writing && x.run.all fun r => (tget u.inn.inUse r).isNone) = true
  · rw [Bool.and_eq_true, List.all_eq_true] at hw
    have hnone : ∀ r ∈ x.run, tget u.inn.inUse r = none := fun r hr => by simpa using hw.2 r hr
    rw [awayWhenZeroed_single hx hw.1 hnone]
    refine ⟨hz.evq, hz.cch, hz.ldr, hz.plans, hz.todo, hz.abandoned, hz.quar, hz.last, hz.hot, leftAway x, ?_, .inr rfl⟩
    show tmod u.inn.guests g {} leftAway = _
    rw [hx]
    simp [tmod, tset, tgetD, tget]
  · have : awayWhenZeroed u = u := by
      unfold awayWhenZeroed
      rw [hx]
      simp only [List.filter_cons, hw]
      rfl
    rw [this]
    exact hz

theorem endCheckinZeroing : OneGuest g s (endCheckinZeroing t) :=
  State.forEach_inv t (OneGuest g s) _ _ (fun r _ hu => hu.roomZeroed r) h

theorem abandonRest : OneGuest g s (abandonRest t) := by
  have heq : Machine.abandonRest t = t.onWeave fun w => { w with todo := [] } := by
    rw [abandonRest_eq, h.todo, State.forEach_nil]
  rw [heq]
  exact ⟨h.evq, h.cch, h.ldr, h.plans, rfl, h.abandoned, h.quar, h.last, h.hot, h.guest⟩

theorem recordRound : OneGuest g s (recordRound t) := by
  unfold Machine.recordRound
  rw [h.abandoned]
  exact ⟨h.evq, h.cch, h.ldr, h.plans, h.todo, rfl, h.quar, h.last, h.hot, h.guest⟩

theorem releasePassed : OneGuest g s (releasePassed t) := by
  have hnil : (t.inn.guests.filter fun e => e.2.inRounds &&
      (match e.2.steps[layersOf t e.2]? with | some r => r.code == .stop | none => false)) = [] :=
    List.filter_eq_nil_iff.mpr fun e he => by simp [h.inRounds e he]
  unfold Machine.releasePassed
  extract_lets l
  have hl : l = [] := hnil
  rw [hl]
  exact h

theorem roundPoint : OneGuest g s (roundPoint t) := by
  unfold Machine.roundPoint
  extract_lets p n u
  have hu : OneGuest g s u := by
    simp only [u]
    split
    · exact ⟨h.evq, h.cch, h.ldr, h.plans, h.todo, h.abandoned, h.quar, h.last, h.hot, h.guest⟩
    · split
      · exact ⟨h.evq, h.cch, h.ldr, h.plans, h.todo, h.abandoned, h.quar, h.last, h.hot, h.guest⟩
      · exact h
  split
  · exact ⟨hu.evq, hu.cch, hu.ldr, hu.plans, hu.todo, hu.abandoned, hu.quar, hu.last, hu.hot, hu.guest⟩
  · exact hu

theorem takeQuarantines : OneGuest g s (takeQuarantines t) := by
  unfold Machine.takeQuarantines
  rw [h.plans]
  simp only [List.filterMap_nil, State.forEach_nil, h.quar]
  exact h.onInn h.quar.symm rfl rfl rfl

theorem shedDue : OneGuest g s (shedDue t) := by
  unfold Machine.shedDue
  simp only [h.last]
  simpa using h

theorem shedHot : OneGuest g s (shedHot t) := by
  unfold Machine.shedHot
  simpa [h.hot] using h

theorem fallbackMoves : OneGuest g s (fallbackMoves t) := by
  unfold Machine.fallbackMoves
  rw [h.plans]
  exact h

theorem roundBefore : OneGuest g s (roundBefore t) :=
  h.endCheckinZeroing.abandonRest.recordRound.releasePassed.roundPoint.takeQuarantines.shedDue.shedHot.fallbackMoves

end OneGuest

/-- The one event due, a mute, takes effect, and the queue is empty. -/
theorem applyTally_mute {g n : Nat} {on_ : Bool} {ev : Event} {s t : State} (h : OneGuest g s t) (hr : s.cch.routes = []) (hst : s.ldr.store = [])
    (he : s.evq.entries = [ev]) (hh : s.evq.held = []) (hd : ev.due.toNat = n) (hf : ev.eff = .mute g on_) :
    ((applyTally n t).guest g).mute = on_ ∧ (applyTally n t).evq.entries = [] := by
  obtain ⟨x, hx, hstate⟩ := h.guest
  have hguest : t.guest g = x := by simp [State.guest, hx, tgetD, tget]
  have hent : t.evq.entries = [ev] := by rw [h.evq, he]
  have hone : ∀ u : State, u.guest g = x → applyOne n ev u = u.onGuest g fun x => { x with mute := on_ } := by
    intro u hu
    have hfree : x.state ≠ .free ∧ x.state ≠ .quarantined := by
      rcases hstate with h | h <;> simp [h]
    unfold applyOne applyEffect
    rw [hf]
    simp only [hu, if_neg hfree.1, if_neg hfree.2]
  have hstage : stageOf 256 [ev] = ([ev], []) := by
    unfold stageOf
    split <;> rfl
  have hrep : ∀ u, replacedBy [ev] ev u = none := fun u => by
    unfold replacedBy
    rw [hf]
  have hsort : evSort (t.evq.entries.filter fun e => decide (e.due.toNat ≤ n)) = [ev] := by
    simp [hent, hd, evSort, evInsert]
  unfold applyTally
  rw [hsort]
  dsimp only
  rw [hstage]
  simp only [State.forEach_nil, State.forEach_cons, hrep]
  rw [hone (t.onEvq _) hguest, admitHeld_of_nothing (by rw [← hh, ← h.evq]; rfl) (by rw [← hr, ← h.cch]; rfl) (by rw [← hst, ← h.ldr]; rfl)]
  refine ⟨by rw [State.onGuest_guest], ?_⟩
  simp [hent, hd]

/-- Settles O26: a round start is its stages in order, each of which leaves the queue and the mutes but for the events that are due; a job and an
abandoned round touch only their stakes; a failed store puts its bundle up for quarantine, for which no port is wanted then. -/
theorem rounds : Obligations.Rounds := by
  unfold Obligations.Rounds
  refine ⟨fun s h => ?_, fun s h => ?_, fun s g x on_ ev h hp htodo hab hg hx hq hl hhot hr hst he hh hd hf => ?_, fun k j r n s h => ?_, fun k j r n s h => ?_,
    fun s => ?_, fun k j r s h => ?_, fun k j s hk hon => ?_⟩
  · exact ⟨_, roundsStart h, (startRound_round ..).1, (startRound_round ..).2.1⟩
  · show execRoundStart s = _
    rw [execRoundStart, if_neg (by simp [h])]
  · have hone : OneGuest g s s := ⟨rfl, rfl, rfl, hp, htodo, hab, hq, hl, hhot, x, hg, .inl hx⟩
    obtain ⟨-, -, hevq, hmute⟩ := startRound_round s.tly.now.toNat s
    obtain ⟨hm, hent⟩ := applyTally_mute hone.roundBefore hr hst he hh (by rw [hd]) hf
    have hk := roundSteps_idleKept s.tly.now.toNat (applyTally s.tly.now.toNat (roundBefore s))
    simp only [State.idleKept, Prod.mk.injEq] at hk
    obtain ⟨hkevq, -, hkmute⟩ := hk
    refine ⟨_, roundsStart h, ?_, ?_⟩
    · rw [hmute, congrFun hkmute g, hm]
    · rw [hevq, hkevq, hent]
  · have hk := completeJob_workKept k j r (jobTaken k j r n s)
    simp only [State.workKept, Prod.mk.injEq] at hk
    obtain ⟨htly, hpwr, htodo, hstake⟩ := hk
    have hs := congrFun hstake k
    rw [jobTaken_stake, Prod.mk.injEq] at hs
    exact ⟨_, exec_rowJobComplete n h, htodo, hs.1, hs.2, htly, hpwr⟩
  · show execRowJobComplete k j r n s = _
    rw [execRowJobComplete, if_neg h]
  · obtain ⟨htodo, htly, hinn, hplans⟩ := abandonRest_kept s
    exact ⟨_, rfl, htodo, by rw [settlePorts_of_noJobs htodo, hinn], htly, hplans⟩
  · refine ⟨_, rfl, ?_⟩
    have hst := abandonJob_stake (k, j, r) s
    have heq : (settlePorts (abandonRest s)).stake k = (abandonJob (k, j, r) s).stake k := by
      rw [abandonRest_eq, h]
      rfl
    beta_reduce
    rw [heq, hst]
  · refine ⟨_, exec_stakeDoubleBitError j hk hon, ?_⟩
    have hinn := faultNoted_inn k j s
    have hweave := faultNoted_weave k j s
    have hstake := faultNoted_stake k j s
    have hplan : (faultNoted k j s).planAt k = s.planAt k := by
      unfold State.planAt
      rw [hweave]
    cases hp : s.planAt k with
    | none => exact ⟨by rw [hstake], by rw [hstake], by rw [hweave], by rw [hinn], fun q h => by simp at h, fun q _ _ _ _ h => by simp at h, fun q h => by simp at h⟩
    | some p =>
      rw [hp] at hplan
      refine ⟨by rw [faultBundle_stake, hstake], by rw [faultBundle_stake, hstake], by rw [faultBundle_weave, hweave], by rw [faultBundle_rooms, hinn],
        fun q _ e he => faultBundle_ports j hplan he, fun q i ly g old hq hl hu hg => ?_, fun q hq hquar hpend => ?_⟩
      · cases hq
        have hguest : (faultNoted k j s).guest g = s.guest g := by rw [State.guest, State.guest, hinn]
        rw [faultBundle_guest, undoJobs_single hl (by rw [hweave]; exact hu), undoJob_layers (by rw [hguest]; exact hg), hguest]
      · cases hq
        have hmem : p ∈ s.weave.plans := List.mem_of_find?_eq_some hp
        refine ⟨pended 1 p, ?_, rfl, by simp [pended, hquar, hpend]⟩
        rw [faultBundle_weave, hweave]
        exact List.mem_map.mpr ⟨p, hmem, by simp⟩

end Sys2Proof.Machine
end

section
/-! Audio ports and their verbs (spec 10). -/

namespace Sys2Proof.Machine

theorem getD_lmod_same {α : Type} {l : List α} {k : Nat} (h : k < l.length) (f : α → α) (d : α) : (lmod l k f).getD k d = f (l.getD k d) := by
  simp [lmod, List.getD_eq_getElem?_getD, h]

theorem getD_lmod_ne {α : Type} {l : List α} {k j : Nat} (h : j ≠ k) (f : α → α) (d : α) : (lmod l k f).getD j d = l.getD j d := by
  simp [lmod, List.getD_eq_getElem?_getD, Ne.symm h]

theorem onPort_same {p : Nat} {s : State} (h : p < s.aud.ports.length) (f : TdmPort → TdmPort) :
    (onPort p f s).aud.ports.getD p {} = f (s.aud.ports.getD p {}) := getD_lmod_same h f {}

theorem onPort_ne {p j : Nat} (h : j ≠ p) (f : TdmPort → TdmPort) (s : State) : (onPort p f s).aud.ports.getD j {} = s.aud.ports.getD j {} :=
  getD_lmod_ne h f {}

/-- The settings `aud.set` gives a port, where the line leaves its divisor. -/
def portSet (e : Env) (x : TdmPort) : TdmPort :=
  let bit (k : String) (old : Bool) : Bool := match e.nat? k with | some n => n == 1 | none => old
  { x with
    en := (e.flag? "en").getD true, master := (e.flag? "master").getD x.master
    slots := BitVec.ofNat 4 ((e.nat? "slots").getD (x.slots.toNat + 1) - 1)
    phase := match e.nat? "phase" with | some n => BitVec.ofNat 2 n | none => x.phase
    fsw := match e.word? "fsync" with | some w => w == "slot" | none => x.fsw
    fspol := bit "fspol" x.fspol, delay := bit "delay" x.delay, bclkpol := bit "bclkpol" x.bclkpol
    hiz := (e.flag? "hiz").getD x.hiz }

section

variable {c : Ctx} {p : Pfx} {e : Env} {s : State} {k : Nat} (hk : k = tdmNames.idxOf (e.word "port")) (hph : e.has "phase" = false) (hon : s.on 3 = true)
  (hs : slotsOk ((e.nat? "slots").getD ((s.aud.ports.getD k {}).slots.toNat + 1)) (divOf (s.aud.ports.getD k {}).div) s = true)
  (hdiv : e.nat? "div" = none)
include hk hph hon hs hdiv

/-- With its checks passed `aud.set` is refused only for a port that a staying guest maps. -/
theorem audSetBody_eq : audSetBody c p e s =
    if mapsStaying (fun x => decide (0x40 ≤ x) && decide (x < 0x80) && x / 16 % 4 == k) s then .err 30 "port" s
    else .ok [] (setPort k (portSet e (s.aud.ports.getD k {})) s) := by
  subst hk
  unfold audSetBody
  extract_lets p x bit div slots master
  have hd : div = x.div := by simp [div, hdiv]
  rw [if_neg (by simp [hph]), if_neg (by simp [hph]), if_neg (by rw [hd]; simpa [slots, x, hon] using hs), if_neg (by simp [hon])]
  split
  · rfl
  · simp only [hd]
    rfl

end

theorem mapsStaying_of_noRounds {f : Nat → Bool} {s : State} (h : ∀ x ∈ s.inn.guests, x.2.state.inRounds = false) : mapsStaying f s = false := by
  unfold mapsStaying
  rw [List.any_eq_false]
  intro x hx
  have hst := h x hx
  cases hs : x.2.state <;> simp_all [GState.inRounds]

/-- Settles O42: each command's and each verb's own lemma. -/
theorem audioPorts : Obligations.AudioPorts := by
  unfold Obligations.AudioPorts
  refine ⟨fun p ph m s hp hon hen hm hl => ?_, fun p s hp hon hen hm hl => ?_, fun c p a e s k h hk hlen hph hon hs hd hg => ?_,
    fun c p a e s k h hk hph hon hs hd hm => ?_, fun c p a e s h hon _ => ?_, fun c p a e s t i o h hi ho hacc => ?_, fun c p a e s t h hacc => ?_,
    fun c p a e s h hon => ?_⟩
  · refine ⟨_, congrArg Host.Outcome.next (if_pos (by rw [hon, hen, hm, hl]; rfl)), onPort_same hp _, rfl, rfl, rfl⟩
  · refine ⟨_, congrArg Host.Outcome.next (if_pos (by rw [hon, hen, hm, hl]; rfl)), ?_, ?_, ?_⟩
    · rw [notify_aud, onPort_same hp]
    · rw [notify_aud, onPort_same hp]
    · rw [notify_tly]
      rfl
  · have hb := audSetBody_eq (c := c) (p := p) hk hph hon hs hd
    rw [if_neg (by rw [mapsStaying_of_noRounds hg]; simp)] at hb
    have hsame := onPort_same (s := s) hlen
    refine answersWith_of_body rfl h ⟨_, _, hb, rfl, ?_, ?_, ?_, fun j hj => onPort_ne hj _ s, rfl⟩ <;> rw [setPort, hsame] <;> rfl
  · have hb := audSetBody_eq (c := c) (p := p) hk hph hon hs hd
    rw [if_pos hm] at hb
    exact refuses_of_body rfl h hb
  · refine answersOk_of_body rfl h ?_
    unfold audDryBody
    exact if_neg (by simp [hon])
  · exact stages_of_body rfl h (by simp only [audMapBody, hi, ho, hacc.1, if_true]; rfl) hacc (by intro r; simp)
  · exact stages_of_body rfl h (by simp only [audMuteBody, hacc.1, if_true]; rfl) hacc (by intro r; simp)
  · have hb : ∃ ls, audShowBody c p e s = .ok ls s ∧ ls ≠ [] := by
      unfold audShowBody
      rw [if_neg (by simp [hon])]
      split
      · exact ⟨_, rfl, by simp⟩
      · refine ⟨_, rfl, ?_⟩
        split <;> simp
    obtain ⟨ls, hb, hne⟩ := hb
    exact answersWith_of_body rfl h ⟨_, _, hb, rfl, hne⟩

end Sys2Proof.Machine
end

section
/-! AES67 flows (spec 10 R425 to R430). -/

namespace Sys2Proof.Machine

theorem onRx_same {k : Nat} {s : State} (h : k < s.aud.rx.length) (f : Flow → Flow) : (onRx k f s).aud.rx.getD k {} = f (s.aud.rx.getD k {}) :=
  getD_lmod_same h f {}

theorem onTx_same {k : Nat} {s : State} (h : k < s.aud.tx.length) (f : Flow → Flow) : (onTx k f s).aud.tx.getD k {} = f (s.aud.tx.getD k {}) :=
  getD_lmod_same h f {}

/-! ### Reception -/

/-- How far the packet's first sample lies ahead of the frame that begins (R429). -/
def rtpAhead (k ts : Nat) (s : State) : Nat :=
  let f := s.aud.rx.getD k {}
  wrap (ts + f.playout.toNat + 2 * 2 ^ 32 - f.tsoff.toNat - wrap (s.tly.now.toNat / max 1 (flowDiv s f)) (2 ^ 32)) (2 ^ 32)

/-- Whether a packet is in time and fits the jitter buffer. -/
def rtpFits (k ts n : Nat) (s : State) : Bool :=
  decide (1 ≤ rtpAhead k ts s) && decide (rtpAhead k ts s < 2 ^ 31) && decide (rtpAhead k ts s + n ≤ 16384 / max 1 (s.aud.rx.getD k {}).ch + 1)

/-- The samples of a packet with their time stamps. -/
def rtpSamples (ts : Nat) (l : List (List W32)) : List (Nat × List W32) :=
  ((List.range l.length).zip l).map fun e => (wrap (ts + e.1) (2 ^ 32), e.2)

/-- A running flow's next packet, or one ahead of it, is counted and placed by whether it fits. -/
theorem receiveRtp_run {k n ts q : Nat} {l : List (List W32)} {s : State} (hk : k < s.aud.rx.length) (hon : s.on 3 = true)
    (hst : (s.aud.rx.getD k {}).state = .run) (hup : portUp (s.aud.rx.getD k {}).net s = true) (hq : (s.aud.rx.getD k {}).seq = some q)
    (hj : (s.aud.rx.getD k {}).jitter = []) (hn : seqGap q n = true ∨ n = q) :
    let f := s.aud.rx.getD k {}
    let t := (receiveRtp k n ts l s).aud.rx.getD k {}
    t.seq = some (wrap (n + 1) 65536) ∧ t.loss = (if seqGap q n then satInc f.loss else f.loss) ∧
      t.late = (if rtpFits k ts l.length s then f.late else satInc f.late) ∧ t.jitter = (if rtpFits k ts l.length s then rtpSamples ts l else []) := by
  intro f t
  have ht : t = (receiveRtp k n ts l s).aud.rx.getD k {} := rfl
  unfold receiveRtp at ht
  rw [if_neg (by rw [hon, hst, hup]; simp)] at ht
  simp only [onRx_same hk, hq] at ht
  rw [ht]
  have hold : (!seqGap q n && n != q) = false := by
    rcases hn with h | h
    · simp [h]
    · simp [h]
  refine ⟨by simp only [hold]; rfl, rfl, rfl, ?_⟩
  simp only [hj]
  exact if_congr Iff.rfl (by simp [rtpSamples]) rfl

theorem seqGap_self (q : Nat) : seqGap q q = false := by
  simp [seqGap]

theorem seqGap_succ {q : Nat} (h : q < 65536) : seqGap q ((q + 1) % 65536) = true := by
  unfold seqGap
  have : ((q + 1) % 65536 + 65536 - q) % 65536 = 1 := by omega
  simp [this]

/-! ### `aes.set` and `aes.show` -/

section

variable {c : Ctx} {p : Pfx} {e : Env} {s : State} {k : Nat}

/-- `aes.set` of a receive flow that its checks accept puts the flow. -/
theorem aesSetBody_rx (hk : k = flowNames.idxOf (e.word "flow")) (h8 : k < 8) (hpt : e.has "ptime" = false) (ha : (e.word? "addr").any isV6 = false)
    (hf : (e.word? "filter").any isV6 = false)
    (hch : (flowWith e (s.aud.rx.getD k {})).ch * flowP (flowWith e (s.aud.rx.getD k {})) * 3 ≤ 1440)
    (hp : flowP (flowWith e (s.aud.rx.getD k {})) ≤ (flowWith e (s.aud.rx.getD k {})).playout.toNat)
    (hmax : (flowWith e (s.aud.rx.getD k {})).playout.toNat + flowP (flowWith e (s.aud.rx.getD k {})) ≤ 16384 / (flowWith e (s.aud.rx.getD k {})).ch)
    (hon : s.on 3 = true) :
    aesSetBody c p e s = .ok [] (putFlow false k (flowWith e (s.aud.rx.getD k {})) ((e.flag? "en").getD (s.aud.rx.getD k {}).en) s) := by
  subst hk
  unfold aesSetBody
  extract_lets i tx old n en q
  have htx : tx = false := by simp [tx, i, Nat.not_le.mpr h8]
  have hmod : i % 8 = i := Nat.mod_eq_of_lt h8
  have hold : old = s.aud.rx.getD i {} := by
    simp only [old, htx, hmod]
    rfl
  simp only [n, en, q, hold, htx, hmod, i]
  rw [if_neg (by simp [hpt]), if_neg (by simp [ha]), if_neg (by simp [hf]), if_neg (by omega), if_neg (by simp),
    if_neg (by simp only [Bool.not_false, Bool.true_and, Bool.or_eq_true, decide_eq_true_eq]; omega), if_neg (by simp [hon])]

theorem joinGroup_kept (n : Flow) (s : State) : (joinGroup n s).aud = s.aud ∧ (joinGroup n s).inn = s.inn := by
  unfold joinGroup sendFrame
  split
  · split <;> simp
  · exact ⟨rfl, rfl⟩

/-- A receive flow that is enabled waits, with its buffers empty. -/
theorem putFlow_enabled {n : Flow} (h : (s.aud.rx.getD k {}).en = false) :
    (putFlow false k n true s).aud = (onRx k (fun _ => { n with
      en := true, state := .wait, jitter := [], acc := [], ready := [], seq := none, good := 0 }) s).aud ∧ (putFlow false k n true s).inn = s.inn := by
  unfold putFlow
  simp only [Bool.false_eq_true, if_false, Bool.not_true, h, notify_aud, notify_inn]
  exact joinGroup_kept ..

theorem putFlow_disabled (n : Flow) : putFlow false k n false s = onRx k (fun _ => { n with
    en := false, state := .idle, jitter := [], acc := [], ready := [], seq := none, good := 0 }) s := rfl

end

/-- Settles O43: reception by `receiveRtp_run`, the settings by `putFlow`. -/
theorem audioFlows : Obligations.AudioFlows := by
  unfold Obligations.AudioFlows
  refine ⟨fun c p a e s k h hk h8 hlen => ?_, fun k q ts l s hk hon hst hup hq hq16 hj => ?_, fun k q ts l s hst => ?_, fun k s hk hon hst => ?_,
    fun k q ts l r s hk hon hst hr hq hup => ?_, fun c p a e s h hon => ?_⟩
  · intro n hpt ha hf hch hp hmax _ _ hon
    have hb := aesSetBody_rx (c := c) (p := p) hk h8 hpt ha hf hch hp hmax hon
    refine ⟨fun hen hold => ?_, fun hen => ?_⟩
    · rw [hen, Option.getD_some] at hb
      obtain ⟨haud, hinn⟩ := putFlow_enabled (s := s) (k := k) (n := flowWith e (s.aud.rx.getD k {})) hold
      exact answersWith_of_body rfl h ⟨_, _, hb, rfl, by rw [haud, onRx_same hlen], by rw [haud]; rfl, hinn⟩
    · rw [hen, Option.getD_some] at hb
      exact answersWith_of_body rfl h ⟨_, _, hb, rfl, by rw [putFlow_disabled, onRx_same hlen]⟩
  · intro f ahead
    obtain ⟨hseq, hloss, hlate, hjit⟩ := receiveRtp_run (ts := ts) (l := l) hk hon hst hup hq hj (.inr rfl)
    obtain ⟨-, hloss', -, -⟩ := receiveRtp_run (ts := ts) (l := l) hk hon hst hup hq hj (.inl (seqGap_succ hq16))
    rw [seqGap_self] at hloss
    rw [seqGap_succ hq16] at hloss'
    have hfits : rtpFits k ts l.length s = true ↔ 1 ≤ ahead ∧ ahead < 2 ^ 31 ∧ ahead + l.length ≤ 16384 / max 1 f.ch + 1 := by
      show (decide (1 ≤ ahead) && decide (ahead < 2 ^ 31) && decide (ahead + l.length ≤ 16384 / max 1 f.ch + 1)) = true ↔ _
      simp [and_assoc]
    refine ⟨fun h => ⟨_, rfl, hseq, ?_, hloss, ?_⟩, fun h => ⟨_, rfl, ?_, hloss, ?_⟩, ⟨_, rfl, hloss'⟩⟩
    · rw [hlate, if_pos (hfits.mpr h)]
    · rw [hjit, if_pos (hfits.mpr h)]
      rfl
    · rw [hlate, if_neg (fun hf => by have := hfits.mp hf; omega)]
    · rw [hjit, if_neg (fun hf => by have := hfits.mp hf; omega)]
  · exact congrArg Host.Outcome.next (if_pos (by rcases hst with hst | hst <;> rw [hst] <;> simp))
  · refine ⟨_, congrArg Host.Outcome.next (if_pos (by rw [hon, hst]; rfl)), ?_, ?_, ?_⟩
    · rw [notify_aud, onRx_same hk]
    · rw [notify_aud, onRx_same hk]
    · rw [notify_aud]
      rfl
  · intro f
    have hexec : exec (.aes67Transmit k) s = .next (sendFrame f.net (.rtp f.addr f.udp f.dscp q (BitVec.ofNat 32 ts) f.ssrc f.pt l)
        (onTx k (fun f => { f with ready := r, seq := some (wrap (q + 1) 65536) }) s)) := by
      show execAes67Transmit k s = _
      have hup' : portUp (s.aud.tx.getD k {}).net (onTx k (fun f => { f with ready := r, seq := some (wrap (q + 1) 65536) }) s) = true := hup
      unfold execAes67Transmit
      simp only [hr, hon, hst, hq, Option.getD_some, hup']
      rfl
    have hsend : ∀ (x : TxFrame) (t : State), portUp f.net t = true → sendFrame f.net x t = t.onNet f.net fun n => { n with tx := x :: n.tx } :=
      fun x t ht => if_pos ht
    rw [hsend _ (onTx k _ s) hup] at hexec
    refine ⟨_, hexec, ?_, ?_, ?_⟩
    · rw [State.onNet_aud, onTx_same hk]
    · rw [State.onNet_aud, onTx_same hk]
      rfl
    · rw [State.onNet_net]
      rfl
  · have hb : ∃ ls, aesShowBody c p e s = .ok ls s ∧ ls ≠ [] := by
      unfold aesShowBody
      rw [if_neg (by simp [hon])]
      split
      · exact ⟨_, rfl, by simp⟩
      · refine ⟨_, rfl, ?_⟩
        split
        · simp
        next hne => simpa using hne
    obtain ⟨ls, hb, hne⟩ := hb
    exact answersWith_of_body rfl h ⟨_, _, hb, rfl, hne⟩

end Sys2Proof.Machine
end

section
/-! Channels of the Hearth: what entering a state leaves, and `hth.set` and `hth.show` (spec 13). -/

namespace Sys2Proof.Machine

/-! ### Channels -/

theorem State.onChan_chan {k : Nat} {s : State} (h : k < s.hth.chans.length) (f : Chan → Chan) : (s.onChan k f).chan k = f (s.chan k) :=
  getD_lmod_same h f {}

theorem State.onChan_chan_ne {k j : Nat} (h : j ≠ k) (f : Chan → Chan) (s : State) : (s.onChan k f).chan j = s.chan j :=
  getD_lmod_ne h f {}

theorem State.onChan_length (k : Nat) (f : Chan → Chan) (s : State) : (s.onChan k f).hth.chans.length = s.hth.chans.length := by
  simp [lmod]

theorem chan_of_hth {s t : State} (h : t.hth = s.hth) (k : Nat) : t.chan k = s.chan k := by rw [State.chan, State.chan, h]

theorem hth_of_edgeKept {s t : State} (h : t.edgeKept = s.edgeKept) : t.hth = s.hth := congrArg (·.2.2.1) h

theorem postReady_hth (ch : Nat) (on_ cut : Bool) (s : State) : (postReady ch on_ cut s).hth = s.hth := by
  unfold postReady
  split
  · exact hth_of_edgeKept (by simp [postInner])
  · rfl

/-- A change of READY leaves the Hearth but for that. -/
theorem setReady_hth {ch : Nat} {on_ cut : Bool} {s : State} (h : (s.chan ch).ready ≠ on_) :
    (setReady ch on_ cut s).hth = (s.onChan ch fun c => { c with ready := on_ }).hth := by
  rw [setReady, if_neg h, postReady_hth, notify_hth]

theorem setReady_chan {ch : Nat} (on_ cut : Bool) {s : State} (h : ch < s.hth.chans.length) :
    (setReady ch on_ cut s).chan ch = { s.chan ch with ready := on_ } := by
  by_cases hr : (s.chan ch).ready = on_
  · rw [setReady, if_pos hr, ← hr]
  · rw [chan_of_hth (setReady_hth hr), State.onChan_chan h]

theorem setReady_chan_ne {ch j : Nat} (hj : j ≠ ch) (on_ cut : Bool) (s : State) : (setReady ch on_ cut s).chan j = s.chan j := by
  by_cases hr : (s.chan ch).ready = on_
  · rw [setReady, if_pos hr]
  · rw [chan_of_hth (setReady_hth hr), State.onChan_chan_ne hj]

/-- READY changes nothing of the Hearth beside its channels. -/
theorem setReady_besideChans (ch : Nat) (on_ cut : Bool) (s : State) :
    { (setReady ch on_ cut s).hth with chans := [] } = { s.hth with chans := [] } ∧
      (setReady ch on_ cut s).hth.chans.length = s.hth.chans.length := by
  by_cases hr : (s.chan ch).ready = on_
  · rw [setReady, if_pos hr]
    exact ⟨rfl, rfl⟩
  · rw [setReady_hth hr]
    exact ⟨rfl, State.onChan_length ch _ s⟩

/-- The channel as it enters a state. -/
def Chan.enter (st : HState) (period : Nat) (c : Chan) : Chan := { c with
  ready := c.ready && st.mayReady, state := st, gate := st.driven, duty := if st.driven then c.duty else 0, drive := if st.driven then c.drive else 0
  token := c.token && st.hasToken, asked := if st == .wait then period else 0 }

theorem toState_chan {ch : Nat} {st : HState} (cut : Bool) {s : State} (h : ch < s.hth.chans.length) (hst : (s.chan ch).state ≠ st) :
    (toState ch st cut s).chan ch = (s.chan ch).enter st s.hth.period := by
  rw [toState, if_neg hst]
  obtain ⟨hbeside, hlen⟩ := setReady_besideChans ch false cut s
  have hper : (setReady ch false cut s).hth.period = s.hth.period :=
    (congrArg HthSt.period hbeside : { (setReady ch false cut s).hth with chans := [] }.period = _)
  dsimp only
  split
  next hm =>
    rw [State.onChan_chan h]
    simp [Chan.enter, hm]
  next hm =>
    rw [State.onChan_chan (by rw [hlen]; exact h), setReady_chan false cut h, hper]
    simp [Chan.enter, hm]

theorem toState_chan_ne {ch j : Nat} (hj : j ≠ ch) (st : HState) (cut : Bool) (s : State) : (toState ch st cut s).chan j = s.chan j := by
  unfold toState
  split
  · rfl
  · dsimp only
    rw [State.onChan_chan_ne hj]
    split
    · rfl
    · rw [setReady_chan_ne hj]

/-- A channel that enters a state changes nothing of the Hearth beside the channels. -/
theorem toState_besideChans (ch : Nat) (st : HState) (cut : Bool) (s : State) :
    { (toState ch st cut s).hth with chans := [] } = { s.hth with chans := [] } ∧ (toState ch st cut s).hth.chans.length = s.hth.chans.length := by
  unfold toState
  split
  · exact ⟨rfl, rfl⟩
  · dsimp only
    rw [State.onChan_length]
    split
    · exact ⟨rfl, rfl⟩
    · exact setReady_besideChans ch false cut s

theorem chan_off {n : Nat} {s : State} (h : allChansOff s = true) (hn : n < s.hth.chans.length) : (s.chan n).state = .off := by
  have hmem : s.chan n ∈ s.hth.chans := by
    rw [State.chan, List.getD_eq_getElem _ _ hn]
    exact List.getElem_mem hn
  simpa using List.all_eq_true.mp h _ hmem

/-- A new mode takes a channel in OFF to WAIT, or leaves it off. -/
theorem setMode_chan {ch : Nat} {m : HMode} (cut : Bool) {s : State} (h : ch < s.hth.chans.length) (ho : (s.chan ch).state = .off)
    (hm : (s.chan ch).mode ≠ m) : (setMode ch m cut s).chan ch =
      if m = .off then { s.chan ch with mode := m, retries := 0, autos := 0 }
      else ({ s.chan ch with mode := m, retries := 0, autos := 0 } : Chan).enter .wait s.hth.period := by
  rw [setMode, if_neg hm]
  have hc := State.onChan_chan h fun c => { c with mode := m, retries := 0, autos := 0 }
  have hlen := State.onChan_length ch (fun c => { c with mode := m, retries := 0, autos := 0 }) s
  dsimp only
  by_cases hoff : m = .off
  · rw [if_pos (.inr hoff), if_pos hoff, hc]
  · rw [if_neg (by rw [hc]; simp [ho, hoff]), if_neg hoff]
    have hstay : ∀ t : State, (t.chan ch).state = .off → toState ch .off cut t = t := fun t ht => by rw [toState, if_pos ht]
    rw [hstay _ (by rw [hc]; exact ho), toState_chan cut (by rw [hlen]; exact h) (by rw [hc]; simp [ho]), hc]
    rfl

theorem setMode_chan_ne {ch j : Nat} (hj : j ≠ ch) (m : HMode) (cut : Bool) (s : State) : (setMode ch m cut s).chan j = s.chan j := by
  unfold setMode
  split
  · rfl
  · dsimp only
    split
    · rw [State.onChan_chan_ne hj]
    · rw [toState_chan_ne hj, toState_chan_ne hj, State.onChan_chan_ne hj]

/-! ### `hth.set` and `hth.show` -/

/-- The Hearth's settings and the channel's, as `hth.set` leaves them but for the mode. -/
def hthWith (e : Env) (s : State) : State :=
  (s.onHth fun h => { h with
    imax := w16 (e.nat? "imax") h.imax, ratio := w16 (e.nat? "ratio") h.ratio
    tokens := match e.nat? "tokens" with | some t => BitVec.ofNat 4 t | none => h.tokens }).onChan (e.nat "ch") (chanWith e)

/-- An accepted `hth.set` of a channel. -/
def hthSet (c : Ctx) (e : Env) (s : State) : State :=
  match e.word? "mode" with
  | some w => setMode (e.nat "ch") (hmodeWord w) c.cut (hthWith e s)
  | none => hthWith e s

section

variable {c : Ctx} {p : Pfx} {e : Env} {s : State} {n : Nat} (hn : e.nat? "ch" = some n)
include hn

theorem hasKey_of_nat? : e.has "ch" = true := by
  obtain ⟨i, hi, -⟩ := Env.nat?_eq_some hn
  simp [Env.has, hi]

theorem nat_of_nat? : e.nat "ch" = n := by simp [Env.nat, hn]

theorem hthSetBody_done (h4 : s.on 4 = true) (hb : hthBad e (s.chan n) (chanWith e (s.chan n)) s = none) (ho : allChansOff s = true) :
    hthSetBody c p e s = .ok [] (hthSet c e s) := by
  unfold hthSetBody
  simp only [hasKey_of_nat? hn, nat_of_nat? hn, if_true, hb, h4, ho, Bool.not_true, Bool.false_and, Bool.false_eq_true, if_false, reduceCtorEq]
  unfold hthSet hthWith
  rw [nat_of_nat? hn]
  rfl

theorem hthSetBody_bad {k : String} (hb : hthBad e (s.chan n) (chanWith e (s.chan n)) s = some k) : hthSetBody c p e s = .err 13 k s := by
  unfold hthSetBody
  simp only [hasKey_of_nat? hn, nat_of_nat? hn, if_true, hb]

theorem hthWith_chan (h : n < s.hth.chans.length) : (hthWith e s).chan n = chanWith e (s.chan n) := by
  unfold hthWith
  rw [nat_of_nat? hn]
  exact State.onChan_chan (s := s.onHth _) h (chanWith e)

theorem hthWith_chan_ne {k : Nat} (h : k ≠ n) : (hthWith e s).chan k = s.chan k := by
  unfold hthWith
  rw [nat_of_nat? hn, State.onChan_chan_ne h]
  rfl

end

theorem hthWith_length (e : Env) (s : State) : (hthWith e s).hth.chans.length = s.hth.chans.length := State.onChan_length _ _ _

theorem missingKey_hthSet (a : Args) : missingKey hthSetV.keys a = none := by
  simp [missingKey, hthSetV, kInt, kEnum, kOnOff]

/-- Settles O53: `hth.set` by its accepted form and its refusals, `hth.show` by its body. -/
theorem hearthCommands : Obligations.HearthCommands := by
  unfold Obligations.HearthCommands
  refine ⟨fun c p a e s n h hn h4 hlen h8 hb ho => ⟨fun hm => ?_, fun w hm hw => ?_⟩, fun c p a e s n k h hn hb => ?_, fun c p a s hr hl hcl hch hk => ?_,
    fun c p a e s h h4 => ?_⟩
  · have hbody := hthSetBody_done (c := c) (p := p) hn h4 hb ho
    have hset : hthSet c e s = hthWith e s := by rw [hthSet, hm]
    rw [hset] at hbody
    exact answersWith_of_body rfl h ⟨_, _, hbody, rfl, hthWith_chan hn (by omega), rfl, rfl, fun k hk => hthWith_chan_ne hn hk⟩
  · have hbody := hthSetBody_done (c := c) (p := p) hn h4 hb ho
    have hset : hthSet c e s = setMode n (hmodeWord w) c.cut (hthWith e s) := by rw [hthSet, hm, nat_of_nat? hn]
    rw [hset] at hbody
    have hwith := hthWith_chan hn (s := s) (by omega)
    have hstate : (s.chan n).state = .off := chan_off ho (by omega)
    have hc := setMode_chan (m := hmodeWord w) c.cut (s := hthWith e s) (ch := n) (by rw [hthWith_length]; omega) (by rw [hwith]; exact hstate)
      (by rw [hwith]; exact hw)
    refine answersWith_of_body rfl h ⟨_, _, hbody, rfl, ?_, ?_, ?_, ?_, ?_, fun k hk => ?_⟩
    · rw [hc]
      split <;> rfl
    · rw [hc]
      split
      · rw [hwith]
        exact hstate
      · rfl
    · rw [hc]
      split <;> rfl
    · rw [hc, hwith]
      split <;> rfl
    · rw [hc, hwith]
      split <;> rfl
    · rw [setMode_chan_ne hk, hthWith_chan_ne hn hk]
  · exact refuses_of_body rfl h (hthSetBody_bad hn hb)
  · obtain ⟨k, hk, hak⟩ := hk
    have hlacks : hthSetV.lacks a s = some "ch" := by
      have hany : (hthChanKeys.any (hasKey a)) = true := List.any_eq_true.mpr ⟨k, hk, hak⟩
      show (if (hthChanKeys.any (hasKey a)) && !hasKey a "ch" then some "ch" else none) = some "ch"
      rw [hany, hch]
      rfl
    refine refuses_of_check rfl hr ?_ (.inr (.inr ?_))
    · rw [checkKeys_of_free (v := hthSetV) (c := c) (s := s) hl (by decide) rfl (by decide) hcl (by decide), argCheck_lacks (missingKey_hthSet a) hlacks]
    · exact keyWrong_of_obj (by decide) _ _ _
  · have hb : ∃ ls, hthShowBody c p e s = .ok ls s ∧ ls.length = if e.nat? "ch" = none then 9 else 1 := by
      unfold hthShowBody
      rw [if_neg (by simp [h4])]
      cases e.nat? "ch" with
      | none => exact ⟨_, rfl, by simp⟩
      | some n => exact ⟨_, rfl, by simp⟩
    obtain ⟨ls, hb, hlen⟩ := hb
    exact answersWith_of_body rfl h ⟨_, _, hb, rfl, hlen⟩

end Sys2Proof.Machine
end

section
/-! Enrolment of a user slot (spec 11). -/

namespace Sys2Proof.Machine

section

variable (k : Nat) (rest : String) (s : State)

@[simp] theorem enrolNote_por : (enrolNote k rest s).por = s.por := by simp [enrolNote]
@[simp] theorem enrolNote_ldg : (enrolNote k rest s).ldg = s.ldg := by simp [enrolNote]
@[simp] theorem settlePor_enrol : (settlePor s).por.enrol = s.por.enrol := rfl
@[simp] theorem settlePor_pend : (settlePor s).por.pend = s.por.pend := rfl
@[simp] theorem settlePor_slots : (settlePor s).por.slots = s.por.slots := rfl
@[simp] theorem settlePor_ldg : (settlePor s).ldg = s.ldg := rfl

end

/-- The enrolment with a take that has joined it. -/
def Enrol.with (e : Enrol) (x : Take) : Enrol := { e with takes := e.takes ++ [x.template], sims := e.sims ++ e.takes.map (cosSim x.template) }

/-- The part with that take noted. -/
def takeNoted (e : Enrol) (x : Take) (s : State) : State :=
  enrolNote e.slot ("state=take " ++ kn "n" (e.with x).takes.length) (s.onPor fun p => { p with enrol := some (e.with x) })

section

variable {x : Take} {e : Enrol} {s : State} (he : s.por.enrol = some e) (hb : enrolBusy s = false)
include he hb

theorem exec_enrolTake_fault {w : String} (hf : takeFault x e s = some w) :
    exec (.enrolTake x) s = .next (enrolNote e.slot ("state=reject " ++ kv "why" w) s) := by
  show execEnrolTake x s = _
  simp only [execEnrolTake, he, hb, hf]
  rfl

/-- A take without a fault joins the enrolment; the fifth requests the commit. -/
theorem exec_enrolTake_joins (hf : takeFault x e s = none) :
    exec (.enrolTake x) s = .next (if 5 ≤ e.takes.length + 1 then
      requestJob { pages := [], upd := enrolSlot (e.with x) (takeNoted e x s), who := .enrolSelf } (takeNoted e x s) else takeNoted e x s) := by
  have hlen : (e.with x).takes.length = e.takes.length + 1 := List.length_append
  rw [← hlen]
  show execEnrolTake x s = _
  simp only [execEnrolTake, he, hb, hf]
  rfl

theorem exec_enrolTimeout : exec .enrolTimeout s = .next (settlePor (enrolNote e.slot "state=timeout" (endEnrol s))) := by
  show execEnrolTimeout s = _
  simp only [execEnrolTimeout, he, hb]
  rfl

end

theorem takeNoted_por (e : Enrol) (x : Take) (s : State) : (takeNoted e x s).por.enrol = some (e.with x) := by simp [takeNoted]
theorem takeNoted_ldg (e : Enrol) (x : Take) (s : State) : (takeNoted e x s).ldg = s.ldg := by simp [takeNoted]

/-- Settles O47: each verb's body, and each take by what its faults say of it. -/
theorem enrolment : Obligations.Enrolment := by
  unfold Obligations.Enrolment
  refine ⟨fun c p a e s h h8 hn => ?_, fun c p a e s h h8 => ?_, fun c p a e s h h8 hn => ?_, fun x e s he hb => ⟨fun hf => ?_, fun hf hl => ?_, fun hf hl => ?_, fun hf => ?_, ?_⟩,
    fun c p a e s x h he hx h3 hp hb => ?_, fun c p a e s x h he h3 => ?_, fun c p a e s x h he hx hb => ?_, fun c p a e s h h8 hn => ?_⟩
  · have hb : porEnrolBody c p e s = .ok [] (settlePor (startEnrol (e.nat "slot") s)) := by
      rw [porEnrolBody, if_neg (by omega), if_neg (by simp [hn])]
    exact answersWith_of_body rfl h ⟨_, _, hb, rfl, by simp [startEnrol], by simp [startEnrol], by simp [startEnrol]⟩
  · exact refuses_of_body rfl h (by rw [porEnrolBody, if_pos h8])
  · exact refuses_of_body rfl h (by rw [porEnrolBody, if_neg (by omega), if_pos (Option.isSome_iff_ne_none.mpr hn)])
  · refine ⟨_, exec_enrolTake_joins he hb hf, ?_⟩
    split
    · exact takeNoted_por e x s
    · exact takeNoted_por e x s
  · refine ⟨_, exec_enrolTake_joins he hb hf, ?_⟩
    rw [if_neg (by omega)]
    exact congrArg LdgSt.queue (takeNoted_ldg e x s)
  · refine ⟨_, exec_enrolTake_joins he hb hf, { pages := [], upd := enrolSlot (e.with x) (takeNoted e x s), who := .enrolSelf }, ?_, rfl⟩
    rw [if_pos (by omega)]
    exact congrArg (· ++ _) (congrArg LdgSt.queue (takeNoted_ldg e x s))
  · obtain ⟨w, hw⟩ := Option.ne_none_iff_exists'.mp hf
    exact ⟨_, exec_enrolTake_fault he hb hw, enrolNote_por _ _ _, enrolNote_ldg _ _ _⟩
  · exact ⟨_, exec_enrolTimeout he hb, by simp [endEnrol]⟩
  · refine begins_of_body rfl h ⟨_, ?_, rfl⟩
    simp only [porEnrolDoneBody, he]
    rw [if_neg (by simp [hx, hp]; omega), if_neg (by simp [hb])]
    rfl
  · exact refuses_of_body rfl h (by simp only [porEnrolDoneBody, he]; exact if_pos (.inr (.inl h3)))
  · have hbody : porEnrolAbortBody c p e s = .ok [] (settlePor (endEnrol s)) := by
      unfold porEnrolAbortBody
      simp only [he, Option.any_some, hx, beq_self_eq_true, if_true, hb, Bool.false_eq_true, if_false]
    exact answersWith_of_body rfl h ⟨_, _, hbody, rfl, rfl, rfl⟩
  · exact answersOk_of_body rfl h (by rw [porEnrolWakeBody, if_neg (by omega), if_neg (by simp [hn])])

end Sys2Proof.Machine
end

section
/-! The system's, the fuses', the boot flash's and the memory's verbs (spec 07, 15). -/

namespace Sys2Proof.Machine

/-! ### Bytes of the boot flash -/

theorem Memory.read_eq_find (m : Memory) (a : Nat) : m.read a = ((m.find? fun c => c.1 == a).map (·.2)).getD Memory.blank := by
  induction m with
  | nil => rfl
  | cons c r ih =>
    rw [Memory.read, List.find?_cons]
    by_cases h : c.1 = a
    · simp [h]
    · have hb : (c.1 == a) = false := by simpa using h
      rw [if_neg h, hb]
      exact ih

/-- Reading a table with the entries of some addresses taken out. -/
theorem find?_filter_key {l : List (Nat × Byte)} {p : Nat → Bool} {a : Nat} :
    (l.filter fun e => p e.1).find? (fun e => e.1 == a) = if p a then l.find? (fun e => e.1 == a) else none := by
  rw [List.find?_filter]
  split
  next hp =>
    congr 1
    funext e
    by_cases he : e.1 = a <;> simp [he, hp]
  next hp =>
    rw [List.find?_eq_none]
    intro e _
    by_cases he : e.1 = a <;> simp [he, hp]

/-- An erase leaves the bytes it does not name, and the others read as blank. -/
theorem flashByte_eraseFlash (off len : Nat) (f : Flash) (k : Nat) :
    flashByte (eraseFlash off len f) k = if off ≤ k ∧ k < off + len then 0xFF else flashByte f k := by
  have h := find?_filter_key (l := f.bytes) (p := fun a => !(decide (off ≤ a) && decide (a < off + len))) (a := k)
  unfold flashByte eraseFlash
  dsimp only
  rw [h]
  by_cases hk : off ≤ k ∧ k < off + len
  · simp [hk]
  · have hp : (decide (off ≤ k) && decide (k < off + len)) = false := by simpa using hk
    simp [hp, hk]

/-- The bytes a write of the boot flash enters: those that the memory lists, and the blank ones. -/
def flashCells (off len src : Nat) (m : Memory) : List (Nat × Byte) :=
  ((m.filter fun c => decide (src ≤ c.1) && decide (c.1 < src + len)).map fun c => (off + (c.1 - src), c.2)) ++
    ((List.range len).filter fun k => m.read (src + k) == Memory.blank).map fun k => (off + k, Memory.blank)

theorem listed_find {off len src k : Nat} (m : Memory) (hk : k < len) :
    ((m.filter fun c => decide (src ≤ c.1) && decide (c.1 < src + len)).map fun c => (off + (c.1 - src), c.2)).find? (fun e => e.1 == off + k) =
      (m.find? fun c => c.1 == src + k).map fun c => (off + k, c.2) := by
  induction m with
  | nil => rfl
  | cons c r ih =>
    by_cases hc : c.1 = src + k
    · rw [List.filter_cons_of_pos (by simp [hc, hk]), List.map_cons, List.find?_cons, List.find?_cons]
      simp [hc]
    · rw [List.find?_cons_of_neg (by simpa using hc), ← ih, List.filter_cons]
      split
      next hr =>
        rw [List.map_cons, List.find?_cons_of_neg]
        simp only [Bool.and_eq_true, decide_eq_true_eq] at hr
        simp only [beq_iff_eq]
        omega
      next => rfl

/-- Every address within the write reads as the memory does. -/
theorem flashCells_find {off len src k : Nat} (m : Memory) (hk : k < len) :
    ((flashCells off len src m).find? fun e => e.1 == off + k).map (·.2) = some (m.read (src + k)) := by
  unfold flashCells
  rw [List.find?_append, listed_find m hk, Memory.read_eq_find]
  cases hf : m.find? fun c => c.1 == src + k with
  | some c => simp
  | none =>
    have hread : m.read (src + k) = Memory.blank := by rw [Memory.read_eq_find, hf]; rfl
    have hmem : k ∈ (List.range len).filter fun k => m.read (src + k) == Memory.blank :=
      List.mem_filter.mpr ⟨List.mem_range.mpr hk, by simp [hread]⟩
    have hblank : (((List.range len).filter fun k => m.read (src + k) == Memory.blank).map fun k => (off + k, Memory.blank)).find?
        (fun e => e.1 == off + k) |>.isSome := List.find?_isSome.mpr ⟨_, List.mem_map.mpr ⟨k, hmem, rfl⟩, by simp⟩
    obtain ⟨e, he⟩ := Option.isSome_iff_exists.mp hblank
    obtain ⟨j, -, hj⟩ := List.mem_map.mp (List.mem_of_find?_eq_some he)
    rw [he, ← hj]
    rfl

/-- No address outside the write is among its bytes. -/
theorem flashCells_find_out {off len src a : Nat} (m : Memory) (ha : a < off ∨ off + len ≤ a) :
    (flashCells off len src m).find? (fun e => e.1 == a) = none := by
  rw [List.find?_eq_none]
  intro e he
  unfold flashCells at he
  rcases List.mem_append.mp he with he | he
  · obtain ⟨c, hc, rfl⟩ := List.mem_map.mp he
    have hr := (List.mem_filter.mp hc).2
    simp only [Bool.and_eq_true, decide_eq_true_eq] at hr
    simp only [beq_iff_eq]
    omega
  · obtain ⟨j, hj, rfl⟩ := List.mem_map.mp he
    have hr := List.mem_range.mp (List.mem_filter.mp hj).1
    simp only [beq_iff_eq]
    omega

/-- The flash as a write leaves it: the range erased, then the memory's bytes entered. -/
theorem flashByte_written {off len src : Nat} {f g : Flash} {m : Memory} (hg : g.bytes = (eraseFlash off len f).bytes ++ flashCells off len src m) :
    (∀ k, k < len → flashByte g (off + k) = m.read (src + k)) ∧ ∀ k, (k < off ∨ off + len ≤ k) → flashByte g k = flashByte f k := by
  refine ⟨fun k hk => ?_, fun k hk => ?_⟩
  · have hnone : (eraseFlash off len f).bytes.find? (fun e => e.1 == off + k) = none := by
      have h := find?_filter_key (l := f.bytes) (p := fun a => !(decide (off ≤ a) && decide (a < off + len))) (a := off + k)
      rwa [if_neg (by simp [hk])] at h
    rw [flashByte, hg, List.find?_append, hnone, Option.none_or, flashCells_find m hk]
    rfl
  · have hold := flashByte_eraseFlash off len f k
    rw [if_neg (by omega)] at hold
    rw [← hold, flashByte, hg, List.find?_append, flashCells_find_out m hk, Option.or_none]
    rfl

/-! ### Fuses -/

section

variable {c : Ctx} {p : Pfx} {e : Env} {s : State}

/-- `pwr.fuse sigenf` waits for 1 s of PD2, and blows a fuse that stands. -/
theorem fuseBody_sigenf (hw : e.word? "fuse" = some "sigenf") (hk : e.has "key" = false) (hr : e.has "keyrev" = false) (hs : e.has "src" = false) :
    fuseBody c p e s = if s.sys.pd2Frames < 100 then .err 40 "" s else if s.sys.sigenf then .err 30 "" s
      else .ok [] (s.onSys fun y => { y with sigenf := true }) := by
  have hf : e.has "fuse" = true := by
    unfold Env.word? at hw
    unfold Env.has
    cases hv : e.v "fuse" with
    | none => simp [hv] at hw
    | some x => rfl
  simp only [fuseBody, hf, hk, hr, hs, hw]
  simp [b2n]

/-- `pwr.fuse` of a key slot that stands takes its 32 bytes from memory. -/
theorem fuseBody_key {k x : Nat} (hf : e.has "fuse" = false) (hr : e.has "keyrev" = false) (hk : e.nat? "key" = some k) (hx : e.nat? "src" = some x)
    (hm : s.mem.valid = true) (hu : inUsable x 32 s = true) (h2 : 100 ≤ s.sys.pd2Frames) (hb : s.sys.keyprog.getLsbD k = false) :
    fuseBody c p e s = .ok [] (s.onSys fun y => { y with
      keyprog := setBit y.keyprog k true, keys := tset y.keys k (s.ram.readN x 32) }) := by
  have hw : e.word? "fuse" = none := by
    unfold Env.has at hf
    have hv : e.v "fuse" = none := by simpa using hf
    simp [Env.word?, hv]
  have hhas : e.has "key" = true := by
    obtain ⟨i, hi, -⟩ := Env.nat?_eq_some hk
    simp [Env.has, hi]
  have hkn : e.nat "key" = k := by simp [Env.nat, hk]
  have hxn : e.nat "src" = x := by simp [Env.nat, hx]
  unfold fuseBody
  extract_lets n y blown
  have hn : n = 1 := by simp [n, b2n, hf, hhas, hr]
  have hblown : blown = false := by simp [blown, hw, hhas, hkn, hb, hr, y]
  rw [if_neg (by omega), if_neg (by simp [hhas]), if_neg (by rw [hxn, hu]; simp), if_neg (by simp only [y]; omega), if_neg (by simp [hm]),
    if_neg (by simp [hblown])]
  simp only [hw, hhas, hkn, hxn]
  rfl

end

theorem useDir_sys (f : Flash) (d : Option Bool) (s : State) : (useDir f d s).sys.flash = s.sys.flash ∧
    (d = none → (useDir f d s).sys.store = false ∧ (useDir f d s).sys.dirOf = none) ∧
    ∀ b, d = some b → (useDir f d s).sys.store = true ∧ (useDir f d s).sys.dir = b := by
  cases d with
  | none => exact ⟨rfl, fun _ => ⟨rfl, rfl⟩, fun b h => by cases h⟩
  | some b => exact ⟨rfl, (fun h => by cases h), fun b' h => by cases h; exact ⟨rfl, rfl⟩⟩

theorem flashWriteBody_done {c : Ctx} {p : Pfx} {e : Env} {s : State} {f : Flash} (hf : s.sys.flash = some f)
    (hu : inUsable (e.nat "src") (e.nat "len") s = true) (hr : flashRefuses f (e.nat "off") (e.nat "len") s = none) :
    ∃ g, flashWriteBody c p e s = .ok [] (s.onSys fun y => { y with flash := some g }) ∧
      g.bytes = (eraseFlash (e.nat "off") (e.nat "len") f).bytes ++ flashCells (e.nat "off") (e.nat "len") (e.nat "src") s.ram := by
  unfold flashWriteBody
  simp only [hf, hu, hr, Bool.not_true, Bool.false_eq_true, if_false]
  exact ⟨_, rfl, List.append_assoc _ _ _⟩

/-- Settles O57: each verb's body; the bytes of the boot flash by `flashByte_eraseFlash` and `flashByte_written`. -/
theorem systemCommands : Obligations.SystemCommands := by
  unfold Obligations.SystemCommands
  refine ⟨fun c p a e s h => answersOk_of_body rfl h rfl, fun c p a e s h => answersWith_of_body rfl h ⟨_, _, rfl, rfl, rfl⟩,
    fun c p a e s h => answersWith_of_body rfl h ⟨_, _, rfl, rfl, rfl⟩, fun c p a e s h => answersWith_of_body rfl h ⟨_, _, rfl, rfl, rfl⟩,
    fun c p a e s h => answersWith_of_body rfl h ⟨_, _, rfl, rfl, rfl⟩, fun c p a e s h => answersWith_of_body rfl h ⟨_, _, rfl, rfl, rfl⟩,
    fun c p a e s h hw hk hr hs => ⟨fun hlt => ?_, fun hge hb => ?_, fun hge hb => ?_⟩, fun c p a e s k x h hf hr hk hk4 hx hm hu h2 hb => ?_,
    fun c p a e s h => answersWith_of_body rfl h ⟨_, _, rfl, rfl, rfl⟩, fun c p a e s f h hf => ⟨fun hr => ?_, fun n k hr => ?_⟩,
    fun c p a e s f h hf hu hr hm => ?_, fun c p a e s f h hf => ?_, fun c p a e s h hf => ?_, fun hot s h9 ht => ?_, fun hot s ht => ?_,
    fun c p a e s h h9 => ?_, fun c p a e s h h9 => ?_⟩
  · exact refuses_of_body rfl h ((fuseBody_sigenf hw hk hr hs).trans (if_pos hlt))
  · exact refuses_of_body rfl h ((fuseBody_sigenf hw hk hr hs).trans ((if_neg (by omega)).trans (if_pos hb)))
  · exact answersOk_of_body rfl h ((fuseBody_sigenf hw hk hr hs).trans ((if_neg (by omega)).trans (if_neg (by simp [hb]))))
  · refine answersWith_of_body rfl h ⟨_, _, fuseBody_key hf hr hk hx hm hu h2 hb, rfl, ?_, tget_tset_same _ _ _, rfl, rfl⟩
    show (setBit s.sys.keyprog k true).getLsbD k = true
    rw [getLsbD_setBit, if_pos ⟨rfl, hk4⟩]
  · have hb : flashEraseBody c p e s = .ok [] (s.onSys fun y => { y with flash := some (eraseFlash (e.nat "off") (e.nat "len") f) }) := by
      simp only [flashEraseBody, hf, hr]
    refine answersWith_of_body rfl h ⟨_, _, hb, rfl, _, rfl, fun k hlo hhi => ?_, fun k hk => ?_⟩
    · rw [flashByte_eraseFlash, if_pos ⟨hlo, hhi⟩]
    · rw [flashByte_eraseFlash, if_neg (by omega)]
  · exact refuses_of_body rfl h (by simp only [flashEraseBody, hf, hr])
  · obtain ⟨g, hb, hg⟩ := flashWriteBody_done (c := c) (p := p) hf hu hr
    obtain ⟨hin, hout⟩ := flashByte_written hg
    exact answersWith_of_body rfl h ⟨_, _, hb, rfl, rfl, g, rfl, hin, hout⟩
  · have hb : flashRescanBody c p e s = .ok [spaced (dirFields (useDir f (chooseDir f) s))] (useDir f (chooseDir f) s) := by
      simp only [flashRescanBody, hf]
    obtain ⟨hflash, hnone, hsome⟩ := useDir_sys f (chooseDir f) s
    exact answersWith_of_body rfl h ⟨_, _, hb, rfl, hnone, hsome, hflash⟩
  · exact refuses_of_body rfl h (by simp only [flashRescanBody, hf])
  · refine ⟨_, congrArg Host.Outcome.next (if_pos (by rw [h9, ht]; rfl)), ?_⟩
    dsimp only
    split
    · rw [notify_mem, notify_ram]
      exact ⟨rfl, rfl⟩
    · exact ⟨rfl, rfl⟩
  · exact congrArg Host.Outcome.next (if_neg (by simp [ht]))
  · have hb : ∃ l, memShowBody c p e s = .ok [l] s := by
      unfold memShowBody
      extract_lets m
      rw [if_neg (by simp [h9])]
      exact ⟨_, rfl⟩
    obtain ⟨l, hb⟩ := hb
    exact answersWith_of_body rfl h ⟨_, _, hb, rfl, rfl⟩
  · have hb := (if_neg (by simp [h9]) : memSetBody c p e s = _)
    exact answersWith_of_body rfl h ⟨_, _, hb, rfl, rfl, rfl, rfl, rfl, rfl⟩

end Sys2Proof.Machine
end

section
/-! What switching a domain on or off leaves of the power registers, the system and the Ledger's pages (spec 14). -/

namespace Sys2Proof.Machine

/-- The power registers, the system's state, and the Ledger's pages and map. -/
def State.powerKept (s : State) := (s.pwr, s.sys, s.ldg.phys, s.ldg.map)

section

variable (s : State)

@[simp] theorem State.onClk_powerKept (f : ClkSt → ClkSt) : (s.onClk f).powerKept = s.powerKept := rfl
@[simp] theorem State.onTly_powerKept (f : TlySt → TlySt) : (s.onTly f).powerKept = s.powerKept := rfl
@[simp] theorem State.onEvq_powerKept (f : EvqSt → EvqSt) : (s.onEvq f).powerKept = s.powerKept := rfl
@[simp] theorem State.onDesk_powerKept (f : DeskSt → DeskSt) : (s.onDesk f).powerKept = s.powerKept := rfl
@[simp] theorem State.onWeave_powerKept (f : WeaveSt → WeaveSt) : (s.onWeave f).powerKept = s.powerKept := rfl
@[simp] theorem State.onInn_powerKept (f : InnSt → InnSt) : (s.onInn f).powerKept = s.powerKept := rfl
@[simp] theorem State.onLdr_powerKept (f : LdrSt → LdrSt) : (s.onLdr f).powerKept = s.powerKept := rfl
@[simp] theorem State.onMem_powerKept (f : MemSt → MemSt) : (s.onMem f).powerKept = s.powerKept := rfl
@[simp] theorem State.onCch_powerKept (f : CchSt → CchSt) : (s.onCch f).powerKept = s.powerKept := rfl
@[simp] theorem State.onAud_powerKept (f : AudSt → AudSt) : (s.onAud f).powerKept = s.powerKept := rfl
@[simp] theorem State.onUsb_powerKept (f : UsbSt → UsbSt) : (s.onUsb f).powerKept = s.powerKept := rfl
@[simp] theorem State.onPor_powerKept (f : PorSt → PorSt) : (s.onPor f).powerKept = s.powerKept := rfl
@[simp] theorem State.onHth_powerKept (f : HthSt → HthSt) : (s.onHth f).powerKept = s.powerKept := rfl
@[simp] theorem State.onSess_powerKept (n : Nat) (f : Session → Session) : (s.onSess n f).powerKept = s.powerKept := rfl
@[simp] theorem State.onGuest_powerKept (g : Nat) (f : Guest → Guest) : (s.onGuest g f).powerKept = s.powerKept := rfl
@[simp] theorem State.onWin_powerKept (k : Nat) (f : Window → Window) : (s.onWin k f).powerKept = s.powerKept := rfl
@[simp] theorem State.onStake_powerKept (k : Nat) (f : Stake → Stake) : (s.onStake k f).powerKept = s.powerKept := rfl

@[simp] theorem State.onNet_powerKept (p : Nat) (f : NetSt → NetSt) : (s.onNet p f).powerKept = s.powerKept := by
  simp [State.powerKept]

/-- An update of the Ledger that leaves its pages and its map. -/
theorem State.onLdg_powerKept {f : LdgSt → LdgSt} (h : ∀ d, (f d).phys = d.phys ∧ (f d).map = d.map) : (s.onLdg f).powerKept = s.powerKept := by
  simp [State.powerKept, h]

@[simp] theorem State.forEach_powerKept {α : Type} {l : List α} {f : α → State → State} (h : ∀ a t, (f a t).powerKept = t.powerKept) :
    (s.forEach l f).powerKept = s.powerKept := State.forEach_keeps s State.powerKept l f h

theorem OnlyDesk.powerKept {t : State} (h : OnlyDesk s t) : t.powerKept = s.powerKept := by
  unfold OnlyDesk at h
  rw [h, State.onDesk_powerKept]

end

theorem powerKept_of_edgeKept {s t : State} (h : t.edgeKept = s.edgeKept) : t.powerKept = s.powerKept := by
  simp only [State.edgeKept, Prod.mk.injEq] at h
  obtain ⟨-, hpwr, -, hsys, -, -, -, -, -, -, -, hphys, hmap⟩ := h
  simp only [State.powerKept, hpwr, hsys, hphys, hmap]

@[simp] theorem notify_powerKept (obj rest : String) (s : State) : (notify obj rest s).powerKept = s.powerKept := (notify_only obj rest s).powerKept

@[simp] theorem applyTally_powerKept (n : Nat) (s : State) : (applyTally n s).powerKept = s.powerKept := powerKept_of_edgeKept (by simp)

@[simp] theorem postReady_powerKept (ch : Nat) (on_ cut : Bool) (s : State) : (postReady ch on_ cut s).powerKept = s.powerKept := by
  unfold postReady
  split
  · exact powerKept_of_edgeKept (by simp [postInner])
  · rfl

@[simp] theorem setReady_powerKept (ch : Nat) (on_ cut : Bool) (s : State) : (setReady ch on_ cut s).powerKept = s.powerKept := by
  unfold setReady
  split
  · rfl
  · simp [State.onChan]

@[simp] theorem toState_powerKept (ch : Nat) (st : HState) (cut : Bool) (s : State) : (toState ch st cut s).powerKept = s.powerKept := by
  unfold toState
  split
  · rfl
  · dsimp only
    split <;> simp [State.onChan]

@[simp] theorem endSession_powerKept (k : Nat) (s : State) : (endSession k s).powerKept = s.powerKept := by
  simp only [endSession]
  split
  · rw [notify_powerKept, State.onEvq_powerKept, State.onLdg_powerKept _ (by intro; exact ⟨rfl, rfl⟩), State.onDesk_powerKept, State.onSess_powerKept]
  · rfl

/-! ### Domains off -/

@[simp] theorem hearthOff_powerKept (s : State) : (hearthOff s).powerKept = s.powerKept := by
  simp only [hearthOff, State.onHth_powerKept]
  exact State.forEach_powerKept s fun n t => toState_powerKept n .off false t

@[simp] theorem pd5Off_powerKept (s : State) : (pd5Off s).powerKept = s.powerKept := by simp [pd5Off, usbDetach]

@[simp] theorem netOff_powerKept (p : Nat) (s : State) : (netOff p s).powerKept = s.powerKept := by
  simp only [netOff, State.onNet_powerKept, State.onAud_powerKept]
  exact State.forEach_powerKept s fun k t => by split <;> simp

@[simp] theorem clocksOff_powerKept (d : Nat) (s : State) : (clocksOff d s).powerKept = s.powerKept :=
  State.forEach_powerKept s fun _ _ => rfl

@[simp] theorem pd1Off_powerKept (s : State) : (pd1Off s).powerKept = s.powerKept := rfl
@[simp] theorem pd3Off_powerKept (s : State) : (pd3Off s).powerKept = s.powerKept := rfl

@[simp] theorem pd8Off_powerKept (s : State) : (pd8Off s).powerKept = s.powerKept :=
  State.forEach_powerKept s fun r t => by
    unfold leftOpen
    split <;> simp

@[simp] theorem pd9Off_powerKept (s : State) : (pd9Off s).powerKept = s.powerKept := by
  unfold pd9Off
  extract_lets a b
  have ha : a.powerKept = s.powerKept := State.forEach_powerKept s fun _ _ => rfl
  have hb : b.powerKept = a.powerKept := State.forEach_powerKept a fun _ _ => rfl
  exact hb.trans ha

@[simp] theorem pd10Off_powerKept (s : State) : (pd10Off s).powerKept = s.powerKept := by
  unfold pd10Off
  extract_lets a b
  have ha : a.powerKept = s.powerKept := State.forEach_powerKept s fun _ _ => rfl
  unfold takeLeft
  split
  · rw [applyTally_powerKept]
    exact ha
  · exact ha

@[simp] theorem pd11Off_powerKept (s : State) : (pd11Off s).powerKept = s.powerKept := rfl

@[simp] theorem dropPlan_powerKept (p : Plan) (s : State) : (dropPlan p s).powerKept = s.powerKept := by
  unfold dropPlan
  extract_lets a b
  have ha : a.powerKept = s.powerKept := State.forEach_powerKept s fun _ _ => rfl
  have hb : b.powerKept = a.powerKept := State.forEach_powerKept a fun _ _ => rfl
  exact hb.trans ha

@[simp] theorem quadOff_powerKept (q : Nat) (s : State) : (quadOff q s).powerKept = s.powerKept := by
  unfold quadOff
  extract_lets a b
  exact State.forEach_powerKept s fun p t => dropPlan_powerKept p t

/-! ### The Ledger's pages through a loss of power -/

/-- What the logical pages read from. -/
def State.pages (s : State) := (s.ldg.phys, s.ldg.map)

theorem pages_of_powerKept {s t : State} (h : t.powerKept = s.powerKept) : t.pages = s.pages := congrArg (·.2.2) h

theorem pd2Off_pages (s : State) : (pd2Off s).pages = s.pages := by
  unfold pd2Off
  extract_lets a b c
  have ha : a.pages = s.pages := by
    simp only [a]
    split <;> rfl
  exact ha

/-- A domain that goes off is switched off in PWR_DOM, and its clocks stop, between what its blocks lose before and after. -/
def domOffBefore (d : Nat) (s : State) : State :=
  match d with
  | 4 => hearthOff s
  | 5 => pd5Off s
  | 6 => netOff 0 s
  | 7 => netOff 1 s
  | _ => s

def domOffAfter (d : Nat) (s : State) : State :=
  match d with
  | 1 => pd1Off s
  | 2 => pd2Off s
  | 3 => pd3Off s
  | 8 => pd8Off s
  | 9 => pd9Off s
  | 10 => pd10Off s
  | 11 => pd11Off s
  | 12 => quadOff 0 s
  | 13 => quadOff 1 s
  | 14 => quadOff 2 s
  | 15 => quadOff 3 s
  | _ => s

theorem domOff_eq (d : Nat) (s : State) :
    domOff d s = if !s.on d then s else domOffAfter d (clocksOff d (setDom d false (domOffBefore d s))) := rfl

theorem domOffBefore_powerKept (d : Nat) (s : State) : (domOffBefore d s).powerKept = s.powerKept := by
  unfold domOffBefore
  split <;> simp

theorem domOffAfter_powerKept {d : Nat} (h : d ≠ 2) (s : State) : (domOffAfter d s).powerKept = s.powerKept := by
  unfold domOffAfter
  split
  case h_2 => exact absurd rfl h
  all_goals simp

theorem domOff_pages (d : Nat) (s : State) : (domOff d s).pages = s.pages := by
  rw [domOff_eq]
  split
  · rfl
  · have hset : (clocksOff d (setDom d false (domOffBefore d s))).pages = s.pages :=
      (pages_of_powerKept (clocksOff_powerKept d (setDom d false (domOffBefore d s)))).trans
        (pages_of_powerKept (domOffBefore_powerKept d s) : (domOffBefore d s).pages = s.pages)
    by_cases h : d = 2
    · subst h
      exact (pd2Off_pages _).trans hset
    · exact (pages_of_powerKept (domOffAfter_powerKept h _)).trans hset

theorem cutAll_pages (s : State) : (cutAll s).pages = s.pages :=
  State.forEach_keeps (s.onDesk _) State.pages offOrder (fun d s => domOff d s) fun d t => domOff_pages d t

theorem gaugeCheck_powerKept (mv : Nat) (s : State) : (gaugeCheck mv s).powerKept = s.powerKept := rfl

theorem entryCheck_powerKept (s : State) : (entryCheck s).powerKept = s.powerKept := by
  unfold entryCheck
  split
  · exact gaugeCheck_powerKept _ _
  · rfl

theorem dropEnrol_powerKept (s : State) : (dropEnrol s).powerKept = s.powerKept := by
  unfold dropEnrol
  split <;> rfl

/-- A reset leaves the Ledger's pages as far as they were written. -/
theorem pinCut_pages (s : State) : (pinCut s).pages = s.pages := by
  have h : (dropEnrol (hearthOff (entryCheck s))).pages = s.pages := by
    refine pages_of_powerKept ?_
    rw [dropEnrol_powerKept, hearthOff_powerKept, entryCheck_powerKept]
  exact (cutAll_pages (dropEnrol (hearthOff (entryCheck s)))).trans h

end Sys2Proof.Machine
end

section
/-! The Ledger's pages and a commit cut before its word (spec 12 R514 to R519, R527 to R530). -/

namespace Sys2Proof.Machine

/-! ### Physical pages -/

@[simp] theorem State.onPhys_phys (s : State) (k : Nat) (f : PhysPage → PhysPage) : (s.onPhys k f).phys k = f (s.phys k) := by
  simp [State.onPhys, State.phys]

theorem State.onPhys_phys_ne {j k : Nat} (h : j ≠ k) (s : State) (f : PhysPage → PhysPage) : (s.onPhys k f).phys j = s.phys j := by
  simp [State.onPhys, State.phys, tmod, tgetD_tset_ne _ _ _ _ _ h]

theorem physOf_of_pages {s t : State} (h : t.pages = s.pages) (l : Nat) : t.physOf l = s.physOf l := by
  have hm : t.ldg.map = s.ldg.map := congrArg (·.2) h
  unfold State.physOf
  rw [hm]

theorem phys_of_pages {s t : State} (h : t.pages = s.pages) (k : Nat) : t.phys k = s.phys k := by
  have hp : t.ldg.phys = s.ldg.phys := congrArg (·.1) h
  unfold State.phys
  rw [hp]

theorem pageBytes_of_pages {s t : State} (h : t.pages = s.pages) (l : Nat) : pageBytes l t = pageBytes l s := by
  unfold pageBytes
  rw [physOf_of_pages h, phys_of_pages h]

/-- The pages, the map and the spares used. -/
def State.pageState (s : State) := (s.ldg.phys, s.ldg.map, s.ldg.sparesUsed)

theorem pages_of_pageState {s t : State} (h : t.pageState = s.pageState) : t.pages = s.pages := by
  simp only [State.pageState, Prod.mk.injEq] at h
  simp only [State.pages, h.1, h.2.1]

theorem phys_of_pageState {s t : State} (h : t.pageState = s.pageState) (k : Nat) : t.phys k = s.phys k := phys_of_pages (pages_of_pageState h) k

theorem OnlyDesk.pageState {s t : State} (h : OnlyDesk s t) : t.pageState = s.pageState := by
  unfold OnlyDesk at h
  rw [h]
  rfl

@[simp] theorem notify_pageState (obj rest : String) (s : State) : (notify obj rest s).pageState = s.pageState := (notify_only obj rest s).pageState

theorem pushLog_pageState (e : LogEntry) (s : State) : (pushLog e s).pageState = s.pageState := by
  simp only [State.pageState, pushLog, State.onLdg_ldg]
  split <;> split <;> rfl

@[simp] theorem logEv_pageState (src code evseq arg arg2 : Nat) (s : State) : (logEv src code evseq arg arg2 s).pageState = s.pageState :=
  pushLog_pageState _ s

/-! ### What an operation on one page leaves -/

/-- From `s` to `t` only page `k` changes. -/
structure OnlyPage (k : Nat) (s t : State) : Prop where
  map : t.ldg.map = s.ldg.map
  spares : t.ldg.sparesUsed = s.ldg.sparesUsed
  others : ∀ j, j ≠ k → t.phys j = s.phys j

theorem OnlyPage.of_pageState {k : Nat} {s t : State} (h : t.pageState = s.pageState) : OnlyPage k s t := by
  refine ⟨congrArg (·.2.1) h, congrArg (·.2.2) h, fun j _ => phys_of_pageState h j⟩

theorem OnlyPage.trans {k : Nat} {s t u : State} (h : OnlyPage k s t) (h' : OnlyPage k t u) : OnlyPage k s u :=
  ⟨h'.map.trans h.map, h'.spares.trans h.spares, fun j hj => (h'.others j hj).trans (h.others j hj)⟩

theorem OnlyPage.onPhys (k : Nat) (f : PhysPage → PhysPage) (s : State) : OnlyPage k s (s.onPhys k f) :=
  ⟨rfl, rfl, fun _ hj => State.onPhys_phys_ne hj s f⟩

/-- The wear counts of a stage. -/
def wearCount (stage : Nat) (d : LdgSt) : LdgSt :=
  match stage with
  | 1 => { d with cW1 := satInc d.cW1 }
  | 2 => { d with cW2 := satInc d.cW2 }
  | _ => { d with cW3 := satInc d.cW3 }

theorem wearCount_pageState (stage : Nat) (s : State) : (s.onLdg (wearCount stage)).pageState = s.pageState := by
  unfold wearCount State.pageState
  simp only [State.onLdg_ldg]
  split <;> rfl

/-- A page's record of a wear stage. -/
def worn (stage : Nat) (x : PhysPage) : PhysPage := { x with
  stage := if x.stage.toNat < stage then BitVec.ofNat 2 stage else x.stage
  stages := (List.range 3).map fun i => x.stages.getD i 0 + b2n (i + 1 == stage) }

theorem wear_pageState (k stage part : Nat) (s : State) : (wear k stage part s).pageState = (s.onPhys k (worn stage)).pageState := by
  unfold wear
  rw [notify_pageState]
  exact wearCount_pageState stage (s.onPhys k (worn stage))

theorem wear_page (k stage part : Nat) (s : State) : OnlyPage k s (wear k stage part s) ∧ ((wear k stage part s).phys k).role = (s.phys k).role := by
  have h := wear_pageState k stage part s
  refine ⟨(OnlyPage.onPhys k (worn stage) s).trans (.of_pageState h), ?_⟩
  rw [phys_of_pageState h, State.onPhys_phys]
  rfl

/-- The page as it is written. -/
def writtenPage (img : List Byte) (part f : Nat) (x : PhysPage) : PhysPage := { x with
  writes := satAdd x.writes (1 + min f 3), data := packPage img, voice := part == 1 || part == 2, bad := false, lost := false }

/-- A page written, before its verify is judged. -/
def writeTried (k : Nat) (img : List Byte) (part f : Nat) (s : State) : State :=
  if f = 0 then s.onPhys k (writtenPage img part f) else wear k 2 part (s.onPhys k (writtenPage img part f))

theorem writePhys_eq (k : Nat) (img : List Byte) (part f : Nat) (residue : Bool) (s : State) : writePhys k img part f residue s =
    if f ≤ 3 then (writeTried k img part f s, true) else (retire k residue (wear k 3 part (writeTried k img part f s)), false) := rfl

theorem writeTried_page (k : Nat) (img : List Byte) (part f : Nat) (s : State) :
    OnlyPage k s (writeTried k img part f s) ∧ ((writeTried k img part f s).phys k).role = (s.phys k).role := by
  have hp := OnlyPage.onPhys k (writtenPage img part f) s
  have hr : ((s.onPhys k (writtenPage img part f)).phys k).role = (s.phys k).role := by
    rw [State.onPhys_phys]
    rfl
  unfold writeTried
  split
  · exact ⟨hp, hr⟩
  · obtain ⟨hw, hwr⟩ := wear_page k 2 part (s.onPhys k (writtenPage img part f))
    exact ⟨hp.trans hw, hwr.trans hr⟩

/-! ### What a batch leaves while its word is not written -/

/-- From `s` to `t` the map and every serving page of `s` stand. -/
structure Serving (s t : State) : Prop where
  map : t.ldg.map = s.ldg.map
  pages : ∀ k, (s.phys k).role = .serves → t.phys k = s.phys k

/-- The spares that have not joined the pool are spares. -/
def SparesKept (t : State) : Prop := ∀ k, k < physCount → 2080 + t.ldg.sparesUsed ≤ k → (t.phys k).role = .spare

theorem Serving.refl (s : State) : Serving s s := ⟨rfl, fun _ _ => rfl⟩

theorem Serving.not_serves {s t : State} (h : Serving s t) {k : Nat} (hk : (t.phys k).role ≠ .serves) : (s.phys k).role ≠ .serves := fun hs =>
  hk (by rw [h.pages k hs, hs])

theorem Serving.of_page {s t u : State} {k : Nat} (h : Serving s t) (hk : (s.phys k).role ≠ .serves) (hu : OnlyPage k t u) : Serving s u :=
  ⟨hu.map.trans h.map, fun j hj => by
    by_cases hjk : j = k
    · exact absurd (hjk ▸ hj) hk
    · rw [hu.others j hjk, h.pages j hj]⟩

theorem Serving.of_pageState {s t u : State} (h : Serving s t) (hu : u.pageState = t.pageState) : Serving s u :=
  ⟨(congrArg (·.2.1) hu : u.ldg.map = t.ldg.map).trans h.map, fun k hk => (phys_of_pageState hu k).trans (h.pages k hk)⟩

theorem SparesKept.of_page {t u : State} {k : Nat} (h : SparesKept t) (hk : (t.phys k).role ≠ .spare) (hu : OnlyPage k t u) : SparesKept u := by
  intro j hj hs
  rw [hu.spares] at hs
  by_cases hjk : j = k
  · exact absurd (hjk ▸ h j hj hs) hk
  · rw [hu.others j hjk]
    exact h j hj hs

theorem SparesKept.of_pageState {t u : State} (h : SparesKept t) (hu : u.pageState = t.pageState) : SparesKept u := by
  intro j hj hs
  have hused : u.ldg.sparesUsed = t.ldg.sparesUsed := congrArg (·.2.2) hu
  rw [hused] at hs
  rw [phys_of_pageState hu]
  exact h j hj hs

/-- A spare joins the pool. -/
def joinSpare (s : State) : State :=
  (s.onPhys (2080 + s.ldg.sparesUsed) fun x => { x with role := .pool }).onLdg fun d => { d with sparesUsed := d.sparesUsed + 1 }

theorem joinSpare_phys_ne {j : Nat} {s : State} (h : j ≠ 2080 + s.ldg.sparesUsed) : (joinSpare s).phys j = s.phys j :=
  State.onPhys_phys_ne h s fun x => { x with role := .pool }

theorem joinSpare_kept {s t : State} (h : Serving s t) (hs : SparesKept t) (hlt : t.ldg.sparesUsed < 64) :
    Serving s (joinSpare t) ∧ SparesKept (joinSpare t) := by
  have hspare := hs (2080 + t.ldg.sparesUsed) (by unfold physCount; omega) (Nat.le_refl _)
  have hpage := OnlyPage.onPhys (2080 + t.ldg.sparesUsed) (fun x => { x with role := .pool }) t
  have hserve := h.of_page (h.not_serves (by rw [hspare]; simp)) hpage
  refine ⟨⟨hserve.map, hserve.pages⟩, fun j hj hjs => ?_⟩
  have hjs' : 2080 + (t.ldg.sparesUsed + 1) ≤ j := hjs
  have hne : j ≠ 2080 + t.ldg.sparesUsed := by omega
  rw [joinSpare_phys_ne hne]
  exact hs j hj (by omega)

/-- What is said of a page's residue, or its zeroing. -/
def scrub (k : Nat) (residue : Bool) (s : State) : State :=
  if (s.phys k).voice then
    if residue then
      logEv 9 0x0201 0 k 0 (notify "ldg" ("residue " ++ kn "page" k)
        ((s.onPhys k fun x => { x with writes := satInc x.writes }).onPhys k fun x => { x with residue := true }))
    else (s.onPhys k fun x => { x with writes := satInc x.writes }).onPhys k fun x => { x with data := [], voice := false }
  else s

theorem scrub_page (k : Nat) (residue : Bool) (s : State) : OnlyPage k s (scrub k residue s) := by
  unfold scrub
  split
  · split
    · exact ((OnlyPage.onPhys k _ s).trans (OnlyPage.onPhys k _ _)).trans (.of_pageState (by rw [logEv_pageState, notify_pageState]))
    · exact (OnlyPage.onPhys k _ s).trans (OnlyPage.onPhys k _ _)
  · exact .of_pageState rfl

/-- The page retired. -/
def retired (k : Nat) (s : State) : State := (s.onPhys k fun x => { x with role := .retired }).onLdg fun d => { d with retired := satInc d.retired }

theorem retire_eq (k : Nat) (residue : Bool) (s : State) : retire k residue s = scrub k residue
    (if (retired k s).ldg.sparesUsed < 64 then
      if (joinSpare (retired k s)).ldg.sparesUsed = 64 then notify "ldg" "spares left=0" (joinSpare (retired k s)) else joinSpare (retired k s)
    else retired k s) := rfl

theorem retire_kept {s t : State} {k : Nat} (residue : Bool) (h : Serving s t) (hs : SparesKept t) (hk : (t.phys k).role ≠ .serves)
    (hsp : (t.phys k).role ≠ .spare) : Serving s (retire k residue t) ∧ SparesKept (retire k residue t) := by
  have hns := h.not_serves hk
  have hpage : OnlyPage k t (retired k t) := ⟨rfl, rfl, (OnlyPage.onPhys k (fun x => { x with role := .retired }) t).others⟩
  have hr : Serving s (retired k t) := h.of_page hns hpage
  have hrs : SparesKept (retired k t) := hs.of_page hsp hpage
  have hrole : ((retired k t).phys k).role = .retired := congrArg PhysPage.role (State.onPhys_phys t k fun x => { x with role := .retired })
  rw [retire_eq]
  have hjoin : ∀ u, Serving s u → SparesKept u → (u.phys k).role = .retired → Serving s (scrub k residue u) ∧ SparesKept (scrub k residue u) :=
    fun u hu hus hur => ⟨hu.of_page hns (scrub_page k residue u), hus.of_page (by rw [hur]; simp) (scrub_page k residue u)⟩
  split
  next hlt =>
    obtain ⟨hj, hjs⟩ := joinSpare_kept hr hrs hlt
    have hjr : ((joinSpare (retired k t)).phys k).role = .retired := by
      have hne : k ≠ 2080 + (retired k t).ldg.sparesUsed := by
        intro heq
        have := hrs k (by rw [heq]; unfold physCount; omega) (by omega)
        rw [hrole] at this
        simp at this
      rw [joinSpare_phys_ne hne, hrole]
    split
    · exact hjoin _ (hj.of_pageState (by simp)) (hjs.of_pageState (by simp)) (by rw [phys_of_pageState (notify_pageState _ _ _), hjr])
    · exact hjoin _ hj hjs hjr
  · exact hjoin _ hr hrs hrole

/-- A page that is neither serving nor a spare, written. -/
theorem writePhys_kept {s t : State} {k : Nat} (img : List Byte) (part f : Nat) (residue : Bool) (h : Serving s t) (hs : SparesKept t)
    (hk : (t.phys k).role = .transit) :
    Serving s (writePhys k img part f residue t).1 ∧ SparesKept (writePhys k img part f residue t).1 := by
  have hns := h.not_serves (k := k) (by rw [hk]; simp)
  obtain ⟨hpage, hrole⟩ := writeTried_page k img part f t
  rw [writePhys_eq]
  split
  · exact ⟨h.of_page hns hpage, hs.of_page (by rw [hk]; simp) hpage⟩
  · obtain ⟨hw, hwr⟩ := wear_page k 3 part (writeTried k img part f t)
    have hall := hpage.trans hw
    have hr : ((wear k 3 part (writeTried k img part f t)).phys k).role = .transit := by rw [hwr, hrole, hk]
    exact retire_kept residue (h.of_page hns hall) (hs.of_page (by rw [hk]; simp) hall) (by rw [hr]; simp) (by rw [hr]; simp)

/-! ### The pool -/

/-- The pool's pick so far, and the next page looked at. -/
def pickStep (s : State) (best : Option Nat) (k : Nat) : Option Nat :=
  if (s.phys k).role == .pool then
    match best with
    | some b => if (s.phys k).writes.toNat < (s.phys b).writes.toNat then some k else best
    | none => some k
  else best

theorem poolPick_eq (s : State) : poolPick s = (List.range physCount).foldl (pickStep s) none := rfl

theorem pickStep_pool {s : State} {best : Option Nat} {k : Nat} (h : ∀ b, best = some b → (s.phys b).role = .pool) :
    ∀ b, pickStep s best k = some b → (s.phys b).role = .pool := by
  intro b hb
  unfold pickStep at hb
  split at hb
  next hk =>
    split at hb
    · split at hb
      · cases hb
        simpa using hk
      · exact h b hb
    · cases hb
      simpa using hk
  · exact h b hb

theorem foldl_pick_pool {s : State} (l : List Nat) {best : Option Nat} (h : ∀ b, best = some b → (s.phys b).role = .pool) :
    ∀ b, l.foldl (pickStep s) best = some b → (s.phys b).role = .pool := by
  induction l generalizing best with
  | nil => exact h
  | cons k r ih => exact ih (pickStep_pool h)

theorem poolPick_pool {s : State} {k : Nat} (h : poolPick s = some k) : (s.phys k).role = .pool :=
  foldl_pick_pool _ (fun _ hb => by cases hb) k h

theorem pickStep_isSome {s : State} {best : Option Nat} {k : Nat} (h : best.isSome ∨ (s.phys k).role = .pool) : (pickStep s best k).isSome := by
  unfold pickStep
  rcases h with h | h
  · split
    · split
      · split
        · rfl
        · exact h
      · rfl
    · exact h
  · rw [h]
    simp only [beq_self_eq_true, if_true]
    split
    · split <;> rfl
    · rfl

theorem foldl_pick_isSome {s : State} (l : List Nat) {best : Option Nat} (h : best.isSome ∨ ∃ k ∈ l, (s.phys k).role = .pool) :
    (l.foldl (pickStep s) best).isSome := by
  induction l generalizing best with
  | nil =>
    rcases h with h | ⟨k, hk, -⟩
    · exact h
    · cases hk
  | cons k r ih =>
    refine ih ?_
    rcases h with h | ⟨j, hj, hp⟩
    · exact .inl (pickStep_isSome (.inl h))
    · rcases List.mem_cons.mp hj with rfl | hj
      · exact .inl (pickStep_isSome (.inr hp))
      · exact .inr ⟨j, hj, hp⟩

theorem poolPick_isSome {s : State} {k : Nat} (hk : k < physCount) (h : (s.phys k).role = .pool) : (poolPick s).isSome :=
  foldl_pick_isSome _ (.inr ⟨k, List.mem_range.mpr hk, h⟩)

/-! ### Pages placed -/

theorem placePage_kept {s : State} (tries l : Nat) (img : List Byte) (fails : List Nat) (residue : Bool) {t : State} (h : Serving s t) (hs : SparesKept t) :
    let r := placePage tries l img fails residue t
    Serving s r.1 ∧ SparesKept r.1 ∧ ∀ k, r.2.2 = some k → (s.phys k).role ≠ .serves := by
  induction tries generalizing t fails with
  | zero => exact ⟨h, hs, fun _ hk => by cases hk⟩
  | succ n ih =>
    rw [placePage_succ]
    cases hp : poolPick t with
    | none => exact ⟨h, hs, fun _ hk => by cases hk⟩
    | some k =>
      have hpool := poolPick_pool hp
      have hns := h.not_serves (k := k) (by rw [hpool]; simp)
      have hpage := OnlyPage.onPhys k (fun x => { x with role := .transit }) t
      obtain ⟨hw, hws⟩ := writePhys_kept img (partOf l) (nextFail fails).1 residue (h.of_page hns hpage) (hs.of_page (by rw [hpool]; simp) hpage)
        (k := k) (by rw [State.onPhys_phys])
      dsimp only
      split
      · exact ⟨hw, hws, fun j hj => by cases hj; exact hns⟩
      · exact ih _ hw hws

theorem placeAll_kept {s : State} (pages : List (Nat × List Byte)) (pairs : List (Nat × Nat)) (fails : List Nat) (residue : Bool) {t : State}
    (h : Serving s t) (hs : SparesKept t) (hp : ∀ p ∈ pairs, (s.phys p.2).role ≠ .serves) :
    let r := placeAll pages pairs fails residue t
    Serving s r.1 ∧ ∀ p ∈ r.2.2.1, (s.phys p.2).role ≠ .serves := by
  induction pages generalizing t pairs fails with
  | nil => exact ⟨h, hp⟩
  | cons x r ih =>
    obtain ⟨l, img⟩ := x
    obtain ⟨h', hs', hk⟩ := placePage_kept 2 l img fails residue h hs
    rw [placeAll_cons]
    generalize placePage 2 l img fails residue t = q at h' hs' hk
    obtain ⟨u, fails', o⟩ := q
    cases o with
    | none => exact ⟨h', hp⟩
    | some k =>
      refine ih _ _ h' hs' fun p hmem => ?_
      rcases List.mem_append.mp hmem with hmem | hmem
      · exact hp p hmem
      · rw [List.mem_singleton] at hmem
        rw [hmem]
        exact hk k rfl

theorem toPool_kept {s : State} (ks : List Nat) {t : State} (h : Serving s t) (hk : ∀ k ∈ ks, (s.phys k).role ≠ .serves) : Serving s (toPool ks t) := by
  induction ks generalizing t with
  | nil => exact h
  | cons k r ih =>
    exact ih (h.of_page (hk k List.mem_cons_self) (OnlyPage.onPhys k _ t)) fun j hj => hk j (List.mem_cons_of_mem k hj)

theorem writeJournal_pageState (j : Journal) (s : State) : (writeJournal j s).pageState = s.pageState := by
  simp only [writeJournal, State.pageState, State.onLdg_ldg]
  split
  · rfl
  · rfl
  · split <;> rfl

/-- A batch that is cut before its word, or fails, leaves the map and every serving page; it is never done. -/
theorem commitBatch_kept {s : State} (pages : List (Nat × List Byte)) (zeroAll : Bool) (atWord : State → State) (fails : List Nat) {upto : CommitEnd}
    (residue : Bool) (hu : upto = .beforeJournal ∨ upto = .beforeWord) {t : State} (h : Serving s t) (hs : SparesKept t) :
    let r := commitBatch pages zeroAll atWord fails upto residue t
    Serving s r.1 ∧ ∀ n, r.2.2 ≠ .done n := by
  obtain ⟨h', hp⟩ := placeAll_kept pages [] fails residue h hs (fun _ hp => by cases hp)
  rw [commitBatch]
  generalize placeAll pages [] fails residue t = q at h' hp
  obtain ⟨u, fails', pairs, ok⟩ := q
  cases ok with
  | false =>
    refine ⟨?_, fun n hn => by cases hn⟩
    have := toPool_kept (pairs.map (·.2)) h' fun k hk => by
      obtain ⟨p, hpm, rfl⟩ := List.mem_map.mp hk
      exact hp p hpm
    exact ⟨this.map, this.pages⟩
  | true =>
    dsimp only
    by_cases hj : upto = .beforeJournal
    · rw [if_pos hj]
      exact ⟨h', fun n hn => by cases hn⟩
    · rw [if_neg hj, if_pos (hu.resolve_left hj)]
      exact ⟨h'.of_pageState (writeJournal_pageState _ u), fun n hn => by cases hn⟩

theorem commitMany_kept {s : State} (fuel : Nat) (pages : List (Nat × List Byte)) (zeroAll : Bool) (atWord : State → State) (n : Nat) (fails : List Nat)
    {upto : CommitEnd} (residue : Bool) (hu : upto = .beforeJournal ∨ upto = .beforeWord) {t : State} (h : Serving s t) (hs : SparesKept t) :
    Serving s (commitMany fuel pages zeroAll atWord n fails upto residue t).1 := by
  cases fuel with
  | zero => exact h
  | succ f =>
    rw [commitMany]
    obtain ⟨h', hd⟩ := commitBatch_kept (pages.take 16) zeroAll (if (pages.drop 16).isEmpty then atWord else id) fails residue hu h hs
    generalize commitBatch (pages.take 16) zeroAll (if (pages.drop 16).isEmpty then atWord else id) fails upto residue t = q at h' hd
    obtain ⟨u, fails', c⟩ := q
    cases c with
    | done k => exact absurd rfl (hd k)
    | failed e => exact h'
    | cut => exact h'

theorem runJob_kept {s : State} (j : LJob) (fails : List Nat) {upto : CommitEnd} (residue : Bool) (hu : upto = .beforeJournal ∨ upto = .beforeWord)
    {t : State} (h : Serving s t) (hs : SparesKept t) : Serving s (runJob j fails upto residue t).1 := by
  unfold runJob
  split
  · exact ⟨h.map, h.pages⟩
  · exact commitMany_kept _ _ _ _ _ _ residue hu h hs

/-- The answer of a batch is the Desk's. -/
theorem answerJob_batch_only {j : LJob} {n : Nat} (hw : j.who = .batch n) (c : Commit) (s : State) : OnlyDesk s (answerJob j c s) := by
  unfold answerJob
  rw [hw]
  cases c with
  | done k => exact finishSess_only _ _ _
  | cut => exact OnlyDesk.refl s
  | failed e =>
    dsimp only
    split
    · exact (OnlyDesk.onSess _ _ _).trans (finishSess_only _ _ _)
    · exact finishSess_only _ _ _

theorem Serving.pageBytes {s t : State} (h : Serving s t) {l : Nat} (hl : (s.phys (s.physOf l)).role = .serves) : pageBytes l t = pageBytes l s := by
  have hof : t.physOf l = s.physOf l := by
    unfold State.physOf
    rw [h.map]
  unfold Sys2Proof.Machine.pageBytes
  rw [hof, h.pages _ hl]

/-- The front commit, and what follows it. -/
theorem exec_ledgerCommit {j : LJob} {r : List LJob} {s : State} (fails : List Nat) (upto : CommitEnd) (residue : Bool) (h1 : s.on 1 = true)
    (hr : s.ldg.ready = true) (hq : s.ldg.queue = j :: r) :
    exec (.ledgerCommit fails upto residue) s = .next (
      let q := runJob j fails upto residue (s.onLdg fun d => { d with queue := r })
      match q.2 with
      | .cut => pinCut q.1
      | c => answerJob j c q.1) := by
  show execLedgerCommit fails upto residue s = _
  unfold execLedgerCommit runFirst
  rw [if_pos h1, hr, if_pos rfl, hq]
  dsimp only
  generalize runJob j fails upto residue (s.onLdg fun d => { d with queue := r }) = q
  obtain ⟨u, c⟩ := q
  cases c <;> rfl

theorem ledgerCommit_cut {j : LJob} {r : List LJob} {n : Nat} {s : State} (fails : List Nat) {upto : CommitEnd} (residue : Bool)
    (hu : upto = .beforeJournal ∨ upto = .beforeWord) (h1 : s.on 1 = true) (hr : s.ldg.ready = true) (hq : s.ldg.queue = j :: r) (hw : j.who = .batch n)
    (hserve : ∀ l, l < 2048 → (s.phys (s.physOf l)).role = .serves) (hspare : SparesKept s) :
    Gives (.ledgerCommit fails upto residue) s fun t => ∀ l, l < 2048 → pageBytes l t = pageBytes l s := by
  refine ⟨_, exec_ledgerCommit fails upto residue h1 hr hq, fun l hl => ?_⟩
  have hkept := runJob_kept j fails residue hu (s := s) (t := s.onLdg fun d => { d with queue := r }) ⟨rfl, fun _ _ => rfl⟩ hspare
  generalize runJob j fails upto residue (s.onLdg fun d => { d with queue := r }) = q at hkept
  obtain ⟨u, c⟩ := q
  have hbytes := hkept.pageBytes (hserve l hl)
  cases c with
  | cut => exact (pageBytes_of_pages (pinCut_pages u) l).trans hbytes
  | done k => exact (pageBytes_of_pages (pages_of_pageState (answerJob_batch_only hw _ u).pageState) l).trans hbytes
  | failed e => exact (pageBytes_of_pages (pages_of_pageState (answerJob_batch_only hw _ u).pageState) l).trans hbytes

end Sys2Proof.Machine
end

section
/-! A commit that runs to its end (spec 12 R516): the pages it places, the map it enters, and the pages it gives back. -/

namespace Sys2Proof.Machine

/-! ### What a commit leaves beside the pages -/

/-- The state without the Ledger's pages, map, commit counts and journal. -/
def State.besidePages (s : State) : State := s.onLdg fun d => { d with
  phys := [], map := [], commits := [], journal0 := none, journal1 := none, jseq := 0 }

@[simp] theorem State.onPhys_besidePages (s : State) (k : Nat) (f : PhysPage → PhysPage) : (s.onPhys k f).besidePages = s.besidePages := rfl

theorem writeJournal_besidePages (j : Journal) (s : State) : (writeJournal j s).besidePages = s.besidePages := by
  unfold writeJournal State.besidePages
  simp only [State.onLdg]
  split
  · rfl
  · rfl
  · split <;> rfl

theorem onNewJournal_kept (f : Journal → Journal) (s : State) :
    (onNewJournal f s).besidePages = s.besidePages ∧ (onNewJournal f s).pageState = s.pageState := by
  unfold onNewJournal State.besidePages State.pageState
  simp only [State.onLdg]
  split
  · split <;> exact ⟨rfl, rfl⟩
  · exact ⟨rfl, rfl⟩
  · exact ⟨rfl, rfl⟩
  · exact ⟨rfl, rfl⟩

/-! ### Pages placed without a failure -/

/-- A page placed at the first try. -/
def placeOn (k l : Nat) (img : List Byte) (s : State) : State :=
  (s.onPhys k fun x => { x with role := .transit }).onPhys k (writtenPage img (partOf l) 0)

theorem placePage_clean {k l : Nat} {img : List Byte} {residue : Bool} {s : State} (h : poolPick s = some k) :
    placePage 2 l img [] residue s = (placeOn k l img s, [], some k) := by
  rw [placePage_succ, h]
  rfl

theorem placeOn_phys (k l : Nat) (img : List Byte) (s : State) :
    ((placeOn k l img s).phys k).role = .transit ∧ ((placeOn k l img s).phys k).bad = false ∧ ((placeOn k l img s).phys k).data = packPage img := by
  have h : (placeOn k l img s).phys k = writtenPage img (partOf l) 0 { s.phys k with role := .transit } := by
    unfold placeOn
    rw [State.onPhys_phys, State.onPhys_phys]
  rw [h]
  exact ⟨rfl, rfl, rfl⟩

theorem placeOn_phys_ne {j k : Nat} (hj : j ≠ k) (l : Nat) (img : List Byte) (s : State) : (placeOn k l img s).phys j = s.phys j := by
  unfold placeOn
  rw [State.onPhys_phys_ne hj, State.onPhys_phys_ne hj]

/-- From `s` to `t` the pages of a batch are placed on pages of the pool; nothing else changes. -/
structure Placed (s t : State) (pages : List (Nat × List Byte)) (pairs : List (Nat × Nat)) : Prop where
  beside : t.besidePages = s.besidePages
  map : t.ldg.map = s.ldg.map
  fresh : (pairs.map (·.2)).Nodup
  pool : ∀ p ∈ pairs, (s.phys p.2).role = .pool
  transit : ∀ p ∈ pairs, (t.phys p.2).role = .transit
  written : List.Forall₂ (fun p x => p.1 = x.1 ∧ (t.phys p.2).bad = false ∧ (t.phys p.2).data = packPage x.2) pairs pages
  others : ∀ k, k ∉ pairs.map (·.2) → t.phys k = s.phys k

theorem Placed.refl (s : State) : Placed s s [] [] :=
  ⟨rfl, rfl, .nil, fun _ h => (by cases h), fun _ h => (by cases h), .nil, fun _ _ => rfl⟩

/-- One page more. -/
theorem Placed.next {s t : State} {pages : List (Nat × List Byte)} {pairs : List (Nat × Nat)} (h : Placed s t pages pairs) {k : Nat}
    (hk : (t.phys k).role = .pool) (l : Nat) (img : List Byte) : Placed s (placeOn k l img t) (pages ++ [(l, img)]) (pairs ++ [(l, k)]) := by
  have hnew : k ∉ pairs.map (·.2) := by
    intro hmem
    obtain ⟨p, hp, rfl⟩ := List.mem_map.mp hmem
    rw [h.transit p hp] at hk
    cases hk
  have hne : ∀ p ∈ pairs, p.2 ≠ k := fun p hp heq => hnew (List.mem_map.mpr ⟨p, hp, heq⟩)
  obtain ⟨hrole, hbad, hdata⟩ := placeOn_phys k l img t
  refine ⟨h.beside, h.map, ?_, fun p hp => ?_, fun p hp => ?_, ?_, fun j hj => ?_⟩
  · rw [List.map_append, List.nodup_append]
    exact ⟨h.fresh, List.nodup_singleton k, fun a ha b hb => by
      rw [List.map_singleton, List.mem_singleton] at hb
      rw [hb]
      exact fun hab => hnew (by rwa [hab] at ha)⟩
  · rcases List.mem_append.mp hp with hp | hp
    · exact h.pool p hp
    · rw [List.mem_singleton] at hp
      rw [hp, ← h.others k hnew, hk]
  · rcases List.mem_append.mp hp with hp | hp
    · rw [placeOn_phys_ne (hne p hp), h.transit p hp]
    · rw [List.mem_singleton] at hp
      rw [hp, hrole]
  · refine List.rel_append ?_ (.cons ⟨rfl, hbad, hdata⟩ .nil)
    have hw := h.written
    rw [List.forall₂_iff_zip] at hw ⊢
    refine ⟨hw.1, fun {p x} hpx => ?_⟩
    rw [placeOn_phys_ne (hne p (List.of_mem_zip hpx).1)]
    exact hw.2 hpx
  · rw [List.map_append, List.mem_append, not_or, List.map_singleton, List.mem_singleton] at hj
    rw [placeOn_phys_ne hj.2, h.others j hj.1]

/-- While fewer pages are placed than the pool has, one is left to pick. -/
theorem Placed.pick {s t : State} {pages : List (Nat × List Byte)} {pairs : List (Nat × Nat)} (h : Placed s t pages pairs)
    (hlt : pages.length < roleCount .pool s) : ∃ k, poolPick t = some k := by
  rw [← Option.isSome_iff_exists]
  by_contra hnone
  have hsub : ((List.range physCount).filter fun k => (s.phys k).role == .pool) ⊆ pairs.map (·.2) := by
    intro k hk
    obtain ⟨hrange, hpool⟩ := List.mem_filter.mp hk
    by_contra hnew
    have hrole : (t.phys k).role = .pool := by
      rw [h.others k hnew]
      simpa using hpool
    exact hnone (poolPick_isSome (List.mem_range.mp hrange) hrole)
  have hlen := (List.subperm_of_subset (List.nodup_range.filter _) hsub).length_le
  rw [List.length_map, h.written.length_eq] at hlen
  unfold roleCount at hlt
  omega

theorem placeAll_clean {s : State} (residue : Bool) (pages : List (Nat × List Byte)) {t : State} {done : List (Nat × List Byte)} {pairs : List (Nat × Nat)}
    (h : Placed s t done pairs) (hlen : done.length + pages.length ≤ roleCount .pool s) :
    ∃ u qs, placeAll pages pairs [] residue t = (u, [], qs, true) ∧ Placed s u (done ++ pages) qs := by
  induction pages generalizing t done pairs with
  | nil => exact ⟨t, pairs, rfl, by rwa [List.append_nil]⟩
  | cons x r ih =>
    obtain ⟨l, img⟩ := x
    rw [List.length_cons] at hlen
    obtain ⟨k, hk⟩ := h.pick (by omega)
    obtain ⟨u, qs, heq, hplaced⟩ := ih (h.next (poolPick_pool hk) l img) (by rw [List.length_append, List.length_singleton]; omega)
    refine ⟨u, qs, ?_, by rwa [List.append_assoc] at hplaced⟩
    rw [placeAll_cons, placePage_clean hk]
    exact heq

/-! ### The map entered -/

/-- A pair entered in the map. -/
def enterPair (p : Nat × Nat) (s : State) : State :=
  ((s.onPhys (s.physOf p.1) fun x => { x with role := .transit }).onPhys p.2 fun x => { x with role := .serves }).onLdg fun d => { d with
    map := tset d.map p.1 p.2, commits := tmod d.commits p.1 0 (· + 1) }

theorem enterPairs_eq (pairs : List (Nat × Nat)) (s : State) : enterPairs pairs s =
    (onNewJournal (fun j => { j with entered := true }) (s.forEach pairs enterPair), pairs.map fun p => (s.physOf p.1, partOf p.1)) := rfl

/-- What a page holds. -/
def State.content (s : State) (k : Nat) := ((s.phys k).bad, (s.phys k).data)

theorem onPhys_content {f : PhysPage → PhysPage} (hf : ∀ x, (f x).bad = x.bad ∧ (f x).data = x.data) (k j : Nat) (s : State) :
    (s.onPhys k f).content j = s.content j := by
  unfold State.content
  by_cases h : j = k
  · rw [h, State.onPhys_phys, (hf _).1, (hf _).2]
  · rw [State.onPhys_phys_ne h]

theorem enterPair_content (p : Nat × Nat) (j : Nat) (s : State) : (enterPair p s).content j = s.content j :=
  (onPhys_content (f := fun x => { x with role := .serves }) (by intro; exact ⟨rfl, rfl⟩) p.2 j _).trans
    (onPhys_content (by intro; exact ⟨rfl, rfl⟩) _ j s)

theorem enterPair_physOf_same (p : Nat × Nat) (s : State) : (enterPair p s).physOf p.1 = p.2 := tgetD_tset_same _ _ _ _

theorem enterPair_physOf_ne {p : Nat × Nat} {l : Nat} (h : l ≠ p.1) (s : State) : (enterPair p s).physOf l = s.physOf l :=
  tgetD_tset_ne _ _ _ _ _ h

theorem entered_physOf_of_notMem {pairs : List (Nat × Nat)} {l : Nat} (h : l ∉ pairs.map (·.1)) (s : State) :
    (s.forEach pairs enterPair).physOf l = s.physOf l := by
  induction pairs generalizing s with
  | nil => rfl
  | cons p r ih =>
    rw [List.map_cons, List.mem_cons, not_or] at h
    rw [State.forEach_cons, ih h.2, enterPair_physOf_ne h.1]

theorem entered_physOf {pairs : List (Nat × Nat)} (hn : (pairs.map (·.1)).Nodup) {p : Nat × Nat} (hp : p ∈ pairs) (s : State) :
    (s.forEach pairs enterPair).physOf p.1 = p.2 := by
  induction pairs generalizing s with
  | nil => cases hp
  | cons q r ih =>
    rw [List.map_cons, List.nodup_cons] at hn
    rw [State.forEach_cons]
    rcases List.mem_cons.mp hp with rfl | hp
    · rw [entered_physOf_of_notMem hn.1, enterPair_physOf_same]
    · exact ih hn.2 hp _

/-! ### The pages given back -/

/-- An old page given back. -/
def giveBack (e : Nat × Nat) (s : State) : State :=
  if e.2 = 1 ∨ e.2 = 2 then (s.onPhys e.1 (writtenPage [] e.2 0)).onPhys e.1 fun x => { x with role := .pool, voice := false }
  else s.onPhys e.1 fun x => { x with role := .pool }

theorem giveBack_page (e : Nat × Nat) (s : State) : OnlyPage e.1 s (giveBack e s) ∧ (giveBack e s).besidePages = s.besidePages := by
  unfold giveBack
  split
  · exact ⟨(OnlyPage.onPhys e.1 _ s).trans (OnlyPage.onPhys e.1 _ _), rfl⟩
  · exact ⟨OnlyPage.onPhys e.1 _ s, rfl⟩

theorem releaseOld_clean (olds : List (Nat × Nat)) (residue : Bool) (s : State) : releaseOld olds false [] residue s = (s.forEach olds giveBack, []) := by
  induction olds generalizing s with
  | nil => rfl
  | cons e r ih =>
    obtain ⟨k, part⟩ := e
    rw [releaseOld, State.forEach_cons]
    unfold giveBack
    by_cases h : part = 1 ∨ part = 2
    · rw [if_pos (.inr h), if_pos h]
      exact ih _
    · rw [if_neg (by simpa using h), if_neg h]
      exact ih _

theorem givenBack_kept (olds : List (Nat × Nat)) (s : State) : (s.forEach olds giveBack).ldg.map = s.ldg.map ∧
    (s.forEach olds giveBack).besidePages = s.besidePages ∧ ∀ k, k ∉ olds.map (·.1) → (s.forEach olds giveBack).phys k = s.phys k := by
  induction olds generalizing s with
  | nil => exact ⟨rfl, rfl, fun _ _ => rfl⟩
  | cons e r ih =>
    obtain ⟨hp, hb⟩ := giveBack_page e s
    obtain ⟨hm, hbs, hk⟩ := ih (giveBack e s)
    refine ⟨hm.trans hp.map, hbs.trans hb, fun k hkn => ?_⟩
    rw [List.map_cons, List.mem_cons, not_or] at hkn
    exact (hk k hkn.2).trans (hp.others k hkn.1)

/-! ### The batch -/

/-- The batch with its journal record written and its word in place. -/
def batchWorded (pairs : List (Nat × Nat)) (atWord : State → State) (s : State) : State :=
  atWord (onNewJournal (fun j => { j with word := true })
    ((writeJournal { seq := s.ldg.jseq, pairs := pairs, word := false, entered := false } s).onLdg fun d => { d with jseq := d.jseq + 1 }))

/-- The batch entered, its old pages given back, and counted. -/
def batchDone (pairs : List (Nat × Nat)) (s : State) : State :=
  ((onNewJournal (fun j => { j with entered := true }) (s.forEach pairs enterPair)).forEach (pairs.map fun p => (s.physOf p.1, partOf p.1)) giveBack).onLdg
    fun d => { d with cCommits := satInc d.cCommits }

theorem commitBatch_clean {pages : List (Nat × List Byte)} {s : State} (atWord : State → State) (residue : Bool)
    (h : pages.length ≤ roleCount .pool s) : ∃ t pairs, Placed s t pages pairs ∧
      commitBatch pages false atWord [] .complete residue s = (batchDone pairs (batchWorded pairs atWord t), [], .done pairs.length) := by
  obtain ⟨t, pairs, heq, hplaced⟩ := placeAll_clean residue pages (Placed.refl s) (by simpa using h)
  rw [List.nil_append] at hplaced
  refine ⟨t, pairs, hplaced, ?_⟩
  rw [commitBatch, heq]
  dsimp only
  rw [if_neg (by simp), if_neg (by simp), if_neg (by simp), enterPairs_eq]
  dsimp only
  rw [releaseOld_clean]
  rfl

theorem commitMany_clean {pages : List (Nat × List Byte)} {s : State} (atWord : State → State) (residue : Bool) (hlen : pages.length ≤ 16)
    (h : pages.length ≤ roleCount .pool s) : ∃ t pairs, Placed s t pages pairs ∧
      commitMany (pages.length / 16 + 1) pages false atWord 0 [] .complete residue s =
        (batchDone pairs (batchWorded pairs atWord t), [], .done pairs.length) := by
  obtain ⟨t, pairs, hplaced, heq⟩ := commitBatch_clean atWord residue h
  refine ⟨t, pairs, hplaced, ?_⟩
  have hdrop : pages.drop 16 = [] := List.drop_eq_nil_iff.mpr hlen
  rw [commitMany, List.take_of_length_le hlen, hdrop]
  simp only [List.isEmpty_nil, if_true]
  rw [heq]
  simp

/-- Up to its word a batch changes neither the pages that serve nor, but for what the word makes true, anything beside the pages. -/
theorem batchWorded_pageState {pairs : List (Nat × Nat)} {atWord : State → State} (hat : ∀ u, (atWord u).pageState = u.pageState) (s : State) :
    (batchWorded pairs atWord s).pageState = s.pageState := by
  unfold batchWorded
  rw [hat, (onNewJournal_kept _ _).2]
  exact writeJournal_pageState _ s

theorem batchDone_physOf_ne {pairs : List (Nat × Nat)} {l : Nat} (h : l ∉ pairs.map (·.1)) (s : State) : (batchDone pairs s).physOf l = s.physOf l := by
  rw [← entered_physOf_of_notMem h s]
  have hm := (givenBack_kept (pairs.map fun p => (s.physOf p.1, partOf p.1)) (onNewJournal (fun j => { j with entered := true }) (s.forEach pairs enterPair))).1
  have hj := congrArg (·.2.1) (onNewJournal_kept (fun j => { j with entered := true }) (s.forEach pairs enterPair)).2
  exact congrArg (fun m => tgetD m l l) (hm.trans hj)

theorem batchDone_physOf {pairs : List (Nat × Nat)} (hn : (pairs.map (·.1)).Nodup) {p : Nat × Nat} (hp : p ∈ pairs) (s : State) :
    (batchDone pairs s).physOf p.1 = p.2 := by
  rw [← entered_physOf hn hp s]
  have hm := (givenBack_kept (pairs.map fun p => (s.physOf p.1, partOf p.1)) (onNewJournal (fun j => { j with entered := true }) (s.forEach pairs enterPair))).1
  have hj := congrArg (·.2.1) (onNewJournal_kept (fun j => { j with entered := true }) (s.forEach pairs enterPair)).2
  exact congrArg (fun m => tgetD m p.1 p.1) (hm.trans hj)

/-- Only the pages given back change what they hold. -/
theorem batchDone_content {pairs : List (Nat × Nat)} {k : Nat} {s : State} (hk : ∀ p ∈ pairs, s.physOf p.1 ≠ k) :
    (batchDone pairs s).content k = s.content k := by
  have hout : k ∉ (pairs.map fun p => (s.physOf p.1, partOf p.1)).map (·.1) := by
    intro hmem
    obtain ⟨e, he, rfl⟩ := List.mem_map.mp hmem
    obtain ⟨p, hp, rfl⟩ := List.mem_map.mp he
    exact hk p hp rfl
  have hg := (givenBack_kept (pairs.map fun p => (s.physOf p.1, partOf p.1)) (onNewJournal (fun j => { j with entered := true }) (s.forEach pairs enterPair))).2.2
    k hout
  have hj := phys_of_pageState (onNewJournal_kept (fun j => { j with entered := true }) (s.forEach pairs enterPair)).2 k
  have he := State.forEach_keeps s (fun u => u.content k) pairs enterPair fun p u => enterPair_content p k u
  refine Eq.trans ?_ he
  exact congrArg (fun x : PhysPage => (x.bad, x.data)) (hg.trans hj)

theorem pageBytes_of_content {s t : State} {k l : Nat} (hof : t.physOf l = k) (hc : t.content k = s.content k) :
    pageBytes l t = if (s.phys k).bad then none else some (pad256 (s.phys k).data) := by
  simp only [State.content, Prod.mk.injEq] at hc
  unfold pageBytes
  rw [hof]
  dsimp only
  rw [hc.1, hc.2]

theorem pad256_packPage (img : List Byte) : pad256 (packPage img) = pad256 img := by
  unfold packPage
  split
  next h =>
    have himg : img = List.replicate img.length 0 := List.eq_replicate_iff.mpr ⟨rfl, fun b hb => by
      simpa using List.all_eq_true.mp h b hb⟩
    rw [himg]
    unfold pad256
    rw [List.replicate_append_replicate, List.nil_append, List.take_replicate, List.take_replicate]
    congr 1
  next => rfl

/-! ### What the logical pages read once a batch is done -/

theorem map_fst_of_forall₂ {α β γ : Type} {R : α × β → α × γ → Prop} (hR : ∀ p x, R p x → p.1 = x.1) {l : List (α × β)} {m : List (α × γ)}
    (h : List.Forall₂ R l m) : l.map (·.1) = m.map (·.1) := by
  induction h with
  | nil => rfl
  | cons hx _ ih => rw [List.map_cons, List.map_cons, hR _ _ hx, ih]

theorem exists_of_forall₂ {α β : Type} {R : α → β → Prop} {l : List α} {m : List β} (h : List.Forall₂ R l m) {x : β} (hx : x ∈ m) :
    ∃ p ∈ l, R p x := by
  induction h with
  | nil => cases hx
  | cons hp _ ih =>
    rcases List.mem_cons.mp hx with rfl | hx
    · exact ⟨_, List.mem_cons_self, hp⟩
    · obtain ⟨p, hpl, hr⟩ := ih hx
      exact ⟨p, List.mem_cons_of_mem _ hpl, hr⟩

theorem Placed.names {s t : State} {pages : List (Nat × List Byte)} {pairs : List (Nat × Nat)} (h : Placed s t pages pairs) :
    pairs.map (·.1) = pages.map (·.1) := map_fst_of_forall₂ (fun _ _ hr => hr.1) h.written

section

variable {s t : State} {pages : List (Nat × List Byte)} {pairs : List (Nat × Nat)} {atWord : State → State} (h : Placed s t pages pairs)
  (hat : ∀ u, (atWord u).pageState = u.pageState) (hserve : ∀ l, l < 2048 → (s.phys (s.physOf l)).role = .serves)
  (hl : ∀ x ∈ pages, x.1 < 2048)
include h hat

/-- With its word in place a batch still reads through the old map. -/
theorem worded_physOf (l : Nat) : (batchWorded pairs atWord t).physOf l = s.physOf l := by
  rw [physOf_of_pages (pages_of_pageState (batchWorded_pageState hat t))]
  unfold State.physOf
  rw [h.map]

omit h in
theorem worded_content (k : Nat) : (batchWorded pairs atWord t).content k = t.content k := by
  unfold State.content
  rw [phys_of_pageState (batchWorded_pageState hat t)]

include hserve hl

theorem worded_old_serves {p : Nat × Nat} (hp : p ∈ pairs) : (s.phys ((batchWorded pairs atWord t).physOf p.1)).role = .serves := by
  rw [worded_physOf h hat]
  have hmem : p.1 ∈ pages.map (·.1) := h.names ▸ List.mem_map.mpr ⟨p, hp, rfl⟩
  obtain ⟨x, hx, hxp⟩ := List.mem_map.mp hmem
  exact hserve _ (hxp ▸ hl x hx)

/-- Every page of the batch reads as it was staged. -/
theorem batchDone_new (hn : (pages.map (·.1)).Nodup) {x : Nat × List Byte} (hx : x ∈ pages) :
    pageBytes x.1 (batchDone pairs (batchWorded pairs atWord t)) = some (pad256 x.2) := by
  obtain ⟨p, hp, hpx, hbad, hdata⟩ := exists_of_forall₂ h.written hx
  have hof := batchDone_physOf (by rw [h.names]; exact hn) hp (batchWorded pairs atWord t)
  have hc : (batchDone pairs (batchWorded pairs atWord t)).content p.2 = t.content p.2 := by
    rw [batchDone_content fun q hq heq => ?_, worded_content hat]
    have hs := worded_old_serves h hat hserve hl hq
    rw [heq, h.pool p hp] at hs
    cases hs
  rw [← hpx, pageBytes_of_content hof hc, hbad, hdata, pad256_packPage]
  rfl

/-- Every other page reads as before. -/
theorem batchDone_old (hinj : ∀ k l, k < 2048 → l < 2048 → s.physOf k = s.physOf l → k = l) {l : Nat} (hll : l < 2048) (hout : l ∉ pages.map (·.1)) :
    pageBytes l (batchDone pairs (batchWorded pairs atWord t)) = pageBytes l s := by
  have hof : (batchDone pairs (batchWorded pairs atWord t)).physOf l = s.physOf l := by
    rw [batchDone_physOf_ne (by rw [h.names]; exact hout), worded_physOf h hat]
  have hfree : s.physOf l ∉ pairs.map (·.2) := by
    intro hmem
    obtain ⟨p, hp, hpl⟩ := List.mem_map.mp hmem
    have hpool := h.pool p hp
    rw [hpl, hserve l hll] at hpool
    cases hpool
  have hc : (batchDone pairs (batchWorded pairs atWord t)).content (s.physOf l) = s.content (s.physOf l) := by
    rw [batchDone_content fun p hp heq => ?_, worded_content hat]
    · unfold State.content
      rw [h.others _ hfree]
    · rw [worded_physOf h hat] at heq
      have hmem : p.1 ∈ pages.map (·.1) := h.names ▸ List.mem_map.mpr ⟨p, hp, rfl⟩
      obtain ⟨x, hx, hxp⟩ := List.mem_map.mp hmem
      have := hinj p.1 l (hxp ▸ hl x hx) hll heq
      exact hout (this ▸ hmem)
  rw [pageBytes_of_content hof hc]
  rfl

end

/-- Beside the pages a batch leaves what its word made true, and one commit more counted. -/
theorem batchDone_besidePages (pairs : List (Nat × Nat)) (s : State) :
    (batchDone pairs s).besidePages = (s.onLdg fun d => { d with cCommits := satInc d.cCommits }).besidePages := by
  have hg := (givenBack_kept (pairs.map fun p => (s.physOf p.1, partOf p.1)) (onNewJournal (fun j => { j with entered := true }) (s.forEach pairs enterPair))).2.1
  have hj := (onNewJournal_kept (fun j => { j with entered := true }) (s.forEach pairs enterPair)).1
  have he : (s.forEach pairs enterPair).besidePages = s.besidePages := State.forEach_keeps s State.besidePages _ _ fun _ _ => rfl
  exact congrArg (fun u : State => u.onLdg fun d => { d with cCommits := satInc d.cCommits }) (hg.trans (hj.trans he))

theorem queue_of_besidePages {s t : State} (h : t.besidePages = s.besidePages) : t.ldg.queue = s.ldg.queue :=
  (congrArg (fun u : State => u.ldg.queue) h : t.besidePages.ldg.queue = s.besidePages.ldg.queue)

theorem ldg_of_onlyDesk {s t : State} (h : OnlyDesk s t) : t.ldg = s.ldg := by
  unfold OnlyDesk at h
  rw [h]
  rfl

/-- What a commit word makes true, it makes true of a state that differs in the pages alone. -/
theorem batchWorded_beside (pairs : List (Nat × Nat)) (atWord : State → State) (s : State) :
    ∃ w, batchWorded pairs atWord s = atWord w ∧ w.besidePages = s.besidePages :=
  ⟨_, rfl, (onNewJournal_kept _ _).1.trans (writeJournal_besidePages _ s)⟩

/-- The job of a batch that no other commit has overtaken, run to its end. -/
theorem runJob_batch {j : LJob} {s : State} (hu : j.upd = .none) (hc : ∀ p ∈ j.pages, tgetD s.ldg.commits p.1 0 = p.2.2) (hlen : j.pages.length ≤ 16)
    (hpool : j.pages.length ≤ roleCount .pool s) : ∃ t pairs, Placed s t (j.pages.map fun p => (p.1, p.2.1)) pairs ∧
      runJob j [] .complete false s = (batchDone pairs (batchWorded pairs id t), .done pairs.length) := by
  obtain ⟨t, pairs, hplaced, heq⟩ := commitMany_clean (pages := j.pages.map fun p => (p.1, p.2.1)) (s := s) id false (by simpa using hlen) (by simpa using hpool)
  refine ⟨t, pairs, hplaced, ?_⟩
  have hany : (j.pages.any fun p => tgetD s.ldg.commits p.1 0 != p.2.2) = false := by
    rw [List.any_eq_false]
    intro p hp
    simp [hc p hp]
  have hpages : jobPages j s = j.pages.map fun p => (p.1, p.2.1) := by
    unfold jobPages
    rw [hu]
  have hword : applyUpd j.upd = id := by
    rw [hu]
    rfl
  have hzero : zeroesAll j.upd = false := by
    rw [hu]
    rfl
  unfold runJob
  rw [hany, if_neg (by simp), hpages, hword, hzero]
  dsimp only
  rw [heq]

/-- Settles O50: until the word nothing that serves is touched (`ledgerCommit_cut`); once it is done the map leads to the pages placed. -/
theorem commitsAreAtomic : Obligations.CommitsAreAtomic := by
  unfold Obligations.CommitsAreAtomic
  intro j r n s h1 hr hq hu hw hserve hspare
  refine ⟨fun fails residue upto hupto => ledgerCommit_cut fails residue hupto h1 hr hq hw hserve hspare, fun hn hp hlen hpool hinj => ?_⟩
  obtain ⟨t, pairs, hplaced, hrun⟩ := runJob_batch (s := s.onLdg fun d => { d with queue := r }) hu (fun p hmem => (hp p hmem).2) hlen hpool
  have hexec := exec_ledgerCommit [] .complete false h1 hr hq
  rw [hrun] at hexec
  have hans := answerJob_batch_only hw (.done pairs.length) (batchDone pairs (batchWorded pairs id t))
  have hpages := pages_of_pageState hans.pageState
  have hl : ∀ x ∈ j.pages.map fun p => (p.1, p.2.1), x.1 < 2048 := by
    intro x hx
    obtain ⟨p, hpm, rfl⟩ := List.mem_map.mp hx
    exact (hp p hpm).1
  have hnames : (j.pages.map fun p => (p.1, p.2.1)).map (·.1) = j.pages.map (·.1) := by
    rw [List.map_map]
    rfl
  refine ⟨_, hexec, fun p hpm => ?_, fun l hll hout => ?_, ?_⟩
  · exact (pageBytes_of_pages hpages p.1).trans
      (batchDone_new hplaced (fun _ => rfl) hserve hl (by rw [hnames]; exact hn) (List.mem_map.mpr ⟨p, hpm, rfl⟩))
  · refine (pageBytes_of_pages hpages l).trans (batchDone_old hplaced (fun _ => rfl) hserve hl hinj hll ?_)
    rw [hnames]
    intro hmem
    obtain ⟨p, hpm, hpl⟩ := List.mem_map.mp hmem
    exact hout p hpm hpl
  · have hq' : (batchDone pairs (batchWorded pairs id t)).ldg.queue = r := by
      obtain ⟨w, hword, hbeside⟩ := batchWorded_beside pairs id t
      rw [queue_of_besidePages (batchDone_besidePages pairs _), hword]
      exact queue_of_besidePages (hbeside.trans hplaced.beside)
    exact (congrArg LdgSt.queue (ldg_of_onlyDesk hans)).trans hq'

end Sys2Proof.Machine
end

section
/-! The event log's commits, the verbs of the log and the Ledger, and refresh runs (spec 12 R524 to R541). -/

namespace Sys2Proof.Machine

/-! ### A commit of the log buffer -/

theorem log_of_besidePages {s t : State} (h : t.besidePages = s.besidePages) : t.ldg.log = s.ldg.log ∧ t.ldg.buffer = s.ldg.buffer ∧
    t.ldg.cCommits = s.ldg.cCommits ∧ t.ldg.user = s.ldg.user ∧ t.ram = s.ram :=
  ⟨(congrArg (fun u : State => u.ldg.log) h : t.besidePages.ldg.log = s.besidePages.ldg.log),
    (congrArg (fun u : State => u.ldg.buffer) h : t.besidePages.ldg.buffer = s.besidePages.ldg.buffer),
    (congrArg (fun u : State => u.ldg.cCommits) h : t.besidePages.ldg.cCommits = s.besidePages.ldg.cCommits),
    (congrArg (fun u : State => u.ldg.user) h : t.besidePages.ldg.user = s.besidePages.ldg.user),
    (congrArg (fun u : State => u.ram) h : t.besidePages.ram = s.besidePages.ram)⟩

theorem logAfter_congr {n : Nat} {d e : LdgSt} (hl : d.log = e.log) (hb : d.buffer = e.buffer) : logAfter n d = logAfter n e := by
  unfold logAfter
  rw [hl, hb]

theorem commitLog_clean {s : State} (hn : 0 < logTake s.ldg) (hlen : (logImages (logTake s.ldg) s.ldg).length ≤ 16) (hpool : 16 ≤ roleCount .pool s) :
    (commitLog [] s).ldg.log = logAfter (logTake s.ldg) s.ldg ∧ (commitLog [] s).ldg.buffer = s.ldg.buffer.drop (logTake s.ldg) ∧
      (commitLog [] s).ldg.cCommits = satInc s.ldg.cCommits ∧ (commitLog [] s).ldg.user = s.ldg.user ∧ (commitLog [] s).ram = s.ram := by
  obtain ⟨t, pairs, hplaced, heq⟩ := commitMany_clean (pages := logImages (logTake s.ldg) s.ldg) (s := s) (applyUpd (.logPages (logTake s.ldg))) false hlen
    (by omega)
  have hrun : commitLog [] s = batchDone pairs (batchWorded pairs (applyUpd (.logPages (logTake s.ldg))) t) := by
    unfold commitLog
    extract_lets n
    rw [if_neg (by omega)]
    unfold runJob
    rw [if_neg (by simp)]
    exact congrArg (·.1) heq
  obtain ⟨w, hword, hw⟩ := batchWorded_beside pairs (applyUpd (.logPages (logTake s.ldg))) t
  obtain ⟨hlog, hbuf, hcom, huser, hram⟩ := log_of_besidePages (hw.trans hplaced.beside)
  obtain ⟨hlog', hbuf', hcom', huser', hram'⟩ := log_of_besidePages (batchDone_besidePages pairs (batchWorded pairs (applyUpd (.logPages (logTake s.ldg))) t))
  rw [← hrun, hword] at hlog' hbuf' hcom' huser' hram'
  refine ⟨hlog'.trans (logAfter_congr hlog hbuf), hbuf'.trans ?_, hcom'.trans ?_, huser'.trans huser, hram'.trans hram⟩
  · exact congrArg (List.drop _) hbuf
  · exact congrArg satInc hcom

/-! ### The verbs -/

theorem passBars_of_guard {v : Verb} {o : Origin} {a : Args} {s : State} {p : Nat} {w : Bool} (hg : guardOf v a = some (p, w)) (hp : p < 8)
    (hu : mayUse o p w s = false) : passBars v o a s = true := by
  unfold passBars
  rw [hg]
  simp [hp, hu]

theorem checkKeys_of_passBars {v : Verb} {c : Ctx} {a : Args} {s : State} (h : passBars v c.origin a s = true) :
    checkKeys v c a s = .error (20, "") := by
  simp [checkKeys, h]

/-- `log.tail` without a source gives the newest entries, where every page of the log reads. -/
theorem logTailBody_done {c : Ctx} {p : Pfx} {e : Env} {s : State} (hs : e.has "src" = false)
    (hp : ∀ x ∈ s.ldg.log, pageBytes (partBase 3 + x.lseq / 8 % 1024) s ≠ none) :
    ∃ ls, logTailBody c p e s = .ok ls s ∧ ls.length = min ((e.nat? "n").getD 8) (s.ldg.log.length + s.ldg.buffer.length) := by
  have hw : e.word? "src" = none := by
    have hv : e.v "src" = none := by simpa [Env.has] using hs
    simp [Env.word?, hv]
  unfold logTailBody
  extract_lets d want all picked l
  have hpicked : picked = all := by
    refine List.filter_eq_self.mpr fun x _ => ?_
    simp only [want, hw]
  have hfind : l.find? (fun x => !x.1 && (pageBytes (partBase 3 + x.2.lseq / 8 % 1024) s).isNone) = none := by
    rw [List.find?_eq_none]
    intro x hx
    have hall : x ∈ all := hpicked ▸ List.mem_of_mem_drop hx
    rcases List.mem_append.mp hall with h | h
    · obtain ⟨y, hy, rfl⟩ := List.mem_map.mp h
      simpa using hp y hy
    · obtain ⟨y, -, rfl⟩ := List.mem_map.mp h
      simp
  rw [hfind]
  refine ⟨_, rfl, ?_⟩
  have hlen : all.length = s.ldg.log.length + s.ldg.buffer.length := by simp [all, d]
  rw [List.length_map, List.length_drop, hpicked, hlen]
  omega

/-- The log's buffer dropped, and with it the commits that waited to empty it. -/
def logDropped (s : State) : State :=
  s.onLdg fun d => { d with buffer := [], queue := d.queue.filter fun j => match j.upd with | .logPages _ => false | _ => true }

/-! ### Refresh -/

theorem refreshImages_of_good {weak : List Nat} {s : State} (h : ∀ l, l < 2048 → (s.phys (s.physOf l)).bad = false)
    (hw : weak = []) : refreshImages weak s = [] := by
  unfold refreshImages
  rw [List.filterMap_eq_nil_iff]
  intro l hl
  simp [h l (List.mem_range.mp hl), hw]

/-- A run that finds every page good writes none. -/
theorem refreshRun_good {s : State} (hr : s.ldg.refresh = true) (h : ∀ l, l < 2048 → (s.phys (s.physOf l)).bad = false) :
    (refreshRun [] [] [] [] s).ldg = { s.ldg with rewritten := 0, refresh := false } := by
  unfold refreshRun
  rw [hr]
  simp only [State.forEach_nil, if_true]
  rw [refreshImages_of_good h rfl]
  rw [notify_ldg]
  rfl

/-- Settles O49: the log's commit by `commitLog_clean`, the passwords by `passBars`, a refresh by the pages it finds. -/
theorem logAndRefresh : Obligations.LogAndRefresh := by
  unfold Obligations.LogAndRefresh
  refine ⟨fun s h1 hp hq hn hlen hpool => ?_, fun l s hq hb => ?_, fun c p a e s h hs _ hp => ?_, fun c p a s hr => ⟨fun hu => ?_, fun hu => ?_⟩,
    fun c p a e s h _ hp => ?_, fun c p a e s h _ hp => ?_, fun c p a s k hr hk h8 hu => ?_, fun c p a e s h => answersOk_of_body rfl h rfl,
    fun s h1 hp hq hr hbad => ?_, fun w x y z s hr hd => ?_, fun c p a e s h => ?_, fun c p a e s h => answersWith_of_body rfl h ⟨_, _, rfl, rfl, rfl⟩⟩
  · refine ⟨_, congrArg Host.Outcome.next ((if_pos (by rw [h1, hp]; rfl)).trans (if_pos (by rw [hq]; rfl))), commitLog_clean hn hlen hpool⟩
  · have hzero : logTake s.ldg = 0 := by
      unfold logTake
      rw [hb]
    refine congrArg Host.Outcome.next ?_
    split
    · rw [if_pos (by rw [hq]; rfl)]
      unfold commitLog
      rw [hzero]
      rfl
    · rfl
  · obtain ⟨ls, hb, hlen⟩ := logTailBody_done (c := c) (p := p) hs hp
    exact answersWith_of_body rfl h ⟨_, _, hb, rfl, hlen⟩
  · exact refuses_of_check rfl hr (checkKeys_of_passBars (passBars_of_guard (p := 3) (w := false) rfl (by decide) hu)) (.inl rfl)
  · exact refuses_of_check rfl hr (checkKeys_of_passBars (passBars_of_guard (p := 3) (w := true) rfl (by decide) hu)) (.inl rfl)
  · have hb : logClearBody c p e s = lineJob c.origin .clearLog (logDropped s) := by
      unfold logClearBody
      rw [if_neg (by simp [hp])]
      rfl
    exact begins_of_body rfl h ⟨_, hb.trans (lineJob_eq (s := logDropped s) hp _ _), rfl, rfl, _, rfl⟩
  · exact begins_of_body rfl h ⟨_, lineJob_eq hp _ _, rfl⟩
  · refine refuses_of_check rfl hr (checkKeys_of_passBars (passBars_of_guard (p := k) (w := true) ?_ h8 hu)) (.inl rfl)
    simp [guardOf, ldgWipeV, hk]
  · refine ⟨_, congrArg Host.Outcome.next (if_pos (by rw [h1, hq, hp, hr]; rfl)), ?_⟩
    beta_reduce
    rw [refreshRun_good hr hbad]
    exact ⟨rfl, rfl, rfl, rfl, rfl⟩
  · exact congrArg Host.Outcome.next (if_neg (by simp [hr, hd]))
  · have hb : ∃ l, ldgShowBody c p e s = .ok [l] s := by
      unfold ldgShowBody
      extract_lets d
      split <;> exact ⟨_, rfl⟩
    obtain ⟨l, hb⟩ := hb
    exact answersWith_of_body rfl h ⟨_, _, hb, rfl, rfl⟩

end Sys2Proof.Machine
end

section
/-! What Coach's operations on its tables keep, and the route verbs (O36). -/

namespace Sys2Proof.Machine

/-! ### Coach's tables -/

section
variable {s t : State} {r k : Nat}

theorem State.onRing_ring_ne (s : State) (k i : Nat) (f : Ring → Ring) (h : i ≠ k) : (s.onRing k f).ring i = s.ring i := by
  simp [State.onRing, State.ring, State.onCch, tgetD_tmod_ne _ _ _ _ _ h]

theorem State.onWin_win_ne (s : State) (w i : Nat) (f : Window → Window) (h : i ≠ w) : (s.onWin w f).win i = s.win i := by
  simp [State.onWin, State.win, State.onCch, tgetD_tmod_ne _ _ _ _ _ h]

@[simp] theorem State.onRing_route (k : Nat) (f : Ring → Ring) : (s.onRing k f).route r = s.route r := rfl
@[simp] theorem State.onWin_route (k : Nat) (f : Window → Window) : (s.onWin k f).route r = s.route r := rfl
@[simp] theorem State.onRoute_ring (f : Route → Route) : (s.onRoute r f).ring k = s.ring k := rfl
@[simp] theorem State.onRoute_win (f : Route → Route) : (s.onRoute r f).win k = s.win k := rfl
@[simp] theorem writeReceipt_route (x : Receipt) : (writeReceipt k x s).route r = s.route r := rfl

theorem State.route_of_cch (h : t.cch = s.cch) (r : Nat) : t.route r = s.route r := congrArg (fun c : CchSt => tgetD c.routes r {}) h

theorem OnlyDesk.route (h : OnlyDesk s t) (r : Nat) : t.route r = s.route r := State.route_of_cch h.cch r

end

/-! ### A completion keeps every route's state, and a route that is not open keeps its own -/

/-- Route `k` is in the same state in `t` as in `s`. -/
def SameRoute (k : Nat) (s t : State) : Prop := (t.route k).state = (s.route k).state

/-- Route `k`, where it is not open in `s`, is in the same state in `t`. -/
def KeepsClosed (k : Nat) (s t : State) : Prop := (s.route k).state ≠ .opened → SameRoute k s t

section
variable {k : Nat} {s t u : State}

theorem SameRoute.refl (s : State) : SameRoute k s s := rfl

theorem SameRoute.trans (h : SameRoute k s t) (g : SameRoute k t u) : SameRoute k s u := Eq.trans g h

theorem KeepsClosed.refl (s : State) : KeepsClosed k s s := fun _ => rfl

theorem KeepsClosed.trans (h : KeepsClosed k s t) (g : KeepsClosed k t u) : KeepsClosed k s u :=
  fun hs => (h hs).trans (g (by rw [h hs]; exact hs))

theorem SameRoute.keepsClosed (h : SameRoute k s t) : KeepsClosed k s t := fun _ => h

theorem SameRoute.onRoute (r : Nat) {f : Route → Route} (hf : ∀ x, (f x).state = x.state) (s : State) : SameRoute k s (s.onRoute r f) := by
  unfold SameRoute
  by_cases h : k = r
  · rw [h, State.onRoute_route, hf]
  · rw [State.onRoute_route_ne _ _ _ _ h]

theorem finishHead_same (r st : Nat) (s : State) : SameRoute k s (finishHead r st s) := by
  unfold finishHead
  split
  · rfl
  · extract_lets x ok u w
    have hu : SameRoute k s u := SameRoute.onRoute r (by intro _; rfl) s
    split <;> exact hu

theorem flushAll_same (fuel r st : Nat) (s : State) : SameRoute k s (flushAll fuel r st s) := by
  induction fuel generalizing s with
  | zero => rfl
  | succ f ih =>
    rw [flushAll]
    split
    · rfl
    · exact (finishHead_same r st s).trans (ih _)

theorem settleHead_same (fuel r : Nat) (s : State) : SameRoute k s (settleHead fuel r s) := by
  induction fuel generalizing s with
  | zero => rfl
  | succ f ih =>
    rw [settleHead]
    split
    · exact (finishHead_same r _ s).trans (ih _)
    · rfl

theorem flushBefore_same (p : Waybill → Bool) (r : Nat) (s : State) : SameRoute k s (flushBefore p r s) :=
  State.forEach_keeps s (fun t => (t.route k).state) _ _ fun _ t => finishHead_same r 1 t

theorem leftOpen_same (r : Nat) (s : State) : SameRoute k s (leftOpen r s) := by
  unfold leftOpen
  split
  · exact congrArg Route.state ((notify_only _ _ _).route k)
  · rfl

theorem meetWait_same (r : Nat) (s : State) : SameRoute k s (meetWait r s) :=
  SameRoute.trans (SameRoute.onRoute r (by intro _; rfl) s) (settleHead_same _ _ _)

theorem routeErrorOne_keepsClosed (r st own : Nat) (s : State) : KeepsClosed k s (routeErrorOne r st own s) := by
  unfold routeErrorOne
  split
  next ho =>
    extract_lets a b c d e
    intro hs
    have hk : k ≠ r := fun h => hs (by rw [h]; exact eq_of_beq ho)
    have ha : SameRoute k s a := congrArg Route.state (State.onRoute_route_ne s r k _ hk)
    have hd : SameRoute k c d := congrArg Route.state ((notify_only _ _ _).route k)
    exact (((((ha.trans (finishHead_same r own a)).trans (flushAll_same _ r 1 b)).trans hd).trans (SameRoute.refl d)).trans (leftOpen_same r e))
  next => exact .refl s

theorem failWait_keepsClosed (r : Nat) (s : State) : KeepsClosed k s (failWait r s) :=
  (flushBefore_same _ r s).keepsClosed.trans (routeErrorOne_keepsClosed r 6 6 _)

theorem settleWaits_keepsClosed (fuel : Nat) (s : State) : KeepsClosed k s (settleWaits fuel s) := by
  induction fuel generalizing s with
  | zero => exact .refl s
  | succ f ih =>
    rw [settleWaits]
    split
    · exact .refl s
    · refine KeepsClosed.trans ?_ (ih _)
      split
      · exact (meetWait_same _ s).keepsClosed
      · exact failWait_keepsClosed _ s

theorem afterCount_keepsClosed (s : State) : KeepsClosed k s (afterCount s) := settleWaits_keepsClosed _ s

end

/-- With no route that has anything, no WAIT moves. -/
theorem afterCount_of_noRoute {s : State} (h : s.cch.routes = []) : afterCount s = s := by
  simp only [afterCount, queuedAll, h, List.map_nil, List.sum_nil]
  rw [settleWaits, h]
  rfl

/-! ### Posting -/

/-- A line's waybill is not one of the part's own: its receipt goes to its route's SRING. -/
theorem wayRing_lineWaybill (e : Env) (x : Route) : wayRing x (lineWaybill e) = x.sring := rfl

theorem wayRing_stagedWaybill (s : State) (x : Route) : wayRing x (stagedWaybill s) = x.sring := rfl

/-- A waybill posted on an open route: at the end of its queue, under the next number, with an entry of its ring reserved. -/
theorem postWaybill_opened {r : Nat} {w : Waybill} {s : State} (h : (s.route r).state = .opened) :
    postWaybill r w s = (((s.onCch fun c => { c with posted := c.posted + 1 }).onRing (wayRing (s.route r) w) fun g =>
      { g with reserved := g.reserved + 1 }).onRoute r fun x => { x with sendq := x.sendq ++ [{ w with post := s.cch.posted + 1 }] }) :=
  if_neg (by rw [h]; decide)

theorem postWaybill_sendq {r : Nat} {w : Waybill} {s : State} (h : (s.route r).state = .opened) :
    ((postWaybill r w s).route r).sendq = (s.route r).sendq ++ [{ w with post := s.cch.posted + 1 }] := by
  rw [postWaybill_opened h, State.onRoute_route]
  rfl

/-! ### The verbs -/

section
variable {c : Ctx} {p : Pfx} {e : Env} {s : State}

/-- The state once `route.open` has put a context in force and taken its buffers. -/
def routeOpened (r taken : Nat) (x : Route) (s : State) : State :=
  let s := s.onRoute r fun _ => { x with state := .opened, rate := lineRate, pool := taken }
  let s := s.onCch fun c => { c with poolFree := c.poolFree - taken }
  if x.bind = .larder then s.onLdr fun l => { l with lastB := BitVec.ofNat 9 r } else s

theorem routeOpened_cch (r taken : Nat) (x : Route) (s : State) : (routeOpened r taken x s).cch =
    ((s.onRoute r fun _ => { x with state := .opened, rate := lineRate, pool := taken }).onCch fun c =>
      { c with poolFree := c.poolFree - taken }).cch := by
  unfold routeOpened
  extract_lets a b
  split <;> rfl

theorem routeOpened_ram (r taken : Nat) (x : Route) (s : State) : (routeOpened r taken x s).ram = s.ram := by
  unfold routeOpened
  extract_lets a b
  split <;> rfl

theorem routeOpened_same (r taken : Nat) (x : Route) (s : State) :
    (routeOpened r taken x s).route r = { x with state := .opened, rate := lineRate, pool := taken } :=
  (State.route_of_cch (routeOpened_cch r taken x s) r).trans (State.onRoute_route s r fun _ => _)

theorem routeOpened_ne {k r : Nat} (h : k ≠ r) (taken : Nat) (x : Route) (s : State) : (routeOpened r taken x s).route k = s.route k :=
  (State.route_of_cch (routeOpened_cch r taken x s) k).trans (State.onRoute_route_ne s r k (fun _ => _) h)

theorem stateReply (a w : String) : a ++ " " ++ kv "state" w = a ++ (" " ++ kv "state" w) := String.append_assoc

/-- The buffers a context takes from the pool. -/
theorem buffers_of_bind (b : Bind) (n : Nat) : b2n (b != .none) * n = if b = .none then 0 else n := by
  cases b <;> simp [b2n]

theorem routeOpenBody_done (hv : ¬ (e.has "vlan" = true ∧ vlanOf e = none)) (hon : s.on 8 = true) (hc : (s.route (e.nat "r")).state = .closed)
    (hd : depthSum s + (routeWith e (closedContext (e.nat "r") s)).sq + (routeWith e (closedContext (e.nat "r") s)).rq ≤ 32768)
    (hr : ringUsed (routeWith e (closedContext (e.nat "r") s)).rring (s.onRoute (e.nat "r") fun _ =>
      { routeWith e (closedContext (e.nat "r") s) with state := .opened }) ≤ 1024)
    {taken : Nat} (ht : b2n ((routeWith e (closedContext (e.nat "r") s)).bind != .none) * (routeWith e (closedContext (e.nat "r") s)).rq = taken)
    (hp : taken ≤ s.cch.poolFree) (hl : (routeWith e (closedContext (e.nat "r") s)).bind = .larder → (boundRoutes s).length < 16) :
    routeOpenBody c p e s = .ok [kn "r" (e.nat "r") ++ " state=OPEN"] (routeOpened (e.nat "r") taken (routeWith e (closedContext (e.nat "r") s)) s) := by
  subst ht
  unfold routeOpenBody
  extract_lets r x taken
  rw [if_neg hv, if_neg (by rw [hon]; decide), if_neg (by rw [hc]; decide), if_neg, if_neg]
  · rw [stateReply (kn "r" r)]
    rfl
  · rintro (h | ⟨h, h'⟩)
    · exact absurd hp (Nat.not_le.mpr h)
    · exact absurd (hl h) (Nat.not_lt.mpr h')
  · rintro (h | h)
    · exact absurd hd (Nat.not_le.mpr h)
    · exact absurd hr (Nat.not_le.mpr h)

theorem Env.v_of_has {k : String} (h : e.has k = false) : e.v k = none := by
  cases hv : e.v k with
  | none => rfl
  | some x => simp [Env.has, hv] at h

/-- The keys of a line that an OPEN route takes edit what they name. -/
def routeEdited (e : Env) (x : Route) : Route := { x with
  level := match e.word? "level" with | some w => if w = "keeper" then .keeper else .visitor | none => x.level
  reply := (e.flag? "reply").getD x.reply
  rejLate := match e.word? "late" with | some w => w == "reject-late" | none => x.rejLate }

theorem routeWith_of_free (h : ∀ k ∈ ["port", "peer", "peerport", "peerroute", "vlan", "dscp", "rel", "sq", "rq", "sring", "rring", "bind"],
    e.has k = false) : routeWith e = routeEdited e := by
  have hk : ∀ k ∈ ["port", "peer", "peerport", "peerroute", "vlan", "dscp", "rel", "sq", "rq", "sring", "rring", "bind"], e.v k = none :=
    fun k hk => Env.v_of_has (h k hk)
  simp only [List.forall_mem_cons] at hk
  obtain ⟨hport, hpeer, hpp, hpr, hvlan, hdscp, hrel, hsq, hrq, hsring, hrring, hbind, -⟩ := hk
  have hw {k : String} (h : e.v k = none) : e.word? k = none := by rw [Env.word?, h]
  have hn {k : String} (h : e.v k = none) : e.nat? k = none := by rw [Env.nat?, Env.int?, h]; rfl
  have hv : vlanOf e = none := by rw [vlanOf, Env.raw?, hvlan]
  funext x
  simp only [routeWith, routeEdited, hw hport, hw hpeer, hn hpp, hn hpr, hv, hn hdscp, hw hrel, hn hsq, hn hrq, hn hsring, hn hrring, hw hbind]
  rfl

theorem routeSetBody_opened (hv : e.has "vlan" = false) (hon : s.on 8 = true) (ho : (s.route (e.nat "r")).state = .opened)
    (hf : (routeKeys.any fun k => k.name != "r" && k.name != "late" && k.name != "level" && k.name != "reply" && e.has k.name) = false) :
    routeSetBody c p e s = .ok [] (s.onRoute (e.nat "r") (routeWith e)) := by
  unfold routeSetBody
  extract_lets r fixed
  rw [if_neg (by rw [hv]; exact fun h => absurd h.1 (by decide)), if_neg (by rw [hon]; decide)]
  simp only [r, ho]
  exact if_neg (by rw [show fixed = false from hf]; decide)

end

/-- With no posted waybill and no receive buffer, a route that closes gives its pool buffers back and drops its context. -/
theorem closeRoute_idle {r : Nat} {x : Route} {s : State} (h : s.cch.routes = [(r, x)]) (hs : x.sendq = []) (hr : x.recvq = []) :
    (closeRoute r s).cch = { s.cch with poolFree := s.cch.poolFree + b2n (x.bind != .none) * x.rq, routes := [] } ∧
      (closeRoute r s).ram = s.ram := by
  have hx : s.route r = x := by simp [State.route, h, tgetD, tget]
  have hf : flushAll ((s.route r).sendq.length + 1) r 1 s = s := by
    rw [flushAll, if_pos (by rw [hx, hs]; rfl)]
  unfold closeRoute
  extract_lets a y b d l
  have ha : a = s := hf
  have hy : y = x := by rw [← hx, ← ha]
  have hb : b = s := by
    refine Eq.trans ?_ ha
    show a.forEach y.recvq _ = a
    rw [hy, hr]
    rfl
  have hd : tdel s.cch.routes r = [] := by simp [h, tdel]
  have hd' : d.cch = { s.cch with poolFree := s.cch.poolFree + b2n (x.bind != .none) * x.rq, routes := [] } := by
    show ({ b.cch with poolFree := b.cch.poolFree + b2n (y.bind != Bind.none) * y.rq, routes := tdel b.cch.routes r } : CchSt) = _
    rw [hb, hy, hd]
  exact ⟨hd', (congrArg State.ram hb : b.ram = s.ram)⟩

/-- Settles O36: each verb's body on a line that passes its checks; a closing route's state is kept while the WAITs settle. -/
theorem routes : Obligations.Routes := by
  unfold Obligations.Routes
  refine ⟨fun c p a e s h => ?_, fun c p a s k hr hl hc hm hk => ?_, fun c p a e s h hn hv hon => ?_, fun c p a e s h hst => ?_,
    fun r x s h hx hs hr => ?_, fun c p a e s h hon ho hf => ?_, fun c p a e s h hon ho hp hv => ?_, fun c p a e s h hu ho hb hq => ?_,
    fun c p a e s h hw hon ho hp => ?_, fun c p a e s h hw hon ho hp => ?_, fun c p a e s h hon => ?_⟩
  · intro r x taken hv hon hc hd hr ht hl
    refine answersWith_of_body rfl h ⟨_, _, routeOpenBody_done (fun k => hv k.1 k.2) hon hc hd hr (buffers_of_bind _ _) ht hl, rfl,
      routeOpened_same _ _ _ _, congrArg CchSt.poolFree (routeOpened_cch _ _ _ _), fun k hk => routeOpened_ne hk _ _ _, routeOpened_ram _ _ _ _⟩
  · exact refuses_of_check rfl hr ((checkKeys_of_free (v := routeOpenV) hl (by decide) rfl (by decide) (claimBars_of_noClaim hc) (by decide)).trans
      (argCheck_lacks hm hk)) (.inr (.inr (keyWrong_of_obj (by decide) _ _ _)))
  · refine refuses_of_body rfl h ?_
    unfold routeOpenBody
    extract_lets r x taken
    rw [if_neg fun k => hv k.1 k.2, if_neg (by rw [hon]; decide), if_pos hn]
  · have hb : ∃ u, routeCloseBody c p e s = .ok [kn "r" (e.nat "r") ++ " state=CLOSING"] u ∧ (u.route (e.nat "r")).state = .closing := by
      have hcl : ((s.onRoute (e.nat "r") fun x => { x with state := .closing }).route (e.nat "r")).state = .closing := by
        rw [State.onRoute_route]
      have hrep : kn "r" (e.nat "r") ++ " " ++ kv "state" "CLOSING" = kn "r" (e.nat "r") ++ " state=CLOSING" := stateReply _ _
      unfold routeCloseBody
      extract_lets r close reply
      simp only [reply, r, hrep]
      obtain ho | ho := hst <;> rw [ho]
      · exact ⟨_, rfl, Eq.trans (((leftOpen_same _ _).keepsClosed.trans (afterCount_keepsClosed _)) fun h => absurd (hcl.symm.trans h) (by decide)) hcl⟩
      · exact ⟨_, rfl, hcl⟩
    obtain ⟨u, hb, hu⟩ := hb
    exact answersWith_of_body rfl h ⟨_, _, hb, rfl, hu⟩
  · obtain ⟨hcch, hram⟩ := closeRoute_idle h hs hr
    have hst : (s.route r).state = .closing := by simp [State.route, h, tgetD, tget, hx]
    refine ⟨_, congrArg Host.Outcome.next ((if_pos hst).trans (afterCount_of_noRoute (congrArg CchSt.routes hcch))), ?_⟩
    have hrt : (closeRoute r s).route r = {} := congrArg (fun c : CchSt => tgetD c.routes r {}) hcch
    exact ⟨congrArg CchSt.routes hcch, hrt, (congrArg CchSt.poolFree hcch).trans (congrArg (s.cch.poolFree + ·) (buffers_of_bind _ _)), hram⟩
  · refine answersOk_of_body rfl h ((routeSetBody_opened (hf _ (by decide)) hon ho ?_).trans ?_)
    · simp [routeKeys, kInt, kEnum, kOnOff, hf]
    · rw [routeWith_of_free hf]
      rfl
  · refine refuses_of_body rfl h ?_
    unfold routeSetBody
    extract_lets r fixed
    rw [if_neg fun k => hv k.1 k.2, if_neg (by rw [hon]; decide)]
    simp only [r, ho]
    exact if_pos (by simp [fixed, routeKeys, hp])
  · refine answersOk_of_body rfl h ?_
    unfold routeRecvBody
    extract_lets r x
    rw [if_neg (by rw [hu]; decide), if_neg (by simp [x, r, ho, hb]), if_neg (Nat.not_le.mpr hq)]
  · have hb : routePostBody c p e s = .ok [] (postWaybill (e.nat "r") (lineWaybill e) s) := by
      unfold routePostBody
      extract_lets r w
      rw [if_neg (by rw [hw]; decide), if_neg (by simp [hon, ho, r]), if_pos hp]
    refine answersWith_of_body rfl h ⟨_, _, hb, rfl, ?_⟩
    refine ⟨by rw [postWaybill_opened ho]; rfl, postWaybill_sendq ho, ?_, fun k hk => ?_⟩
    · rw [postWaybill_opened ho, State.onRoute_ring, wayRing_lineWaybill, State.onRing_ring]
      rfl
    · rw [postWaybill_opened ho, State.onRoute_route_ne _ _ _ _ hk]
      rfl
  · refine refuses_of_body rfl h ?_
    unfold routePostBody
    extract_lets r w
    rw [if_neg (by rw [hw]; decide), if_neg (by simp [hon, ho, r]), if_neg (by simp [r, w, hp])]
  · have hb : ∃ ls, routeShowBody c p e s = .ok ls s := by
      unfold routeShowBody
      rw [if_neg (by rw [hon]; decide)]
      split <;> exact ⟨_, rfl⟩
    obtain ⟨ls, hb⟩ := hb
    exact answersWith_of_body rfl h ⟨_, _, hb, rfl⟩

end Sys2Proof.Machine
end

section
/-! The window, ring and doorbell operations of Coach (O37). -/

namespace Sys2Proof.Machine

variable {s : State}

theorem advanceTail_ring (n k : Nat) (s : State) : (advanceTail n k s).ring n =
    { s.ring n with entries := (s.ring n).entries.drop k, tail := wrap ((s.ring n).tail + k) 1024 } := State.onRing_ring _ _ _

theorem ringDoorbell_posted {v : W32} (ho : (s.route (fld v 0 9)).state = .opened) (hp : postRoom (fld v 0 9) (stagedWaybill s) s = true) :
    ringDoorbell v s = (postWaybill (fld v 0 9) (stagedWaybill s) s).onCch fun c => { c with accepted := true, refused := false } :=
  if_pos ⟨ho, hp⟩

/-- A tail write from entry 0 frees as many entries as it names. -/
theorem writeTail_fromZero {v : W32} (ht : (s.ring s.cch.ringsel.toNat).tail = 0)
    (hn : fld v 0 10 ≤ (s.ring s.cch.ringsel.toNat).entries.length) : writeTail v s = advanceTail s.cch.ringsel.toNat (fld v 0 10) s := by
  have hk : wrap (fld v 0 10 + 1024 - (s.ring s.cch.ringsel.toNat).tail) 1024 = fld v 0 10 := by
    rw [ht]
    unfold wrap fld
    omega
  unfold writeTail
  extract_lets n g k
  have hk' : k = fld v 0 10 := hk
  rw [hk']
  exact if_pos hn

/-- The window that a line of `win.open` describes. -/
def lineWindow (e : Env) : Window := {
  addr := e.nat "addr", len := e.nat "len", rd := (e.wordsOf "rights").contains "rd", wr := (e.wordsOf "rights").contains "wr"
  route := e.nat? "route" }

theorem winShowBody_on {c : Ctx} {p : Pfx} {e : Env} (h : s.on 8 = true) : ∃ ls, winShowBody c p e s = .ok ls s := by
  unfold winShowBody
  rw [if_neg (by rw [h]; decide)]
  split <;> exact ⟨_, rfl⟩

/-- Settles O37: a window and a ring entry are one entry of Coach's tables; the doorbell's post is `postWaybill_opened`. -/
theorem windowsAndRings : Obligations.WindowsAndRings := by
  unfold Obligations.WindowsAndRings
  refine ⟨fun c p a e s h => ?_, fun c p a e s h ho hh => ?_, fun c p a e s h ho => ?_, fun c p a e s h hon => ?_, fun c p a e s h hon => ?_,
    fun c p a e s h hon => ?_, fun v s hon ho hp => ?_, fun v s hon hn => ?_, fun v s hon ht hn => ?_⟩
  · intro w hu hc hon ho
    have hb : winOpenBody c p e s =
        .ok [kn "w" w ++ " " ++ kv "key" (hexS 8 (winKey w (openWindow w (lineWindow e) s)).toNat)] (openWindow w (lineWindow e) s) := by
      unfold winOpenBody
      rw [if_neg (by simp [hu, hc]), if_neg (by rw [hon]; decide), if_neg (by rw [ho]; decide)]
      rfl
    refine answersWith_of_body rfl h ⟨_, _, hb, ?_, ?_⟩
    · rw [winKey, openWindow, State.onWin_win]
    · unfold openWindow
      rw [State.onWin_win]
      exact ⟨rfl, rfl, rfl, rfl, rfl, rfl, rfl, fun k hk => State.onWin_win_ne _ _ _ _ hk, rfl⟩
  · have hb : winCloseBody c p e s = .ok [] (closeWindow (e.nat "w") s) := by
      unfold winCloseBody
      rw [if_neg (by rw [ho]; decide), if_neg (by rw [hh]; decide)]
    refine answersWith_of_body rfl h ⟨_, _, hb, rfl, ?_⟩
    unfold closeWindow
    rw [State.onWin_win]
    exact ⟨rfl, rfl, fun k hk => State.onWin_win_ne _ _ _ _ hk⟩
  · exact refuses_of_body rfl h (if_pos ho)
  · obtain ⟨ls, hb⟩ := winShowBody_on (c := c) (p := p) (e := e) hon
    exact answersWith_of_body rfl h ⟨_, _, hb, rfl⟩
  · exact answersWith_of_body rfl h ⟨_, _, if_neg (by rw [hon]; decide), rfl, rfl⟩
  · refine answersWith_of_body rfl h ⟨_, _, if_neg (by rw [hon]; decide), rfl, ?_⟩
    rw [advanceTail_ring]
    exact ⟨rfl, rfl, rfl, fun k hk => State.onRing_ring_ne _ _ _ _ hk⟩
  · refine ⟨_, congrArg Host.Outcome.next ((if_pos hon).trans (ringDoorbell_posted ho hp)), rfl, rfl, ?_⟩
    exact (congrArg List.length (postWaybill_sendq ho)).trans List.length_append
  · refine congrArg Host.Outcome.next ((if_pos hon).trans (if_neg fun k => ?_))
    rcases hn with hn | hn
    · exact hn k.1
    · rw [hn] at k
      exact absurd k.2 (by decide)
  · refine ⟨_, congrArg Host.Outcome.next ((if_pos hon).trans (writeTail_fromZero ht hn)), ?_⟩
    beta_reduce
    rw [advanceTail_ring, ht]
    refine ⟨?_, rfl⟩
    show wrap (0 + fld v 0 10) 1024 = fld v 0 10
    unfold wrap fld
    omega

end Sys2Proof.Machine
end

section
/-! The Larder's table and binding verbs (O34). -/

namespace Sys2Proof.Machine

section
variable {c : Ctx} {p : Pfx} {e : Env} {s : State}

/-! ### `ldr.set` -/

theorem mem_of_mem_trimCache {ts : Tab TableD} {x : Line} (l : List Line) : x ∈ trimCache ts l → x ∈ l := by
  unfold trimCache
  suffices ∀ kept : List Line, x ∈ l.foldl (fun kept x =>
      if x.pin || decide ((kept.filter fun y => y.set == x.set && !y.pin).length < 16 - pinWays ts x.set) then kept ++ [x] else kept) kept →
      x ∈ kept ∨ x ∈ l by
    intro h
    rcases this [] h with h | h
    · exact absurd h List.not_mem_nil
    · exact h
  induction l with
  | nil => exact fun kept h => .inl h
  | cons y l ih =>
    intro kept h
    rw [List.foldl_cons] at h
    rcases ih _ h with h | h
    · split at h
      · rcases List.mem_append.mp h with h | h
        · exact .inl h
        · exact .inr (List.mem_cons.mpr (.inl (List.mem_singleton.mp h)))
      · exact .inl h
    · exact .inr (List.mem_cons_of_mem _ h)

theorem putTable_cache {t : Nat} {d : TableD} {x : Line} (h : x ∈ (putTable t d s).ldr.cache) : x.table ≠ t := by
  have hx : x ∈ s.ldr.cache.filter fun x => x.table != t := mem_of_mem_trimCache _ h
  simpa using (List.mem_filter.mp hx).2

theorem mem_putTable_whole (t : Nat) (d : TableD) (s : State) : t ∈ (putTable t d s).ldr.whole ↔ d.pin = true ∧ d.local_ = true := by
  show t ∈ (if (d.pin && d.local_) = true then t :: s.ldr.whole.filter (· != t) else s.ldr.whole.filter (· != t)) ↔ _
  cases d.pin <;> cases d.local_ <;> simp

theorem ldrSetBody_done {t : Nat} {d : TableD} (ht : e.nat "table" = t)
    (hd : ldrDescr e ((tget s.ldr.tables t).getD ⟨"", true, 0, 0, 0, 0, 1, 64, 12, 1, 0, false, false⟩) = d) (hb : ldrBad e d = none)
    (hon : s.on 11 = true) (hl : d.local_ = true → s.mem.valid = true ∧ localOverlap s d (tdel s.ldr.tables t) = false)
    (hbusy : tableBusy s t = false)
    (hroom : d.local_ = true → ((tdel s.ldr.tables t).map fun x => if x.2.local_ then x.2.bytes else 0).sum + d.bytes ≤ 24 * 2 ^ 30)
    (hpin : d.pin = true → maxPin (tset (tdel s.ldr.tables t) t d) ≤ 8) : ldrSetBody c p e s = .ok [] (putTable t d s) := by
  subst ht hd
  unfold ldrSetBody
  extract_lets t d others
  simp only [show ldrBad e d = none from hb]
  rw [if_neg, if_neg, if_neg, if_neg, if_neg]
  · exact fun k => absurd (hpin k.1) (Nat.not_le.mpr k.2)
  · exact fun k => absurd (hroom k.1) (Nat.not_le.mpr k.2)
  · rw [show tableBusy s t = false from hbusy]
    decide
  · rintro ⟨hk, k⟩
    rw [show localOverlap s d others = false from (hl hk).2] at k
    exact absurd k (by decide)
  · rintro (k | ⟨hk, k⟩)
    · rw [hon] at k
      exact absurd k (by decide)
    · rw [(hl hk).1] at k
      exact absurd k (by decide)

theorem ldrSetBody_busy {d : TableD} (ht : tget s.ldr.tables (e.nat "table") = some d) (hb : ldrBad e (ldrDescr e d) = none) (hon : s.on 11 = true)
    (hl : (ldrDescr e d).local_ = false) (hbusy : tableBusy s (e.nat "table") = true) : ldrSetBody c p e s = .err 30 "table" s := by
  unfold ldrSetBody
  extract_lets t d' others
  have hd : d' = ldrDescr e d := by simp only [d', t, ht, Option.getD_some]
  simp only [hd, hb]
  rw [if_neg (by simp [hon, hl]), if_neg (by simp [hl]), if_pos hbusy]

/-! ### `ldr.load` -/

theorem ldrLoadBody_memory {d : TableD} {k : Nat} (ht : tget s.ldr.tables (e.nat "table") = some d) (hl : d.local_ = true) (hon : s.on 11 = true)
    (hm : s.mem.valid = true) (hbusy : tableBusy s (e.nat "table") = false) (ha : e.nat? "addr" = some k) (hu : inUsable k d.bytes s = true) :
    ldrLoadBody c p e s = .ok [spaced [kn "table" (e.nat "table"), kn "bytes" d.bytes, kn "pinned" (tableWays d)]]
      { s with ram := s.ram.writeN d.addr (s.ram.readN k d.bytes) } := by
  simp only [ldrLoadBody, ht, ha]
  rw [if_neg (by simp [hl]), if_neg (by simp [hon, hm]), if_neg (by simp [hbusy]), if_pos hu]

theorem ldrLoadBody_image {d : TableD} {f : Flash} {x : DirEntry} (ht : tget s.ldr.tables (e.nat "table") = some d) (hl : d.local_ = true)
    (hon : s.on 11 = true) (hm : s.mem.valid = true) (hbusy : tableBusy s (e.nat "table") = false) (ha : e.nat? "addr" = none)
    (hf : s.sys.flash = some f) (hx : dirEntry 3 d.name s = some x) (hlen : d.bytes ≤ x.length) :
    ldrLoadBody c p e s = .ok [spaced [kn "table" (e.nat "table"), kn "bytes" d.bytes, kn "pinned" (tableWays d)]]
      { s with ram := s.ram.writeN d.addr ((List.range d.bytes).map fun k => flashByte f (x.offset + k)) } := by
  simp only [ldrLoadBody, ht, ha, hf, hx]
  rw [if_neg (by simp [hl]), if_neg (by simp [hon, hm]), if_neg (by simp [hbusy]), if_neg (Nat.not_lt.mpr hlen)]

/-! ### `ldr.bind` -/

/-- The state once a route is bound to the Larder, its buffers taken. -/
def larderBound (r : Nat) (s : State) : State :=
  ((s.onRoute r fun x => { x with bind := .larder, pool := x.rq }).onCch fun c => { c with poolFree := c.poolFree - (s.route r).rq }).onLdr fun l =>
    { l with lastB := BitVec.ofNat 9 r }

theorem ldrBindBody_free (hcch : s.on 8 = true) (hldr : s.on 11 = true) (ho : (s.route (e.nat "route")).state = .opened)
    (hb : (s.route (e.nat "route")).bind = .none) (hn : (boundRoutes s).length < 16) (hp : (s.route (e.nat "route")).rq ≤ s.cch.poolFree) :
    ldrBindBody c p e s = .ok [] (larderBound (e.nat "route") s) := by
  simp only [ldrBindBody, hb]
  rw [if_neg (by simp [hcch, hldr, ho]), if_neg]
  · rfl
  · rintro (k | k)
    · exact absurd hn (Nat.not_lt.mpr k)
    · exact absurd hp (Nat.not_le.mpr k)

theorem ldrBindBody_bound (hcch : s.on 8 = true) (hldr : s.on 11 = true) (ho : (s.route (e.nat "route")).state = .opened)
    (hb : (s.route (e.nat "route")).bind = .larder) : ldrBindBody c p e s = .ok [] s := by
  simp only [ldrBindBody, hb]
  exact if_neg (by simp [hcch, hldr, ho])

/-- With no record to post, a route that is to be unbound is. -/
theorem drainRoute_idle {n r : Nat} {cut : Bool} (hp : (s.route r).pending = []) (hu : s.ldr.unbind.contains r = true) :
    drainRoute (n + 1) r cut s = finishUnbind r s := by
  rw [drainRoute]
  simp only [hp, hu, if_true]

theorem finishUnbind_route (r : Nat) (s : State) : (finishUnbind r s).route r = { s.route r with bind := .none, pool := 0 } :=
  State.onRoute_route s r fun x => { x with bind := .none, pool := 0 }

theorem finishUnbind_route_ne {r k : Nat} (h : k ≠ r) (s : State) : (finishUnbind r s).route k = s.route k :=
  State.onRoute_route_ne s r k (fun x => { x with bind := .none, pool := 0 }) h

theorem larderBound_route (r : Nat) (s : State) : (larderBound r s).route r = { s.route r with bind := .larder, pool := (s.route r).rq } :=
  State.onRoute_route s r fun x => { x with bind := .larder, pool := x.rq }

theorem larderBound_route_ne {r k : Nat} (h : k ≠ r) (s : State) : (larderBound r s).route k = s.route k :=
  State.onRoute_route_ne s r k (fun x => { x with bind := .larder, pool := x.rq }) h

theorem ldrUnbindBody_idle (hcch : s.on 8 = true) (hldr : s.on 11 = true) (hb : (s.route (e.nat "route")).bind = .larder)
    (hp : (s.route (e.nat "route")).pending = []) : ldrUnbindBody c p e s =
      .ok [] (finishUnbind (e.nat "route") (s.onLdr fun l => { l with unbind := l.unbind ++ [e.nat "route"] })) := by
  simp only [ldrUnbindBody, hb]
  refine (if_neg (by simp [hcch, hldr])).trans (congrArg (Res.ok []) ?_)
  rw [Nat.add_comm]
  refine drainRoute_idle hp (List.contains_iff_mem.mpr ?_)
  exact List.mem_append_right _ List.mem_cons_self

end

/-- Settles O34: each verb's body on a line that passes its checks. -/
theorem larderTables : Obligations.LarderTables := by
  unfold Obligations.LarderTables
  refine ⟨fun c p a e s h => ?_, fun c p a s k hr hl hc hm hk => ?_, fun c p a e s d h ht hb hon hl hbusy => ?_,
    fun c p a e s d h ht hl hon hm hbusy => ⟨fun k ha hu => ?_, fun f x ha hf hx hlen => ?_⟩, fun c p a e s h => ?_, fun c p a e s h => ?_,
    fun c p a e s d h ht hon => answersOk_of_body rfl h ?_, fun c p a e s h hon => ?_⟩
  · intro t d hb hon hl hbusy hroom hpin
    refine answersWith_of_body rfl h ⟨_, _, ldrSetBody_done rfl rfl hb hon hl hbusy hroom hpin, rfl, tget_tset_same _ _ _,
      fun k hk => tget_tset_ne _ _ _ _ hk, fun x hx => putTable_cache hx, mem_putTable_whole _ _ _, rfl, rfl⟩
  · exact refuses_of_check rfl hr ((checkKeys_of_free (v := ldrSetV) hl (by decide) rfl (by decide) (claimBars_of_noClaim hc) (by decide)).trans
      (argCheck_lacks hm hk)) (.inr (.inr (keyWrong_of_obj (by decide) _ _ _)))
  · exact refuses_of_body rfl h (ldrSetBody_busy ht hb hon hl hbusy)
  · exact answersWith_of_body rfl h ⟨_, _, ldrLoadBody_memory ht hl hon hm hbusy ha hu, rfl, rfl⟩
  · exact answersWith_of_body rfl h ⟨_, _, ldrLoadBody_image ht hl hon hm hbusy ha hf hx hlen, rfl, rfl⟩
  · intro r hcch hldr ho
    refine ⟨fun hb hn hp => answersWith_of_body rfl h ⟨_, _, ldrBindBody_free hcch hldr ho hb hn hp, rfl, ?_⟩,
      fun hb => answersOk_of_body rfl h (ldrBindBody_bound hcch hldr ho hb)⟩
    rw [larderBound_route]
    exact ⟨rfl, rfl, rfl, rfl, fun k hk => larderBound_route_ne hk s⟩
  · intro r hcch hldr hb hp
    refine answersWith_of_body rfl h ⟨_, _, ldrUnbindBody_idle hcch hldr hb hp, rfl, ?_⟩
    rw [finishUnbind_route]
    exact ⟨rfl, rfl, rfl, fun k => absurd (List.mem_filter.mp k).2 (by simp [r]), fun k hk => finishUnbind_route_ne hk _⟩
  · simp only [ldrInvalBody, ht]
    exact if_neg (by rw [hon]; decide)
  · have hb : ∃ ls, ldrShowBody c p e s = .ok ls s ∧ ls.length = if e.nat? "table" = none then 2 else 1 := by
      unfold ldrShowBody
      extract_lets l
      rw [if_neg (by rw [hon]; decide)]
      cases e.nat? "table" <;> exact ⟨_, rfl, rfl⟩
    obtain ⟨ls, hb, hlen⟩ := hb
    exact answersWith_of_body rfl h ⟨_, _, hb, rfl, hlen⟩

end Sys2Proof.Machine
end

section
/-! Larder requests from their line to the delivery store (O35). -/

namespace Sys2Proof.Machine

section
variable {s : State}

/-! ### What waits for the queue -/

/-- What the Larder's service holds, and memory. -/
def State.fetchKept (s : State) : List Serve × List Serve × Tab Fetch × Memory := (s.ldr.queue, s.ldr.serving, s.ldr.slots, s.ram)

theorem OnlyDesk.fetchKept {t : State} (h : OnlyDesk s t) : t.fetchKept = s.fetchKept := by
  unfold OnlyDesk at h
  rw [h]
  rfl

theorem rejectEv_fetchKept (e : Event) (s : State) : (rejectEv e s).fetchKept = s.fetchKept := by
  unfold rejectEv
  extract_lets a b
  have hb : b.fetchKept = a.fetchKept := (notify_only _ _ a).fetchKept
  exact (show (logAt _ _ _ _ _ _ _ b).fetchKept = b.fetchKept from rfl).trans hb

/-- An event that the Larder posts for itself: a delivery that no line asked for. -/
structure IsDelivery (e : Event) : Prop where
  noLine : e.by_ = none
  noRequest : ∀ r, e.eff ≠ .request r
  noReady : ∀ ch on, e.eff ≠ .ready ch on

theorem lateTo_fetchKept (e : Event) (due : Nat) (s : State) : (lateTo e due s).fetchKept = s.fetchKept := by
  unfold lateTo
  extract_lets d a b
  have ha : a.fetchKept = s.fetchKept := by
    unfold a countLate
    split <;> rfl
  have hb : b.fetchKept = a.fetchKept := by
    unfold b
    split <;> rfl
  exact hb.trans ha

theorem handleLate_fetchKept {e : Event} (h : IsDelivery e) (due : Nat) (s : State) : (handleLate e due s).fetchKept = s.fetchKept := by
  unfold handleLate
  split
  · extract_lets a b
    have ha : a.fetchKept = s.fetchKept := by
      unfold a
      split <;> rfl
    have hb : b = rejectEv e a := by
      unfold b deskFail
      rw [h.noLine]
    have hbk : b.fetchKept = s.fetchKept := by rw [hb, rejectEv_fetchKept, ha]
    split
    next ch on he => exact absurd he (h.noReady ch on)
    next => exact hbk
  · exact lateTo_fetchKept e due s

theorem enqueue_fetchKept {e : Event} (h : IsDelivery e) (cut : Bool) (s : State) : (enqueue e cut s).fetchKept = s.fetchKept := by
  unfold enqueue
  split
  · rfl
  split
  · rfl
  extract_lets isOn
  split
  next r he => exact absurd he (h.noRequest r)
  next =>
    split
    · rfl
    · exact handleLate_fetchKept h _ s

theorem postStored_fetchKept (cut : Bool) (s : State) : (postStored cut s).fetchKept = s.fetchKept := by
  refine State.forEach_keeps s State.fetchKept _ _ fun d t => ?_
  split
  · rfl
  · unfold postDelivery
    extract_lets q u
    exact enqueue_fetchKept ⟨rfl, fun _ => Effect.noConfusion, fun _ _ => Effect.noConfusion⟩ cut u

/-- With no event kept back and no route record, what the service holds does not change as held events are admitted. -/
theorem admitHeld_fetchKept {cut : Bool} (hh : s.evq.held = []) (hr : s.cch.routes = []) : (admitHeld cut s).fetchKept = s.fetchKept := by
  unfold admitHeld
  extract_lets l
  have hl : l = [] := hh
  rw [postStored_fetchKept, hl, State.forEach_nil]
  unfold drainRoutes
  rw [show (s.onEvq fun q => { q with held := [] }).cch.routes = [] from hr]
  rfl

/-! ### Service -/

theorem Serve.same_self (x : Serve) : x.same x = true := by simp [Serve.same]

/-- With nothing in service, a request whose rows are all to come changes nothing as the complete ones are taken. -/
theorem completeServed_of_waiting (h : ∀ x ∈ s.ldr.serving, x.wait ≠ []) : completeServed s = s := by
  have hf : (s.ldr.serving.filter fun x => x.wait.isEmpty) = [] := by
    rw [List.filter_eq_nil_iff]
    exact fun x hx => by simpa using h x hx
  unfold completeServed
  rw [hf, State.forEach_nil]

/-- The state once a request for an uncached row of a LOCAL table is in service, the row's fetch in slot 0. -/
def rowAwaited (x : Serve) (i : Nat) (s : State) : State :=
  s.onLdr fun l => { l with
    queue := [], cHit := satAdd l.cHit 0, serving := [{ x with wait := [i] }]
    slots := [(0, { table := x.req.table, row := i, prefetch := false, route := none, guest := x.req.guest })] }

theorem State.onLdr_congr {f g : LdrSt → LdrSt} (h : f s.ldr = g s.ldr) : s.onLdr f = s.onLdr g := by
  unfold State.onLdr
  rw [h]

/-- The one fetch that a request on a LOCAL table needs takes the lowest slot. -/
theorem startWaits_local {x : Serve} {d : TableD} {i : Nat} (ht : tget s.ldr.tables x.req.table = some d) (hl : d.local_ = true)
    (hw : x.wait = [i]) (hsl : s.ldr.slots = []) :
    startWaits x s = s.onLdr fun l => { l with
      slots := [(0, { table := x.req.table, row := i, prefetch := false, route := none, guest := x.req.guest })] } := by
  have hslot : slotOf s x.req.table i = none := by simp [slotOf, hsl]
  have hfree : freeSlot s = some 0 := by
    unfold freeSlot
    rw [hsl]
    rfl
  unfold startWaits
  simp only [ht, noRoute, hl, Bool.not_true, Bool.false_and, Bool.false_eq_true, if_false, hw, State.forEach_cons, State.forEach_nil, hslot]
  unfold startFetch
  simp only [hfree, hl, if_true]
  exact State.onLdr_congr (by simp only [hsl]; rfl)

theorem takeServe_uncached {x : Serve} {d : TableD} {i : Nat} (hq : s.ldr.queue = [x]) (hs : s.ldr.serving = []) (hsl : s.ldr.slots = [])
    (ht : tget s.ldr.tables x.req.table = some d) (hl : d.local_ = true) (hpf : d.pf = false) (hb : badRequest s x.req = false)
    (hi : x.req.idx = [i]) (hr : x.rows = []) (hc : rowCached s x.req.table d i = false) : takeServe x s = rowAwaited x i s := by
  have hdrop : dropServe x s = s.onLdr fun l => { l with queue := [], serving := [] } :=
    State.onLdr_congr (by simp [hq, hs, Serve.same_self])
  have hw : [i].eraseDups = [i] := rfl
  unfold takeServe
  rw [if_neg (by simp [hb])]
  simp only [ht, noRoute, hl, Bool.not_true, Bool.false_and, Bool.false_eq_true, if_false, hi, List.filter_cons, hc, List.filter_nil, List.map_nil,
    State.forEach_nil, List.length_nil, List.contains_nil, Bool.not_false, if_true, hdrop, hw]
  unfold prefetchRows
  rw [if_neg (by simp [hpf])]
  refine (startWaits_local ?_ hl rfl ?_).trans ?_
  · exact ht
  · exact hsl
  · rw [← hr]
    rfl

/-- The first request in order is the one that waits for service. -/
theorem execLarderServe_one {x : Serve} (hon : s.on 11 = true) (hq : s.ldr.queue = [x]) (hs : s.ldr.serving = []) (hsl : s.ldr.slots = []) :
    execLarderServe s = .next (admitHeld false (completeServed (takeServe x s))) := by
  have hcan : canServe s x = true := by simp [canServe, freeSlots, hsl]
  unfold execLarderServe
  rw [if_pos hon]
  simp only [hq, hs, List.filter_nil, List.nil_append, List.foldl_cons, List.foldl_nil, serveInsert, List.find?_cons, hcan, List.any_cons,
    Serve.same_self, Bool.true_or, if_true]

theorem execLarderServe_idle (hq : s.ldr.queue = []) (hs : s.ldr.serving = []) (hst : s.ldr.store = []) (hp : s.ldr.pinNext = [])
    (hh : s.evq.held = []) (hr : s.cch.routes = []) : execLarderServe s = .next s := by
  unfold execLarderServe
  split
  · have hl : loadPinned s = s := by
      unfold loadPinned
      rw [hp]
      rfl
    simp only [hq, hs, List.filter_nil, List.append_nil, List.foldl_nil, List.find?_nil, hl]
    rw [completeServed_of_waiting (by simp [hs]), admitHeld_of_nothing hh hr hst]
  · rfl

/-! ### The row that arrives -/

theorem State.onLdr_cache {f : LdrSt → LdrSt} (h : ∃ c, f s.ldr = { s.ldr with cache := c }) :
    ∃ c, s.onLdr f = s.onLdr fun l => { l with cache := c } :=
  h.imp fun _ h => State.onLdr_congr h

/-- The cache is all that a line put into it changes. -/
theorem putLine_eq (mru : Bool) (x : Line) (s : State) : ∃ c, putLine mru x s = s.onLdr fun l => { l with cache := c } := by
  refine State.onLdr_cache ?_
  dsimp only
  split <;> exact ⟨_, rfl⟩

theorem putRow_eq (mru : Bool) (t : Nat) (d : TableD) (r : Nat) (bs : List Byte) (s : State) :
    ∃ c, putRow mru t d r bs s = s.onLdr fun l => { l with cache := c } := by
  unfold putRow
  split
  · exact ⟨s.ldr.cache, rfl⟩
  · refine State.forEach_inv s (fun u : State => ∃ c, u = s.onLdr fun l => { l with cache := c }) _ _ (fun o u hu => ?_) ⟨s.ldr.cache, rfl⟩
    obtain ⟨c, rfl⟩ := hu
    exact putLine_eq _ _ _

/-- The one request in service whose rows are all in, and its result. -/
def served (x : Serve) (vals : List Nat) : Delivery :=
  { guest := x.req.guest, port := x.req.port, src := x.src, seq := x.seq, stamp := x.stamp, named := x.named, req := x.req, vals := vals }

theorem completeServed_one {x : Serve} {d : TableD} {r : Nat} {bs : List Byte} (hs : s.ldr.serving = [x]) (hw : x.wait = []) (hst : s.ldr.store = [])
    (ht : tget s.ldr.tables x.req.table = some d) (he : d.elems ≤ 8191) (hi : x.req.idx = [r]) (hr : x.rows = [(r, bs)]) (ho : x.req.op = .sum) :
    ∃ cl na, completeServed s = s.onLdr fun l => { l with
      queue := l.queue.filter fun y => !y.same x, serving := [], store := [served x ((rowF32 d bs).map (·.toNat))], cClip := cl, cNan := na } := by
  have hdrop : dropServe x s = s.onLdr fun l => { l with queue := l.queue.filter fun y => !y.same x, serving := [], store := [] } :=
    State.onLdr_congr (by simp [hs, hst, Serve.same_self])
  have hroom : ¬ 524288 < storeUsed s + 4 * d.elems := by
    have hu : storeUsed s = 0 := by
      unfold storeUsed
      rw [hst]
      rfl
    omega
  unfold completeServed
  simp only [hs, List.filter_cons, hw, List.isEmpty_nil, if_true, List.filter_nil, State.forEach_cons, State.forEach_nil, ht, if_neg hroom,
    hi, hr, List.map_cons, List.map_nil, List.find?_cons, beq_self_eq_true, Option.map_some, Option.getD_some, ho, bagOf, List.foldl_nil, hdrop]
  exact ⟨_, _, rfl⟩

/-- A queue with nothing held back, no record in a route and no result that waits for an entry admits nothing. -/
theorem admitHeld_of_unposted {cut : Bool} (hh : s.evq.held = []) (hr : s.cch.routes = []) (hst : ∀ d ∈ s.ldr.store, d.posted = false) :
    admitHeld cut s = s := by
  have hevq : (s.onEvq fun q => { q with held := [] }) = s := by
    show { s with evq := { s.evq with held := [] } } = s
    rw [← hh]
  have hf : s.ldr.store.filter (·.posted) = [] := by
    rw [List.filter_eq_nil_iff]
    exact fun d hd => by simp [hst d hd]
  unfold admitHeld
  simp only [hh, hevq, State.forEach_nil]
  unfold drainRoutes postStored
  simp only [hr, List.filter_nil, State.forEach_nil, hf]

theorem execRowFetchDone_row {n : Nat} {f : Fetch} {x : Serve} {d : TableD} (hon : s.on 11 = true) (hm : s.mem.valid = true) (hs : s.ldr.slots = [(n, f)])
    (hf : f.route = none) (hp : f.poison = false) (ht : tget s.ldr.tables f.table = some d) (hv : s.ldr.serving = [x])
    (hxt : x.req.table = f.table) (hw : x.wait = [f.row]) (hr : x.rows = []) :
    ∃ c, execRowFetchDone n .ok s = .next (admitHeld false (completeServed (s.onLdr fun l => { l with
      slots := [], cache := c, serving := [{ x with rows := [(f.row, localRow s d f.row)], wait := [] }] }))) := by
  have hslot : tget s.ldr.slots n = some f := by simp [hs, tget]
  have hdel : (s.onLdr fun l => { l with slots := tdel l.slots n }) = s.onLdr fun l => { l with slots := [] } :=
    State.onLdr_congr (by simp [hs, tdel])
  have hrow : localRow (s.onLdr fun l => { l with slots := [] }) d f.row = localRow s d f.row := rfl
  obtain ⟨c, hc⟩ := putRow_eq (!f.prefetch) f.table d f.row (localRow s d f.row) (s.onLdr fun l => { l with slots := [] })
  refine ⟨c, ?_⟩
  unfold execRowFetchDone
  simp only [hslot, hf, hon, hm, hp, Bool.not_true, Bool.or_self, Bool.false_eq_true, if_false, countEcc, hdel, State.onLdr_ldr, ht, hrow, hc]
  refine congrArg (fun u => Host.Outcome.next (admitHeld false (completeServed u))) ?_
  unfold State.onLdr
  simp [hv, hxt, hw, hr]

/-- The state once a row has met an uncorrectable error at address `k`, and the one request that waited for it is discarded. -/
def rowLost (x : Serve) (k : Nat) (s : State) : State :=
  (s.onMem fun m => { m with ded := satInc m.ded, erra := BitVec.ofNat 48 k }).onLdr fun l => { l with
    slots := [], queue := l.queue.filter fun y => !y.same x, serving := [], cEcc := satAdd l.cEcc 1 }

theorem execRowFetchDone_bad {n : Nat} {f : Fetch} {x : Serve} (hon : s.on 11 = true) (hm : s.mem.valid = true) (hs : s.ldr.slots = [(n, f)])
    (hf : f.route = none) (hv : s.ldr.serving = [x]) (hxt : x.req.table = f.table) (hw : x.wait = [f.row]) (hst : s.ldr.store = [])
    (hh : s.evq.held = []) (hr : s.cch.routes = []) (k : Nat) :
    execRowFetchDone n (.ded k) s = .next (rowLost x k s) := by
  have hslot : tget s.ldr.slots n = some f := by simp [hs, tget]
  unfold execRowFetchDone
  simp only [hslot, hf, hon, hm, Bool.not_true, Bool.or_self, Bool.false_eq_true, if_false, Bool.or_true, if_true, countEcc]
  refine congrArg Host.Outcome.next (Eq.trans (congrArg (admitHeld false) ?_) (admitHeld_of_nothing (s := rowLost x k s) hh hr hst))
  unfold rowLost State.onLdr State.onMem
  simp [hv, hxt, hw, hs, tdel, dropServe, State.onLdr, Serve.same_self]

theorem firstDelivery_one {d : Delivery} (h : s.ldr.store = [d]) (hp : d.posted = false) : firstDelivery s d.guest d.port = some d := by
  simp [firstDelivery, h, hp]

theorem execDeliveryWrite_one {d : Delivery} {cut : Bool} (hon : s.on 11 = true) (ht : s.on 3 = true) (hst : s.ldr.store = [d]) (hp : d.posted = false)
    (hs : s.ldr.serving = []) (hq : s.ldr.queue = []) (he : s.evq.entries = []) (hh : s.evq.held = []) (hr : s.cch.routes = [])
    (hd : d.stamp.toNat ≤ s.tly.now.toNat + 1) (hot : onTime d.stamp.toNat cut s = true) :
    execDeliveryWrite d.guest d.port cut s = .next ((s.onLdr fun l => { l with store := [] }).onEvq fun q => { q with
      larderSeq := q.larderSeq + 1
      entries := [{ src := .larder, seq := s.evq.larderSeq, stamp := d.stamp, due := d.stamp, late := false, by_ := none
                    eff := .deliver d.guest d.port d.src d.seq d.stamp d.vals }] }) := by
  have hshare : shareFull .larder s = false := by
    have hone : (s.ldr.store.filter fun e => sameShare e.src .larder).length ≤ 1 := by
      rw [hst]
      exact List.length_filter_le _ _
    simp only [shareFull, shareOf, shareUsed, hq, hs, he, List.filter_nil, List.length_nil, decide_eq_false_iff_not]
    omega
  have hpost : postDelivery cut d s = (s.onLdr fun l => { l with store := [] }).onEvq fun q => { q with
      larderSeq := q.larderSeq + 1
      entries := [{ src := .larder, seq := s.evq.larderSeq, stamp := d.stamp, due := d.stamp, late := false, by_ := none
                    eff := .deliver d.guest d.port d.src d.seq d.stamp d.vals }] } := by
    have herase : (s.onLdr fun l => { l with store := l.store.erase d }) = s.onLdr fun l => { l with store := [] } :=
      State.onLdr_congr (by simp [hst])
    unfold postDelivery
    extract_lets q u
    have hu : u = (s.onLdr fun l => { l with store := [] }).onEvq fun v => { v with larderSeq := v.larderSeq + 1 } :=
      congrArg (State.onEvq · _) herase
    rw [hu, enqueue_accepted]
    · unfold State.onEvq
      simp [he, q]
    · simp [isDup, he, hq, hs]
    · simp [shareFull, shareOf, shareUsed, hq, hs, he]
    · exact hot
    · exact fun _ => Effect.noConfusion
  unfold execDeliveryWrite
  simp only [firstDelivery_one hst hp, hshare, Bool.false_eq_true, if_false, hpost]
  rw [if_neg (by simp [hon, ht]; omega), completeServed_of_waiting, admitHeld_of_nothing]
  · exact hh
  · exact hr
  · rfl
  · intro x hx
    have hx' : x ∈ s.ldr.serving := hx
    rw [hs] at hx'
    exact absurd hx' List.not_mem_nil

theorem ldrReqBody_bag {c : Ctx} {p : Pfx} {e : Env} (hw : e.has "w" = false)
    (hb : badRequest s ⟨e.nat "guest", e.nat "port", e.nat "table", bagOfName (e.word "op"), 0, e.nums "idx"⟩ = false) (hon : s.on 11 = true)
    (hm : s.mem.valid = true) : ldrReqBody c p e s = postChecked false c p
      (.request ⟨e.nat "guest", e.nat "port", e.nat "table", bagOfName (e.word "op"), 0, e.nums "idx"⟩) s := by
  have hv : e.v "w" = none := Env.v_of_has hw
  unfold ldrReqBody
  rw [if_neg (by simp [hw])]
  simp only [Env.raw?, hv, Option.bind_none, Option.getD_none, hb, Bool.false_eq_true, if_false]
  rw [if_neg (by simp [hon, hm])]

/-- A request that its checks accept waits for its service. -/
theorem enqueue_request {e : Event} {cut : Bool} {r : LdrReq} (hd : isDup e.src e.seq e.stamp e.eff s = false) (hs : shareFull e.src s = false)
    (ht : onTime e.stamp.toNat cut s = true) (hr : e.eff = .request r) (hon : s.on 11 = true) :
    enqueue e cut s = s.onLdr fun l => { l with
      queue := l.queue ++ [{ src := e.src, seq := e.seq, stamp := e.stamp, named := e.stamp, req := r, rows := [], wait := [] }] } := by
  unfold enqueue
  rw [if_neg (by simp [hd]), if_neg (by simp [hs])]
  extract_lets isOn
  have hon' : isOn = true := ht
  simp only [hr, hon', if_true]
  unfold queueRequest
  exact if_neg (by simp [hon])

theorem putFail_of_applyEffect {e : Event} {t g port : Nat} {l : List W32} {u : State} (h : applyEffect e t s = .ok u) (he : e.eff = .put g port l) :
    putFail s g port l = none := by
  unfold applyEffect at h
  simp only [he] at h
  split at h
  · cases h
  next hn => exact hn

/-- Values that a guest takes fit the port they are for. -/
theorem port_of_putFail {g port : Nat} {l : List W32} (h : putFail s g port l = none) :
    ∃ d, ((s.plan? (s.guest g).plan).bind fun p => p.body.ports[port]?) = some d ∧ (d.matrix || decide (d.elems < l.length)) = false := by
  unfold putFail at h
  extract_lets x at h
  split at h
  · cases h
  split at h
  · cases h
  split at h
  next d hd =>
    refine ⟨d, hd, ?_⟩
    split at h
    · cases h
    next hn => exact Bool.not_eq_true _ ▸ hn
  next => cases h

theorem ldrPutBody_post {c : Ctx} {p : Pfx} {e : Env} {l : List W32} (hv : (e.raw? "val").bind (fun v => allSome ((valItems v).map itemF32)) = some l)
    (h0 : l ≠ []) (h8 : l.length ≤ 8) (hon : s.on 11 = true) (hok : putFail s (e.nat "guest") (e.nat "port") l = none) :
    ldrPutBody c p e s = postChecked false c p (.put (e.nat "guest") (e.nat "port") l) s := by
  obtain ⟨d, hd, hfits⟩ := port_of_putFail hok
  obtain ⟨q, hq, hport⟩ := Option.bind_eq_some_iff.mp hd
  obtain ⟨v, hraw, hval⟩ := Option.bind_eq_some_iff.mp hv
  unfold ldrPutBody
  simp only [hraw, hval, hq, Option.map_some, hport, hfits, hon, Bool.false_eq_true, if_false, if_true]
  rw [if_neg]
  rintro (k | k)
  · exact h0 (List.isEmpty_iff.mp k)
  · exact absurd h8 (Nat.not_le.mpr k)

end

/-- Settles O35: the line's checks, the service of one request, and the row and the delivery that follow it. -/
theorem larderRequests : Obligations.LarderRequests := by
  unfold Obligations.LarderRequests
  refine ⟨fun c p a e s t h _ _ hw => ?_, fun c p a e s h ho hw hb => ?_, fun c p a e s t l h hv h0 h8 hon hacc => ?_,
    fun x d i s hon hq hs hsl hh hr ht hl hpf hb hi _ hrows hc => ?_, fun s hq hs hst hp hh hr => execLarderServe_idle hq hs hst hp hh hr,
    fun n f x d s hon hm hsl hf hp ht hl hs hst hxt hxi ho hw hrows hh hr he => ⟨?_, fun k => ?_⟩,
    fun d cut s hon h3 hst hp hs hq he hh hr hd hot => ?_⟩
  · intro r hb hon hm hacc
    obtain ⟨-, -, -, -, -, hot, -, hs, hd⟩ := id hacc
    refine answersOk_of_body rfl h ((ldrReqBody_bag hw hb hon hm).trans ((postChecked_accepted hacc).trans (congrArg (Res.ok _) ?_)))
    rw [enqueue_request (r := r) (by rw [isDup_bumpSeq]; exact hd) (by rw [shareFull_bumpSeq]; exact hs)
      (by rw [onTime_bumpSeq]; exact hacc.stamp_toNat.symm ▸ hot) rfl ?_]
    · rfl
    · rw [State.on, bumpSeq_pwr]
      exact hon
  · refine refuses_of_body rfl h ?_
    have hv : e.v "w" = none := Env.v_of_has hw
    unfold ldrReqBody
    rw [if_neg (by simp [hw])]
    simp only [Env.raw?, hv, ho, Option.bind_none, Option.getD_none]
    exact if_pos hb
  · obtain ⟨-, -, -, -, -, -, ⟨u, hu⟩, -⟩ := id hacc
    exact answersOk_of_body rfl h ((ldrPutBody_post hv h0 h8 hon (putFail_of_applyEffect hu rfl)).trans
      (postChecked_stages hacc fun _ => Effect.noConfusion))
  · have hexec := execLarderServe_one hon hq hs hsl
    rw [takeServe_uncached hq hs hsl ht hl hpf hb hi hrows hc,
      completeServed_of_waiting (s := rowAwaited x i s) (fun y hy => by rw [List.mem_singleton.mp hy]; exact List.cons_ne_nil _ _)] at hexec
    refine ⟨_, hexec, ?_⟩
    have hk := admitHeld_fetchKept (s := rowAwaited x i s) (cut := false) hh hr
    simp only [State.fetchKept, Prod.mk.injEq] at hk
    obtain ⟨hqueue, hserving, hslots, hram⟩ := hk
    exact ⟨hqueue, hserving, hslots, hram⟩
  · obtain ⟨c, hexec⟩ := execRowFetchDone_row hon hm hsl hf hp ht hs hxt hw hrows
    obtain ⟨cl, na, hdone⟩ := completeServed_one (x := { x with rows := [(f.row, localRow s d f.row)], wait := [] })
      (s := s.onLdr fun l => { l with slots := [], cache := c, serving := [{ x with rows := [(f.row, localRow s d f.row)], wait := [] }] })
      rfl rfl hst (hxt ▸ ht) he hxi rfl ho
    refine ⟨_, hexec.trans (congrArg Host.Outcome.next ((congrArg (admitHeld false) hdone).trans (admitHeld_of_unposted ?_ ?_ ?_))), ?_⟩
    · exact hh
    · exact hr
    · exact fun y hy => by rw [List.mem_singleton.mp hy]; rfl
    · exact ⟨rfl, rfl, rfl, rfl⟩
  · refine ⟨_, execRowFetchDone_bad hon hm hsl hf hs hxt hw hst hh hr k, rfl, rfl, hst, rfl, rfl, rfl⟩
  · exact ⟨_, execDeliveryWrite_one hon h3 hst hp hs hq he hh hr hd hot, rfl, rfl, rfl⟩

end Sys2Proof.Machine
end

section
/-! Why the statement about issuing does not hold (O38): a WAIT that is already marked as met is not completed as it is issued. -/

namespace Sys2Proof.Machine

/-- A WAIT on route 1's CC_OUT at 0 that is marked as met although it is not issued. -/
def metWait : Waybill := {
  wid := 0, op := 5, flags := 0, aop := 0, rsvd := 0, laddr := 0, len := 0, rkey := 0, roff := 0, imm := 0, tagw := 0, wroute := 1, wcount := 0
  tally := 0, met := true }

/-- Coach's domain on, and route 0 OPEN with that WAIT alone in its queue. -/
def metWaitState : State :=
  (State.reset.onPwr fun p => { p with dom := 0x0107 }).onCch fun c => { c with routes := [(0, { state := .opened, sendq := [metWait] })] }

/-- The WAIT is issued, and stays in its queue: `waitNow` looks for a WAIT that is not yet met, and finds none. -/
theorem execIssueWait_metWait : exec (.issueWait 0) metWaitState =
    .next (metWaitState.onRoute 0 fun x => { x with sendq := [{ metWait with issued := true }] }) := by
  rfl

/-- Refutes O38: nothing in the clause about a WAIT keeps the queued waybill from being marked as met before it is issued; such a WAIT is issued
and its counter has been reached, but `waitNow` passes over it, so that it stays in the queue. -/
theorem not_issuing : ¬ Obligations.Issuing := by
  unfold Obligations.Issuing
  rintro ⟨-, hwait, -⟩
  have hothers : ∀ e ∈ metWaitState.cch.routes, e.1 ≠ 0 → e.2.sendq = [] := by
    intro e he hne
    rw [List.mem_singleton.mp he] at hne
    exact absurd rfl hne
  obtain ⟨hdone, -⟩ := hwait 0 1 metWait metWaitState (by decide) (by decide) rfl rfl (by decide) rfl rfl rfl (by decide) rfl rfl rfl hothers
  obtain ⟨t, ht, hq, -⟩ := hdone (by decide)
  rw [execIssueWait_metWait] at ht
  cases ht
  exact absurd hq (by decide)

end Sys2Proof.Machine
end

section
/-! Request packets taken in and executed (O39). -/

namespace Sys2Proof.Machine

/-! ### What a sent frame leaves -/

/-- A port without the frames it has sent. -/
def NetSt.quiet (n : NetSt) : NetSt := { n with tx := [] }

/-- The state without the frames its ports have sent. -/
def State.besideSent (s : State) : State := { s with neta := s.neta.quiet, netb := s.netb.quiet }

section
variable {s t : State} {r : Nat}

theorem sendFrame_besideSent (p : Nat) (f : TxFrame) (s : State) : (sendFrame p f s).besideSent = s.besideSent := by
  unfold sendFrame
  split
  · unfold State.onNet
    split <;> rfl
  · rfl

theorem sendCoach_besideSent (r : Nat) (k : Packet) (s : State) : (sendCoach r k s).besideSent = s.besideSent := sendFrame_besideSent _ _ s

theorem sendControl_besideSent (r kind apsn status cecnt : Nat) (s : State) :
    (sendControl r kind apsn status cecnt s).besideSent = s.besideSent := sendCoach_besideSent _ _ s

theorem sent_besideSent (r : Nat) (ks : List Packet) (s : State) : (s.forEach ks (sendCoach r)).besideSent = s.besideSent :=
  State.forEach_keeps s State.besideSent _ _ fun k u => sendCoach_besideSent r k u

section
variable (h : t.besideSent = s.besideSent)
include h

theorem cch_of_sent : t.cch = s.cch := (congrArg State.cch h : t.besideSent.cch = s.besideSent.cch)
theorem ram_of_sent : t.ram = s.ram := (congrArg State.ram h : t.besideSent.ram = s.besideSent.ram)
theorem mem_of_sent : t.mem = s.mem := (congrArg State.mem h : t.besideSent.mem = s.besideSent.mem)
theorem route_of_sent (r : Nat) : t.route r = s.route r := State.route_of_cch (cch_of_sent h) r

end

/-! ### Waits with nothing queued -/

/-- No route has a waybill queued. -/
def Idle (s : State) : Prop := ∀ e ∈ s.cch.routes, e.2.sendq = []

theorem Idle.route (h : Idle s) (k : Nat) : (s.route k).sendq = [] := by
  unfold State.route tgetD
  cases ht : tget s.cch.routes k with
  | none => rfl
  | some x => exact h (k, x) (mem_of_tget ht)

theorem Idle.onRoute (h : Idle s) (r : Nat) {f : Route → Route} (hf : ∀ x, (f x).sendq = x.sendq) : Idle (s.onRoute r f) := by
  intro e he
  rcases mem_tset he with rfl | he
  · exact (hf _).trans (h.route r)
  · exact h e he

/-- Where no issued WAIT is satisfied or fails, none moves. -/
theorem afterCount_of_blocked (h : ∀ e ∈ s.cch.routes, waitNow e.1 s = .blocked) : afterCount s = s := by
  have hf : s.cch.routes.find? (fun e => waitNow e.1 s != .blocked) = none := by
    rw [List.find?_eq_none]
    exact fun e he => by simp [h e he]
  unfold afterCount
  rw [settleWaits, hf]

theorem waitNow_of_noWait (h : (s.route r).sendq = []) : waitNow r s = .blocked := by
  unfold waitNow
  extract_lets x
  rw [show x.sendq = [] from h]
  rfl

theorem afterCount_of_idle (h : Idle s) : afterCount s = s := afterCount_of_blocked fun e _ => waitNow_of_noWait (h.route e.1)

theorem countIn_of_idle (h : Idle s) : countIn r s = s.onRoute r fun x => { x with ccIn := x.ccIn + 1 } :=
  afterCount_of_idle (h.onRoute r (by intro _; rfl))

/-- With nothing queued, no ARM waits for a SEND. -/
theorem fireArm_of_idle (h : Idle s) (r : Nat) (t : W32) : fireArm r t s = s := by
  have hn : armFor r t s = none := by
    unfold armFor
    have hl : ((s.cch.routes.filter fun e => e.2.state == .opened).map fun e =>
        (e.2.sendq.filter fun w => w.op == 6 && !w.armed && w.wroute == r && (w.tagw == 0 || w.tagw == t)).map fun w => (e.1, w.post)).flatten = [] := by
      rw [List.flatten_eq_nil_iff]
      intro l hl
      obtain ⟨e, he, rfl⟩ := List.mem_map.mp hl
      rw [h e (List.mem_filter.mp he).1]
      rfl
    extract_lets l
    rw [show l.flatten = [] from hl]
    rfl
  unfold fireArm
  rw [hn]

/-! ### A request that is executed, and one that is refused -/

/-- What a request's execution does not touch: memory, the rings and the counter of bad keys. -/
def State.stores (s : State) : Memory × MemSt × Tab Ring × BitVec 16 := (s.ram, s.mem, s.cch.rings, s.cch.cKey)

theorem stores_of_sent (h : t.besideSent = s.besideSent) : t.stores = s.stores :=
  (congrArg State.stores h : t.besideSent.stores = s.besideSent.stores)

theorem sendAck_route (r : Nat) (s : State) : (sendAck r s).route r = { s.route r with unacked := 0 } := by
  unfold sendAck
  rw [State.onRoute_route, route_of_sent (sendControl_besideSent _ _ _ _ _ s)]

theorem sendAck_stores (r : Nat) (s : State) : (sendAck r s).stores = s.stores :=
  (stores_of_sent (sendControl_besideSent _ _ _ _ _ s) : (sendControl r 0x10 (lastPsn (s.route r)) 0 0 s).stores = s.stores)

theorem executed_route (r n : Nat) (ar : Bool) (s : State) :
    ∃ u, (executed r n ar s).route r = { s.route r with epsn := wrap ((s.route r).epsn + n) (2 ^ 24), nakSent := false, unacked := u } := by
  unfold executed
  extract_lets a x
  have ha : a.route r = { s.route r with epsn := wrap ((s.route r).epsn + n) (2 ^ 24), nakSent := false, unacked := (s.route r).unacked + 1 } :=
    State.onRoute_route s r fun x => { x with epsn := wrap (x.epsn + n) (2 ^ 24), nakSent := false, unacked := x.unacked + 1 }
  split
  · exact ⟨0, by rw [sendAck_route, ha]⟩
  · exact ⟨_, ha⟩

theorem executed_stores (r n : Nat) (ar : Bool) (s : State) : (executed r n ar s).stores = s.stores := by
  unfold executed
  extract_lets a x
  split
  · exact sendAck_stores r a
  · rfl

/-- A request executed: the expected PSN moves on, and neither memory nor a ring changes. -/
theorem executed_keeps (r n : Nat) (ar : Bool) (s : State) : ∃ u,
    (executed r n ar s).route r = { s.route r with epsn := wrap ((s.route r).epsn + n) (2 ^ 24), nakSent := false, unacked := u } ∧
      (executed r n ar s).ram = s.ram ∧ (executed r n ar s).mem = s.mem ∧ (executed r n ar s).cch.rings = s.cch.rings := by
  obtain ⟨u, hu⟩ := executed_route r n ar s
  have hst := executed_stores r n ar s
  simp only [State.stores, Prod.mk.injEq] at hst
  obtain ⟨hram, hmem, hrings, -⟩ := hst
  exact ⟨u, hu, hram, hmem, hrings⟩

section
variable {kind : Nat} {k : Packet} {n : Nat → State → Nat} {again run : Nat → State → Except Nat State}
variable (ht : takePacket kind k s = (some r, s)) (ho : (s.route r).state = .opened) (hp : k.psn = (s.route r).epsn)
include ht ho hp

theorem request_executed (hrun : run r s = .ok t) : request kind k n again run s = executed r (n r s) k.ar t := by
  have hd : wrap ((s.route r).epsn + 2 ^ 24 - k.psn) (2 ^ 24) = 0 := by
    unfold wrap
    omega
  unfold request
  simp only [ht, ho, ne_eq, not_true_eq_false, if_false, hd, if_true, hrun]

theorem request_refused {st : Nat} (hrun : run r s = .error st) : request kind k n again run s = sendNak r k.psn st s := by
  have hd : wrap ((s.route r).epsn + 2 ^ 24 - k.psn) (2 ^ 24) = 0 := by
    unfold wrap
    omega
  unfold request
  simp only [ht, ho, ne_eq, not_true_eq_false, if_false, hd, if_true, hrun]

end

theorem request_dropped {kind : Nat} {k : Packet} {n : Nat → State → Nat} {again run : Nat → State → Except Nat State}
    (ht : takePacket kind k s = (none, t)) : request kind k n again run s = t := by
  unfold request
  rw [ht]

/-! ### Acceptance -/

section
variable {kind : Nat} {k : Packet} (hup : portUp k.port s = true) (hon : s.on 8 = true) (hk : k.kind = kind)
include hup hon hk

theorem takePacket_damaged (hf : k.fcsOk = false) : takePacket kind k s = (none, s.onNet k.port fun n => { n with cFcs := satInc n.cFcs }) := by
  simp [takePacket, hup, hon, hk, hf]

theorem takePacket_checksum (hf : k.fcsOk = true) (hu : k.fecUnc = false) (hc : k.csumOk = false) :
    takePacket kind k s = (none, s.onNet k.port fun n => { n with cCsum := satInc n.cCsum }) := by
  simp [takePacket, hup, hon, hk, hf, hu, hc]

theorem takePacket_version (hf : k.fcsOk = true) (hu : k.fecUnc = false) (hc : k.csumOk = true) (hv : k.ver ≠ 1) :
    takePacket kind k s = (none, s.onNet k.port fun n => { n with cDisc := satInc n.cDisc }) := by
  simp [takePacket, hup, hon, hk, hf, hu, hc, hv]

theorem takePacket_accepted (hn : kind ≤ 4) (hf : k.fcsOk = true) (hu : k.fecUnc = false) (hc : k.csumOk = true) (hv : k.ver = 1)
    (hr : k.rsvd = 0) (hd : k.droute < 512) (ho : (s.route k.droute).state = .opened) (hp : fromPeer k (s.route k.droute) = true)
    (hce : k.ce = false) : takePacket kind k s = (some k.droute, s) := by
  have hkind : kindOk kind = true := by simp [kindOk]; omega
  have hnak : ¬ kind = 0x11 := by omega
  simp [takePacket, hup, hon, hk, hf, hu, hc, hv, hr, Nat.not_le.mpr hd, ho, hp, hkind, hnak, noteCe, hce]

end

/-- A request whose key opens no window for it is answered, counted, and does nothing else. -/
theorem sendNak_badKey (r psn : Nat) (s : State) : (sendNak r psn 2 s).route r = s.route r ∧ (sendNak r psn 2 s).ram = s.ram ∧
    (sendNak r psn 2 s).cch.cKey = satInc s.cch.cKey := by
  have heq : sendNak r psn 2 s = sendControl r 0x11 psn 2 0 (s.onCch fun c => { c with cKey := satInc c.cKey }) := rfl
  have h := sendControl_besideSent r 0x11 psn 2 0 (s.onCch fun c => { c with cKey := satInc c.cKey })
  rw [heq]
  have hr := route_of_sent h r
  have hm := ram_of_sent h
  exact ⟨hr, hm, congrArg CchSt.cKey (cch_of_sent h)⟩

/-! ### What each request does when it is executed -/

theorem placeIn_memory {w off : Nat} {bs : List Byte} (h : (s.win w).hop = none) :
    placeIn w off bs s = { s with ram := s.ram.writeN ((s.win w).addr + off) bs } := by
  unfold placeIn
  simp only [h]

/-- A route as the first packet of a message comes. -/
def begun (k : Packet) (x : Route) : Route := { x with place := 0, buf := [], curTag := k.tagw, curPsn := k.psn }

theorem beginMessage_only {k : Packet} (hpos : k.pos = 0) (r : Nat) (s : State) : beginMessage r k s = s.onRoute r (begun k) :=
  if_pos (by omega)

theorem endsMsg_only {k : Packet} (hpos : k.pos = 0) : endsMsg k = true := by simp [endsMsg, hpos]

theorem targetReceipt_route (n r op len psn : Nat) (imm tagw : W32) (tally : Option Tally) (s : State) (k : Nat) :
    (targetReceipt n r op len psn imm tagw tally s).route k = s.route k := rfl

theorem Idle.targetReceipt (h : Idle s) (n r op len psn : Nat) (imm tagw : W32) (tally : Option Tally) :
    Idle (targetReceipt n r op len psn imm tagw tally s) := h

/-- A receipt on one of a route's rings is one entry more. -/
theorem targetReceipt_entries {n : Nat} (hn : n < 56) (r op len psn : Nat) (imm tagw : W32) (tally : Option Tally) (s : State) :
    ((targetReceipt n r op len psn imm tagw tally s).ring n).entries.length = (s.ring n).entries.length + 1 := by
  unfold Machine.targetReceipt writeReceipt
  rw [State.onRing_ring]
  simp [hn]

/-- The state once a WRITE_IMM of one packet is placed in window `w`. -/
def immPlaced (r w : Nat) (k : Packet) (s : State) : State :=
  (State.onRoute { s.onRoute r (begun k) with ram := s.ram.writeN ((s.win w).addr + k.roff) k.payload } r) fun x =>
    { x with place := x.place + k.payload.length }

theorem immPlaced_route (r w : Nat) (k : Packet) (s : State) :
    (immPlaced r w k s).route r = { begun k (s.route r) with place := 0 + k.payload.length } := by
  unfold immPlaced
  rw [State.onRoute_route]
  have h : (State.route { s.onRoute r (begun k) with ram := s.ram.writeN ((s.win w).addr + k.roff) k.payload } r) = begun k (s.route r) :=
    State.onRoute_route s r _
  rw [h]
  rfl

theorem Idle.immPlaced (h : Idle s) (r w : Nat) (k : Packet) : Idle (immPlaced r w k s) :=
  Idle.onRoute (s := { s.onRoute r (begun k) with ram := s.ram.writeN ((s.win w).addr + k.roff) k.payload })
    (h.onRoute r fun _ => rfl) r fun _ => rfl

/-- The state once its receipt is written and its message counted. -/
def immReceipted (r w : Nat) (k : Packet) (s : State) : State :=
  (targetReceipt (s.route r).rring r 1 (0 + k.payload.length) k.psn k.imm 0 (if k.tl then some k.tally else none) (immPlaced r w k s)).onRoute r
    fun x => { x with ccIn := x.ccIn + 1 }

theorem immReceipted_keeps (r w : Nat) (k : Packet) (s : State) (h : (s.route r).rring < 56) :
    (immReceipted r w k s).route r = { begun k (s.route r) with place := 0 + k.payload.length, ccIn := (s.route r).ccIn + 1 } ∧
      (immReceipted r w k s).ram = s.ram.writeN ((s.win w).addr + k.roff) k.payload ∧
      ((immReceipted r w k s).ring (s.route r).rring).entries.length = (s.ring (s.route r).rring).entries.length + 1 := by
  refine ⟨?_, rfl, ?_⟩
  · unfold immReceipted
    rw [State.onRoute_route, targetReceipt_route, immPlaced_route]
    rfl
  · unfold immReceipted
    rw [State.onRoute_ring, targetReceipt_entries h]
    rfl

theorem execReceiveWriteImm_only {k : Packet} {w : Nat} (ht : takePacket 1 k s = (some r, s)) (ho : (s.route r).state = .opened)
    (hp : k.psn = (s.route r).epsn) (hpos : k.pos = 0) (hw : windowFor r false k.rkey k.roff k.payload.length s = some w)
    (hh : (s.win w).hop = none) (htf : targetFree r s = true) (hi : Idle s) :
    execReceiveWriteImm k s = .next (executed r 1 k.ar (immReceipted r w k s)) := by
  have hbeg : (placeIn w k.roff k.payload (beginMessage r k s)).onRoute r (fun x => { x with place := x.place + k.payload.length }) =
      immPlaced r w k s := by
    rw [beginMessage_only hpos, placeIn_memory (s := s.onRoute r (begun k)) hh]
    rfl
  refine congrArg Host.Outcome.next (request_executed ht ho hp ?_)
  simp only [hw, hh, Option.isSome_none, endsMsg_only hpos, htf, Bool.true_eq_false, and_false, if_false, if_true, hbeg, immPlaced_route,
    Bool.false_eq_true]
  exact congrArg Except.ok (countIn_of_idle ((hi.immPlaced r w k).targetReceipt _ _ _ _ _ _ _ _))

/-- The state once the bytes of a SEND of one packet are taken in. -/
def sendBuffered (r : Nat) (k : Packet) (s : State) : State :=
  (s.onRoute r (begun k)).onRoute r fun x => { x with buf := [] ++ k.payload }

theorem sendBuffered_route (r : Nat) (k : Packet) (s : State) :
    (sendBuffered r k s).route r = { begun k (s.route r) with buf := [] ++ k.payload } := by
  unfold sendBuffered
  rw [State.onRoute_route, State.onRoute_route]

/-- The state once a SEND of one packet is in its buffer at `b` and receipted. -/
def sendPlaced (r b : Nat) (k : Packet) (s : State) : State :=
  let s := targetReceipt (s.route r).rring r 3 ([] ++ k.payload).length k.psn k.imm k.tagw (if k.tl then some k.tally else none) (sendBuffered r k s)
  { s.onRoute r fun x => { x with recvq := x.recvq.tail } with ram := s.ram.writeN b ([] ++ k.payload) }

theorem sendPlaced_route (r b : Nat) (k : Packet) (s : State) : (sendPlaced r b k s).route r =
    { begun k (s.route r) with buf := [] ++ k.payload, recvq := (s.route r).recvq.tail } := by
  unfold sendPlaced
  extract_lets u
  have hu : u.route r = { begun k (s.route r) with buf := [] ++ k.payload } := (targetReceipt_route _ _ _ _ _ _ _ _ _ r).trans (sendBuffered_route r k s)
  refine Eq.trans (State.onRoute_route u r fun x => { x with recvq := x.recvq.tail }) ?_
  rw [hu]
  rfl

/-- The state once its message is counted. -/
def sendReceipted (r b : Nat) (k : Packet) (s : State) : State :=
  ((sendPlaced r b k s).onRoute r fun x => { x with buf := [] }).onRoute r fun x => { x with ccIn := x.ccIn + 1 }

theorem sendReceipted_keeps (r b : Nat) (k : Packet) (s : State) (h : (s.route r).rring < 56) :
    ((sendReceipted r b k s).route r).recvq = (s.route r).recvq.tail ∧ ((sendReceipted r b k s).route r).ccIn = (s.route r).ccIn + 1 ∧
      ((sendReceipted r b k s).route r).epsn = (s.route r).epsn ∧
      (sendReceipted r b k s).ram = s.ram.writeN b k.payload ∧
      ((sendReceipted r b k s).ring (s.route r).rring).entries.length = (s.ring (s.route r).rring).entries.length + 1 := by
  have hroute : (sendReceipted r b k s).route r = { begun k (s.route r) with recvq := (s.route r).recvq.tail, ccIn := (s.route r).ccIn + 1 } := by
    unfold sendReceipted
    rw [State.onRoute_route, State.onRoute_route, sendPlaced_route]
    rfl
  refine ⟨by rw [hroute], by rw [hroute], by rw [hroute]; rfl, rfl, ?_⟩
  unfold sendReceipted
  rw [State.onRoute_ring, State.onRoute_ring]
  unfold sendPlaced
  extract_lets u
  have hu : (u.ring (s.route r).rring).entries.length = (s.ring (s.route r).rring).entries.length + 1 := targetReceipt_entries h _ _ _ _ _ _ _ _
  exact hu

theorem Idle.sendPlaced (h : Idle s) (r b : Nat) (k : Packet) : Idle (sendPlaced r b k s) := by
  have hbuf : Idle (sendBuffered r k s) := (h.onRoute r (by intro _; rfl)).onRoute r (by intro _; rfl)
  exact Idle.onRoute (s := Machine.targetReceipt (s.route r).rring r 3 ([] ++ k.payload).length k.psn k.imm k.tagw
    (if k.tl then some k.tally else none) (sendBuffered r k s)) hbuf r (by intro _; rfl)

theorem execReceiveSend_only {k : Packet} {b n : Nat} {q : List (Nat × Nat)} {cut : Bool} (ht : takePacket 3 k s = (some r, s))
    (ho : (s.route r).state = .opened) (hp : k.psn = (s.route r).epsn) (hpos : k.pos = 0) (hb : (s.route r).bind = .none)
    (hq : (s.route r).recvq = (b, n) :: q) (hlen : k.payload.length ≤ n) (htf : targetFree r s = true) (hi : Idle s) :
    execReceiveSend ⟨k, cut⟩ s = .next (executed r 1 k.ar (sendReceipted r b k s)) := by
  refine congrArg Host.Outcome.next (request_executed ht ho hp ?_)
  have hroute : (s.onRoute r (begun k)).route r = begun k (s.route r) := State.onRoute_route _ _ _
  have htf' : targetFree r (s.onRoute r (begun k)) = true := by
    unfold targetFree
    rw [hroute]
    exact htf
  have hbind : (begun k (s.route r)).bind = .none := hb
  have hrecv : (begun k (s.route r)).recvq = (b, n) :: q := hq
  have hfits : ¬ n < (begun k (s.route r)).buf.length + k.payload.length := by
    show ¬ n < 0 + k.payload.length
    omega
  simp only [beginMessage_only hpos, hroute, hbind, hrecv, List.head?_cons, Option.map_some, htf', Bool.true_eq_false, if_false, hfits,
    endsMsg_only hpos, if_true, List.headD_cons]
  refine congrArg Except.ok ?_
  have hidle : Idle ((sendPlaced r b k s).onRoute r fun x => { x with buf := [] }) := (hi.sendPlaced r b k).onRoute r (by intro _; rfl)
  refine Eq.trans (congrArg (fireArm r k.tagw) (countIn_of_idle hidle)) ?_
  exact fireArm_of_idle (hidle.onRoute r (by intro _; rfl)) r k.tagw

end

/-- Settles O39: the packets dropped by `takePacket`, the others by what `request` runs and by `executed_keeps`. -/
theorem requests : Obligations.Requests := by
  unfold Obligations.Requests
  refine ⟨fun k s hup hon hk hf => ?_, fun k s hup hon hk hf hu hc => ?_, fun k s hup hon hk hf hu hc hv => ?_,
    fun n k s hn hup hon hk hf hu hc hv hr hd ho hp hce => ?_, fun k r s ht ho hp => ⟨fun w hw hh => ?_, fun hw => ?_⟩,
    fun k r w s ht ho hp hpos hw hh htf hring hi => ?_, fun k r w s ht ho hp hw => ?_,
    fun k r b n q cut s ht ho hp hpos hb hq hlen htf hring hi => ?_, fun k r s ht ho hp => ?_⟩
  · exact congrArg (fun u => Host.Outcome.next u) (request_dropped (takePacket_damaged hup hon hk hf))
  · exact congrArg (fun u => Host.Outcome.next u) (request_dropped (takePacket_checksum hup hon hk hf hu hc))
  · exact congrArg (fun u => Host.Outcome.next u) (request_dropped (takePacket_version hup hon hk hf hu hc hv))
  · exact takePacket_accepted hup hon hk hn hf hu hc hv hr hd ho hp hce
  · refine ⟨_, congrArg Host.Outcome.next (request_executed (t := placeIn w k.roff k.payload s) ht ho hp (by simp only [hw])), ?_⟩
    rw [placeIn_memory hh]
    obtain ⟨u, hrt, hram, -, -⟩ := executed_keeps r 1 k.ar { s with ram := s.ram.writeN ((s.win w).addr + k.roff) k.payload }
    rw [hrt, hram]
    exact ⟨rfl, rfl, rfl, rfl⟩
  · refine ⟨_, congrArg Host.Outcome.next (request_refused ht ho hp (st := 2) (by simp only [hw])), ?_⟩
    obtain ⟨hrt, hram, hkey⟩ := sendNak_badKey r k.psn s
    exact ⟨hram, hkey, hrt⟩
  · refine ⟨_, execReceiveWriteImm_only ht ho hp hpos hw hh htf hi, ?_⟩
    obtain ⟨u, hrt, hram, -, hrings⟩ := executed_keeps r 1 k.ar (immReceipted r w k s)
    rw [State.ring, hrings, hrt, hram]
    obtain ⟨hroute, hmem, hentries⟩ := immReceipted_keeps r w k s hring
    rw [hroute]
    exact ⟨hmem, rfl, rfl, hentries⟩
  · have hsent := sent_besideSent r (readPackets r k false (s.ram.readN ((s.win w).addr + k.roff) k.len) s) s
    refine ⟨_, congrArg Host.Outcome.next (request_executed (t := s.forEach (readPackets r k false (s.ram.readN ((s.win w).addr + k.roff) k.len) s)
      (sendCoach r)) ht ho hp (by simp only [hw]; rfl)), ?_⟩
    obtain ⟨u, hrt, hram, hmem, -⟩ := executed_keeps r (max 1 ((k.len + s.pmax (s.route r).port - 1) / s.pmax (s.route r).port)) k.ar
      (s.forEach (readPackets r k false (s.ram.readN ((s.win w).addr + k.roff) k.len) s) (sendCoach r))
    rw [hrt, hram, hmem, route_of_sent hsent r]
    exact ⟨ram_of_sent hsent, mem_of_sent hsent, rfl⟩
  · refine ⟨_, execReceiveSend_only ht ho hp hpos hb hq hlen htf hi, ?_⟩
    obtain ⟨u, hrt, hram, -, hrings⟩ := executed_keeps r 1 k.ar (sendReceipted r b k s)
    rw [State.ring, hrings, hrt, hram]
    obtain ⟨hrecv, hcc, hepsn, hmem, hentries⟩ := sendReceipted_keeps r b k s hring
    rw [hrecv, hcc, hepsn, hq]
    exact ⟨hmem, rfl, rfl, rfl, hentries⟩
  · refine ⟨_, congrArg Host.Outcome.next (request_executed (t := s) ht ho hp rfl), ?_⟩
    obtain ⟨u, hrt, hram, -, -⟩ := executed_keeps r 1 k.ar s
    rw [hrt, hram]
    exact ⟨rfl, rfl⟩

end Sys2Proof.Machine
end

section
/-! Answers and timers of a route (O40). -/

namespace Sys2Proof.Machine

section
variable {s t u : State} {r : Nat}

/-! ### Ports -/

@[simp] theorem State.onNet_route (s : State) (p : Nat) (f : NetSt → NetSt) : (s.onNet p f).route r = s.route r :=
  State.route_of_cch (State.onNet_cch s p f) r

/-- Frames sent change nothing of a port but the frames. -/
theorem net_of_sent (h : t.besideSent = s.besideSent) (p : Nat) : (t.net p).quiet = (s.net p).quiet := by
  have hp (v : State) : v.besideSent.net p = (v.net p).quiet := by
    unfold State.net
    split <;> rfl
  rw [← hp t, ← hp s, h]

theorem resendFrom_besideSent (r psn : Nat) (s : State) : (resendFrom r psn s).besideSent = s.besideSent :=
  State.forEach_keeps s State.besideSent _ _ fun e v => sendCoach_besideSent r e.2 v

/-! ### What a completion changes of its route, and of the others -/

/-- Of route `r`, at most the queue and CC_OUT are other in `t` than in `s`; of the other routes, nothing. -/
structure OnlyQueue (r : Nat) (s t : State) : Prop where
  own : ∃ q c, t.route r = { s.route r with sendq := q, ccOut := c }
  others : ∀ k, k ≠ r → t.route k = s.route k

theorem OnlyQueue.refl (s : State) : OnlyQueue r s s := ⟨⟨_, _, rfl⟩, fun _ _ => rfl⟩

theorem OnlyQueue.trans (h : OnlyQueue r s t) (g : OnlyQueue r t u) : OnlyQueue r s u := by
  obtain ⟨⟨q, c, hq⟩, ho⟩ := h
  obtain ⟨⟨q', c', hq'⟩, ho'⟩ := g
  exact ⟨⟨q', c', by rw [hq', hq]⟩, fun k hk => (ho' k hk).trans (ho k hk)⟩

theorem OnlyQueue.state (h : OnlyQueue r s t) : (t.route r).state = (s.route r).state := by
  obtain ⟨⟨q, c, hq⟩, -⟩ := h
  rw [hq]

theorem OnlyQueue.status (h : OnlyQueue r s t) : (t.route r).status = (s.route r).status := by
  obtain ⟨⟨q, c, hq⟩, -⟩ := h
  rw [hq]

/-- What a completion leaves of its route's queue, and its CC_OUT. -/
theorem finishHead_route {w : Waybill} {q : List Waybill} (h : (s.route r).sendq = w :: q) (st : Nat) :
    (finishHead r st s).route r =
      { s.route r with sendq := q, ccOut := if (st == 0) = true then (s.route r).ccOut + 1 else (s.route r).ccOut } := by
  unfold finishHead
  rw [h]
  dsimp only
  split
  · rw [writeReceipt_route, State.onRing_route, State.onRoute_route]
  · rw [State.onRing_route, State.onRoute_route]

theorem finishHead_route_ne {k : Nat} (hk : k ≠ r) (st : Nat) (s : State) : (finishHead r st s).route k = s.route k := by
  unfold finishHead
  split
  · rfl
  · extract_lets x ok a b
    have ha : b.route k = s.route k := by
      show a.route k = s.route k
      exact State.onRoute_route_ne _ _ _ _ hk
    split <;> exact ha

theorem finishHead_onlyQueue (r st : Nat) (s : State) : OnlyQueue r s (finishHead r st s) := by
  refine ⟨?_, fun k hk => finishHead_route_ne hk st s⟩
  cases h : (s.route r).sendq with
  | nil =>
    have hf : finishHead r st s = s := by
      unfold finishHead
      rw [h]
    rw [hf]
    exact ⟨_, _, rfl⟩
  | cons w q => exact ⟨_, _, finishHead_route h st⟩

theorem flushAll_onlyQueue (fuel r st : Nat) (s : State) : OnlyQueue r s (flushAll fuel r st s) := by
  induction fuel generalizing s with
  | zero => exact .refl s
  | succ f ih =>
    rw [flushAll]
    split
    · exact .refl s
    · exact (finishHead_onlyQueue r st s).trans (ih _)

/-- A queue that is flushed is empty. -/
theorem flushAll_sendq {fuel : Nat} (st : Nat) (h : (s.route r).sendq.length < fuel) : ((flushAll fuel r st s).route r).sendq = [] := by
  induction fuel generalizing s with
  | zero => omega
  | succ f ih =>
    rw [flushAll]
    split
    next he => exact List.isEmpty_iff.mp he
    next he =>
      cases hq : (s.route r).sendq with
      | nil => simp [hq] at he
      | cons w q =>
        refine ih ?_
        rw [finishHead_route hq]
        rw [hq] at h
        exact Nat.lt_of_succ_lt_succ h

theorem forEach_onlyQueue {α : Type} {f : α → State → State} (hf : ∀ a v, OnlyQueue r v (f a v)) (l : List α) (s : State) :
    OnlyQueue r s (s.forEach l f) :=
  State.forEach_inv s (OnlyQueue r s) l f (fun a v hv => hv.trans (hf a v)) (.refl s)

theorem settleHead_onlyQueue (fuel r : Nat) (s : State) : OnlyQueue r s (settleHead fuel r s) := by
  induction fuel generalizing s with
  | zero => exact .refl s
  | succ f ih =>
    rw [settleHead]
    split
    · exact (finishHead_onlyQueue r _ s).trans (ih _)
    · exact .refl s

/-! ### A route in ERROR -/

/-- Route `r` is in ERROR with status `st`, its queue flushed. -/
structure Failed (r st : Nat) (s : State) : Prop where
  state : (s.route r).state = .error
  status : (s.route r).status = st
  sendq : (s.route r).sendq = []

theorem Failed.of_route {st : Nat} (h : Failed r st s) (ht : t.route r = s.route r) : Failed r st t :=
  ⟨by rw [ht, h.state], by rw [ht, h.status], by rw [ht, h.sendq]⟩

theorem leftOpen_route (r k : Nat) (s : State) : (leftOpen r s).route k = s.route k := by
  unfold leftOpen
  split
  · exact (notify_only _ _ _).route k
  · rfl

theorem routeErrorOne_failed (ho : (s.route r).state = .opened) (st own : Nat) : Failed r st (routeErrorOne r st own s) := by
  unfold routeErrorOne
  rw [if_pos (by rw [ho]; rfl)]
  extract_lets a b c d e
  have ha : a.route r = { s.route r with state := .error, status := st, retx := [] } :=
    State.onRoute_route s r fun x => { x with state := .error, status := st, retx := [] }
  have hc : OnlyQueue r a c := (finishHead_onlyQueue r own a).trans (flushAll_onlyQueue _ r 1 b)
  have hd : d.route r = c.route r := (notify_only _ _ c).route r
  refine Failed.of_route (s := c) ⟨?_, ?_, ?_⟩ ((leftOpen_route r r e).trans hd)
  · rw [hc.state, ha]
  · rw [hc.status, ha]
  · exact flushAll_sendq 1 (Nat.lt_succ_self _)

theorem routeErrorOne_route_ne {k : Nat} (hk : k ≠ r) (st own : Nat) (s : State) : (routeErrorOne r st own s).route k = s.route k := by
  unfold routeErrorOne
  split
  · extract_lets a b c d e
    have ha : a.route k = s.route k := State.onRoute_route_ne s r k _ hk
    have hc : c.route k = a.route k := (flushAll_onlyQueue _ r 1 b).others k hk |>.trans (finishHead_route_ne hk own a)
    have hd : d.route k = c.route k := (notify_only _ _ c).route k
    exact (leftOpen_route r k e).trans (hd.trans (hc.trans ha))
  · rfl

theorem meetWait_route_ne {k : Nat} (hk : k ≠ r) (s : State) : (meetWait r s).route k = s.route k := by
  unfold meetWait
  extract_lets a
  exact ((settleHead_onlyQueue _ r a).others k hk).trans (State.onRoute_route_ne s r k _ hk)

theorem failWait_route_ne {k : Nat} (hk : k ≠ r) (s : State) : (failWait r s).route k = s.route k :=
  (routeErrorOne_route_ne hk 6 6 _).trans ((forEach_onlyQueue (fun _ v => finishHead_onlyQueue r 1 v) _ s).others k hk)

/-- The WAITs that settle leave a route whose queue is empty as it is. -/
theorem settleWaits_route_of_empty (fuel : Nat) (h : (s.route r).sendq = []) : (settleWaits fuel s).route r = s.route r := by
  induction fuel generalizing s with
  | zero => rfl
  | succ f ih =>
    rw [settleWaits]
    split
    · rfl
    next k x hf =>
      have hk : r ≠ k := by
        rintro rfl
        have := List.find?_some hf
        rw [waitNow_of_noWait h] at this
        exact absurd this (by decide)
      have hstep : (if waitNow k s = .done then meetWait k s else failWait k s).route r = s.route r := by
        split
        · exact meetWait_route_ne hk s
        · exact failWait_route_ne hk s
      rw [ih (by rw [hstep, h]), hstep]

theorem Failed.afterCount {st : Nat} (h : Failed r st s) : Failed r st (afterCount s) :=
  h.of_route (settleWaits_route_of_empty _ h.sendq)

theorem routeError_failed (ho : (s.route r).state = .opened) (st : Nat) : Failed r st (routeError r st s) :=
  (routeErrorOne_failed ho st st).afterCount

theorem failOwner_failed (ho : (s.route r).state = .opened) (psn st : Nat) : Failed r st (failOwner r psn st s) := by
  unfold failOwner
  extract_lets owns q a
  split
  · have ha : OnlyQueue r s a := forEach_onlyQueue (fun w v => finishHead_onlyQueue r _ v) _ s
    have hst : (a.route r).state = .opened := ha.state.trans ho
    rw [if_neg (by rw [hst]; decide)]
    exact routeError_failed hst st
  · exact (routeErrorOne_failed ho st 1).afterCount

/-! ### One waybill of one route -/

/-- No route but `r` has a waybill queued. -/
def OthersIdle (r : Nat) (s : State) : Prop := ∀ e ∈ s.cch.routes, e.1 ≠ r → e.2.sendq = []

theorem OthersIdle.onRoute (h : OthersIdle r s) (f : Route → Route) : OthersIdle r (s.onRoute r f) := by
  intro e he hne
  rcases mem_tset he with rfl | he
  · exact absurd rfl hne
  · exact h e he hne

theorem OthersIdle.sendq (h : OthersIdle r s) {k : Nat} (hk : k ≠ r) : (s.route k).sendq = [] := by
  unfold State.route tgetD
  cases ht : tget s.cch.routes k with
  | none => rfl
  | some x => exact h (k, x) (mem_of_tget ht) hk

theorem OthersIdle.afterCount (h : OthersIdle r s) (hr : waitNow r s = .blocked) : afterCount s = s := by
  refine afterCount_of_blocked fun e _ => ?_
  by_cases hk : e.1 = r
  · rw [hk, hr]
  · exact waitNow_of_noWait (h.sendq hk)

theorem OthersIdle.finishHead (h : OthersIdle r s) (st : Nat) : OthersIdle r (finishHead r st s) := by
  unfold Machine.finishHead
  split
  · exact h
  · extract_lets x ok a b
    have ha : OthersIdle r a := by exact h.onRoute _
    split <;> exact ha

theorem headDone_of_empty (h : (s.route r).sendq = []) : headDone r s = none := by
  unfold headDone
  extract_lets x
  rw [show x.sendq = [] from h]

/-- The head that is not done stays, where it is no WAIT that settles. -/
theorem settleRoute_stays (h : OthersIdle r s) (hd : headDone r s = none) (hw : waitNow r s = .blocked) : settleRoute r s = s := by
  unfold settleRoute
  rw [settleHead, hd]
  exact h.afterCount hw

/-- The only waybill of a route that is done completes. -/
theorem settleRoute_completes {w : Waybill} {st : Nat} (h : OthersIdle r s) (hq : (s.route r).sendq = [w]) (hd : headDone r s = some st) :
    settleRoute r s = finishHead r st s := by
  have hempty : ((finishHead r st s).route r).sendq = [] := by rw [finishHead_route hq]
  have hnone := headDone_of_empty hempty
  unfold settleRoute
  rw [hq]
  show Machine.afterCount (settleHead 2 r s) = _
  rw [settleHead, hd]
  dsimp only
  rw [settleHead, hnone]
  exact (h.finishHead st).afterCount (waitNow_of_noWait hempty)

theorem finishHead_ram (r st : Nat) (s : State) : (finishHead r st s).ram = s.ram :=
  (congrArg State.ram (finishHead_besideCoach r st s) : (finishHead r st s).besideCoach.ram = s.besideCoach.ram)

/-- The state once the first response packet of the READ at the head of route `r` is placed. -/
def readPlaced (r : Nat) (w : Waybill) (k : Packet) (s : State) : State :=
  { s.onRoute r fun x => { x with sendq := x.sendq.map fun v =>
      if v.post = w.post then { v with got := v.got + 1, poison := v.poison || (k.status == 9) } else v } with
    ram := s.ram.writeN (w.laddr + w.got * s.pmax (s.route r).port) k.payload }

section
variable {k : Packet} {w : Waybill} (ht : takePacket 5 k s = (some r, s)) (hq : (s.route r).sendq = [w]) (hop : w.op = 2) (hi : w.issued = true)
  (hg : w.got = 0) (hps : w.psn = k.psn) (hpl : w.psn < 2 ^ 24)
include ht hq hop hi hg hps hpl

theorem execReceiveReadResp_next (hn : 1 ≤ w.psns) (hl : w.larder = none) :
    execReceiveReadResp k s = .next (settleRoute r (readPlaced r w k s)) := by
  have hwrap : wrap w.psn 16777216 = k.psn := by
    rw [← hps]
    exact Nat.mod_eq_of_lt hpl
  have hfind : ((s.route r).sendq.find? fun v => v.op == 2 && v.issued && decide (v.got < v.psns) && wrap (v.psn + v.got) (2 ^ 24) == k.psn) = some w := by
    rw [hq, List.find?_cons_of_pos]
    simp [hop, hi, hwrap, hg]
    omega
  unfold execReceiveReadResp
  simp only [ht, hfind, hl]
  rfl

end

theorem readPlaced_route {w : Waybill} (hq : (s.route r).sendq = [w]) (hg : w.got = 0) (hp : w.poison = false) {k : Packet} (hs : k.status = 0) :
    (readPlaced r w k s).route r = { s.route r with sendq := [{ w with got := 1 }] } := by
  refine (State.onRoute_route s r _).trans ?_
  rw [hq]
  simp [hg, hp, hs]

theorem OthersIdle.readPlaced (h : OthersIdle r s) (w : Waybill) (k : Packet) : OthersIdle r (readPlaced r w k s) := h.onRoute _

theorem readPlaced_ram {w : Waybill} (hg : w.got = 0) {k : Packet} : (readPlaced r w k s).ram = s.ram.writeN w.laddr k.payload := by
  unfold readPlaced
  rw [hg, Nat.zero_mul]
  rfl

/-! ### ACK, NAK and EASE -/

section
variable {k : Packet}

theorem execReceiveAck_covers (ht : takePacket 0x10 k s = (some r, s)) (hi : Idle s) (ha : (s.route r).ackd = 0) (hk : k.apsn < (s.route r).psn)
    (hp : (s.route r).psn < 2 ^ 23) : execReceiveAck k s = .next (s.onRoute r fun x => { x with
      ackd := k.apsn + 1, retries := 0, retx := x.retx.filter fun e => decide (wrap (e.1 + 2 ^ 24 - (k.apsn + 1)) (2 ^ 24) < 2 ^ 23) }) := by
  have hd : 1 ≤ wrap (k.apsn + 1 + 2 ^ 24 - (s.route r).ackd) (2 ^ 24) ∧
      wrap (k.apsn + 1 + 2 ^ 24 - (s.route r).ackd) (2 ^ 24) ≤ wrap ((s.route r).psn + 2 ^ 24 - (s.route r).ackd) (2 ^ 24) := by
    unfold wrap
    omega
  have hw : wrap (k.apsn + 1) (2 ^ 24) = k.apsn + 1 := Nat.mod_eq_of_lt (by omega)
  unfold execReceiveAck
  simp only [ht]
  rw [if_pos hd, hw]
  have hidle : Idle (s.onRoute r fun x => { x with
      ackd := k.apsn + 1, retries := 0, retx := x.retx.filter fun e => decide (wrap (e.1 + 2 ^ 24 - (k.apsn + 1)) (2 ^ 24) < 2 ^ 23) }) :=
    hi.onRoute r fun _ => rfl
  have hnone := headDone_of_empty (hidle.route r)
  exact congrArg Host.Outcome.next (settleRoute_stays (fun e he _ => hidle e he) hnone (waitNow_of_noWait (hidle.route r)))

theorem execReceiveNak_seq (ht : takePacket 0x11 k s = (some r, s)) (hst : k.status = 0x10) :
    execReceiveNak k s = .next ((resendFrom r k.apsn s).onNet (s.route r).port fun n => { n with cGoB := satInc n.cGoB }) := by
  unfold execReceiveNak
  simp only [ht, if_pos hst]

theorem execReceiveNak_rnr (ht : takePacket 0x11 k s = (some r, s)) (hst : k.status = 7)
    (hr : ¬ ((s.route r).rnrPsn = some k.apsn ∧ 8 ≤ (s.route r).rnr)) :
    execReceiveNak k s = .next ((s.onNet (s.route r).port fun n => { n with cRnr := satInc n.cRnr }).onRoute r fun x => { x with
      rnr := if x.rnrPsn = some k.apsn then x.rnr else 0, rnrPsn := some k.apsn, rnrWait := true }) := by
  unfold execReceiveNak
  simp only [ht, hst, if_neg hr]
  rfl

theorem execReceiveNak_ninth (ht : takePacket 0x11 k s = (some r, s)) (hst : k.status = 7)
    (hr : (s.route r).rnrPsn = some k.apsn ∧ 8 ≤ (s.route r).rnr) :
    execReceiveNak k s = .next (failOwner r k.apsn 7 (s.onNet (s.route r).port fun n => { n with cRnr := satInc n.cRnr })) := by
  unfold execReceiveNak
  simp only [ht, hst, if_pos hr]
  rfl

theorem execReceiveNak_fatal (ht : takePacket 0x11 k s = (some r, s)) (hst : k.status = 2 ∨ k.status = 3 ∨ k.status = 8) :
    execReceiveNak k s = .next (failOwner r k.apsn k.status s) := by
  unfold execReceiveNak
  simp only [ht]
  rw [if_neg (by omega), if_neg (by omega), if_pos hst]

theorem execReceiveEase_cut (ht : takePacket 0x12 k s = (some r, s)) (hc : carriesHop r s = false) (he : (s.route r).easeIn = false) :
    execReceiveEase k s = .next ((s.onNet (s.route r).port fun n => { n with cEaseR := satInc n.cEaseR }).onRoute r fun x => { x with
      easeIn := true
      rate := max ((s.net (s.route r).port).ccRmin.toNat * 256) (x.rate * (256 - (s.net (s.route r).port).ccCut.toNat) / 256) }) := by
  unfold execReceiveEase
  simp only [ht]
  rw [if_neg, State.onNet_net]
  · rfl
  · rw [State.onNet_route, he]
    rintro (h | h)
    · rw [carriesHop, State.onNet_weave] at h
      exact absurd (hc.symm.trans h) (by decide)
    · cases h

end

/-! ### Timers -/

section
variable {e : Nat × Packet} {l : List (Nat × Packet)} (hon : s.on 8 = true) (ho : (s.route r).state = .opened)
include hon ho

theorem execRetransmitTimeout_again (hx : (s.route r).retx = e :: l) (hlt : (s.route r).retries < 8) :
    execRetransmitTimeout r s = .next (resendFrom r e.1 ((s.onNet (s.route r).port fun n => { n with cTmo := satInc n.cTmo }).onRoute r fun x =>
      { x with retries := x.retries + 1 })) := by
  unfold execRetransmitTimeout
  simp only [hx]
  rw [if_neg (by simp [hon, ho]), if_neg (Nat.not_le.mpr hlt)]

theorem execRetransmitTimeout_ninth (hx : (s.route r).retx = e :: l) (h8 : 8 ≤ (s.route r).retries) :
    execRetransmitTimeout r s = .next (routeError r 4 (s.onNet (s.route r).port fun n => { n with cTmo := satInc n.cTmo })) := by
  unfold execRetransmitTimeout
  simp only [hx]
  rw [if_neg (by simp [hon, ho]), if_pos h8]

theorem execRnrRetry_again {n : Nat} (hn : (s.route r).rnrPsn = some n) (hw : (s.route r).rnrWait = true) :
    execRnrRetry r s = .next (resendFrom r n (s.onRoute r fun x => { x with rnr := x.rnr + 1, rnrWait := false })) := by
  unfold execRnrRetry
  simp only [hn]
  rw [if_neg (by simp [hon, ho, hw])]

end

end

/-- Settles O40: answers by what each does to its route, the ends of a route by `failOwner_failed` and `routeError_failed`. -/
theorem answersAndTimers : Obligations.AnswersAndTimers := by
  unfold Obligations.AnswersAndTimers
  refine ⟨fun k r w s ht ho hq hop hi hg hps hpl hl _ _ hp hst hoth => ⟨fun hn => ?_, fun hn => ?_⟩, fun k r s ht hidle ha hk hpsn => ?_,
    fun k r s ht => ⟨fun hst => ?_, fun hst hr => ?_, fun hst hr h8 ho => ?_, fun hst ho => ?_⟩, fun k r s ht hc he => ?_,
    fun r s hon ho => ⟨fun hu => ?_, fun e l hx hlt => ?_, fun e l hx h8 => ?_, fun n hn hw => ?_, ?_⟩, fun s h3 hs => ?_⟩
  · have hroute := readPlaced_route (k := k) hq hg hp hst
    have hd : headDone r (readPlaced r w k s) = none := by
      unfold headDone
      rw [hroute]
      simp [hop, ho, hi]
      omega
    have hw : waitNow r (readPlaced r w k s) = .blocked := by
      unfold waitNow
      rw [hroute]
      simp [hop]
    refine ⟨_, (execReceiveReadResp_next ht hq hop hi hg hps hpl (by omega) hl).trans (congrArg Host.Outcome.next
      (settleRoute_stays (OthersIdle.readPlaced hoth w k) hd hw)), ?_, by rw [hroute]⟩
    rw [readPlaced_ram hg]
  · have hroute := readPlaced_route (k := k) hq hg hp hst
    have hd : headDone r (readPlaced r w k s) = some 0 := by
      unfold headDone
      rw [hroute]
      simp [hop, ho, hi, hn, hp]
    refine ⟨_, (execReceiveReadResp_next ht hq hop hi hg hps hpl (by omega) hl).trans (congrArg Host.Outcome.next
      (settleRoute_completes (OthersIdle.readPlaced hoth w k) (by rw [hroute]) hd)), ?_, ?_, ?_⟩
    · rw [finishHead_ram, readPlaced_ram hg]
    · rw [finishHead_route (by rw [hroute])]
    · rw [finishHead_route (by rw [hroute]), hroute]
      rfl
  · refine ⟨_, execReceiveAck_covers ht hidle ha hk hpsn, ?_⟩
    beta_reduce
    rw [State.onRoute_route]
    refine ⟨rfl, rfl, fun e he hlt => ?_, rfl⟩
    have hkeep := of_decide_eq_true (List.mem_filter.mp he).2
    unfold wrap at hkeep
    omega
  · have hsent := resendFrom_besideSent r k.apsn s
    refine ⟨_, execReceiveNak_seq ht hst, ?_, ?_⟩
    · rw [State.onNet_route, route_of_sent hsent]
    · rw [State.onNet_net]
      have hnet := congrArg NetSt.cGoB (net_of_sent hsent (s.route r).port)
      exact congrArg satInc hnet
  · refine ⟨_, execReceiveNak_rnr ht hst hr, ?_⟩
    beta_reduce
    rw [State.onRoute_route]
    exact ⟨rfl, rfl⟩
  · obtain ⟨hs, hcode, hq⟩ := failOwner_failed (s := s.onNet (s.route r).port fun n => { n with cRnr := satInc n.cRnr }) (r := r)
      (by rw [State.onNet_route, ho]) k.apsn 7
    exact ⟨_, execReceiveNak_ninth ht hst ⟨hr, h8⟩, hs, hcode, hq⟩
  · obtain ⟨hs, hcode, hq⟩ := failOwner_failed ho k.apsn k.status
    exact ⟨_, execReceiveNak_fatal ht hst, hs, hcode, hq⟩
  · refine ⟨_, execReceiveEase_cut ht hc he, ?_⟩
    beta_reduce
    rw [State.onRoute_route, State.onNet_route]
    refine ⟨rfl, rfl, ?_⟩
    exact congrArg NetSt.cEaseR (State.onNet_net (s := s) (s.route r).port fun n => { n with cEaseR := satInc n.cEaseR })
  · refine ⟨_, congrArg Host.Outcome.next (if_pos ⟨hon, ho, hu⟩), ?_⟩
    beta_reduce
    rw [sendAck_route]
    exact ⟨rfl, rfl⟩
  · have hsent := resendFrom_besideSent r e.1 ((s.onNet (s.route r).port fun n => { n with cTmo := satInc n.cTmo }).onRoute r fun x =>
      { x with retries := x.retries + 1 })
    refine ⟨_, execRetransmitTimeout_again hon ho hx hlt, ?_⟩
    beta_reduce
    rw [route_of_sent hsent, State.onRoute_route, State.onNet_route]
    refine ⟨rfl, ho, ?_⟩
    have hnet := congrArg NetSt.cTmo (net_of_sent hsent (s.route r).port)
    refine hnet.trans ?_
    exact congrArg NetSt.cTmo (State.onNet_net (s := s) (s.route r).port fun n => { n with cTmo := satInc n.cTmo })
  · obtain ⟨hs, hcode, -⟩ := routeError_failed (s := s.onNet (s.route r).port fun n => { n with cTmo := satInc n.cTmo }) (r := r)
      (by rw [State.onNet_route, ho]) 4
    exact ⟨_, execRetransmitTimeout_ninth hon ho hx h8, hs, hcode⟩
  · have hsent := resendFrom_besideSent r n (s.onRoute r fun x => { x with rnr := x.rnr + 1, rnrWait := false })
    refine ⟨_, execRnrRetry_again hon ho hn hw, ?_⟩
    beta_reduce
    rw [route_of_sent hsent, State.onRoute_route]
    exact ⟨rfl, rfl, ho⟩
  · refine ⟨_, congrArg Host.Outcome.next (if_pos ⟨hon, ho⟩), ?_⟩
    beta_reduce
    rw [State.onRoute_route]
    exact ⟨rfl, rfl, rfl⟩
  · refine congrArg Host.Outcome.next ((if_pos h3).trans ?_)
    have hmem : s.cch.sealed.contains (s.tly.now.toNat + 1) = false := by simpa using hs
    unfold State.onCch
    simp only [hmem, Bool.false_eq_true, if_false]

end Sys2Proof.Machine
end

section
/-! The network ports (O41). -/

namespace Sys2Proof.Machine

section
variable {s : State} {p : Nat}

/-! ### Frames sent -/

/-- A port that is up sends. -/
theorem sendFrame_tx (h : portUp p s = true) (f : TxFrame) : ((sendFrame p f s).net p).tx = f :: (s.net p).tx := by
  have hup : (s.on (portDom p) && (s.net p).en && (s.net p).link) = true := h
  unfold sendFrame
  rw [if_pos hup, State.onNet_net]

/-- A port sends no fewer for a change of settings that leave its domain, its enable and its link. -/
theorem portUp_onNet (h : portUp p s = true) {f : NetSt → NetSt} (he : ∀ n, (f n).en = n.en) (hl : ∀ n, (f n).link = n.link) :
    portUp p (s.onNet p f) = true := by
  unfold portUp at h ⊢
  rw [State.onNet_net, he, hl, State.on, State.onNet_pwr]
  exact h

theorem sendFrame_quiet (q : Nat) (f : TxFrame) (s : State) : ((sendFrame q f s).net p).quiet = (s.net p).quiet :=
  net_of_sent (sendFrame_besideSent q f s) p

/-! ### PFC -/

/-- A port once a PFC frame is taken in. -/
def pfcTaken (vec : Nat) (xoff : Bool) (n : NetSt) : NetSt := { n with
  paused := if xoff then n.paused ||| BitVec.ofNat 8 vec else n.paused &&& ~~~(BitVec.ofNat 8 vec)
  cXoffR := if xoff then satInc n.cXoffR else n.cXoffR }

theorem execPfc_paused (h : portUp p s = true) (vec : Nat) (xoff : Bool) (free : Nat) :
    Gives (.pfcFrameReceived p vec xoff free) s fun t => (t.net p).paused = (pfcTaken vec xoff (s.net p)).paused ∧
      (t.net p).cXoffR = (pfcTaken vec xoff (s.net p)).cXoffR := by
  refine ⟨_, congrArg Host.Outcome.next (if_pos h), ?_⟩
  beta_reduce
  extract_lets v a n pri
  have ha : a.net p = pfcTaken vec xoff (s.net p) := State.onNet_net ..
  have hsent (f : TxFrame) (g : NetSt → NetSt) (hp : ∀ n, (g n).paused = n.paused) (hx : ∀ n, (g n).cXoffR = n.cXoffR) :
      ((sendFrame p f (a.onNet p g)).net p).paused = (pfcTaken vec xoff (s.net p)).paused ∧
        ((sendFrame p f (a.onNet p g)).net p).cXoffR = (pfcTaken vec xoff (s.net p)).cXoffR := by
    have hq := sendFrame_quiet (p := p) p f (a.onNet p g)
    rw [State.onNet_net, ha] at hq
    exact ⟨(congrArg NetSt.paused hq).trans (hp _), (congrArg NetSt.cXoffR hq).trans (hx _)⟩
  clear_value a
  split
  · exact hsent (.pfc pri true) (fun n => { n with xoff := true, cXoffT := satInc n.cXoffT }) (fun _ => rfl) fun _ => rfl
  split
  · exact hsent (.pfc pri false) (fun n => { n with xoff := false }) (fun _ => rfl) fun _ => rfl
  · rw [ha]
    exact ⟨rfl, rfl⟩

theorem execPfc_asks (h : portUp p s = true) (vec : Nat) {free : Nat} (hf : free < 12288) (hx : (s.net p).xoff = false) :
    Gives (.pfcFrameReceived p vec true free) s fun t => (t.net p).xoff = true ∧
      (t.net p).cXoffT = satInc (s.net p).cXoffT ∧ (t.net p).tx = .pfc (2 ^ (s.net p).pfcpri.toNat) true :: (s.net p).tx := by
  refine ⟨_, congrArg Host.Outcome.next (if_pos h), ?_⟩
  beta_reduce
  extract_lets v a n pri
  have ha : a.net p = pfcTaken vec true (s.net p) := State.onNet_net ..
  have hn : n = pfcTaken vec true (s.net p) := ha
  have hpri : pri = 2 ^ (s.net p).pfcpri.toNat := by rw [show pri = 2 ^ n.pfcpri.toNat from rfl, hn]; rfl
  rw [if_pos ⟨hf, by rw [hn]; exact hx⟩, hpri]
  have hupa : portUp p a = true := portUp_onNet h (by intro _; rfl) (by intro _; rfl)
  clear_value a
  have hup : portUp p (a.onNet p fun n => { n with xoff := true, cXoffT := satInc n.cXoffT }) = true :=
    portUp_onNet hupa (fun _ => rfl) fun _ => rfl
  have hq := sendFrame_quiet (p := p) p (.pfc (2 ^ (s.net p).pfcpri.toNat) true) (a.onNet p fun n => { n with xoff := true, cXoffT := satInc n.cXoffT })
  rw [State.onNet_net, ha] at hq
  refine ⟨congrArg NetSt.xoff hq, congrArg NetSt.cXoffT hq, ?_⟩
  rw [sendFrame_tx hup, State.onNet_net, ha]
  rfl

/-! ### NET_CTL -/

theorem fec_small {v : Nat} {b : Bool} (h : v ≤ 1) : ¬ (BitVec.ofNat 2 v = 3 ∨ (BitVec.ofNat 2 v = 2 ∧ b = true)) := by
  have hv : v = 0 ∨ v = 1 := by omega
  rcases hv with rfl | rfl <;> simp

/-- A write of NET_CTL whose FEC field names one of the first two settings takes it. -/
theorem writeNetCtl_free {v : W32} (hr : portRouted p s = false) (hf : fld v 4 2 ≤ 1) :
    writeNetCtl p v s = s.onNet p fun n => { n with
      ect := v.getLsbD 15, pfcpri := BitVec.ofNat 3 (fld v 12 3), mtu := v.getLsbD 8, fec := BitVec.ofNat 2 (fld v 4 2), speed := v.getLsbD 1
      en := v.getLsbD 0, link := n.link && v.getLsbD 0, fecok := n.fecok && v.getLsbD 0 } := by
  unfold writeNetCtl
  extract_lets n speed f fec mtu
  have hfec : fec = BitVec.ofNat 2 (fld v 4 2) := if_neg (fec_small hf)
  rw [if_neg (by rw [hr]; exact fun h => absurd h.1 (by decide)), hfec]

theorem writeNetCtl_routed {v : W32} (hr : portRouted p s = true) (hd : v.getLsbD 8 ≠ (s.net p).mtu ∨ v.getLsbD 1 ≠ (s.net p).speed ∨
    (fld v 4 2 ≤ 1 ∧ BitVec.ofNat 2 (fld v 4 2) ≠ (s.net p).fec)) : writeNetCtl p v s = s := by
  unfold writeNetCtl
  extract_lets n speed f fec mtu
  refine if_pos ⟨hr, ?_⟩
  rcases hd with h | h | ⟨hf, h⟩
  · exact .inr (.inr h)
  · exact .inl h
  · refine .inr (.inl ?_)
    rw [show fec = BitVec.ofNat 2 (fld v 4 2) from if_neg (fec_small hf)]
    exact h

/-! ### The commands -/

theorem State.onNet_congr {f g : NetSt → NetSt} (h : f (s.net p) = g (s.net p)) : s.onNet p f = s.onNet p g := by
  unfold State.onNet
  unfold State.net at h
  split
  next hp => rw [if_pos hp] at h; rw [h]
  next hp => rw [if_neg hp] at h; rw [h]

variable {c : Ctx} {q : Pfx} {e : Env}

theorem netSetBody_done (h4 : (e.word? "ip4").any isV6 = false) (h6 : e.word? "ip6" = none) (hf : (netWith e (s.net (portOfName e))).fec ≠ 2)
    (hon : s.on (portDom (portOfName e)) = true) (hr : portRouted (portOfName e) s = false) :
    netSetBody c q e s = .ok [] (s.onNet (portOfName e) (netWith e)) := by
  unfold netSetBody
  extract_lets p n
  rw [if_neg (by simp [h4]), if_neg (by simp [h6]), if_neg (fun h => hf h.1), if_neg (by simp [p, hon]), if_neg (by simp [p, hr])]
  exact congrArg (Res.ok []) (State.onNet_congr rfl)

/-- A port with the PTP settings of a line. -/
def ptpWith (e : Env) (n : NetSt) : NetSt := { n with
  prof := match e.word? "profile" with | some w => b2n (w == "st2059") | none => n.prof
  twoStep := match e.word? "step" with | some w => w == "two" | none => n.twoStep
  prio1 := (e.nat? "prio1").getD n.prio1, domain := (e.nat? "domain").getD n.domain }

/-- What a port's line shows draws free values and changes nothing else. -/
theorem netLine_fresh (named : Bool) (p : Nat) (s : State) : ∃ n, (netLine named p s).2 = { s with fresh := n } := by
  unfold netLine
  extract_lets n ip start
  split <;> exact ⟨_, rfl⟩

theorem netLines_fresh (named : Bool) (ps : List Nat) (acc : List String) (s : State) :
    let r := ps.foldl (fun (acc : List String × State) p => let (l, t) := netLine named p acc.2; (acc.1 ++ [l], t)) (acc, s)
    r.1.length = acc.length + ps.length ∧ ∃ n, r.2 = { s with fresh := n } := by
  induction ps generalizing acc s with
  | nil => exact ⟨rfl, _, rfl⟩
  | cons p ps ih =>
    obtain ⟨n, hn⟩ := netLine_fresh named p s
    obtain ⟨hlen, m, hm⟩ := ih (acc ++ [(netLine named p s).1]) (netLine named p s).2
    refine ⟨hlen.trans ?_, m, hm.trans ?_⟩
    · simp only [List.length_append, List.length_cons, List.length_nil]
      omega
    · rw [hn]

/-- The ports that a show line asks for are on. -/
theorem shown_on (h : e.has "port" = true → s.on (portDom (portOfName e)) = true) :
    ¬ ((if e.has "port" then [portOfName e] else [0, 1]).any fun p => e.has "port" && !s.on (portDom p)) = true := by
  cases hp : e.has "port" with
  | true => simp [h hp]
  | false => simp

theorem shown_length (e : Env) : (if e.has "port" then [portOfName e] else [0, 1]).length = if e.has "port" then 1 else 2 := by
  split <;> rfl

end

/-- Settles O41: frames and settings by what `onNet` and `sendFrame` change of a port. -/
theorem networkPorts : Obligations.NetworkPorts := by
  unfold Obligations.NetworkPorts
  refine ⟨fun p vec free s h => ⟨execPfc_paused h vec true free, execPfc_paused h vec false free, fun hf hx => execPfc_asks h vec hf hx⟩,
    fun p l f m s hon hf => ?_, fun p a b s h h4 => ⟨fun ha => ?_, fun ha => ?_⟩, fun p a b s h h6 ha => ?_, fun p a b s h6 hl => ?_,
    fun p a b d s h ha => ?_, fun p a b d s ha => ?_, fun v f s h h3 hrx hen hp hg => ?_, fun p v s h => ?_,
    fun p v s hon => ⟨fun hr hf => ?_, fun hr hd => ?_⟩, fun c p a e s h h4 h6 hf hon hr => answersOk_of_body rfl h (netSetBody_done h4 h6 hf hon hr),
    fun c p a e s h hon => ?_, fun c p a e s h hon => ?_, fun c p a e s h hon => ?_⟩
  · refine ⟨_, congrArg Host.Outcome.next (if_pos hon), ?_⟩
    have hfec : (f || ((s.net p).fec == 0)) = f := by rw [beq_eq_false_iff_ne.mpr hf, Bool.or_false]
    beta_reduce
    rw [State.onNet_net]
    exact ⟨congrArg ((s.net p).en && l && ·) hfec, rfl, congrArg ((s.net p).en && ·) hfec⟩
  · exact ⟨_, congrArg Host.Outcome.next (if_pos ⟨h, h4, ha⟩), sendFrame_tx h _⟩
  · exact congrArg Host.Outcome.next (if_neg fun k => ha k.2.2)
  · refine ⟨_, congrArg Host.Outcome.next (if_pos ?_), sendFrame_tx h _⟩
    have hne : (s.net p).ip6.isEmpty = false := by simpa using h6
    simp [h, hne, ha]
  · refine congrArg Host.Outcome.next (if_neg ?_)
    rcases h6 with h6 | h6 <;> simp [h6, hl]
  · exact ⟨_, congrArg Host.Outcome.next (if_pos (by simp [h, ha])), sendFrame_tx h _⟩
  · exact congrArg Host.Outcome.next (if_neg (by simp [ha]))
  · have hl : (([f].filter fun f => f.en && f.portB == ((0 : Nat) == 1) && isGroup f.addr).map (·.addr)).eraseDups = [f.addr] := by
      simp [hen, hp, hg, List.eraseDups_cons]
    refine ⟨_, congrArg Host.Outcome.next (if_pos ?_), (sendFrame_tx h _).trans ?_⟩
    · rw [hrx, hl, h, h3]
      rfl
    · rw [hrx, hl]
  · have hl : ((s.aud.rx.filter fun f => f.en && f.portB == (p == 1) && isGroup f.addr).map (·.addr)).eraseDups = [] := by
      have hf : (s.aud.rx.filter fun f => f.en && f.portB == (p == 1) && isGroup f.addr) = [] := by
        rw [List.filter_eq_nil_iff]
        intro f hf
        cases he : f.en
        · simp
        · simp [h f hf he]
      rw [hf]
      rfl
    refine congrArg Host.Outcome.next (if_neg ?_)
    rw [hl]
    simp
  · refine ⟨_, congrArg Host.Outcome.next ((if_pos hon).trans (writeNetCtl_free hr hf)), ?_⟩
    beta_reduce
    rw [State.onNet_net]
    exact ⟨rfl, rfl, rfl, rfl, rfl, rfl⟩
  · exact congrArg Host.Outcome.next ((if_pos hon).trans (writeNetCtl_routed hr hd))
  · obtain ⟨hlen, n, hn⟩ := netLines_fresh (e.has "port") (if e.has "port" then [portOfName e] else [0, 1]) [] s
    have hb : netShowBody c p e s = .ok _ _ := if_neg (shown_on hon)
    refine answersWith_of_body rfl h ⟨_, _, hb, ?_, ?_⟩
    · rw [hn]
    · exact (hlen.trans (Nat.zero_add _)).trans (shown_length e)
  · have hb : ptpSetBody c p e s = .ok [] (s.onNet (portOfName e) (ptpWith e)) := if_neg (by simp [hon])
    refine answersWith_of_body rfl h ⟨_, _, hb, rfl, ?_⟩
    rw [State.onNet_net, State.onNet_tly]
    exact ⟨rfl, rfl, rfl, rfl⟩
  · have hb : ptpShowBody c p e s = .ok _ s := if_neg (shown_on hon)
    exact answersWith_of_body rfl h ⟨_, _, hb, rfl, (List.length_map _).trans (shown_length e)⟩

end Sys2Proof.Machine
end

section
/-! The USB device (O44). -/

namespace Sys2Proof.Machine

section
variable {s : State}

/-! ### The end of S1, whether it is open or not -/

/-- No effect is held for S1, nor for a session that has ended. -/
def NoneHeld (s : State) : Prop := ∀ e ∈ s.desk.deferred, e.1 ≠ 1 ∧ e.1 ≠ 4

theorem endSession_closed {k : Nat} (h : (s.sess k).opened = false) : endSession k s = s := if_neg (by rw [h]; decide)

theorem endSession_usb (k : Nat) (s : State) : (endSession k s).usb = s.usb := by
  cases h : (s.sess k).opened with
  | false => rw [endSession_closed h]
  | true =>
    rw [endSession_eq h, notify_usb]
    match k with
    | 0 | 1 | 2 | 3 | _ + 4 => rfl

theorem endSession_opened {k : Nat} (hk : k < 4) (s : State) : ((endSession k s).sess k).opened = false := by
  cases h : (s.sess k).opened with
  | false => rw [endSession_closed h, h]
  | true => rw [endSession_sess hk h]

theorem endSession_entries (k : Nat) (s : State) : (endSession k s).evq.entries.length = s.evq.entries.length := by
  cases h : (s.sess k).opened with
  | false => rw [endSession_closed h]
  | true =>
    rw [endSession_eq h, notify_evq]
    match k with
    | 0 | 1 | 2 | 3 | _ + 4 => exact List.length_map _

theorem endSession_noneHeld (h : NoneHeld s) : ∀ e ∈ (endSession 1 s).desk.deferred, e.1 ≠ 4 := by
  cases ho : (s.sess 1).opened with
  | false =>
    rw [endSession_closed ho]
    exact fun e he => (h e he).2
  | true =>
    rw [endSession_deferred ho]
    intro e he
    obtain ⟨x, hx, rfl⟩ := List.mem_map.mp he
    simp [(h x hx).1, (h x hx).2]

/-! ### Reset, suspend, VBUS -/

/-- The device as a reset leaves it. -/
def usbAfterReset (stage : CtlStage) (st : UState) (u : UsbSt) : UsbSt := usbForget st (abandonCtl stage { u with cReset := satInc u.cReset })

theorem usbReset_usb (stage : CtlStage) (st : UState) (cause : String) (s : State) :
    (usbReset stage st cause s).usb = usbAfterReset stage st s.usb := by
  unfold usbReset
  extract_lets a
  rw [notify_usb, endSession_usb]
  rfl

theorem usbReset_opened (stage : CtlStage) (st : UState) (cause : String) (s : State) : ((usbReset stage st cause s).sess 1).opened = false := by
  unfold usbReset
  extract_lets a
  rw [notify_sess_of_closed (by decide) (endSession_opened (by decide) a), endSession_opened (by decide)]

theorem usbReset_entries (stage : CtlStage) (st : UState) (cause : String) (s : State) :
    (usbReset stage st cause s).evq.entries.length = s.evq.entries.length := by
  unfold usbReset
  extract_lets a
  rw [notify_evq, endSession_entries]
  rfl

theorem usbReset_noneHeld (stage : CtlStage) (st : UState) (cause : String) (h : NoneHeld s) :
    ∀ e ∈ (usbReset stage st cause s).desk.deferred, e.1 ≠ 4 := by
  unfold usbReset
  extract_lets a
  rw [deferred_of_quiet (notify_quiet _ _ _)]
  exact endSession_noneHeld (s := a) h

theorem usbAttached_of (h5 : s.on 5 = true) (hp : s.usb.pullup = true) : usbAttached s = true := by simp [usbAttached, h5, hp]

theorem execBusReset_attached (h5 : s.on 5 = true) (hp : s.usb.pullup = true) (hd : NoneHeld s) (g : CtlStage) (hs : Bool) :
    execBusReset g hs s = .next ((usbReset g .default_ "bus" s).onUsb fun u => { u with hs := hs && u.hsen }) := by
  refine congrArg Host.Outcome.next (Eq.trans (congrArg settleDue (if_pos (usbAttached_of h5 hp))) ?_)
  exact settleDue_of_none (usbReset_noneHeld g .default_ "bus" hd)

theorem execVbusLoss_on (h5 : s.on 5 = true) (hv : s.usb.vbus = true) (hd : NoneHeld s) (g : CtlStage) :
    execVbusLoss g s = .next (usbDetach (usbReset g .detached "vbus" (s.onUsb fun u => { u with vbus := false }))) := by
  refine congrArg Host.Outcome.next (Eq.trans (congrArg settleDue ((if_pos hv).trans (if_pos ?_))) ?_)
  · exact h5
  · exact settleDue_of_none (usbReset_noneHeld (s := s.onUsb fun u => { u with vbus := false }) g .detached "vbus" hd)

/-- The device's state as it is suspended. -/
def suspended (u : UsbSt) : UsbSt := { u with resumeTo := u.state, state := .suspended, cSusp := satInc u.cSusp }

theorem execSuspend_attached (h5 : s.on 5 = true) (hp : s.usb.pullup = true) (hn : s.usb.state ≠ .suspended) (hd : NoneHeld s) :
    execSuspend s = .next (endSession 1 (s.onUsb suspended)) := by
  refine congrArg Host.Outcome.next (Eq.trans (congrArg settleDue (if_pos ?_)) ?_)
  · simp [usbAttached_of h5 hp, hn]
  · exact settleDue_of_none (endSession_noneHeld (s := s.onUsb suspended) hd)

/-! ### Control requests -/

theorem execControlRequest_attached {q : CtlReq} (h5 : s.on 5 = true) (hp : s.usb.pullup = true) (hs : s.usb.state ≠ .suspended)
    (hw : s.usb.state ≠ .powered) : execControlRequest q s = .next (s.onUsb (ctlEffect q)) :=
  congrArg Host.Outcome.next (if_pos (by simp [usbAttached_of h5 hp, hs, hw]))

theorem State.onUsb_congr {f g : UsbSt → UsbSt} (h : f s.usb = g s.usb) : s.onUsb f = s.onUsb g := by
  unfold State.onUsb
  rw [h]

end

/-- Settles O44: what a reset and a suspend do by `usbReset_usb` and `endSession_usb`, the requests by `ctlEffect`. -/
theorem usbDevice : Obligations.UsbDevice := by
  unfold Obligations.UsbDevice
  refine ⟨fun g hs s h5 hp hd => ?_, fun a s h5 hp hst h0 ha => ?_, fun s h5 hp hst => ?_, fun k s h5 hp hst hhs hu hk => ?_,
    fun s h5 hp hst => ?_, fun s h5 hp hst hd => ?_, fun s h5 hp hst => ?_, fun g s h5 hv hd => ?_, fun s h5 ha hp => ?_,
    fun l fb s ho h3 halt hf hl => ?_, fun c p a e s h h5 ha => answersOk_of_body rfl h ?_,
    fun c p a e s h h5 => answersWith_of_body rfl h ⟨_, _, if_neg (by rw [h5]; decide), rfl, rfl⟩⟩
  · refine ⟨_, execBusReset_attached h5 hp hd g hs, ?_⟩
    have husb := usbReset_usb g .default_ "bus" s
    have hso := usbReset_opened g .default_ "bus" s
    have hen := usbReset_entries g .default_ "bus" s
    generalize usbReset g .default_ "bus" s = u at husb hso hen ⊢
    beta_reduce
    rw [State.onUsb_usb, husb]
    cases g <;> exact ⟨rfl, rfl, rfl, rfl, rfl, rfl, rfl, hso, hen⟩
  · refine (execControlRequest_attached h5 hp ?_ ?_).trans (congrArg Host.Outcome.next (State.onUsb_congr ?_))
    · rcases hst with h | h <;> simp [h]
    · rcases hst with h | h <;> simp [h]
    · rcases hst with h | h <;> simp [ctlEffect, h, ha, Nat.pos_iff_ne_zero.mp h0]
  · refine (execControlRequest_attached h5 hp ?_ ?_).trans (congrArg Host.Outcome.next (State.onUsb_congr ?_))
    · rcases hst with h | h <;> simp [h]
    · rcases hst with h | h <;> simp [h]
    · rcases hst with h | h <;> simp [ctlEffect, h]
  · refine (execControlRequest_attached h5 hp (by simp [hst]) (by simp [hst])).trans (congrArg Host.Outcome.next (State.onUsb_congr ?_))
    simp [ctlEffect, hst, hasAlt, hk, hhs, hu]
  · exact execControlRequest_attached h5 hp (by simp [hst]) (by simp [hst])
  · refine ⟨_, execSuspend_attached h5 hp hst hd, ?_⟩
    beta_reduce
    rw [endSession_usb]
    exact ⟨rfl, rfl, rfl, endSession_opened (by decide) _⟩
  · exact congrArg Host.Outcome.next (if_pos (by simp [usbAttached_of h5 hp, hst]))
  · refine ⟨_, execVbusLoss_on h5 hv hd g, ?_⟩
    have husb := usbReset_usb g .detached "vbus" (s.onUsb fun u => { u with vbus := false })
    have hso := usbReset_opened g .detached "vbus" (s.onUsb fun u => { u with vbus := false })
    generalize usbReset g .detached "vbus" (s.onUsb fun u => { u with vbus := false }) = u at husb hso ⊢
    refine ⟨?_, rfl, rfl, hso⟩
    show u.usb.vbus = false
    rw [husb]
    cases g <;> rfl
  · refine congrArg Host.Outcome.next (if_pos ?_)
    have h5' : (s.onUsb fun u => { u with vbus := true }).on 5 = true := h5
    rw [h5']
    simp [ha, hp]
  · refine congrArg Host.Outcome.next ((if_pos (by rw [ho, h3]; rfl)).trans (State.onUsb_congr ?_))
    have hfit : (l.map fun x => x.take 16).take (usbFifoDepth s) = l.map fun x => x.take 16 := List.take_of_length_le (by simpa using hl)
    simp [halt, hf, hfit]
  · simp only [usbSetBody, ha]
    exact if_neg (by rw [h5]; decide)

end Sys2Proof.Machine
end

section
/-! The island's supply, its gauge and WAKE_OUT (O45). -/

namespace Sys2Proof.Machine

section
variable {s : State}

/-! ### What settling the island's path leaves -/

/-- The island without its path, its MICBIAS and the outcomes it keeps to tell. -/
def PorSt.besidePath (p : PorSt) : PorSt := { p with digital := false, pathHold := false, micOn := false, outcomes := [] }

theorem settlePor_besidePath (s : State) : (settlePor s).por.besidePath = s.por.besidePath := rfl

theorem settlePor_pwr (s : State) : (settlePor s).pwr = s.pwr := rfl

/-! ### The gauge -/

/-- The charge of a loaded check is at most 40 units more, and never less than before. -/
theorem addCharge_tally (p : PorSt) : p.tally.toNat ≤ (addCharge 40 p).tally.toNat ∧ (addCharge 40 p).tally.toNat ≤ p.tally.toNat + 40 := by
  have hp := p.tally.isLt
  show p.tally.toNat ≤ (satAdd p.tally 40).toNat ∧ (satAdd p.tally 40).toNat ≤ p.tally.toNat + 40
  unfold satAdd
  split
  · rw [BitVec.toNat_ofNat]
    omega
  · rw [BitVec.toNat_allOnes]
    omega

/-- The outcome by the voltage and the tally, without an override (Table 11.7). -/
def gaugeTable (mv : Nat) (p : PorSt) : Gauge :=
  if mv < 2200 then .empty else if mv < 2400 then .low else if p.est * tenthUnits ≤ p.tally.toNat then .disagree else .good

theorem gaugeOutcome_main {p : PorSt} (h : p.onVbat = false) (mv : Nat) : (gaugeOutcome mv p).gauge = gaugeTable mv p ∧
    (gaugeOutcome mv p).mv = p.mv ∧ (gaugeTable mv p ≠ .disagree → (gaugeOutcome mv p).est = p.est) := by
  have ho : p.override = none := by simp [PorSt.override, h]
  have hout : gaugeOutcome mv p = { p with
      gauge := gaugeTable mv p
      ovr := if gaugeTable mv p == .empty || gaugeTable mv p == .low then some (gaugeTable mv p) else if 2500 ≤ mv then none else p.ovr
      est := if gaugeTable mv p == .disagree then max p.est (min (20 * p.nom.toNat) (p.est + p.nom.toNat)) else p.est } := by
    unfold gaugeOutcome
    simp only [ho]
    rfl
  rw [hout]
  exact ⟨rfl, rfl, fun hd => if_neg (by simpa using hd)⟩

theorem satOf_small {w n : Nat} (h : n < 2 ^ w) : satOf w n = BitVec.ofNat w n := if_pos h

/-- The island as a loaded check takes its reading. -/
def gaugeRead (mv : Nat) (p : PorSt) : PorSt := { addCharge 40 p with mv := satOf 12 mv, lastChk := p.ticks }

/-- A check's outcome keeps its reading and its time. -/
theorem gaugeOutcome_reading (mv : Nat) (p : PorSt) : (gaugeOutcome mv p).mv = p.mv ∧ (gaugeOutcome mv p).lastChk = p.lastChk := by
  unfold gaugeOutcome
  extract_lets table
  split
  · split <;> exact ⟨rfl, rfl⟩
  · exact ⟨rfl, rfl⟩

/-- The island after a loaded check, but for its path. -/
theorem gaugeCheck_besidePath (mv : Nat) (s : State) :
    (gaugeCheck mv s).por.besidePath = (gaugeOutcome mv (gaugeRead mv s.por)).besidePath := by
  unfold gaugeCheck
  rw [settlePor_besidePath]
  rfl

theorem gaugeCheck_por (mv : Nat) (s : State) : (gaugeCheck mv s).por.gauge = (gaugeOutcome mv (gaugeRead mv s.por)).gauge ∧
    (gaugeCheck mv s).por.est = (gaugeOutcome mv (gaugeRead mv s.por)).est ∧
    (gaugeCheck mv s).por.mv = satOf 12 mv ∧ (gaugeCheck mv s).por.lastChk = s.por.ticks := by
  have h := gaugeCheck_besidePath mv s
  obtain ⟨hmv, hl⟩ := gaugeOutcome_reading mv (gaugeRead mv s.por)
  generalize gaugeOutcome mv (gaugeRead mv s.por) = p at h hmv hl ⊢
  generalize (gaugeCheck mv s).por = q at h ⊢
  exact ⟨(congrArg PorSt.gauge h : q.besidePath.gauge = p.besidePath.gauge), (congrArg PorSt.est h : q.besidePath.est = p.besidePath.est),
    (congrArg PorSt.mv h : q.besidePath.mv = p.besidePath.mv).trans hmv,
    (congrArg PorSt.lastChk h : q.besidePath.lastChk = p.besidePath.lastChk).trans hl⟩

theorem extractLsb_eq_fld (w : W32) : BitVec.ofNat 12 (fld w 0 12) = w.extractLsb' 0 12 := by
  apply BitVec.eq_of_toNat_eq
  simp [fld, BitVec.extractLsb'_toNat]

theorem failWord_keeps (p : PorSt) : (failWord p).vlog.length = p.vlog.length ∧ (failWord p).cWords = p.cWords := by
  unfold failWord
  split
  · exact ⟨List.length_modify .., rfl⟩
  · exact ⟨rfl, rfl⟩

end

/-- Settles O45: the supply by what each edge sets, the checks by `gaugeOutcome_main`. -/
theorem porterSupply : Obligations.PorterSupply := by
  unfold Obligations.PorterSupply
  refine ⟨fun s hr => ⟨fun hv => ?_, fun hv => ?_, ?_, fun ho => ?_, fun ho => ?_⟩, fun s hv => ?_, fun s hr hv => ?_, fun s hr hc => ?_,
    fun mv s hr hm ho => ?_, fun c p a e s h => ?_, fun c p a e s h => answersOk_of_body rfl h rfl, fun c p a e s h hu => answersOk_of_body rfl h ?_,
    fun c p a e s h => answersOk_of_body rfl h rfl, fun c p a e s h => answersOk_of_body rfl h rfl, fun s hr h2 => ?_,
    fun s hr hw hv hh => ?_, fun s => ⟨rfl, rfl, rfl⟩⟩
  · refine ⟨_, rfl, ?_⟩
    simp [settlePor, State.onPor, State.onPwr, hr, hv]
  · refine ⟨_, rfl, ?_⟩
    simp [settlePor, State.onPor, State.onPwr, hv]
  · refine ⟨_, rfl, ?_⟩
    simp [settlePor, State.onPor, State.onPwr, hr]
  · refine ⟨_, rfl, ?_⟩
    simp [settlePor, State.onPor, hr, ho]
  · refine ⟨_, rfl, ?_⟩
    simp [settlePor, State.onPor, hr, ho]
  · refine ⟨_, congrArg Host.Outcome.next (if_pos (by rw [hv]; rfl)), ?_⟩
    exact ⟨rfl, rfl, rfl, rfl, rfl, rfl, rfl, rfl, rfl, rfl, rfl, rfl, rfl, rfl, rfl⟩
  · exact congrArg Host.Outcome.next (if_pos (by rw [hr, hv]; rfl))
  · refine ⟨_, congrArg Host.Outcome.next (if_pos (by rw [hr, hc]; rfl)), ?_⟩
    beta_reduce
    rw [notify_por]
    exact ⟨rfl, rfl, rfl, rfl⟩
  · obtain ⟨hg, he, hmv, -⟩ := gaugeCheck_por mv s
    obtain ⟨hlo, hhi⟩ := addCharge_tally s.por
    obtain ⟨hout, -, hest⟩ := gaugeOutcome_main (p := gaugeRead mv s.por) ho mv
    have htab : gaugeTable mv (gaugeRead mv s.por) = if mv < 2200 then .empty else if mv < 2400 then .low else
        if s.por.est * tenthUnits ≤ (addCharge 40 s.por).tally.toNat then .disagree else .good := rfl
    refine ⟨_, congrArg Host.Outcome.next (if_pos hr), hmv.trans (satOf_small hm), fun h => ?_, fun h h' => ?_, fun h ht => ?_, fun h ht => ?_⟩
    · rw [hg, hout, htab, if_pos h]
    · rw [hg, hout, htab, if_neg (by omega), if_pos h']
    · rw [hg, hout, htab, if_neg (by omega), if_neg (by omega), if_pos (by omega)]
    · have hgood : gaugeTable mv (gaugeRead mv s.por) = .good := by
        rw [htab, if_neg (by omega), if_neg (by omega), if_neg (by omega)]
      exact ⟨by rw [hg, hout, hgood], he.trans (hest (by rw [hgood]; decide))⟩
  · obtain ⟨-, -, hmv, hl⟩ := gaugeCheck_por (fld (Config.freeWord s.fresh) 0 12) { s with fresh := s.fresh + 1 }
    refine answersWith_of_body rfl h ⟨_, _, rfl, rfl, rfl, hmv.trans ?_, hl⟩
    rw [satOf_small (by unfold fld; omega)]
    exact extractLsb_eq_fld _
  · have hfit : e.nat "used" * tenthUnits < 2 ^ 40 := by
      unfold tenthUnits
      omega
    exact congrArg (fun x => Res.ok [] (s.onPor fun p => { p with tally := x })) (satOf_small hfit)
  · refine ⟨_, congrArg Host.Outcome.next (if_pos (by simp [hr, inVault, h2])), rfl, rfl, rfl⟩
  · refine ⟨_, congrArg Host.Outcome.next (if_pos (by simp [hr, hw, hv, hh])), rfl, ?_⟩
    exact failWord_keeps s.por

end Sys2Proof.Machine
end

section
/-! Listening: feature codes, similarities, and words that fire (O46). -/

namespace Sys2Proof.Machine

/-! ### The largest code that a band or a similarity reaches -/

/-- The largest number below `n` that satisfies `p`, or 0. -/
def largestBelow (n : Nat) (p : Nat → Bool) : Nat := ((List.range n).reverse.find? p).getD 0

theorem largestBelow_succ (n : Nat) (p : Nat → Bool) : largestBelow (n + 1) p = if p n then n else largestBelow n p := by
  unfold largestBelow
  rw [List.range_succ, List.reverse_append, List.reverse_singleton, List.singleton_append, List.find?_cons]
  cases p n <;> rfl

/-- Where 0 satisfies `p`, the largest number up to `n` that does: it does, and none above it does. -/
theorem largestBelow_spec {p : Nat → Bool} (h0 : p 0 = true) (n : Nat) :
    largestBelow (n + 1) p ≤ n ∧ p (largestBelow (n + 1) p) = true ∧ ∀ d ≤ n, largestBelow (n + 1) p < d → p d = false := by
  induction n with
  | zero =>
    have hz : largestBelow 1 p = 0 := by rw [largestBelow_succ, if_pos h0]
    rw [hz]
    exact ⟨Nat.le_refl 0, h0, fun d hd hlt => absurd hd (Nat.not_le.mpr hlt)⟩
  | succ n ih =>
    obtain ⟨hle, hp, hno⟩ := ih
    rw [largestBelow_succ]
    split
    next hn => exact ⟨Nat.le_refl _, hn, fun d hd hlt => absurd hd (Nat.not_le.mpr hlt)⟩
    next hn =>
      refine ⟨Nat.le_succ_of_le hle, hp, fun d hd hlt => ?_⟩
      rcases Nat.lt_or_eq_of_le hd with h | rfl
      · exact hno d (Nat.le_of_lt_succ h) hlt
      · exact Bool.not_eq_true _ ▸ hn

theorem featureCode_eq (e : Nat) : featureCode e = largestBelow 256 fun c => c == 0 || decide (2 ^ (2 * c - 1 + 512) ≤ e ^ 32) := rfl

/-- A code c above 0 is reached where 32 × log2 of the energy is at least 2c − 1. -/
theorem reaches_iff {c e : Nat} (h : 0 < c) : ((c == 0 || decide (2 ^ (2 * c - 1 + 512) ≤ e ^ 32)) = true) ↔ 2 ^ (2 * c - 1 + 512) ≤ e ^ 32 := by
  simp [Nat.pos_iff_ne_zero.mp h]

/-- What `largestBelow_spec` says of a feature code. -/
theorem featureCode_spec (e : Nat) : featureCode e ≤ 255 ∧ (0 < featureCode e → 2 ^ (2 * featureCode e - 1 + 512) ≤ e ^ 32) ∧
    ∀ d ≤ 255, featureCode e < d → e ^ 32 < 2 ^ (2 * d - 1 + 512) := by
  obtain ⟨hle, hp, hno⟩ := largestBelow_spec (p := fun c => c == 0 || decide (2 ^ (2 * c - 1 + 512) ≤ e ^ 32)) rfl 255
  rw [← featureCode_eq] at hle hp hno
  refine ⟨hle, fun h => (reaches_iff h).mp hp, fun d hd hlt => ?_⟩
  have hf := hno d hd hlt
  by_contra hge
  have ht := (reaches_iff (e := e) (Nat.lt_of_le_of_lt (Nat.zero_le _) hlt)).mpr (Nat.le_of_not_lt hge)
  rw [hf] at ht
  cases ht

/-- The energies are given in E_ref / 65536. -/
theorem two_pow_shift (a : Nat) : 2 ^ a * 65536 ^ 32 = 2 ^ (a + 512) := by
  rw [pow_add, show (65536 : Nat) = 2 ^ 16 from rfl, ← pow_mul]

theorem two_pow_le {a b : Nat} (h : a ≤ b) : 2 ^ a ≤ 2 ^ b := Nat.pow_le_pow_right (by decide) h

theorem featureCode_iff {e c : Nat} (h0 : 0 < c) (h : c < 255) :
    featureCode e = c ↔ 2 ^ (2 * c - 1) * 65536 ^ 32 ≤ e ^ 32 ∧ e ^ 32 < 2 ^ (2 * c + 1) * 65536 ^ 32 := by
  obtain ⟨hle, hp, hno⟩ := featureCode_spec e
  rw [two_pow_shift, two_pow_shift]
  constructor
  · intro hc
    rw [hc] at hp hno
    exact ⟨hp h0, hno (c + 1) (by omega) (Nat.lt_succ_self c)⟩
  · rintro ⟨hlo, hhi⟩
    rcases Nat.lt_trichotomy (featureCode e) c with hlt | heq | hgt
    · exact absurd (hno c (by omega) hlt) (Nat.not_lt.mpr hlo)
    · exact heq
    · have hge := Nat.le_trans (two_pow_le (by omega : 2 * c + 1 + 512 ≤ 2 * featureCode e - 1 + 512)) (hp (by omega))
      exact absurd hhi (Nat.not_lt.mpr hge)

theorem featureCode_zero_iff (e : Nat) : featureCode e = 0 ↔ e ^ 32 < 2 * 65536 ^ 32 := by
  obtain ⟨hle, hp, hno⟩ := featureCode_spec e
  rw [show 2 * 65536 ^ 32 = 2 ^ 1 * 65536 ^ 32 from rfl, two_pow_shift]
  constructor
  · intro hc
    rw [hc] at hno
    exact hno 1 (by decide) (by decide)
  · intro hlt
    by_contra hc
    have hpos := Nat.pos_of_ne_zero hc
    have hge := Nat.le_trans (two_pow_le (by omega : 1 + 512 ≤ 2 * featureCode e - 1 + 512)) (hp hpos)
    exact absurd hlt (Nat.not_lt.mpr hge)

/-! ### The similarity of a template to itself -/

theorem allSome_map {α β : Type} {f : α → Option β} {l : List α} (h : ∀ c ∈ l, f c ≠ none) :
    ∃ x, allSome (l.map f) = some x ∧ l.map f = x.map some := by
  induction l with
  | nil => exact ⟨[], rfl, rfl⟩
  | cons a l ih =>
    obtain ⟨x, hx, hm⟩ := ih fun c hc => h c (List.mem_cons_of_mem _ hc)
    cases ha : f a with
    | none => exact absurd ha (h a List.mem_cons_self)
    | some v => exact ⟨v :: x, by simp [allSome, ha, hx], by simp [ha, hm]⟩

theorem squares_nonneg (x : List Int) : 0 ≤ (x.map fun v => v * v).sum := by
  apply List.sum_nonneg
  intro a ha
  obtain ⟨v, -, rfl⟩ := List.mem_map.mp ha
  exact mul_self_nonneg v

theorem squares_pos {x : List Int} (h : ∃ v ∈ x, v ≠ 0) : 0 < (x.map fun v => v * v).sum := by
  induction x with
  | nil => exact absurd h (by simp)
  | cons a x ih =>
    rw [List.map_cons, List.sum_cons]
    have ha := mul_self_nonneg a
    have hx := squares_nonneg x
    by_cases h0 : a = 0
    · obtain ⟨v, hv, hne⟩ := h
      rcases List.mem_cons.mp hv with rfl | hv
      · exact absurd h0 hne
      · exact add_pos_of_nonneg_of_pos ha (ih ⟨v, hv, hne⟩)
    · exact add_pos_of_pos_of_nonneg (mul_self_pos.mpr h0) hx

theorem cosSim_le (a b : List Nat) : cosSim a b ≤ 255 := by
  have hmod : Config.similarity a b % 256 ≤ 255 := by omega
  unfold cosSim
  split
  next x y hx hy =>
    extract_lets dot n
    split
    · exact hmod
    · exact (largestBelow_spec (p := fun c : Nat => c == 0 || (decide (0 < dot) && decide ((2 * (c : Int) - 1) ^ 2 * n ≤ (512 * dot) ^ 2))) rfl 255).1
  next => exact hmod

/-- A vector of numbers that is not zero is as near to itself as a similarity can say. -/
theorem cosSim_self {v : List Nat} (hz : ∃ c ∈ v, h16Int c ≠ some 0) (hn : ∀ c ∈ v, h16Int c ≠ none) : cosSim v v = 255 := by
  obtain ⟨x, hx, hm⟩ := allSome_map hn
  have hpos : 0 < (x.map fun v => v * v).sum := by
    refine squares_pos ?_
    obtain ⟨c, hc, hne⟩ := hz
    have hcm : h16Int c ∈ v.map h16Int := List.mem_map_of_mem hc
    rw [hm] at hcm
    obtain ⟨w, hw, hwe⟩ := List.mem_map.mp hcm
    exact ⟨w, hw, fun h => hne (by rw [← hwe, h])⟩
  have hfit : (2 * ((255 : Nat) : Int) - 1) ^ 2 * ((x.map fun v => v * v).sum * (x.map fun v => v * v).sum) ≤ (512 * (x.map fun v => v * v).sum) ^ 2 := by
    generalize (x.map fun v => v * v).sum = d at hpos ⊢
    push_cast
    nlinarith [mul_pos hpos hpos]
  have hne : (x.map fun v => v * v).sum * (x.map fun v => v * v).sum ≠ 0 := (mul_pos hpos hpos).ne'
  unfold cosSim
  simp only [hx, List.zipWith_self]
  rw [if_neg hne]
  refine Eq.trans (largestBelow_succ 255 _) (if_pos ?_)
  exact Bool.or_eq_true_iff.mpr (.inr (Bool.and_eq_true_iff.mpr ⟨decide_eq_true hpos, decide_eq_true hfit⟩))

theorem slotSim_self {v : List Nat} {x : Slot} (h : v ∈ x.tpl.take x.n) (hz : ∃ c ∈ v, h16Int c ≠ some 0) (hn : ∀ c ∈ v, h16Int c ≠ none) :
    slotSim v x = some 255 := by
  unfold slotSim
  rw [List.max?_eq_some_iff]
  refine ⟨List.mem_map.mpr ⟨v, h, cosSim_self hz hn⟩, fun b hb => ?_⟩
  obtain ⟨y, -, rfl⟩ := List.mem_map.mp hb
  exact cosSim_le v y

theorem mem_slotSims_self {v : List Nat} {k : Nat} {fac : List (Nat × Nat)} {s : State} (h8 : 8 ≤ k) (hk : k < 32)
    (h : v ∈ (tgetD s.por.slots k {}).tpl.take (tgetD s.por.slots k {}).n) (hz : ∃ c ∈ v, h16Int c ≠ some 0) (hn : ∀ c ∈ v, h16Int c ≠ none) :
    (k, 255) ∈ slotSims v fac s := by
  unfold slotSims
  rw [List.mem_filterMap]
  refine ⟨k, List.mem_range.mpr hk, ?_⟩
  rw [if_neg (Nat.not_lt.mpr h8), slotSim_self h hz hn]
  rfl

end Sys2Proof.Machine
end

section
/-! A frame of the island, the word it may fire, and the por verbs (O46). -/

namespace Sys2Proof.Machine

section
variable {s t : State}

/-! ### What the frame itself changes -/

/-- The island without what every frame changes: its clock, its charge, its canceller, and the keyword events that wait. -/
def PorSt.besideFrame (p : PorSt) : PorSt := { p with ticks := 0, frame := 0, tally := 0, frozen := false, erle := 0, taps := [], held := [] }

/-- What a keyword event that is given to the Desk leaves. -/
theorem keywordToDesk_por (k : Keyword) (sim : Nat) (s : State) : (keywordToDesk k sim s).por = s.por := by
  unfold keywordToDesk
  extract_lets a b
  have hb : b.por = s.por := by
    have ha : a.por = s.por := notify_por _ _ s
    unfold b
    split
    · exact ha
    · exact ha
  split
  · exact hb
  · exact hb

theorem keywordToDesk_pwr (k : Keyword) (sim : Nat) (s : State) : (keywordToDesk k sim s).pwr = s.pwr := by
  unfold keywordToDesk
  extract_lets a b
  have hb : b.pwr = s.pwr := by
    have ha : a.pwr = s.pwr := notify_pwr _ _ s
    unfold b
    split
    · exact ha
    · exact ha
  split
  · exact hb
  · exact hb

theorem drainKeywords_keeps (fuel : Nat) (s : State) : (drainKeywords fuel s).por.besideFrame = s.por.besideFrame ∧
    (drainKeywords fuel s).por.ticks = s.por.ticks ∧ (drainKeywords fuel s).pwr = s.pwr := by
  induction fuel generalizing s with
  | zero => exact ⟨rfl, rfl, rfl⟩
  | succ f ih =>
    rw [drainKeywords]
    split
    · exact ⟨rfl, rfl, rfl⟩
    next k r hk =>
      split
      · exact ⟨rfl, rfl, rfl⟩
      · obtain ⟨hp, ht, hw⟩ := ih (keywordToDesk { k with rtc := none } (k.rtc.getD 0) (s.onPor fun p => { p with held := r }))
        rw [keywordToDesk_por] at hp ht
        rw [keywordToDesk_pwr] at hw
        exact ⟨hp, ht, hw⟩

theorem drainKeywords_of_none (fuel : Nat) (h : s.por.held = []) : drainKeywords fuel s = s := by
  cases fuel with
  | zero => rfl
  | succ f =>
    rw [drainKeywords]
    simp only [h]

/-- What a frame's clock and filter leave: the rest of the island, and the units the Desk and the queue keep. -/
structure FrameKeeps (s t : State) : Prop where
  island : t.por.besideFrame = s.por.besideFrame
  held : t.por.held = s.por.held
  pwr : t.pwr = s.pwr
  desk : t.desk = s.desk
  evq : t.evq = s.evq
  ldr : t.ldr = s.ldr
  tly : t.tly = s.tly

theorem FrameKeeps.trans {u : State} (h : FrameKeeps s t) (g : FrameKeeps t u) : FrameKeeps s u :=
  ⟨g.island.trans h.island, g.held.trans h.held, g.pwr.trans h.pwr, g.desk.trans h.desk, g.evq.trans h.evq, g.ldr.trans h.ldr, g.tly.trans h.tly⟩

theorem FrameKeeps.onPor {f : PorSt → PorSt} (h : (f s.por).besideFrame = s.por.besideFrame) (hh : (f s.por).held = s.por.held) :
    FrameKeeps s (s.onPor f) :=
  ⟨h, hh, rfl, rfl, rfl, rfl, rfl⟩

theorem aecFrame_keeps (f : Feature) (s : State) : FrameKeeps s (aecFrame f s) ∧ (aecFrame f s).por.ticks = s.por.ticks := by
  unfold aecFrame
  split
  · exact ⟨.onPor rfl rfl, rfl⟩
  · exact ⟨.onPor (f := id) rfl rfl, rfl⟩

theorem tick10_keeps (s : State) : FrameKeeps s (tick10 s) ∧ (tick10 s).por.ticks = s.por.ticks + 1 := by
  unfold tick10
  extract_lets a b
  have ha : FrameKeeps s a := .onPor rfl rfl
  have hb : FrameKeeps a b ∧ b.por = a.por := by
    unfold b
    split <;> exact ⟨⟨rfl, rfl, rfl, rfl, rfl, rfl, rfl⟩, rfl⟩
  have hticks : b.por.ticks = s.por.ticks + 1 := congrArg PorSt.ticks hb.2
  split
  · exact ⟨(ha.trans hb.1).trans ⟨rfl, rfl, rfl, rfl, rfl, rfl, rfl⟩, hticks⟩
  · exact ⟨ha.trans hb.1, hticks⟩

theorem charged_keeps (n : Nat) (p : PorSt) : (if p.onVbat then addCharge n p else p).besideFrame = p.besideFrame ∧
    (if p.onVbat then addCharge n p else p).held = p.held ∧ (if p.onVbat then addCharge n p else p).ticks = p.ticks := by
  split <;> exact ⟨rfl, rfl, rfl⟩

/-- The frame's own state before a keyword event is given on. -/
def ticked (f : Feature) (s : State) : State := aecFrame f (tick10 (s.onPor fun p => if p.onVbat then addCharge f.charge p else p))

theorem ticked_keeps (f : Feature) (s : State) : FrameKeeps s (ticked f s) ∧ (ticked f s).por.ticks = s.por.ticks + 1 := by
  obtain ⟨hisland, hheld, hticks⟩ := charged_keeps f.charge s.por
  obtain ⟨htick, ht⟩ := tick10_keeps (s.onPor fun p => if p.onVbat then addCharge f.charge p else p)
  obtain ⟨haec, ha⟩ := aecFrame_keeps f (tick10 (s.onPor fun p => if p.onVbat then addCharge f.charge p else p))
  refine ⟨((FrameKeeps.onPor hisland hheld).trans htick).trans haec, ha.trans (ht.trans ?_)⟩
  exact congrArg (· + 1) hticks

/-- The island's clock advanced, the filter run, and the waiting keyword events given on. -/
def framed (f : Feature) (s : State) : State := drainKeywords 8 (ticked f s)

theorem framed_keeps (f : Feature) (s : State) : (framed f s).por.besideFrame = s.por.besideFrame ∧ (framed f s).por.ticks = s.por.ticks + 1 ∧
    (framed f s).pwr = s.pwr := by
  obtain ⟨⟨hp, -, hw, -⟩, ht⟩ := ticked_keeps f s
  obtain ⟨hp', ht', hw'⟩ := drainKeywords_keeps 8 (ticked f s)
  exact ⟨hp'.trans hp, ht'.trans ht, hw'.trans hw⟩

/-! ### A frame that is sensed -/

/-- The state once the vector's codes and counts are taken in. -/
def heard (f : Feature) (sims : List (Nat × Nat)) (s : State) : State :=
  s.onPor fun p => { p with quals := qualsAfter sims s, micOn := true, codes := (f.bands.take 16).map featureCode }

/-- The word that fires, if one does and neither the refractory time, a change of path nor an enrolment forbids it. -/
def wordTried (sims : List (Nat × Nat)) (s : State) : State :=
  if s.por.refr || s.por.pathHold || effMode s == .enrol then s
  else match firing sims s with
    | some (k, sim) => fireSlot k sim s
    | none => s

theorem effMode_listen (hm : s.por.mode = .listen) (hv : s.por.onVbat = false) :
    effMode s = if s.por.enrol.isSome then .enrol else .listen := by
  unfold effMode
  extract_lets p set
  have ho : p.override = none := by simp [PorSt.override, show p.onVbat = false from hv]
  have hset : set = .listen := by
    show (if _ then _ else _) = _
    split
    · rfl
    · exact hm
  rw [ho, hset]

/-- What decides how a frame is heard, in the frame's own state. -/
theorem framed_mode (f : Feature) (hm : s.por.mode = .listen) (hv : s.por.onVbat = false) :
    effMode (framed f s) = if s.por.enrol.isSome then .enrol else .listen := by
  obtain ⟨hp, -, -⟩ := framed_keeps f s
  have hmode : (framed f s).por.mode = .listen := (congrArg PorSt.mode hp : (framed f s).por.besideFrame.mode = s.por.besideFrame.mode).trans hm
  have hvbat : (framed f s).por.onVbat = false := (congrArg PorSt.onVbat hp : (framed f s).por.besideFrame.onVbat = s.por.besideFrame.onVbat).trans hv
  have henrol : (framed f s).por.enrol = s.por.enrol := (congrArg PorSt.enrol hp : (framed f s).por.besideFrame.enrol = s.por.besideFrame.enrol)
  rw [effMode_listen hmode hvbat, henrol]

/-- What a frame that is heard in LISTEN does. -/
theorem featureFrame_listen (f : Feature) (hm : s.por.mode = .listen) (hv : s.por.onVbat = false) :
    featureFrame f s = wordTried (slotSims f.emb f.fac s) (heard f (slotSims f.emb f.fac s) (framed f s)) := by
  have hmode := framed_mode f hm hv
  have hnd : (effMode (framed f s) == .doze) = false := by rw [hmode]; split <;> rfl
  have hs : senses (framed f s) = true := by
    unfold senses
    extract_lets m
    have hno : (m != .off) = true := by
      show (effMode (framed f s) != .off) = true
      rw [hmode]
      split <;> rfl
    rw [hno, show (m == .doze) = false from hnd]
    rfl
  unfold featureFrame
  extract_lets sims a b c d
  have hc : c = framed f s := if_neg (by rw [show (effMode b == .doze) = false from hnd, Bool.and_false]; decide)
  have hd : d = heard f sims (framed f s) := by
    show (heard f sims c) = _
    rw [hc]
  refine (if_pos (show senses b = true from hs)).trans ?_
  rw [hd]
  rfl

/-- A word that fires leaves the island's clock and its codes. -/
theorem fireSlot_keeps (k sim : Nat) (s : State) : (fireSlot k sim s).por.ticks = s.por.ticks ∧ (fireSlot k sim s).por.codes = s.por.codes := by
  unfold fireSlot
  extract_lets seq a b e
  have ha : a.por.ticks = s.por.ticks ∧ a.por.codes = s.por.codes := ⟨rfl, rfl⟩
  split
  · split <;> exact ha
  split
  · split <;> exact ha
  · rw [keywordToDesk_por]
    exact ha

theorem wordTried_keeps (sims : List (Nat × Nat)) (s : State) :
    (wordTried sims s).por.ticks = s.por.ticks ∧ (wordTried sims s).por.codes = s.por.codes := by
  unfold wordTried
  split
  · exact ⟨rfl, rfl⟩
  split
  · exact fireSlot_keeps _ _ s
  · exact ⟨rfl, rfl⟩

theorem featureFrame_ticks (f : Feature) (s : State) : (featureFrame f s).por.ticks = s.por.ticks + 1 := by
  obtain ⟨-, hticks, -⟩ := framed_keeps f s
  unfold featureFrame
  extract_lets sims a b c d
  have hb : b.por.ticks = s.por.ticks + 1 := hticks
  have hc : c.por.ticks = b.por.ticks := by
    unfold c
    split <;> rfl
  split
  · exact (wordTried_keeps sims d).1.trans (hc.trans hb)
  · exact hb

/-! ### The slot that fires -/

/-- A function of a range that answers for one number alone. -/
theorem filterMap_range_single {α : Type} {f : Nat → Option α} {k : Nat} {v : α} (hk : f k = some v) (hn : ∀ j, j ≠ k → f j = none) {m : Nat}
    (h : k < m) : (List.range m).filterMap f = [v] := by
  have hpre (m : Nat) (hm : m ≤ k) : (List.range m).filterMap f = [] := by
    rw [List.filterMap_eq_nil_iff]
    exact fun j hj => hn j (by have := List.mem_range.mp hj; omega)
  induction m with
  | zero => omega
  | succ m ih =>
    rw [List.range_succ, List.filterMap_append]
    by_cases hm : m = k
    · subst hm
      rw [hpre m (Nat.le_refl m)]
      simp [hk]
    · rw [ih (by omega)]
      simp [hn m hm]

theorem tgetD_single {α : Type} {k j : Nat} (v d : α) (h : j ≠ k) : tgetD [(k, v)] j d = d := by
  simp [tgetD, tget, Ne.symm h]

theorem qualsAfter_third {k n : Nat} {x : Slot} (hk : k < 32) (hx : tgetD s.por.slots k {} = x) (hl : slotLive s x = true) (ht : x.thr.toNat ≤ n)
    (hq : s.por.quals = [(k, 2)]) : qualsAfter [(k, n)] s = [(k, 3)] := by
  unfold qualsAfter
  refine filterMap_range_single (k := k) ?_ (fun j hj => ?_) hk
  · have hquals : tgetD s.por.quals k 0 = 2 := by
      rw [hq]
      simp [tgetD, tget]
    have hfind : ([(k, n)] : List (Nat × Nat)).find? (fun e => e.1 == k) = some (k, n) := by simp
    simp only [hfind, hx, hl, hquals, Bool.true_and, decide_eq_true ht, if_true]
    rfl
  · simp [Ne.symm hj]

theorem firing_third {k n : Nat} (hk : k < 32) (hq : s.por.quals = [(k, 3)]) : firing [(k, n)] s = some (k, n) := by
  have hl : ((List.range 32).filterMap fun j =>
      if tgetD s.por.quals j 0 = 3 then (([(k, n)] : List (Nat × Nat)).find? fun e => e.1 == j).map fun e => (j, e.2) else none) = [(k, n)] := by
    refine filterMap_range_single (k := k) ?_ (fun j hj => ?_) hk
    · simp [hq, tgetD, tget]
    · rw [hq, tgetD_single _ _ hj]
      rfl
  unfold firing
  rw [hl]
  rfl

theorem firing_none (h : s.por.quals = []) (sims : List (Nat × Nat)) : firing sims s = none := by
  have hl : ((List.range 32).filterMap fun j =>
      if tgetD s.por.quals j 0 = 3 then (sims.find? fun e => e.1 == j).map fun e => (j, e.2) else none) = [] := by
    rw [List.filterMap_eq_nil_iff]
    intro j _
    rw [h]
    rfl
  unfold firing
  rw [hl]
  rfl

theorem qualsAfter_none (s : State) : qualsAfter [] s = [] := by
  unfold qualsAfter
  rw [List.filterMap_eq_nil_iff]
  exact fun j _ => rfl

/-- A word that fires in VAULT. -/
theorem fireSlot_vault {k sim : Nat} (h2 : s.on 2 = false) (hl : s.por.vlog.length < 8) :
    fireSlot k sim s = (assertWake true (s.onPor fun p => { p with cWords := satInc p.cWords, refr := true, seq := p.seq + 1 })).onPor fun p =>
      { p with vlog := p.vlog ++ [⟨k, p.ticks / 100, false, s.por.seq⟩], cVault := satInc p.cVault } := by
  unfold fireSlot
  extract_lets seq a b e
  have hv : inVault a = true := by simp [inVault, show a.on 2 = false from h2]
  rw [if_pos hv]
  exact if_pos hl

/-- A word that fires while the Desk runs. -/
theorem fireSlot_desk {k sim : Nat} (h2 : s.on 2 = true) (hf : shareFull .porter s = false) :
    fireSlot k sim s = keywordToDesk ⟨k, s.por.seq, none, none⟩ sim (s.onPor fun p =>
      { p with cWords := satInc p.cWords, refr := true, seq := p.seq + 1 }) := by
  unfold fireSlot
  extract_lets seq a b e
  have hv : ¬ inVault a = true := by simp [inVault, show a.on 2 = true from h2]
  have hfull : ¬ shareFull .porter a = true := by rw [show shareFull .porter a = shareFull .porter s from rfl, hf]; decide
  rw [if_neg hv, if_neg hfull]

theorem keywordToDesk_kwq {k : Keyword} {sim : Nat} (h : s.desk.kwq.length < 8) :
    (keywordToDesk k sim s).desk.kwq = s.desk.kwq ++ [{ k with tally := if s.on 3 then some s.tly.now else none }] := by
  unfold keywordToDesk
  extract_lets a b
  have ha : a.desk.kwq = s.desk.kwq := kwq_of_quiet (notify_quiet _ _ s)
  have htly : a.tly = s.tly := notify_tly _ _ s
  have hpwr : a.pwr = s.pwr := notify_pwr _ _ s
  have hb : b.desk = a.desk ∧ b.tly = a.tly ∧ b.pwr = a.pwr := by
    unfold b
    split <;> exact ⟨rfl, rfl, rfl⟩
  obtain ⟨hbd, hbt, hbp⟩ := hb
  have hkwq : b.desk.kwq = s.desk.kwq := by rw [hbd, ha]
  rw [if_pos (by rw [hkwq]; exact h)]
  show b.desk.kwq ++ [{ k with tally := if b.on 3 then some b.tly.now else none }] = _
  rw [hkwq, State.on, State.on, hbp, hpwr, hbt, htly]

/-- A word whose third embedding in a row reaches its threshold fires, where nothing holds it back. -/
theorem featureFrame_fires {f : Feature} {k n : Nat} {x : Slot} (hm : s.por.mode = .listen) (he : s.por.enrol = none) (hv : s.por.onVbat = false)
    (hr : s.por.refr = false) (hh : s.por.pathHold = false) (hk : k < 32) (hs : slotSims f.emb f.fac s = [(k, n)])
    (hx : s.por.slots = [(k, x)]) (hen : x.en = true) (hc : x.crcbad = false) (hn : 0 < x.n) (hw : x.wake = true) (ht : x.thr.toNat ≤ n)
    (hq : s.por.quals = [(k, 2)]) : featureFrame f s = fireSlot k n (heard f [(k, n)] (framed f s)) := by
  have hmode := framed_mode (s := s) f hm hv
  obtain ⟨hp, -, -⟩ := framed_keeps f s
  have hslots : (framed f s).por.slots = [(k, x)] := (congrArg PorSt.slots hp : (framed f s).por.besideFrame.slots = s.por.besideFrame.slots).trans hx
  have hquals : (framed f s).por.quals = [(k, 2)] := (congrArg PorSt.quals hp : (framed f s).por.besideFrame.quals = s.por.besideFrame.quals).trans hq
  have hrefr : (framed f s).por.refr = false := (congrArg PorSt.refr hp : (framed f s).por.besideFrame.refr = s.por.besideFrame.refr).trans hr
  have hhold : (framed f s).por.pathHold = false :=
    (congrArg PorSt.pathHold hp : (framed f s).por.besideFrame.pathHold = s.por.besideFrame.pathHold).trans hh
  rw [featureFrame_listen f hm hv, hs]
  rw [he] at hmode
  generalize framed f s = u at hmode hslots hquals hrefr hhold ⊢
  have hlive : slotLive u x = true := by simp [slotLive, hen, hc, hn, hw]
  have hthird : (heard f [(k, n)] u).por.quals = [(k, 3)] := qualsAfter_third hk (by simp [hslots, tgetD, tget]) hlive ht hquals
  have hfree : (u.por.refr || u.por.pathHold || effMode u == .enrol) = false := by
    rw [hrefr, hhold, hmode]
    decide
  unfold wordTried
  rw [if_neg (by rw [show ((heard f [(k, n)] u).por.refr || (heard f [(k, n)] u).por.pathHold || effMode (heard f [(k, n)] u) == .enrol) = false from hfree]; decide),
    firing_third hk hthird]

/-- With no similarity to test, no word fires. -/
theorem featureFrame_silent {f : Feature} (hm : s.por.mode = .listen) (hv : s.por.onVbat = false) (hs : slotSims f.emb f.fac s = []) :
    featureFrame f s = heard f [] (framed f s) := by
  rw [featureFrame_listen f hm hv, hs]
  unfold wordTried
  rw [firing_none (s := heard f [] (framed f s)) (qualsAfter_none (framed f s))]
  exact ite_self _

theorem shareFull_congr {x : Src} (he : t.evq = s.evq) (hl : t.ldr = s.ldr) : shareFull x t = shareFull x s := by
  unfold shareFull shareUsed
  rw [he, hl]

/-! ### Slots and settings -/

theorem sayCrc_slots (k : Nat) (s : State) : (sayCrc k s).por.slots = s.por.slots := by simp [sayCrc]

/-- Marking the slots of a list. -/
def markBad (ks : List Nat) (t : Tab Slot) : Tab Slot := ks.foldl (fun t k => tmod t k {} fun x => { x with crcbad := true }) t

theorem markBad_keeps_marked {k : Nat} (ks : List Nat) {t : Tab Slot} (h : (tgetD t k {}).crcbad = true) : (tgetD (markBad ks t) k {}).crcbad = true := by
  induction ks generalizing t with
  | nil => exact h
  | cons j ks ih =>
    refine ih ?_
    by_cases hj : k = j
    · rw [hj, tgetD_tmod_same]
    · rw [tgetD_tmod_ne _ _ _ _ _ hj]
      exact h

theorem markBad_of_mem {k : Nat} {ks : List Nat} (h : k ∈ ks) (t : Tab Slot) : (tgetD (markBad ks t) k {}).crcbad = true := by
  induction ks generalizing t with
  | nil => cases h
  | cons j ks ih =>
    rcases List.mem_cons.mp h with rfl | h
    · refine markBad_keeps_marked ks ?_
      rw [tgetD_tmod_same]
    · exact ih h _

theorem markBad_of_notMem {k : Nat} {ks : List Nat} (h : k ∉ ks) (t : Tab Slot) : tgetD (markBad ks t) k {} = tgetD t k {} := by
  induction ks generalizing t with
  | nil => rfl
  | cons j ks ih =>
    obtain ⟨hj, hks⟩ := not_or.mp (mt List.mem_cons.mpr h)
    exact (ih hks _).trans (tgetD_tmod_ne _ _ _ _ _ hj)

/-- The slots a CRC check may mark: the user slots it names. -/
def userSlots (l : List Nat) : List Nat := l.filter fun k => decide (8 ≤ k) && decide (k < 32)

theorem slotCrcCheck_slots (l : List Nat) (h : s.por.running = true) :
    Gives (.slotCrcCheck l) s fun t => t.por.slots = markBad (userSlots l) s.por.slots := by
  refine ⟨_, congrArg Host.Outcome.next (if_pos h), ?_⟩
  extract_lets a
  split
  · exact State.forEach_keeps a (fun t => t.por.slots) _ sayCrc sayCrc_slots
  · rfl

end

/-- A byte that the line gives, or the one that stands. -/
def Env.byte (e : Env) (k : String) (old : BitVec 8) : BitVec 8 := match e.nat? k with | some v => BitVec.ofNat 8 v | none => old

theorem Env.byte_eq (e : Env) (k : String) (old : BitVec 8) : e.byte k old = ((e.nat? k).map (BitVec.ofNat 8)).getD old := by
  unfold Env.byte
  cases e.nat? k <;> rfl

/-- The settings `por.set` makes where the line names no reference. -/
def porGiven (e : Env) (p : PorSt) : PorSt :=
  let p := match e.nat? "cell" with | some n => setCell n p | none => p
  { p with
    mode := match e.word? "mode" with | some w => pmodeOf w | none => p.mode
    cancel := (e.flag? "cancel").getD p.cancel
    refDst := if e.has "ref" then packCodes [] else p.refDst
    gain := match e.nat? "gain" with | some v => BitVec.ofNat 3 (v / 6) | none => p.gain
    bias := match e.nat? "bias" with | some v => v == 22 | none => p.bias
    refract := match e.nat? "refract" with | some v => BitVec.ofNat 5 (v / 100 - 2) | none => p.refract
    winpol := match e.word? "winpol" with | some w => w == "high" | none => p.winpol
    mu := e.byte "mu" p.mu
    delay := e.byte "delay" p.delay
    tmo := e.byte "tmo" p.tmo }

theorem porSetBody_eq {c : Ctx} {p : Pfx} {e : Env} {s : State} (hb : e.has "bias" = false) (hr : e.nat "refract" = 0) (hw : e.words "ref" = []) :
    porSetBody c p e s = .ok [] (settlePor (s.onPor (porGiven e))) := by
  unfold porSetBody
  extract_lets refs b8
  rw [if_neg (by simp [hb]), if_neg (by simp [hr]), show refs = some [] from congrArg (fun l => allSome (l.map codeOf)) hw]
  rfl

/-- Settles O46: a frame by `featureFrame_listen`, a word that fires by `featureFrame_fires`, the codes and similarities by what
their searches find, and the por verbs by their bodies. -/
theorem porterListening : Obligations.PorterListening := by
  unfold Obligations.PorterListening
  refine ⟨fun f s h => ⟨_, congrArg Host.Outcome.next (if_pos h), featureFrame_ticks f s⟩,
    fun f s h => congrArg Host.Outcome.next (if_neg (by rw [h]; decide)), fun e c h0 h => featureCode_iff h0 h,
    fun e => ⟨(featureCode_spec e).1, featureCode_zero_iff e⟩, fun f s h hm hv => ?codes,
    fun f k n x s h hm he _ hv hr hh hk hs hx hen hc hn hw ht hq => ⟨fun h2 hl => ?vault, fun h2 hd hf hl => ?desk⟩,
    fun f s h hm hv hs => ?silent, fun v k fac s h8 hk hv hz hn => mem_slotSims_self h8 hk hv hz hn, fun l s h => ?crc,
    fun c p a e s h hb hr href hcell => ?set, fun c p a e s h ht hen hp => ?slot, fun c p a e s h h8 hp => ?clear,
    fun c p a e s h h8 => refuses_of_body rfl h (if_pos h8), fun c p a e s h => answersWith_of_body rfl h ⟨_, _, rfl, rfl, rfl⟩⟩
  case codes =>
    refine ⟨_, congrArg Host.Outcome.next (if_pos h), ?_⟩
    rw [featureFrame_listen f hm hv]
    exact (wordTried_keeps _ _).2
  case vault =>
    refine ⟨_, congrArg Host.Outcome.next ((if_pos h).trans (featureFrame_fires hm he hv hr hh hk hs hx hen hc hn hw ht hq)), ?_⟩
    obtain ⟨hp, hticks, hpwr⟩ := framed_keeps f s
    generalize framed f s = u at hp hticks hpwr
    have hvlog : u.por.vlog = s.por.vlog := (congrArg PorSt.vlog hp : u.por.besideFrame.vlog = s.por.besideFrame.vlog)
    have hwords : u.por.cWords = s.por.cWords := (congrArg PorSt.cWords hp : u.por.besideFrame.cWords = s.por.besideFrame.cWords)
    have hvault : u.por.cVault = s.por.cVault := (congrArg PorSt.cVault hp : u.por.besideFrame.cVault = s.por.besideFrame.cVault)
    have hseq : u.por.seq = s.por.seq := (congrArg PorSt.seq hp : u.por.besideFrame.seq = s.por.besideFrame.seq)
    rw [fireSlot_vault (s := heard f [(k, n)] u) (by show u.pwr.dom.getLsbD 2 = false; rw [hpwr]; exact h2)
      (by show u.por.vlog.length < 8; rw [hvlog]; exact hl)]
    refine ⟨rfl, rfl, rfl, ?_, congrArg satInc hwords, congrArg satInc hvault, congrArg (· + 1) hseq⟩
    show u.por.vlog ++ [⟨k, u.por.ticks / 100, false, u.por.seq⟩] = _
    rw [hvlog, hticks, hseq]
  case desk =>
    refine ⟨_, congrArg Host.Outcome.next ((if_pos h).trans (featureFrame_fires hm he hv hr hh hk hs hx hen hc hn hw ht hq)), ?_⟩
    obtain ⟨⟨hp, hheld, hpwr, hdesk, hevq, hldr, htly⟩, -⟩ := ticked_keeps f s
    rw [framed, drainKeywords_of_none 8 (hheld.trans hd)]
    generalize ticked f s = u at hp hpwr hdesk hevq hldr htly
    have hseq : u.por.seq = s.por.seq := (congrArg PorSt.seq hp : u.por.besideFrame.seq = s.por.besideFrame.seq)
    have hwake : u.por.wakeOut = s.por.wakeOut := (congrArg PorSt.wakeOut hp : u.por.besideFrame.wakeOut = s.por.besideFrame.wakeOut)
    have hon (d : Nat) : u.on d = s.on d := congrArg (fun p => p.dom.getLsbD d) hpwr
    rw [fireSlot_desk (s := heard f [(k, n)] u) ((hon 2).trans h2) ((shareFull_congr hevq hldr).trans hf)]
    rw [keywordToDesk_kwq (by show u.desk.kwq.length < 8; rw [hdesk]; exact hl), keywordToDesk_por]
    refine ⟨?_, rfl, hwake, congrArg (· + 1) hseq⟩
    show u.desk.kwq ++ [⟨k, u.por.seq, if u.on 3 then some u.tly.now else none, none⟩] = _
    rw [hdesk, hseq, hon, htly]
  case silent =>
    refine ⟨_, congrArg Host.Outcome.next ((if_pos h).trans (featureFrame_silent hm hv hs)), ?_⟩
    obtain ⟨hp, -, -⟩ := framed_keeps f s
    generalize framed f s = u at hp
    exact ⟨(congrArg PorSt.cWords hp : u.por.besideFrame.cWords = s.por.besideFrame.cWords), qualsAfter_none u,
      (congrArg PorSt.wakeOut hp : u.por.besideFrame.wakeOut = s.por.besideFrame.wakeOut)⟩
  case crc =>
    obtain ⟨t, ht, hslots⟩ := slotCrcCheck_slots l h
    refine ⟨t, ht, fun k hk h8 h32 => ?_, fun k hk => ?_⟩
    · rw [hslots]
      exact markBad_of_mem (by simp [userSlots, hk, h8, h32]) _
    · rw [hslots]
      exact markBad_of_notMem (by simp [userSlots]; omega) _
  case set =>
    have hnat : e.nat "refract" = 0 := by simp [Env.nat, hr]
    have hwords : e.words "ref" = [] := by simp [Env.words, Env.v_of_has href]
    refine answersWith_of_body rfl h ⟨_, _, porSetBody_eq hb hnat hwords, rfl, ?_⟩
    unfold porGiven
    rw [hcell, hr]
    refine ⟨?_, rfl, ?_, e.byte_eq "mu" s.por.mu, rfl, rfl, rfl, rfl⟩
    · cases e.word? "mode" <;> rfl
    · cases e.nat? "gain" <;> rfl
  case slot =>
    refine begins_of_body rfl h ⟨_, ?_, rfl⟩
    unfold porSlotBody
    extract_lets x
    rw [if_neg (by simp [ht]), if_neg (fun hc => hen hc.1)]
    exact lineJob_eq hp _ _
  case clear => exact begins_of_body rfl h ⟨_, (if_neg (by omega)).trans (lineJob_eq hp _ _), rfl⟩

end Sys2Proof.Machine
end

section
/-! Access from outside the Desk: register writes, JTAG, and the vendor bulk interface (O58). -/

namespace Sys2Proof.Machine

section
variable {s : State}

/-! ### Places -/

theorem placeOf_ddr {a : Nat} (h : a < 2 ^ 35) : placeOf a = .ddr a := if_pos h

theorem placeOf_csr {b off : Nat} (hb : b < 16) (ho : off < 0x10000) : placeOf (csrBase + 0x10000 * b + off) = .csr b off := by
  have hblock : (csrBase + 0x10000 * b + off - csrBase) / 0x10000 = b := by omega
  have hoff : (csrBase + 0x10000 * b + off - csrBase) % 0x10000 = off := by omega
  unfold placeOf
  rw [if_neg (by unfold csrBase; omega), if_neg (by unfold csrBase; omega), if_neg (by unfold csrBase; omega), if_pos (by omega), hblock, hoff]

theorem placeOf_region {a : Nat} (h : a < csrBase) : (placeOf a).region ≠ 4 := by
  unfold csrBase at h
  unfold placeOf csrBase
  split
  · show 1 ≠ 4
    decide
  split
  · show 2 ≠ 4
    decide
  split
  · show 3 ≠ 4
    decide
  rw [if_neg (by omega), if_neg (by omega)]
  show 0 ≠ 4
  decide

theorem runErr_ddr {a n : Nat} (h4 : a % 4 = 0) (hn : 0 < n) (ha : a + 4 * n ≤ 2 ^ 35) (hv : s.mem.valid = true) (hu : a + 4 * n ≤ s.usable) :
    runErr a n s = none := by
  have herr (k : Nat) (hk : k < n) : placeErr (a + 4 * k) s = none := by
    unfold placeErr
    rw [placeOf_ddr (by omega)]
    simp only [hv, Bool.not_true, Bool.false_eq_true, if_false]
    exact if_neg (by omega)
  have hnone : (List.range n).filterMap (fun k => placeErr (a + 4 * k) s) = [] :=
    List.filterMap_eq_nil_iff.mpr fun k hk => herr k (List.mem_range.mp hk)
  unfold runErr
  extract_lets errs
  have herrs : errs = [] := hnone
  rw [if_neg (by rw [placeOf_ddr (a := a) (by omega), placeOf_ddr (a := a + 4 * n - 1) (by omega), h4]; simp [Place.region]), herrs]
  rfl

theorem readPlace_ddr {a : Nat} (h : a < 2 ^ 35) (s : State) : readPlace a s = (s.ram.readW a, s) := by
  unfold readPlace
  rw [placeOf_ddr h]

theorem writePlace_ddr {a : Nat} (h : a < 2 ^ 35) (hv : s.mem.valid = true) (hu : a < s.usable) (v : W32) :
    writePlace a v s = { s with ram := s.ram.writeW a v } := by
  have herr : placeErr a s = none := by
    unfold placeErr
    rw [placeOf_ddr h]
    simp only [hv, Bool.not_true, Bool.false_eq_true, if_false]
    exact if_neg (by omega)
  unfold writePlace
  rw [herr, placeOf_ddr h]
  rfl

/-- The bytes of a word are those it is put together from. -/
theorem wordBytes_append (a b c d : Byte) : wordBytes (d ++ c ++ b ++ a : BitVec 32) = [a, b, c, d] := by
  have h0 : (d ++ c ++ b ++ a).extractLsb' 0 8 = a := by
    ext i hi
    simp
    grind
  have h1 : (d ++ c ++ b ++ a).extractLsb' 8 8 = b := by
    ext i hi
    simp
    grind
  have h2 : (d ++ c ++ b ++ a).extractLsb' 16 8 = c := by
    ext i hi
    simp
    grind
  have h3 : (d ++ c ++ b ++ a).extractLsb' 24 8 = d := by
    ext i hi
    simp
    grind
  unfold wordBytes
  rw [h0, h1, h2, h3]

theorem wordBytes_readW (m : Memory) (a : Nat) : wordBytes (m.readW a) = m.readN a 4 := wordBytes_append _ _ _ _

theorem readN_append (m : Memory) (a k n : Nat) : m.readN a (k + n) = m.readN a k ++ m.readN (a + k) n := by
  unfold Memory.readN
  rw [List.range_add, List.map_append, List.map_map]
  simp [Function.comp_def, Nat.add_assoc]

/-- A run of the LPDDR5X gives its bytes and changes nothing. -/
theorem readRun_ddr {n a : Nat} (h : a + 4 * n ≤ 2 ^ 35) (s : State) :
    (((readRun n a s).1.map wordBytes).flatten = s.ram.readN a (4 * n)) ∧ (readRun n a s).2 = s := by
  induction n generalizing a with
  | zero => exact ⟨rfl, rfl⟩
  | succ n ih =>
    obtain ⟨hb, hs⟩ := ih (a := a + 4) (by omega)
    rw [readRun, readPlace_ddr (by omega)]
    refine ⟨?_, hs⟩
    show wordBytes (s.ram.readW a) ++ ((readRun n (a + 4) s).1.map wordBytes).flatten = _
    rw [hb, wordBytes_readW, ← readN_append]
    congr 1
    omega

/-! ### Register writes -/

/-- A write of a register in a block whose domain is on. -/
theorem registerWrite_csr {b off : Nat} (hb : b < 16) (ho : off < 0x10000) (h4 : off % 4 = 0) (hon : s.on (blockDom b) = true) (v : W32) :
    exec (.registerWrite (csrBase + 0x10000 * b + off) v) s = .next (settleDue (blockWrite b off v s)) := by
  have herr : placeErr (csrBase + 0x10000 * b + off) s = none := by
    unfold placeErr
    rw [placeOf_csr hb ho]
    simp [hon]
  refine congrArg Host.Outcome.next ((if_pos ⟨by unfold csrBase; omega, by rw [placeOf_csr hb ho]; rfl⟩).trans (congrArg settleDue ?_))
  unfold writePlace
  rw [herr, placeOf_csr hb ho]
  rfl

/-- A write of a register in a block whose domain is off. -/
theorem registerWrite_off {b off : Nat} (hb : b < 16) (ho : off < 0x10000) (h0 : blockDom b ≠ 0) (hoff : s.on (blockDom b) = false)
    (hd : ∀ e ∈ s.desk.deferred, e.1 ≠ 4) (v : W32) : exec (.registerWrite (csrBase + 0x10000 * b + off) v) s = .next s := by
  have herr : placeErr (csrBase + 0x10000 * b + off) s = some 40 := by
    unfold placeErr
    rw [placeOf_csr hb ho]
    simp [hoff, h0]
  have hw : writePlace (csrBase + 0x10000 * b + off) v s = s := by
    unfold writePlace
    rw [herr]
    rfl
  refine congrArg Host.Outcome.next ?_
  rw [hw, settleDue_of_none hd, ite_self]

/-- A register of the SYS block that takes a write, or none of it. -/
theorem registerWrite_sys {off : Nat} (ho : off < 0x10000) (h4 : off % 4 = 0) (hon : s.on 2 = true) (v : W32) :
    exec (.registerWrite (csrBase + off) v) s = .next (settleDue (sysWrite off v s)) :=
  registerWrite_csr (b := 0) (by decide) ho h4 hon v

/-! ### JTAG's access to the address map -/

/-- The part with DEBUG selected and `w` read out. -/
def debugged (w : W32) (s : State) : State := s.onJtag fun j => { ir := 0x10, dr := j.dr, pins := none, out := w }

theorem exec_debug_open (h2 : s.on 2 = true) (hj : s.sys.jtaglock = false) {a : Nat} (he : runErr a 1 s = none) (w : Bool) (v : W32) :
    exec (.debug w a v) s = .next (if w then (if placeBusy a s then debugged 0 s else settleDue (writePlace a v (debugged 0 s)))
      else (readPlace a (debugged 0 s)).2.onJtag fun j => { j with out := (readPlace a (debugged 0 s)).1 }) := by
  have htap : tap 0x10 id s = debugged 0 s := if_pos h2
  have hgo : ¬ (!s.on 2) = true := by simp [h2]
  have hrun : ¬ (runErr a 1 (debugged 0 s)).isSome = true := by
    rw [show runErr a 1 (debugged 0 s) = runErr a 1 s from rfl, he]
    decide
  refine congrArg Host.Outcome.next ((if_neg (by simp [hj])).trans ((if_neg hgo).trans ?_))
  rw [htap]
  refine (if_neg hrun).trans ?_
  cases w
  · rfl
  · rfl

/-! ### The vendor bulk interface -/

theorem exec_vendorBulkRead_words {h : BulkHdr} (hup : bulkUp s = true) (hen : s.usb.bulken = true) (hbad : bulkBad h = false) (hop : h.op = 2)
    (hlen : 0 < h.len) (he : runErr h.addr (h.len / 4) s = none) :
    exec (.vendorBulkRead h) s = .next (bulkAnswer ((readRun (h.len / 4) h.addr s).1.map wordBytes).flatten 0 h.len (readRun (h.len / 4) h.addr s).2) := by
  show execVendorBulkRead h s = _
  unfold execVendorBulkRead
  rw [if_neg (by simp [hup]), if_neg (by simp [hen]), if_neg (by simp [hbad, hop]), if_neg (by omega), he]

theorem blockDom_ne_zero : ∀ {b : Nat}, b < 16 → b ≠ 13 → blockDom b ≠ 0 := by decide

end

/-- Settles O58: `registerWrite_csr` and `registerWrite_off` for the registers, the instructions' own equations, `readRun_ddr` for
what is read in bulk. -/
theorem outsideAccess : Obligations.OutsideAccess := by
  unfold Obligations.OutsideAccess
  refine ⟨fun v s h2 hd => ?watchdog, fun v s h2 hd => ?causes, fun v s hd => ?hole, fun b off v s hb hb13 ho hoff hd => ?off,
    fun addr v s h' => congrArg Host.Outcome.next (if_neg fun hc => ?outside),
    fun v s h2 => ⟨congrArg Host.Outcome.next (if_pos h2), congrArg Host.Outcome.next (if_pos h2), congrArg Host.Outcome.next (if_pos h2),
      congrArg Host.Outcome.next (if_pos h2), congrArg Host.Outcome.next (if_pos h2), ?sample⟩,
    fun w a v s h2 hj => congrArg Host.Outcome.next ((if_pos hj).trans (if_pos h2)),
    fun a v s h2 hj h4 ha hv hu hd => ⟨?debugRead, ?debugWrite⟩,
    fun h data b s hup => ⟨fun hen => ?bulkOff, fun hen hbad => ?bulkBad, fun hen hbad hop hwait hv hin hcell hlen => ?bulkWrite,
      fun hen hbad hop hlen h4 ha hv hu => ?bulkRead⟩,
    fun n q s hup hen => ⟨fun hwait hsrc => ?endWait, fun hwait => ?noWait⟩⟩
  case outside =>
    obtain ⟨h4, h⟩ := hc
    rcases h' with hne | hlt
    · exact hne h4
    · exact placeOf_region hlt h
  case watchdog =>
    refine ⟨_, (registerWrite_sys (by decide) (by decide) h2 v).trans (congrArg Host.Outcome.next (settleDue_of_none ?_)), rfl, rfl, rfl, rfl⟩
    exact hd
  case causes =>
    refine ⟨_, (registerWrite_sys (by decide) (by decide) h2 v).trans (congrArg Host.Outcome.next (settleDue_of_none ?_)), rfl, rfl, rfl⟩
    exact hd
  case hole =>
    by_cases h2 : s.on 2 = true
    · exact (registerWrite_sys (by decide) (by decide) h2 v).trans (congrArg Host.Outcome.next (settleDue_of_none hd))
    · exact registerWrite_off (b := 0) (by decide) (by decide) (by decide) (Bool.not_eq_true _ ▸ h2) hd v
  case off => exact registerWrite_off hb ho (blockDom_ne_zero hb hb13) hoff hd v
  case sample => exact ⟨_, congrArg Host.Outcome.next (if_pos h2), rfl, rfl, rfl⟩
  case debugRead =>
    refine ⟨_, exec_debug_open h2 hj (runErr_ddr h4 (by decide) ha hv hu) false v, ?_⟩
    rw [if_neg (by decide), readPlace_ddr (by omega)]
    exact ⟨rfl, rfl, rfl⟩
  case debugWrite =>
    have hbusy : placeBusy a s = false := by
      unfold placeBusy
      rw [placeOf_ddr (by omega)]
    have hw : writePlace a v (debugged 0 s) = { debugged 0 s with ram := s.ram.writeW a v } :=
      writePlace_ddr (s := debugged 0 s) (by omega) hv (show a < s.usable by omega) v
    refine ⟨_, exec_debug_open h2 hj (runErr_ddr h4 (by decide) ha hv hu) true v, ?_⟩
    rw [if_pos rfl, if_neg (by simp [hbusy]), hw, settleDue_of_none]
    · exact ⟨rfl, rfl, rfl⟩
    · exact hd
  case bulkOff =>
    exact ⟨_, congrArg Host.Outcome.next ((if_neg (by simp [hup])).trans (if_pos (by simp [hen]))), rfl, rfl, rfl⟩
  case bulkBad =>
    exact ⟨_, congrArg Host.Outcome.next ((if_neg (by simp [hup])).trans ((if_neg (by simp [hen])).trans (if_pos (by simp [hbad])))), rfl, rfl⟩
  case bulkWrite =>
    refine ⟨_, congrArg Host.Outcome.next ((if_neg (by simp [hup])).trans ((if_neg (by simp [hen])).trans ((if_neg (by simp [hbad, hop])).trans
      ((if_neg (by simp [hwait])).trans ((if_neg (by simp [hv])).trans (if_neg (by simp [hin, hcell]))))))), ?_⟩
    rw [List.take_of_length_le (by omega)]
    exact ⟨rfl, by rw [← hlen]; rfl, rfl⟩
  case bulkRead =>
    have hl4 : h.len % 4 = 0 := by
      simp only [bulkBad, Bool.or_eq_false_iff, bne_eq_false_iff_eq] at hbad
      omega
    have hlen4 : 4 * (h.len / 4) = h.len := by omega
    obtain ⟨hbytes, hkeep⟩ := readRun_ddr (n := h.len / 4) (a := h.addr) (by omega) s
    refine ⟨_, exec_vendorBulkRead_words hup hen hbad hop hlen (runErr_ddr h4 (by omega) (by omega) hv (by omega)), ?_⟩
    rw [hkeep, hbytes, hlen4]
    exact ⟨rfl, rfl⟩
  case endWait =>
    exact ⟨_, congrArg Host.Outcome.next ((if_pos hup).trans ((if_neg (by simp [hen])).trans (if_pos (by simp [hwait, hsrc])))), rfl, rfl⟩
  case noWait =>
    exact ⟨_, congrArg Host.Outcome.next ((if_pos hup).trans ((if_neg (by simp [hen])).trans (if_neg (by simp [hwait])))), rfl, rfl⟩

end Sys2Proof.Machine
end

section
/-! The samples of the zones and the cracks they raise (spec 14, R614 to R616). -/

namespace Sys2Proof.Machine

section
variable {s : State}

/-- The power registers without the raise that is under way. -/
def PwrSt.besidePoint (p : PwrSt) : PwrSt := { p with raiseTo := none, raiseOk := false, raiseAnn := false, wtgt := 0 }

theorem PwrSt.settlePoint_besidePoint (p : PwrSt) : p.settlePoint.besidePoint = p.besidePoint := by
  unfold PwrSt.settlePoint
  extract_lets g
  split
  · split <;> rfl
  · split <;> rfl

theorem settlePoint_zones (s : State) : (settlePoint s).pwr.zones = s.pwr.zones :=
  (congrArg PwrSt.zones (PwrSt.settlePoint_besidePoint s.pwr) : s.pwr.settlePoint.besidePoint.zones = s.pwr.besidePoint.zones)

theorem settlePoint_capC (s : State) : (settlePoint s).pwr.capC = s.pwr.capC :=
  (congrArg PwrSt.capC (PwrSt.settlePoint_besidePoint s.pwr) : s.pwr.settlePoint.besidePoint.capC = s.pwr.besidePoint.capC)

theorem settlePoint_eff (s : State) : (settlePoint s).pwr.eff = s.pwr.eff :=
  (congrArg PwrSt.eff (PwrSt.settlePoint_besidePoint s.pwr) : s.pwr.settlePoint.besidePoint.eff = s.pwr.besidePoint.eff)

/-! ### One zone -/

/-- The extra drop of a zone's sample. -/
def Zone.dropOf (v m : Nat) (x : Zone) : Int := (v : Int) - m - x.zbase

/-- Whether a sample raises the zone's crack: its hundredth in a row above 25 mV. -/
def Zone.cracks (v m : Nat) (x : Zone) : Bool := decide (250 < x.dropOf v m) && decide (99 ≤ x.lightN) && !x.raised

/-- The zone after a sample. -/
def Zone.after (v m : Nat) (x : Zone) : Zone :=
  { x with drop := x.dropOf v m, lightN := if 250 < x.dropOf v m then x.lightN + 1 else 0, raised := x.raised || x.cracks v m }

/-- The cap a crack raises. -/
def crackCap (s : State) : BitVec 3 :=
  BitVec.ofNat 3 (min 5 (if s.pwr.zones.any (·.raised) then s.pwr.capC.toNat + 1 else s.pwr.eff.toNat + 1))

/-- Two changes of a list's element agree where they agree on the element. -/
theorem lmod_congr {α : Type} {l : List α} {k : Nat} {f g : α → α} {d : α} (h : f (l.getD k d) = g (l.getD k d)) : lmod l k f = lmod l k g := by
  refine List.ext_getElem? fun i => ?_
  unfold lmod
  by_cases hi : k = i
  · subst hi
    rw [List.getElem?_modify_eq, List.getElem?_modify_eq]
    cases hl : l[k]? with
    | none => rfl
    | some x =>
      rw [List.getD_eq_getElem?_getD, hl] at h
      exact congrArg some h
  · rw [List.getElem?_modify_ne _ _ hi, List.getElem?_modify_ne _ _ hi]

/-- A change that leaves a field leaves the list of that field. -/
theorem map_lmod {α β : Type} {l : List α} {k : Nat} {f : α → α} {d : α} {g : α → β} (h : g (f (l.getD k d)) = g (l.getD k d)) :
    (lmod l k f).map g = l.map g := by
  refine List.ext_getElem? fun i => ?_
  unfold lmod
  rw [List.getElem?_map, List.getElem?_map]
  by_cases hi : k = i
  · subst hi
    rw [List.getElem?_modify_eq]
    cases hl : l[k]? with
    | none => rfl
    | some x =>
      rw [List.getD_eq_getElem?_getD, hl] at h
      exact congrArg some h
  · rw [List.getElem?_modify_ne _ _ hi]

theorem any_eq_of_map {α : Type} {l m : List α} {g : α → Bool} (h : l.map g = m.map g) : l.any g = m.any g := by
  have hl : l.any g = (l.map g).any id := by simp [List.any_map]
  have hm : m.any g = (m.map g).any id := by simp [List.any_map]
  rw [hl, hm, h]

theorem cracks_eq (v m : Nat) (x : Zone) :
    (decide (100 ≤ if 250 < x.dropOf v m then x.lightN + 1 else 0) && !x.raised) = x.cracks v m := by
  unfold Zone.cracks
  split
  next h => simp [h]
  next h => simp [h]

/-- What a sample leaves in its zone and in the cap. -/
theorem zoneOne_pwr (z v m : Nat) (s : State) :
    (zoneOne z v m s).pwr.zones = lmod s.pwr.zones z (Zone.after v m) ∧ (zoneOne z v m s).pwr.eff = s.pwr.eff ∧
    (zoneOne z v m s).pwr.capC = if (s.pwr.zones.getD z {}).cracks v m then crackCap s else s.pwr.capC := by
  unfold zoneOne
  extract_lets old drop n a b mv c
  have hcracks : (decide (100 ≤ n) && !old.raised) = old.cracks v m := cracks_eq v m old
  have ha : a.pwr.zones = lmod s.pwr.zones z fun x => { x with drop := drop, lightN := n } := rfl
  rw [hcracks]
  split
  next hc =>
    have hzones : c.pwr.zones = b.pwr.zones := (congrArg PwrSt.zones (notify_pwr _ _ _)).trans (settlePoint_zones b)
    have hcap : c.pwr.capC = b.pwr.capC := (congrArg PwrSt.capC (notify_pwr _ _ _)).trans (settlePoint_capC b)
    have heff : c.pwr.eff = b.pwr.eff := (congrArg PwrSt.eff (notify_pwr _ _ _)).trans (settlePoint_eff b)
    have hany : a.pwr.zones.any (·.raised) = s.pwr.zones.any (·.raised) := any_eq_of_map (map_lmod (d := {}) rfl)
    refine ⟨hzones.trans ?_, heff, hcap.trans ?_⟩
    · refine (List.modify_modify_eq _ _ _ _).trans (lmod_congr (d := {}) ?_)
      show { old with drop := drop, lightN := n, raised := true } = { old with drop := drop, lightN := n, raised := old.raised || old.cracks v m }
      rw [hc, Bool.or_true]
    · show BitVec.ofNat 3 (min 5 (if a.pwr.zones.any (·.raised) then s.pwr.capC.toNat + 1 else s.pwr.eff.toNat + 1)) = _
      rw [hany]
      rfl
  next hc =>
    refine ⟨lmod_congr (d := {}) ?_, rfl, rfl⟩
    show { old with drop := drop, lightN := n } = { old with drop := drop, lightN := n, raised := old.raised || old.cracks v m }
    rw [Bool.eq_false_iff.mpr hc, Bool.or_false]

/-! ### The eight zones -/

/-- The samples of some zones, one after another. -/
def zonesRead (volts means : List Nat) (l : List Nat) (s : State) : State :=
  s.forEach l fun z s => zoneOne z (volts.getD z 0) (means.getD z 0) s

variable {volts means l : List Nat}

/-- The zone's sample in the lists that a command gives. -/
def Zone.read (volts means : List Nat) (z : Nat) (x : Zone) : Zone := x.after (volts.getD z 0) (means.getD z 0)

theorem zonesRead_length (s : State) : (zonesRead volts means l s).pwr.zones.length = s.pwr.zones.length := by
  refine State.forEach_keeps s (fun t => t.pwr.zones.length) _ _ fun z t => ?_
  rw [(zoneOne_pwr z _ _ t).1]
  exact List.length_modify ..

theorem zonesRead_ne {j : Nat} (h : j ∉ l) (s : State) : (zonesRead volts means l s).pwr.zones.getD j {} = s.pwr.zones.getD j {} := by
  refine State.forEach_keeps_of_mem (fun t => t.pwr.zones.getD j {}) (fun z hz t => ?_) s
  rw [(zoneOne_pwr z _ _ t).1]
  exact getD_lmod_ne (ne_of_mem_of_not_mem hz h).symm _ _

theorem zonesRead_same {j : Nat} (h : j ∈ l) (hn : l.Nodup) (hj : j < s.pwr.zones.length) :
    (zonesRead volts means l s).pwr.zones.getD j {} = (s.pwr.zones.getD j {}).read volts means j := by
  induction l generalizing s with
  | nil => cases h
  | cons z l ih =>
    obtain ⟨hz, hl⟩ := List.nodup_cons.mp hn
    have hzones := (zoneOne_pwr z (volts.getD z 0) (means.getD z 0) s).1
    rcases List.mem_cons.mp h with rfl | h
    · refine (zonesRead_ne hz _).trans ?_
      rw [hzones]
      exact getD_lmod_same hj _ _
    · refine (ih h hl ?_).trans ?_
      · rw [hzones]
        exact hj.trans_eq (List.length_modify ..).symm
      · rw [hzones, getD_lmod_ne (ne_of_mem_of_not_mem h hz)]

/-- Samples that raise no crack leave the cap and what decides the next one. -/
theorem zonesRead_quiet (hn : l.Nodup) (h : ∀ z ∈ l, (s.pwr.zones.getD z {}).cracks (volts.getD z 0) (means.getD z 0) = false) :
    (zonesRead volts means l s).pwr.capC = s.pwr.capC ∧ crackCap (zonesRead volts means l s) = crackCap s := by
  induction l generalizing s with
  | nil => exact ⟨rfl, rfl⟩
  | cons z l ih =>
    obtain ⟨hz, hl⟩ := List.nodup_cons.mp hn
    obtain ⟨hzones, heff, hcap⟩ := zoneOne_pwr z (volts.getD z 0) (means.getD z 0) s
    have hno := h z List.mem_cons_self
    rw [hno, if_neg (by decide)] at hcap
    obtain ⟨hc, hk⟩ := ih (s := zoneOne z (volts.getD z 0) (means.getD z 0) s) hl fun j hj => by
      rw [hzones, getD_lmod_ne (ne_of_mem_of_not_mem hj hz)]
      exact h j (List.mem_cons_of_mem _ hj)
    refine ⟨hc.trans hcap, hk.trans ?_⟩
    have hany : (zoneOne z (volts.getD z 0) (means.getD z 0) s).pwr.zones.any (·.raised) = s.pwr.zones.any (·.raised) := by
      rw [hzones]
      refine any_eq_of_map (map_lmod (d := {}) ?_)
      show (_ || _) = _
      rw [hno, Bool.or_false]
    unfold crackCap
    rw [hany, hcap, heff]

/-- The one crack of a run of samples sets the cap. -/
theorem zonesRead_cap {j : Nat} (hj : j ∈ l) (hn : l.Nodup) (hc : (s.pwr.zones.getD j {}).cracks (volts.getD j 0) (means.getD j 0) = true)
    (h : ∀ z ∈ l, z ≠ j → (s.pwr.zones.getD z {}).cracks (volts.getD z 0) (means.getD z 0) = false) :
    (zonesRead volts means l s).pwr.capC = crackCap s := by
  induction l generalizing s with
  | nil => cases hj
  | cons z l ih =>
    obtain ⟨hz, hl⟩ := List.nodup_cons.mp hn
    obtain ⟨hzones, -, hcap⟩ := zoneOne_pwr z (volts.getD z 0) (means.getD z 0) s
    have hrest (i : Nat) (hi : i ∈ l) : (zoneOne z (volts.getD z 0) (means.getD z 0) s).pwr.zones.getD i {} = s.pwr.zones.getD i {} := by
      rw [hzones, getD_lmod_ne (ne_of_mem_of_not_mem hi hz)]
    rcases List.mem_cons.mp hj with rfl | hj
    · refine (zonesRead_quiet hl fun i hi => ?_).1.trans (hcap.trans (if_pos hc))
      rw [hrest i hi]
      exact h i (List.mem_cons_of_mem _ hi) (ne_of_mem_of_not_mem hi hz)
    · refine (ih hj hl ?_ fun i hi hne => ?_).trans ?_
      · rw [hrest j hj]
        exact hc
      · rw [hrest i hi]
        exact h i (List.mem_cons_of_mem _ hi) hne
      · have hno := h z List.mem_cons_self (ne_of_mem_of_not_mem hj hz).symm
        exact (zonesRead_quiet (l := [z]) (List.nodup_singleton z) fun i hi => (List.mem_singleton.mp hi) ▸ hno).2

theorem exec_zoneSample (h2 : s.on 2 = true) (hlc : s.pwr.lc.toNat ≤ 1) :
    exec (.zoneSample volts means) s = .next (zonesRead volts means (List.range 8) s) :=
  congrArg Host.Outcome.next (if_pos (by simp [h2, hlc]))

end

end Sys2Proof.Machine
end

section
/-! The thermal level, sensing, AVSBus, and what their commands leave (O55). -/

namespace Sys2Proof.Machine

section
variable {s : State}

/-! ### What leaves the power registers -/

theorem takeLeft_pwr (s : State) : (takeLeft s).pwr = s.pwr := by
  unfold takeLeft
  split
  · exact congrArg (·.1) (applyTally_powerKept _ s)
  · rfl

theorem moveEnds_pwr (s : State) : (moveEnds s).pwr = s.pwr := by
  unfold moveEnds
  split <;> rfl

/-! ### The thermal level -/

theorem setTherm_pwr (t : Therm) (s : State) : (setTherm t s).pwr = { s.pwr with therm := t } := by
  unfold setTherm
  split
  next h => rw [h]
  next h =>
    extract_lets a b c
    show c.pwr = _
    exact notify_pwr _ _ b

theorem setTherm_thermal {t : Therm} (h : t ≠ s.pwr.therm) : (setTherm t s).inn.thermal = (t == .emergency) := by
  unfold setTherm
  extract_lets a b c
  rw [if_neg h]
  show c.inn.thermal = _
  exact congrArg InnSt.thermal (notify_inn _ _ b)

/-- The part once a sample's level has been set. -/
def thermSet (tj : Int) (below : Bool) (s : State) : State :=
  setTherm (thermNext s.tjMax tj below s.pwr.therm) (s.onPwr fun p => { p with tj := tj })

/-- What a sample leaves of the level, and of CORE at TRIP. -/
theorem thermalSample_gives (h2 : s.on 2 = true) (tj : Int) (below : Bool) : Gives (.thermalSample tj below) s fun t =>
    t.pwr.tj = tj ∧ t.pwr.therm = thermNext s.tjMax tj below s.pwr.therm ∧
    (t.pwr.therm = .trip → s.pwr.therm ≠ .trip → t.pwr.coreStop = true) ∧ (t.pwr.therm ≠ .trip → t = thermSet tj below s) := by
  have hb : (thermSet tj below s).pwr = { s.pwr with tj := tj, therm := thermNext s.tjMax tj below s.pwr.therm } := setTherm_pwr _ _
  refine ⟨_, congrArg Host.Outcome.next (if_pos h2), ?_⟩
  extract_lets a old b c
  have hbp : b.pwr = { s.pwr with tj := tj, therm := thermNext s.tjMax tj below s.pwr.therm } := hb
  have hc : c.pwr = { b.pwr with coreStop := true } := takeLeft_pwr _
  split
  next htrip =>
    have hctherm : c.pwr.therm = .trip := (congrArg PwrSt.therm hc).trans htrip.1
    have hctj : c.pwr.tj = tj := (congrArg PwrSt.tj hc).trans (congrArg PwrSt.tj hbp)
    have hcore : c.pwr.coreStop = true := congrArg PwrSt.coreStop hc
    have hnext : thermNext s.tjMax tj below s.pwr.therm = .trip := (congrArg PwrSt.therm hbp).symm.trans htrip.1
    rw [hnext]
    split
    · exact ⟨hctj, hctherm, fun _ _ => hcore, fun hne => absurd hctherm hne⟩
    split
    · beta_reduce
      rw [moveEnds_pwr]
      exact ⟨hctj, hctherm, fun _ _ => hcore, fun hne => absurd hctherm hne⟩
    · exact ⟨hctj, hctherm, fun _ _ => hcore, fun hne => absurd hctherm hne⟩
  next hno =>
    refine ⟨congrArg PwrSt.tj hbp, congrArg PwrSt.therm hbp, fun ht hold => absurd ⟨ht, hold⟩ hno, fun _ => rfl⟩

/-! ### The next level (Table 14.8) -/

section
variable {m tj : Int} {below : Bool} {t : Therm}

theorem thermEnter_trip (h : m + 10 ≤ tj) : thermEnter m tj = .trip := if_pos h

theorem thermEnter_emergency (h : m ≤ tj) (h' : tj < m + 10) : thermEnter m tj = .emergency := by
  rw [thermEnter, if_neg (by omega), if_pos h]

theorem thermEnter_derate (h : m - 5 ≤ tj) (h' : tj < m) : thermEnter m tj = .derate := by
  rw [thermEnter, if_neg (by omega), if_neg (by omega), if_pos h]

theorem thermEnter_warn (h : m - 10 ≤ tj) (h' : tj < m - 5) : thermEnter m tj = .warn := by
  rw [thermEnter, if_neg (by omega), if_neg (by omega), if_neg (by omega), if_pos h]

/-- Below a bound a temperature enters no level above that bound's. -/
theorem thermEnter_le_derate (h : tj < m) : thermNum (thermEnter m tj) ≤ 2 := by
  rw [thermEnter, if_neg (by omega), if_neg (by omega)]
  split
  · decide
  split <;> decide

theorem thermEnter_le_warn (h : tj < m - 5) : thermNum (thermEnter m tj) ≤ 1 := by
  rw [thermEnter, if_neg (by omega), if_neg (by omega), if_neg (by omega)]
  split <;> decide

/-- A higher level is entered at once. -/
theorem thermNext_enters (h : thermNum t < thermNum (thermEnter m tj)) : thermNext m tj below t = thermEnter m tj := if_pos h

theorem thermNext_trip : thermNext m tj below .trip = .trip := by
  have h : ¬ thermNum .trip < thermNum (thermEnter m tj) := by
    cases thermEnter m tj <;> decide
  exact if_neg h

theorem thermNext_emergency (h : m ≤ tj) (h' : tj < m + 10) : thermNext m tj below .emergency = .emergency := by
  unfold thermNext
  rw [thermEnter_emergency h h', if_neg (by decide)]
  have hn : decide (tj < m - 2) = false := decide_eq_false (by omega)
  rw [hn]
  rfl

theorem thermNext_warn (h : tj < m - 5) : thermNext m tj below .warn = if tj < m - 12 then .none else .warn := by
  have hle := thermEnter_le_warn h
  unfold thermNext
  rw [if_neg (by show ¬ 1 < _; omega)]
  simp

theorem thermNext_derate (h : tj < m) : thermNext m tj below .derate =
    if below = true ∧ tj < m - 8 then (if tj < m - 12 then .none else .warn) else .derate := by
  have hle := thermEnter_le_derate h
  unfold thermNext
  rw [if_neg (by show ¬ 2 < _; omega)]
  cases below
  · simp
  · by_cases h8 : tj < m - 8
    · simp [h8]
    · simp [h8]

end

/-! ### The voltage target -/

theorem settlePoint_keeps (s : State) : (settlePoint s).pwr.besidePoint = s.pwr.besidePoint := PwrSt.settlePoint_besidePoint s.pwr

/-- The step of the target in DIE-MIN sensing. -/
def nextTarget (pt vmin wtgt : Nat) : Nat :=
  (max (pointV pt : Int) (min 850 ((wtgt : Int) + max (-5) (min 10 (halfRound ((pointV pt : Int) - vmin)))))).toNat

theorem nextTarget_stands {pt vmin wtgt : Nat} (h : vmin = pointV pt) (hlo : pointV pt ≤ wtgt) (hhi : wtgt ≤ 850) :
    nextTarget pt vmin wtgt = wtgt := by
  unfold nextTarget halfRound
  rw [h]
  split <;> omega

theorem nextTarget_rises {pt vmin wtgt : Nat} (h : vmin + 20 ≤ pointV pt) (hlo : pointV pt ≤ wtgt) (hhi : wtgt ≤ 850) :
    nextTarget pt vmin wtgt = min 850 (wtgt + 10) := by
  unfold nextTarget halfRound
  split <;> omega

theorem nextTarget_falls {pt vmin wtgt : Nat} (h : pointV pt + 10 ≤ vmin) (hlo : pointV pt ≤ wtgt) (hhi : wtgt ≤ 850) :
    nextTarget pt vmin wtgt = max (pointV pt) (wtgt - 5) := by
  unfold nextTarget halfRound
  split <;> omega

theorem sentinelRead_gives (h2 : s.on 2 = true) (hr : s.pwr.remote = false) (ha : s.pwr.avsfail = false) (hn : s.pwr.raiseTo = none)
    (lows : List Nat) : Gives (.sentinelRead lows false) s fun t =>
      t.pwr.vmin = satOf 16 (lows.foldl min (lows.headD 0)) ∧
      t.pwr.wtgt = nextTarget s.pwr.eff.toNat (lows.foldl min (lows.headD 0)) s.pwr.wtgt := by
  refine ⟨_, congrArg Host.Outcome.next ((if_pos h2).trans ((if_neg (by simp [hr, ha])).trans (if_neg (by simp)))), rfl, ?_⟩
  show nextTarget (s.pwr.raiseTo.getD s.pwr.eff.toNat) _ s.pwr.wtgt = _
  rw [hn]
  rfl

/-! ### Caps and AVSBus -/

/-- The part as a step of the thermal cap sets it, but for the raise under way. -/
def capStepped (s : State) : State := settlePoint (s.onPwr fun p => { p with
  capT := if s.tjMax - 5 ≤ p.tj then BitVec.ofNat 3 (min 5 (p.capT.toNat + 1))
    else if thermNum p.therm < 2 then p.capT - (if p.capT = 0 then 0 else 1) else p.capT })

theorem capStepped_pwr (s : State) : (capStepped s).pwr.therm = s.pwr.therm ∧ (capStepped s).pwr.capT =
    if s.tjMax - 5 ≤ s.pwr.tj then BitVec.ofNat 3 (min 5 (s.pwr.capT.toNat + 1))
    else if thermNum s.pwr.therm < 2 then s.pwr.capT - (if s.pwr.capT = 0 then 0 else 1) else s.pwr.capT := by
  have h : (capStepped s).pwr.besidePoint = _ := settlePoint_keeps _
  generalize (capStepped s).pwr = q at h ⊢
  exact ⟨(congrArg PwrSt.therm h : q.besidePoint.therm = _), (congrArg PwrSt.capT h : q.besidePoint.capT = _)⟩

/-- The part once its Voltage write has been acknowledged. -/
def voltAcked (s : State) : State := settlePoint (s.onPwr fun p => { p with avsBad := 0, vtgt := satOf 16 p.wtgt, acked := true })

theorem voltAcked_pwr (s : State) : (voltAcked s).pwr.vtgt = satOf 16 s.pwr.wtgt ∧ (voltAcked s).pwr.acked = true ∧
    (voltAcked s).pwr.avsBad = 0 ∧ (voltAcked s).pwr.avsfail = s.pwr.avsfail := by
  have h : (voltAcked s).pwr.besidePoint = _ := settlePoint_keeps _
  generalize (voltAcked s).pwr = q at h ⊢
  exact ⟨(congrArg PwrSt.vtgt h : q.besidePoint.vtgt = _), (congrArg PwrSt.acked h : q.besidePoint.acked = _),
    (congrArg PwrSt.avsBad h : q.besidePoint.avsBad = _), (congrArg PwrSt.avsfail h : q.besidePoint.avsfail = _)⟩

/-- The part after the third failed frame in a row. -/
def avsFailed (s : State) : State :=
  notify "pwr" "avs err" (settlePoint (s.onPwr fun p => { p with
    avsBad := 0, cAvs := satInc p.cAvs, avsfail := true, capA := BitVec.ofNat 3 (pointFor p.vtgt.toNat) }))

theorem avsFailed_pwr (s : State) : (avsFailed s).pwr.cAvs = satInc s.pwr.cAvs ∧ (avsFailed s).pwr.avsfail = true ∧
    (avsFailed s).pwr.capA = BitVec.ofNat 3 (pointFor s.pwr.vtgt.toNat) := by
  have h : (avsFailed s).pwr.besidePoint = _ := (congrArg PwrSt.besidePoint (notify_pwr _ _ _)).trans (settlePoint_keeps _)
  generalize (avsFailed s).pwr = q at h ⊢
  exact ⟨(congrArg PwrSt.cAvs h : q.besidePoint.cAvs = _), (congrArg PwrSt.avsfail h : q.besidePoint.avsfail = _),
    (congrArg PwrSt.capA h : q.besidePoint.capA = _)⟩

/-! ### `pwr.set` without domains -/

/-- The registers `pwr.set` gives where the line names no rail, level, sensing mode or domains. -/
def pwrGiven (e : Env) (p : PwrSt) : PwrSt :=
  let p := match (e.word? "point").map fun w => ["p0", "p1", "p2", "p3", "p4", "p5"].idxOf w with | some n => { p with set := BitVec.ofNat 3 n } | none => p
  { p with
    guard := match e.nat? "guard" with | some n => BitVec.ofNat 8 n | none => p.guard
    offset := match e.nat? "offset" with | some n => BitVec.ofNat 8 n | none => p.offset
    rail := match e.nat? "rail" with | some n => BitVec.ofNat 4 n | none => p.rail
    avsclk := match e.nat? "avsclk" with | some n => (if n = 5000000 then 0 else if n = 10000000 then 1 else 2) | none => p.avsclk
    lcen := (e.flag? "lcen").getD p.lcen
    vmax := p.vmax && !e.has "vmax"
    capV := if e.has "vmax" then 0 else p.capV
    avsRetry := p.avsRetry || (e.has "avs" && p.avsfail) }

theorem pwrGiven_fields {e : Env} {p : PwrSt} (hr : e.has "rail" = false) :
    ((pwrGiven e p).set = match e.word? "point" with
      | some w => BitVec.ofNat 3 (["p0", "p1", "p2", "p3", "p4", "p5"].idxOf w)
      | none => p.set) ∧
    (pwrGiven e p).lcen = (e.flag? "lcen").getD p.lcen ∧ (e.has "vmax" = true → (pwrGiven e p).vmax = false) ∧
    (e.has "vmax" = true → (pwrGiven e p).capV = 0) ∧ (pwrGiven e p).rail = p.rail ∧ (pwrGiven e p).cfg = p.cfg ∧ (pwrGiven e p).dom = p.dom := by
  have hrail : e.nat? "rail" = none := Env.nat?_eq_none hr
  unfold pwrGiven
  rw [hrail]
  cases e.word? "point" with
  | none => exact ⟨rfl, rfl, fun hv => by simp [hv], fun hv => by simp [hv], rfl, rfl, rfl⟩
  | some w => exact ⟨rfl, rfl, fun hv => by simp [hv], fun hv => by simp [hv], rfl, rfl, rfl⟩

theorem pwrSetAll_settings {c : Ctx} {p : Pfx} {e : Env} (hdom : e.has "domains" = false) (ht : e.has "therm" = false) (hr : e.has "rail" = false)
    (hd : ∀ x ∈ s.desk.deferred, x.1 ≠ 4) (hs : e.has "sense" = false) (hp : e.word? "point" = none ∨ e.has "force" = true) :
    pwrSetAll c p e s = .ok [] (settlePoint (s.onPwr (pwrGiven e))) := by
  have hsense : e.word? "sense" = none := by simp [Env.word?, Env.v_of_has hs]
  have hbody : pwrSetBody c p e s = .ok [] (settlePoint (s.onPwr (pwrGiven e))) := by
    unfold pwrSetBody
    extract_lets point cfg withSet goal cfgV a b d f
    have hforce : (point.isSome && !e.has "force" && decide (s.pwr.goalPoint < goal) && loadFails (pointMHz goal) s) = false := by
      rcases hp with hp | hp
      · have hnone : point = none := congrArg (Option.map _) hp
        rw [hnone]
        rfl
      · rw [hp]
        simp
    have hb : b = a := if_neg (by simp [ht])
    have hf : f = d := by
      show (match e.word? "sense" with | some w => writeSense (w == "remote") d | none => d) = d
      rw [hsense]
    rw [if_neg (by simp [hdom]), if_neg (by simp [ht]), if_neg (by simp [hr]), if_neg (by simp [hdom]), if_neg (by simp [hforce]), if_neg (by simp [hdom])]
    rw [hf]
    show Res.ok [] (settlePoint b) = _
    rw [hb]
    rfl
  unfold pwrSetAll
  rw [hbody]
  exact congrArg (Res.ok []) (settleDue_of_none hd)

end

/-- Settles O55: the thermal level by `thermNext`, the target by `nextTarget`, the cracks by what a run of samples leaves. -/
theorem powerGovernors : Obligations.PowerGovernors := by
  unfold Obligations.PowerGovernors
  refine ⟨fun tj b s h2 => ?thermal, fun s h2 => ?cap, fun lows s h2 hr ha hn hlo hhi => ?sentinel, fun s h2 => ?droopOn, fun s h2 => ?droopOff,
    fun s h2 => ?ack, fun s h2 hf => ?fail, fun s => ?raise, fun volts means s h2 h8 hlc => ?zones, fun volts means s hlc => ?heavy,
    fun c p a e s h => ?clear, fun v s h2 => ⟨fun hr => ?senseNow, fun hr => ?senseNext⟩, fun c p a e s h hdom ht hr hd hs hp => ?set,
    fun c p a e s h hdom ht hr hst => ?rail, fun c p a e s h hw => ?shown⟩
  case thermal =>
    obtain ⟨t, hrun, htj, hth, hcore, hset⟩ := thermalSample_gives h2 tj b
    refine ⟨t, hrun, htj, fun h => ?_, fun h => ?_, fun h h' hne => ?_, fun h h' hlt => ?_, fun ho h h' => ?_, fun ho h h' => ?_, fun ho h => ?_, fun ho h h' => ?_, fun ho h h' hb => ?_, fun ho h hb => ?_⟩
    · have hnext : thermNext s.tjMax tj b s.pwr.therm = .trip := by
        cases hold : s.pwr.therm
        case trip => exact thermNext_trip
        all_goals exact (thermNext_enters (by rw [thermEnter_trip h]; decide)).trans (thermEnter_trip h)
      have htrip := hth.trans hnext
      exact ⟨htrip, hcore htrip⟩
    · rw [hth, h, thermNext_trip]
    · rw [hth]
      cases hold : s.pwr.therm
      case trip => exact absurd hold hne
      case emergency => exact thermNext_emergency h h'
      all_goals exact (thermNext_enters (by rw [thermEnter_emergency h h']; decide)).trans (thermEnter_emergency h h')
    · have hnext : thermNext s.tjMax tj b s.pwr.therm = .emergency :=
        (thermNext_enters (by rw [thermEnter_emergency h h']; exact hlt)).trans (thermEnter_emergency h h')
      rw [hset (by rw [hth, hnext]; decide)]
      unfold thermSet
      rw [hnext]
      refine setTherm_thermal fun he => ?_
      rw [show s.pwr.therm = .emergency from he.symm] at hlt
      exact absurd hlt (by decide)
    · rw [hth, ho]
      exact (thermNext_enters (by rw [thermEnter_warn h h']; decide)).trans (thermEnter_warn h h')
    · rw [hth, ho, thermNext_warn h', if_neg (by omega)]
    · rw [hth, ho, thermNext_warn (by omega), if_pos h]
    · rw [hth]
      exact (thermNext_enters (by rw [thermEnter_derate h h']; exact ho)).trans (thermEnter_derate h h')
    · rw [hth, ho, thermNext_derate (by omega), if_pos ⟨hb, h⟩, if_neg (by omega)]
    · rw [hth, ho, thermNext_derate h, if_neg (by simp [hb])]
  case cap =>
    obtain ⟨htherm, hcap⟩ := capStepped_pwr s
    refine ⟨capStepped s, congrArg Host.Outcome.next (if_pos h2), htherm, fun h => ?_, fun h hlt => ?_, fun h hge => ?_⟩
    · rw [hcap, if_pos h, BitVec.toNat_ofNat]
      omega
    · rw [hcap, if_neg (by omega), if_pos hlt]
      split
      next hz => simp [hz]
      next hz => bv_omega
    · rw [hcap, if_neg (by omega), if_neg (by omega)]
  case sentinel =>
    obtain ⟨t, hrun, hmin, htgt⟩ := sentinelRead_gives h2 hr ha hn lows
    exact ⟨t, hrun, hmin, fun h => htgt.trans (nextTarget_stands h hlo hhi), fun h => htgt.trans (nextTarget_rises h hlo hhi),
      fun h => htgt.trans (nextTarget_falls h hlo hhi)⟩
  case droopOn =>
    refine ⟨_, congrArg Host.Outcome.next (if_pos h2), rfl, ?_⟩
    show (if (true && !s.pwr.half) = true then satInc s.pwr.cDroop else s.pwr.cDroop) = _
    cases s.pwr.half <;> rfl
  case droopOff => exact ⟨_, congrArg Host.Outcome.next (if_pos h2), rfl, rfl⟩
  case ack =>
    obtain ⟨htgt, hacked, hbad, hfail⟩ := voltAcked_pwr s
    exact ⟨voltAcked s, congrArg Host.Outcome.next ((if_pos h2).trans ((if_pos rfl).trans (if_neg Bool.false_ne_true))), htgt, hacked, hbad, hfail⟩
  case fail =>
    by_cases h3 : 3 ≤ s.pwr.avsBad + 1
    · obtain ⟨hcnt, hfail, hcap⟩ := avsFailed_pwr s
      exact ⟨avsFailed s, congrArg Host.Outcome.next ((if_pos h2).trans ((if_neg Bool.false_ne_true).trans ((if_pos h3).trans (if_neg (by simp [hf]))))),
        hcnt, fun hlt => absurd hlt (by omega), fun _ => ⟨hfail, hcap⟩⟩
    · exact ⟨_, congrArg Host.Outcome.next ((if_pos h2).trans ((if_neg Bool.false_ne_true).trans (if_neg h3))), rfl,
        fun _ => ⟨hf, rfl⟩, fun he => absurd he (by omega)⟩
  case raise => exact ⟨_, rfl, rfl, rfl⟩
  case zones =>
    have hin (z : Nat) (hz : z < 8) := zonesRead_same (volts := volts) (means := means) (List.mem_range.mpr hz) List.nodup_range (h8.symm ▸ hz : z < s.pwr.zones.length)
    have hno (z : Nat) (hd : (s.pwr.zones.getD z {}).dropOf (volts.getD z 0) (means.getD z 0) ≤ 250) :
        (s.pwr.zones.getD z {}).cracks (volts.getD z 0) (means.getD z 0) = false := by
      rw [Zone.cracks, decide_eq_false (Int.not_lt.mpr hd)]
      rfl
    have hcrack (z : Nat) (hd : 250 < (s.pwr.zones.getD z {}).dropOf (volts.getD z 0) (means.getD z 0)) (hr : (s.pwr.zones.getD z {}).raised = false)
        (hl : (s.pwr.zones.getD z {}).lightN = 99) : (s.pwr.zones.getD z {}).cracks (volts.getD z 0) (means.getD z 0) = true := by
      rw [Zone.cracks, decide_eq_true hd, hr, hl]
      rfl
    intro drop
    refine ⟨fun hd => ⟨_, exec_zoneSample h2 hlc, (zonesRead_quiet List.nodup_range fun z hz => hno z (hd z (List.mem_range.mp hz))).1, fun z hz => ?_⟩,
      fun z hz hd hk hr => ⟨fun hl => ⟨_, exec_zoneSample h2 hlc, (zonesRead_quiet List.nodup_range fun j hj => ?_).1, ?_⟩,
        fun hl => ⟨_, exec_zoneSample h2 hlc, ?_, ?_⟩⟩⟩
    · rw [hin z hz]
      refine ⟨rfl, if_neg (Int.not_lt.mpr (hd z hz)), ?_⟩
      show (_ || _) = _
      rw [hno z (hd z hz), Bool.or_false]
    · by_cases hj' : j = z
      · subst hj'
        rw [Zone.cracks, decide_eq_false (p := 99 ≤ _) (by omega), Bool.and_false]
        rfl
      · exact hno j (hk j (List.mem_range.mp hj) hj')
    · rw [hin z hz]
      refine ⟨if_pos hd, ?_⟩
      show (_ || _) = false
      rw [hr, Zone.cracks, decide_eq_false (p := 99 ≤ _) (by omega), Bool.and_false]
      rfl
    · rw [hin z hz]
      show (_ || _) = true
      rw [hcrack z hd hr hl, Bool.or_true]
    · rw [zonesRead_cap (List.mem_range.mpr hz) List.nodup_range (hcrack z hd hr hl) fun j hj hne => hno j (hk j (List.mem_range.mp hj) hne)]
      unfold crackCap
      rw [BitVec.toNat_ofNat]
      omega
  case heavy => exact congrArg Host.Outcome.next (if_neg (by simp; omega))
  case clear =>
    refine answersWith_of_body rfl h ⟨_, _, rfl, rfl, settlePoint_capC _, ?_, ?_⟩
    · rw [settlePoint_zones]
      intro z hz
      obtain ⟨x, -, rfl⟩ := List.mem_map.mp hz
      rfl
    · rw [settlePoint_zones]
      exact List.map_map
  case senseNow => exact ⟨_, congrArg Host.Outcome.next ((if_pos h2).trans (if_neg (by simp [hr]))), rfl, rfl⟩
  case senseNext => exact ⟨_, congrArg Host.Outcome.next ((if_pos h2).trans (if_pos hr)), rfl, rfl⟩
  case set =>
    refine answersWith_of_body rfl h ⟨_, _, pwrSetAll_settings hdom ht hr hd hs hp, rfl, ?_⟩
    have hkeep := settlePoint_keeps (s.onPwr (pwrGiven e))
    obtain ⟨hset, hlcen, hvmax, hcapV, hrail, hcfg, hdoms⟩ := pwrGiven_fields (p := s.pwr) hr
    generalize settlePoint (s.onPwr (pwrGiven e)) = t at hkeep
    exact ⟨(congrArg PwrSt.set hkeep : t.pwr.besidePoint.set = _).trans hset, (congrArg PwrSt.lcen hkeep : t.pwr.besidePoint.lcen = _).trans hlcen,
      fun hv => ⟨(congrArg PwrSt.vmax hkeep : t.pwr.besidePoint.vmax = _).trans (hvmax hv),
        (congrArg PwrSt.capV hkeep : t.pwr.besidePoint.capV = _).trans (hcapV hv)⟩,
      (congrArg PwrSt.rail hkeep : t.pwr.besidePoint.rail = _).trans hrail, (congrArg PwrSt.cfg hkeep : t.pwr.besidePoint.cfg = _).trans hcfg,
      (congrArg PwrSt.dom hkeep : t.pwr.besidePoint.dom = _).trans hdoms⟩
  case rail =>
    refine refuses_of_body rfl h ?_
    unfold pwrSetAll pwrSetBody
    extract_lets point cfg withSet goal cfgV a b d f
    rw [if_neg (by simp [hdom]), if_neg (by simp [ht]), if_pos (by simp [hr, hst])]
  case shown =>
    refine answersWith_of_body rfl h ⟨_, _, (if_neg (by simp [hw])), rfl, rfl⟩

end Sys2Proof.Machine
end

section
/-! What the Ledger's jobs, the blocks' power-on and power-off, and a reset leave of the power registers and the system (spec 14, 15). -/

namespace Sys2Proof.Machine

/-- The system's state without what the Desk clears when it is ready. -/
def SysSt.besideReady (y : SysSt) : SysSt := { y with unsignedNote := false, wdogHit := false }

/-- The power registers and the system's state. -/
def State.rails (s : State) := (s.pwr, s.sys.besideReady)

section Parts

variable (s : State)

theorem State.onSys_rails (f : SysSt → SysSt) (h : ∀ y, (f y).besideReady = y.besideReady) : (s.onSys f).rails = s.rails :=
  congrArg (s.pwr, ·) (h s.sys)

@[simp] theorem State.onClk_rails (f : ClkSt → ClkSt) : (s.onClk f).rails = s.rails := rfl
@[simp] theorem State.onTly_rails (f : TlySt → TlySt) : (s.onTly f).rails = s.rails := rfl
@[simp] theorem State.onEvq_rails (f : EvqSt → EvqSt) : (s.onEvq f).rails = s.rails := rfl
@[simp] theorem State.onDesk_rails (f : DeskSt → DeskSt) : (s.onDesk f).rails = s.rails := rfl
@[simp] theorem State.onInn_rails (f : InnSt → InnSt) : (s.onInn f).rails = s.rails := rfl
@[simp] theorem State.onLdr_rails (f : LdrSt → LdrSt) : (s.onLdr f).rails = s.rails := rfl
@[simp] theorem State.onMem_rails (f : MemSt → MemSt) : (s.onMem f).rails = s.rails := rfl
@[simp] theorem State.onCch_rails (f : CchSt → CchSt) : (s.onCch f).rails = s.rails := rfl
@[simp] theorem State.onUsb_rails (f : UsbSt → UsbSt) : (s.onUsb f).rails = s.rails := rfl
@[simp] theorem State.onPor_rails (f : PorSt → PorSt) : (s.onPor f).rails = s.rails := rfl
@[simp] theorem State.onLdg_rails (f : LdgSt → LdgSt) : (s.onLdg f).rails = s.rails := rfl
@[simp] theorem State.onHth_rails (f : HthSt → HthSt) : (s.onHth f).rails = s.rails := rfl
@[simp] theorem State.onSess_rails (n : Nat) (f : Session → Session) : (s.onSess n f).rails = s.rails := rfl
@[simp] theorem State.onGuest_rails (g : Nat) (f : Guest → Guest) : (s.onGuest g f).rails = s.rails := rfl
@[simp] theorem State.onWin_rails (k : Nat) (f : Window → Window) : (s.onWin k f).rails = s.rails := rfl
@[simp] theorem State.onPhys_rails (k : Nat) (f : PhysPage → PhysPage) : (s.onPhys k f).rails = s.rails := rfl
@[simp] theorem State.onRoute_rails (r : Nat) (f : Route → Route) : (s.onRoute r f).rails = s.rails := rfl
@[simp] theorem State.onRing_rails (r : Nat) (f : Ring → Ring) : (s.onRing r f).rails = s.rails := rfl
@[simp] theorem State.onWeave_rails (f : WeaveSt → WeaveSt) : (s.onWeave f).rails = s.rails := rfl
@[simp] theorem State.onAud_rails (f : AudSt → AudSt) : (s.onAud f).rails = s.rails := rfl
@[simp] theorem State.onChan_rails (k : Nat) (f : Chan → Chan) : (s.onChan k f).rails = s.rails := rfl

@[simp] theorem State.onNet_rails (p : Nat) (f : NetSt → NetSt) : (s.onNet p f).rails = s.rails := by simp [State.rails]

@[simp] theorem State.ite_rails {c : Prop} [Decidable c] (a b : State) : (if c then a else b).rails = if c then a.rails else b.rails := by
  split <;> rfl

@[simp] theorem State.forEach_rails {α : Type} {l : List α} {f : α → State → State} (h : ∀ a t, (f a t).rails = t.rails) :
    (s.forEach l f).rails = s.rails := State.forEach_keeps s State.rails l f h

theorem OnlyDesk.rails {t : State} (h : OnlyDesk s t) : t.rails = s.rails := by
  unfold OnlyDesk at h
  rw [h, State.onDesk_rails]

end Parts

theorem rails_of_edgeKept {s t : State} (h : t.edgeKept = s.edgeKept) : t.rails = s.rails := by
  simp only [State.edgeKept, Prod.mk.injEq] at h
  obtain ⟨-, hpwr, -, hsys, -⟩ := h
  simp only [State.rails, hpwr, hsys]

theorem rails_of_powerKept {s t : State} (h : t.powerKept = s.powerKept) : t.rails = s.rails := by
  simp only [State.powerKept, Prod.mk.injEq] at h
  obtain ⟨hpwr, hsys, -⟩ := h
  simp only [State.rails, hpwr, hsys]

theorem pwr_of_rails {s t : State} (h : t.rails = s.rails) : t.pwr = s.pwr := congrArg (·.1) h
theorem sys_of_rails {s t : State} (h : t.rails = s.rails) : t.sys.besideReady = s.sys.besideReady := congrArg (·.2) h

/-! ### The Desk's answers -/

@[simp] theorem notify_rails (obj rest : String) (s : State) : (notify obj rest s).rails = s.rails := (notify_only obj rest s).rails
@[simp] theorem finishSess_rails (n : Nat) (r : Except (Nat × String) (List String)) (s : State) : (finishSess n r s).rails = s.rails :=
  (finishSess_only n r s).rails
@[simp] theorem sessAnswer_rails (n : Nat) (tag : Option Nat) (r : Except (Nat × String) (List String)) (s : State) :
    (sessAnswer n tag r s).rails = s.rails := (sessAnswer_only n tag r s).rails
@[simp] theorem moveEnds_rails (s : State) : (moveEnds s).rails = s.rails := by simp [moveEnds]
@[simp] theorem logEv_rails (src code evseq arg arg2 : Nat) (s : State) : (logEv src code evseq arg arg2 s).rails = s.rails := rfl
@[simp] theorem pushLog_rails (e : LogEntry) (s : State) : (pushLog e s).rails = s.rails := rfl

@[simp] theorem endScript_rails (s : State) : (endScript s).rails = s.rails := rfl

@[simp] theorem takeVaultWords_rails (s : State) : (takeVaultWords s).rails = s.rails := by
  unfold takeVaultWords
  extract_lets heard q a b
  have ha : a.rails = s.rails := State.forEach_rails s fun w t => notify_rails _ _ t
  have hb : b.rails = a.rails := State.forEach_rails a fun w t => logEv_rails _ _ _ _ _ t
  exact hb.trans ha

@[simp] theorem State.clearUnsigned_rails (s : State) : (s.onSys fun y => { y with unsignedNote := false }).rails = s.rails :=
  State.onSys_rails s _ fun _ => rfl

@[simp] theorem State.clearExpiry_rails (s : State) : (s.onSys fun y => { y with wdogHit := false }).rails = s.rails :=
  State.onSys_rails s _ fun _ => rfl

@[simp] theorem deskReady_rails (how : String) (s : State) : (deskReady how s).rails = s.rails := by
  simp only [deskReady, takeVaultWords_rails, State.clearExpiry_rails, State.ite_rails, State.clearUnsigned_rails, notify_rails, ite_self,
    endScript_rails, State.onDesk_rails]

@[simp] theorem scriptEnd_rails (how : String) (s : State) : (scriptEnd how s).rails = s.rails := by simp [scriptEnd]

@[simp] theorem routeReply_rails (r : Nat) (text : String) (err : Option Nat) (s : State) : (routeReply r text err s).rails = s.rails := by
  unfold routeReply
  extract_lets x bytes w a
  split
  · simp [a]
  · split <;> simp

@[simp] theorem answer_rails (o : Origin) (tag : Option Nat) (r : Except (Nat × String) (List String)) (s : State) :
    (answer o tag r s).rails = s.rails := by
  unfold answer
  split
  · simp
  · split
    · rfl
    · split <;> simp
  · simp
  · split <;> simp

@[simp] theorem finishLine_rails (o : Origin) (r : Except (Nat × String) (List String)) (s : State) : (finishLine o r s).rails = s.rails := by
  unfold finishLine
  split <;> simp

/-! ### The Ledger's jobs -/

@[simp] theorem toPool_rails (ks : List Nat) (s : State) : (toPool ks s).rails = s.rails := State.forEach_rails s fun _ _ => rfl

@[simp] theorem writeJournal_rails (j : Journal) (s : State) : (writeJournal j s).rails = s.rails := rfl
@[simp] theorem onNewJournal_rails (f : Journal → Journal) (s : State) : (onNewJournal f s).rails = s.rails := rfl
@[simp] theorem wear_rails (k stage part : Nat) (s : State) : (wear k stage part s).rails = s.rails := by simp [wear]

@[simp] theorem retire_rails (k : Nat) (residue : Bool) (s : State) : (retire k residue s).rails = s.rails := by
  simp only [retire]
  split <;> simp

@[simp] theorem writePhys_rails (k : Nat) (img : List Byte) (part f : Nat) (residue : Bool) (s : State) :
    (writePhys k img part f residue s).1.rails = s.rails := by
  simp only [writePhys]
  split <;> simp

@[simp] theorem placePage_rails (tries l : Nat) (img : List Byte) (fails : List Nat) (residue : Bool) (s : State) :
    (placePage tries l img fails residue s).1.rails = s.rails := by
  induction tries generalizing s fails with
  | zero => rfl
  | succ t ih =>
    rw [placePage_succ]
    split
    · rfl
    · dsimp only
      split <;> simp [ih]

@[simp] theorem placeAll_rails (pages : List (Nat × List Byte)) (pairs : List (Nat × Nat)) (fails : List Nat) (residue : Bool) (s : State) :
    (placeAll pages pairs fails residue s).1.rails = s.rails := by
  induction pages generalizing s fails pairs with
  | nil => rfl
  | cons p r ih =>
    have hp := placePage_rails 2 p.1 p.2 fails residue s
    obtain ⟨l, img⟩ := p
    rw [placeAll_cons]
    generalize placePage 2 l img fails residue s = x at hp
    obtain ⟨t, fs, _ | k⟩ := x
    · exact hp
    · exact (ih _ _ _).trans hp

@[simp] theorem enterPairs_rails (pairs : List (Nat × Nat)) (s : State) : (enterPairs pairs s).1.rails = s.rails :=
  State.forEach_rails s fun _ _ => rfl

@[simp] theorem releaseOld_rails (olds : List (Nat × Nat)) (zeroAll : Bool) (fails : List Nat) (residue : Bool) (s : State) :
    (releaseOld olds zeroAll fails residue s).1.rails = s.rails := by
  induction olds generalizing s fails with
  | nil => rfl
  | cons o r ih =>
    rw [releaseOld]
    split
    · simp only [ih]
      split <;> simp
    · simp [ih]

theorem commitBatch_rails {atWord : State → State} (ha : ∀ t, (atWord t).rails = t.rails) (pages : List (Nat × List Byte)) (zeroAll : Bool)
    (fails : List Nat) (upto : CommitEnd) (residue : Bool) (s : State) :
    (commitBatch pages zeroAll atWord fails upto residue s).1.rails = s.rails := by
  have hp := placeAll_rails pages [] fails residue s
  unfold commitBatch
  split
  next t fs pairs heq =>
    rw [heq] at hp
    simpa using hp
  next t fs pairs heq =>
    rw [heq] at hp
    split
    · exact hp
    dsimp only
    split
    · exact hp
    split
    · exact (ha _).trans hp
    · simpa [ha] using hp

theorem commitMany_rails {atWord : State → State} (ha : ∀ t, (atWord t).rails = t.rails) (fuel : Nat) (pages : List (Nat × List Byte))
    (zeroAll : Bool) (n : Nat) (fails : List Nat) (upto : CommitEnd) (residue : Bool) (s : State) :
    (commitMany fuel pages zeroAll atWord n fails upto residue s).1.rails = s.rails := by
  induction fuel generalizing s pages n fails with
  | zero => rfl
  | succ f ih =>
    have hword (t : State) : ((if (pages.drop 16).isEmpty then atWord else id) t).rails = t.rails := by
      split
      · exact ha t
      · rfl
    have hb := commitBatch_rails hword (pages.take 16) zeroAll fails upto residue s
    rw [commitMany]
    split
    next heq =>
      rw [heq] at hb
      split
      · exact hb
      · exact (ih _ _ _ _).trans hb
    next => exact hb

@[simp] theorem applyUpd_rails (u : LUpd) (s : State) : (applyUpd u s).rails = s.rails := by
  unfold applyUpd
  split <;> rfl

@[simp] theorem runJob_rails (j : LJob) (fails : List Nat) (upto : CommitEnd) (residue : Bool) (s : State) :
    (runJob j fails upto residue s).1.rails = s.rails := by
  unfold runJob
  split
  · rfl
  · exact commitMany_rails (applyUpd_rails j.upd) _ _ _ _ _ _ _ s

@[simp] theorem answerJob_rails (j : LJob) (r : Commit) (s : State) : (answerJob j r s).rails = s.rails := by
  unfold answerJob
  split <;> simp [endEnrol]

@[simp] theorem runFirst_rails (fails : List Nat) (upto : CommitEnd) (residue : Bool) (s : State) :
    (runFirst fails upto residue s).1.rails = s.rails := by
  unfold runFirst
  split
  · rfl
  next j r _ =>
    have hj : (runJob j fails upto residue (s.onLdg fun d => { d with queue := r })).1.rails = s.rails := runJob_rails j fails upto residue _
    dsimp only
    split
    next heq =>
      rw [heq] at hj
      exact hj
    next heq =>
      rw [heq] at hj
      simpa using hj

@[simp] theorem runAllJobs_rails (fuel : Nat) (s : State) : (runAllJobs fuel s).rails = s.rails := by
  induction fuel generalizing s with
  | zero => rfl
  | succ f ih =>
    rw [runAllJobs]
    split
    · rfl
    · exact (ih _).trans (runFirst_rails _ _ _ s)

@[simp] theorem commitLog_rails (fails : List Nat) (s : State) : (commitLog fails s).rails = s.rails := by simp [commitLog]

@[simp] theorem recoverLedger_rails (s : State) : (recoverLedger s).rails = s.rails := by
  unfold recoverLedger
  split <;> simp

end Sys2Proof.Machine
end

section
/-! A domain switched on or off: PWR_DOM, and what the power registers and the system keep (spec 14). -/

namespace Sys2Proof.Machine

section

variable (s : State)

/-! ### Blocks on -/

@[simp] theorem drainRoutes_rails (cut : Bool) : (drainRoutes cut s).rails = s.rails := rails_of_edgeKept (drainRoutes_edgeKept cut s)
@[simp] theorem settleAud_rails : (settleAud s).rails = s.rails := rfl
@[simp] theorem settlePor_rails : (settlePor s).rails = s.rails := rfl
@[simp] theorem pd3Registers_rails : (pd3Registers s).rails = s.rails := rfl
@[simp] theorem enqueue_rails (e : Event) (cut : Bool) : (enqueue e cut s).rails = s.rails := rails_of_edgeKept (enqueue_edgeKept e cut s)

@[simp] theorem repostReady_rails (chs : List Nat) : (repostReady chs s).rails = s.rails :=
  State.forEach_rails s fun ch t => by simp [postInner]

@[simp] theorem eraStart_rails : (eraStart s).rails = s.rails := by
  unfold eraStart
  extract_lets n chs a b c d e f g h
  have hd : d.rails = s.rails := drainRoutes_rails _ false
  have hg : g.rails = d.rails := rfl
  have hh : h.rails = g.rails := by
    unfold h
    split <;> rfl
  rw [notify_rails, repostReady_rails, hh, hg, hd]

@[simp] theorem pd1On_rails : (pd1On s).rails = s.rails := recoverLedger_rails _

@[simp] theorem pd3On_rails : (pd3On s).rails = s.rails := by
  unfold pd3On
  extract_lets a b
  rw [settleAud_rails, settlePor_rails, State.onPor_rails, eraStart_rails, pd3Registers_rails]
  rfl

@[simp] theorem hearthOff_rails : (hearthOff s).rails = s.rails := rails_of_powerKept (hearthOff_powerKept s)
@[simp] theorem hearthOn_rails : (hearthOn s).rails = s.rails := (State.onHth_rails _ _).trans (hearthOff_rails s)
@[simp] theorem pd5On_rails : (pd5On s).rails = s.rails := by simp [pd5On, usbAttach]
@[simp] theorem netOn_rails (p : Nat) : (netOn p s).rails = s.rails := by simp [netOn]

@[simp] theorem pd8On_rails : (pd8On s).rails = s.rails :=
  State.forEach_rails { s with cch := {} } fun _ _ => rfl

@[simp] theorem pd9On_rails : (pd9On s).rails = s.rails := rfl
@[simp] theorem pd10On_rails : (pd10On s).rails = s.rails := rfl
@[simp] theorem pd11On_rails : (pd11On s).rails = s.rails := State.forEach_rails s fun _ _ => rfl

@[simp] theorem clocksOn_rails (d : Nat) : (clocksOn d s).rails = s.rails := State.forEach_rails s fun _ t => by
  split <;> rfl

/-- What a domain's blocks do when it comes on. -/
def domOnAfter (d : Nat) (s : State) : State :=
  match d with
  | 1 => pd1On s
  | 2 => pd2On s
  | 3 => pd3On s
  | 4 => hearthOn s
  | 5 => pd5On s
  | 6 => netOn 0 s
  | 7 => netOn 1 s
  | 8 => pd8On s
  | 9 => pd9On s
  | 10 => pd10On s
  | 11 => pd11On s
  | _ => s

theorem domOn_eq (d : Nat) : domOn d s = if s.on d then s else domOnAfter d (clocksOn d (setDom d true s)) := rfl

theorem domOnAfter_rails {d : Nat} (h : d ≠ 2) : (domOnAfter d s).rails = s.rails := by
  unfold domOnAfter
  split
  case h_2 => exact absurd rfl h
  all_goals simp

/-! ### PWR_DOM -/

theorem setBit_of_eq {w : Nat} {v : BitVec w} {k : Nat} {b : Bool} (h : v.getLsbD k = b) : setBit v k b = v := by
  refine BitVec.eq_of_getLsbD_eq fun i hi => ?_
  rw [getLsbD_setBit]
  split
  next hk => rw [hk.1, h]
  next hk => rfl

theorem domOn_pwr (d : Nat) : (domOn d s).pwr = { s.pwr with dom := setBit s.pwr.dom d true } := by
  rw [domOn_eq]
  split
  next h =>
    rw [setBit_of_eq h]
  next h =>
    have hset : (clocksOn d (setDom d true s)).pwr = { s.pwr with dom := setBit s.pwr.dom d true } := pwr_of_rails (clocksOn_rails _ d)
    by_cases h2 : d = 2
    · subst h2
      exact hset
    · exact (pwr_of_rails (domOnAfter_rails _ h2)).trans hset

theorem domOff_pwr {d : Nat} (h2 : d ≠ 2) : (domOff d s).pwr = { s.pwr with dom := setBit s.pwr.dom d false } := by
  rw [domOff_eq]
  split
  next h =>
    rw [setBit_of_eq (by simpa [State.on] using h)]
  next h =>
    have hbefore : (domOffBefore d s).pwr = s.pwr := pwr_of_rails (rails_of_powerKept (domOffBefore_powerKept d s))
    have hset : (clocksOff d (setDom d false (domOffBefore d s))).pwr = { s.pwr with dom := setBit s.pwr.dom d false } := by
      refine (pwr_of_rails (rails_of_powerKept (clocksOff_powerKept d _))).trans ?_
      show { (domOffBefore d s).pwr with dom := setBit (domOffBefore d s).pwr.dom d false } = _
      rw [hbefore]
    exact (pwr_of_rails (rails_of_powerKept (domOffAfter_powerKept h2 _))).trans hset

theorem domOn_sys {d : Nat} (h2 : d ≠ 2) : (domOn d s).sys.besideReady = s.sys.besideReady := by
  rw [domOn_eq]
  split
  · rfl
  · exact (sys_of_rails (domOnAfter_rails _ h2)).trans ((sys_of_rails (clocksOn_rails (setDom d true s) d)).trans rfl)

theorem domOff_sys {d : Nat} (h2 : d ≠ 2) : (domOff d s).sys.besideReady = s.sys.besideReady := by
  rw [domOff_eq]
  split
  · rfl
  · exact (sys_of_rails (rails_of_powerKept (domOffAfter_powerKept h2 _))).trans
      ((sys_of_rails (rails_of_powerKept (clocksOff_powerKept d _))).trans (sys_of_rails (rails_of_powerKept (domOffBefore_powerKept d s)) : (domOffBefore d s).sys.besideReady = _))

end

/-! ### Every domain cut -/

/-- Where the part stands between house states, and the strap it was reset with: what even PD2's power-off keeps. -/
def State.course (s : State) := (s.pwr.house, s.pwr.goal, s.pwr.vaon, s.pwr.byFail, s.pwr.woken, s.pwr.resetV, s.sys.strap)

theorem course_of_rails {s t : State} (h : t.rails = s.rails) : t.course = s.course := by
  have hstrap : t.sys.strap = s.sys.strap := (congrArg SysSt.strap (sys_of_rails h) : t.sys.besideReady.strap = s.sys.besideReady.strap)
  unfold State.course
  rw [pwr_of_rails h, hstrap]

section
variable (s : State)

theorem pd2Off_dom : (pd2Off s).pwr.dom = s.pwr.dom ∧ (pd2Off s).course = s.course := by
  unfold pd2Off
  extract_lets a b c
  have ha : a.rails = s.rails := by
    unfold a
    split <;> rfl
  exact ⟨(congrArg PwrSt.dom (pwr_of_rails ha) : a.pwr.dom = s.pwr.dom), (course_of_rails ha : a.course = s.course)⟩

theorem domOff_dom (d : Nat) : (domOff d s).pwr.dom = setBit s.pwr.dom d false ∧ (domOff d s).course = s.course := by
  by_cases h2 : d = 2
  · subst h2
    rw [domOff_eq]
    split
    next h => exact ⟨(setBit_of_eq (by simpa [State.on] using h)).symm, rfl⟩
    next h =>
      obtain ⟨hdom, hc⟩ := pd2Off_dom (clocksOff 2 (setDom 2 false s))
      exact ⟨hdom, hc⟩
  · have hp := domOff_pwr s h2
    refine ⟨congrArg PwrSt.dom hp, ?_⟩
    have hstrap : (domOff d s).sys.strap = s.sys.strap :=
      (congrArg SysSt.strap (domOff_sys s h2) : (domOff d s).sys.besideReady.strap = s.sys.besideReady.strap)
    unfold State.course
    rw [hp, hstrap]

theorem domOff_on (d k : Nat) : (domOff d s).on k = (s.on k && k != d) := by
  unfold State.on
  rw [(domOff_dom s d).1, getLsbD_setBit]
  by_cases hk : k = d
  · subst hk
    by_cases h16 : k < 16
    · simp [h16]
    · simp [h16, BitVec.getLsbD_of_ge s.pwr.dom k (by omega)]
  · simp [hk]

theorem domOn_on {d k : Nat} (hk : k < 16) : (domOn d s).on k = (s.on k || k == d) := by
  unfold State.on
  rw [domOn_pwr, getLsbD_setBit]
  by_cases hd : k = d
  · simp [hd, hd ▸ hk]
  · simp [hd]

theorem forEach_domOff_on (l : List Nat) (k : Nat) : (s.forEach l domOff).on k = (s.on k && !l.contains k) := by
  induction l generalizing s with
  | nil => simp
  | cons d l ih =>
    rw [State.forEach_cons, ih, domOff_on, List.contains_cons, Bool.and_assoc]
    rw [bne, Bool.not_or]

theorem forEach_domOff_course (l : List Nat) : (s.forEach l domOff).course = s.course :=
  State.forEach_keeps s State.course l domOff fun d t => (domOff_dom t d).2

/-- Every domain but PD0 is off, and the part stands where it stood. -/
theorem cutAll_gives : (cutAll s).course = s.course ∧ ∀ d, 1 ≤ d → d < 16 → (cutAll s).on d = false := by
  refine ⟨forEach_domOff_course _ offOrder, fun d h1 h16 => (forEach_domOff_on _ offOrder d).trans ?_⟩
  have hin : offOrder.contains d = true := by
    revert d
    decide
  rw [hin]
  simp

theorem pinCut_gives : (pinCut s).pwr.house = .vault ∧ (pinCut s).pwr.goal = none ∧ (pinCut s).sys.strap = s.sys.strap ∧
    ∀ d, 1 ≤ d → d < 16 → (pinCut s).on d = false := by
  obtain ⟨hc, hoff⟩ := cutAll_gives (dropEnrol (hearthOff (entryCheck s)))
  have hbefore : (dropEnrol (hearthOff (entryCheck s))).rails = s.rails := by
    refine rails_of_powerKept ?_
    rw [dropEnrol_powerKept, hearthOff_powerKept, entryCheck_powerKept]
  have hstrap : (cutAll (dropEnrol (hearthOff (entryCheck s)))).sys.strap = s.sys.strap :=
    congrArg (·.2.2.2.2.2.2) (hc.trans (course_of_rails hbefore))
  exact ⟨rfl, rfl, hstrap, hoff⟩

theorem pinReset_gives (b : Option (BitVec 3)) (soft wdog2 : Bool) :
    (pinReset b soft wdog2 s).pwr.house = .vault ∧ (pinReset b soft wdog2 s).pwr.goal = some .hush ∧
    (pinReset b soft wdog2 s).sys.rPin = true ∧ (pinReset b soft wdog2 s).sys.rCold = false ∧ (pinReset b soft wdog2 s).sys.rSoft = soft ∧
    (pinReset b soft wdog2 s).sys.rWdog2 = wdog2 ∧ (pinReset b soft wdog2 s).sys.testmode = false ∧
    (pinReset b soft wdog2 s).sys.strap = b.getD s.sys.strap ∧ ∀ d, 1 ≤ d → d < 16 → (pinReset b soft wdog2 s).on d = false := by
  obtain ⟨hhouse, -, hstrap, hoff⟩ := pinCut_gives s
  unfold pinReset
  generalize pinCut s = t at hhouse hstrap hoff
  exact ⟨hhouse, rfl, rfl, rfl, rfl, rfl, rfl, congrArg b.getD hstrap, hoff⟩

end

end Sys2Proof.Machine
end

section
/-! Boot, the watchdog, SYS_RESET, and clocks lost and found (O56). -/

namespace Sys2Proof.Machine

section
variable {s : State}

/-! ### A patch -/

theorem applyPatch_signed {v : Nat} {ok : Bool} (h : sigVerifies 0 ok s = true) :
    applyPatch v ok s = s.onSys fun y => { y with patch := BitVec.ofNat 16 v, unsigned := false, ram := some (v, ok) } := if_pos h

theorem applyPatch_refused {v : Nat} {ok : Bool} (h : sigVerifies 0 ok s = false) (he : s.sys.sigenf = true) :
    applyPatch v ok s = s.onSys fun y => { y with patch := 0, unsigned := false, fallback := true, ram := none } := by
  rw [applyPatch, if_neg (by simp [h]), if_pos he]

theorem applyPatch_unsigned {v : Nat} {ok : Bool} (h : sigVerifies 0 ok s = false) (he : s.sys.sigenf = false) :
    applyPatch v ok s = logEv 0 0x0202 0 v 0 (s.onSys fun y => { y with
      patch := BitVec.ofNat 16 v, unsigned := true, unsignedNote := true, ram := some (v, ok) }) := by
  rw [applyPatch, if_neg (by simp [h]), if_neg (by simp [he])]

/-- The system's state but for what a patch sets. -/
def SysSt.besidePatch (y : SysSt) : SysSt := { y with patch := 0, unsigned := false, fallback := false, ram := none, unsignedNote := false, wdogHit := false }

theorem applyPatch_keeps (v : Nat) (ok : Bool) (s : State) : (applyPatch v ok s).sys.besidePatch = s.sys.besidePatch ∧
    (applyPatch v ok s).pwr = s.pwr ∧ (applyPatch v ok s).desk = s.desk := by
  unfold applyPatch
  split
  · exact ⟨rfl, rfl, rfl⟩
  split
  · exact ⟨rfl, rfl, rfl⟩
  · exact ⟨rfl, rfl, rfl⟩

theorem sigVerifies_congr {t : State} {ok : Bool} (hp : t.sys.keyprog = s.sys.keyprog) (hr : t.sys.keyrev = s.sys.keyrev) :
    sigVerifies 0 ok t = sigVerifies 0 ok s := by
  rw [sigVerifies, sigVerifies, hp, hr]

/-! ### Boot -/

/-- The part as BOOT starts, before it reads its source. -/
def bootStarted (s : State) : State :=
  (setClk .xtal32 true (setClk .desk true (setClk .refclk true s))).onSys fun y => { y with
    source := if y.strap.toNat ≤ 4 then y.strap else 4, badstrap := decide (5 ≤ y.strap.toNat), fallback := false, unsigned := false
    patch := 0, ram := none, dir := false, store := false, dirOf := none, flash := none, fmode := 0, ffreq := 0, fsize := 0 }

theorem exec_boot (f : Flash) (h2 : s.on 2 = true) (hb : s.sys.booted = false) (hw : s.sys.waiting = false) :
    exec (.boot f) s = .next (boot f s) := congrArg Host.Outcome.next (if_pos (by simp [h2, hb, hw]))

/-- The part once its strap has named USB, and NET, as the source. -/
def usbWaits (s : State) : State := (domOn 5 (bootStarted s)).onSys fun y => { y with waiting := true }
def netWaits (s : State) : State :=
  ((domOn 6 (bootStarted s)).onNet 0 fun n => { n with
    en := true
    speed := Config.ident 5 (identBytes (bootStarted s)) % 2 == 1
    fec := BitVec.ofNat 2 (Config.ident 6 (identBytes (bootStarted s)) % 3) }).onSys fun y => { y with waiting := true }

theorem boot_rom (f : Flash) (h : 4 ≤ s.sys.strap.toNat) : boot f s = (bootStarted s).onSys fun y => { y with booted := true } := by
  unfold boot
  extract_lets a b id
  have hb : 4 ≤ b.sys.strap.toNat := h
  split
  case h_5 => rfl
  all_goals omega

theorem boot_octal (f : Flash) (h : s.sys.strap = 0) : boot f s = (bootFlash true f (bootStarted s)).onSys fun y => { y with booted := true } := by
  unfold boot
  extract_lets a b id
  have hb : b.sys.strap.toNat = 0 := congrArg BitVec.toNat h
  rw [hb]
  rfl

theorem boot_usb (f : Flash) (h : s.sys.strap = 2) : boot f s = usbWaits s := by
  unfold boot
  extract_lets a b id
  have hb : b.sys.strap.toNat = 2 := congrArg BitVec.toNat h
  rw [hb]
  rfl

theorem boot_net (f : Flash) (h : s.sys.strap = 3) : boot f s = netWaits s := by
  unfold boot
  extract_lets a b id
  have hb : b.sys.strap.toNat = 3 := congrArg BitVec.toNat h
  rw [hb]
  rfl

theorem usbWaits_gives (hb : s.sys.booted = false) : (usbWaits s).sys.waiting = true ∧ (usbWaits s).sys.booted = false ∧
    (usbWaits s).on 5 = true ∧ (usbWaits s).sys.source = if s.sys.strap.toNat ≤ 4 then s.sys.strap else 4 := by
  have hsys := domOn_sys (bootStarted s) (d := 5) (by decide)
  have hon := domOn_on (bootStarted s) (d := 5) (k := 5) (by decide)
  unfold usbWaits
  generalize domOn 5 (bootStarted s) = t at hsys hon
  exact ⟨rfl, (congrArg SysSt.booted hsys : t.sys.besideReady.booted = _).trans hb, hon.trans (by simp),
    (congrArg SysSt.source hsys : t.sys.besideReady.source = _)⟩

theorem netWaits_gives (hb : s.sys.booted = false) : (netWaits s).sys.waiting = true ∧ (netWaits s).sys.booted = false ∧
    (netWaits s).on 6 = true ∧ (netWaits s).neta.en = true := by
  have hsys := domOn_sys (bootStarted s) (d := 6) (by decide)
  have hon := domOn_on (bootStarted s) (d := 6) (k := 6) (by decide)
  unfold netWaits
  generalize domOn 6 (bootStarted s) = t at hsys hon
  exact ⟨rfl, (congrArg SysSt.booted hsys : t.sys.besideReady.booted = _).trans hb, hon.trans (by simp), rfl⟩

/-! ### Boot from flash -/

theorem present_of_chooseDir {f : Flash} {b : Bool} (h : chooseDir f = some b) : f.present = true := by
  cases hp : f.present with
  | true => rfl
  | false =>
    unfold chooseDir at h
    simp [hp] at h

/-- The entries of the directory copy in use that the part heeds. -/
def heeded (f : Flash) (b : Bool) : List DirEntry := (dirEntries f (dirBase b)).filter (entryOk f)

/-- The part with a directory copy of its flash taken into use. -/
def flashUsed (octal : Bool) (f : Flash) (b : Bool) (s : State) : State :=
  useDir f (some b) (s.onSys fun y => { y with
    flash := some f, fmode := (flashMode octal f).1, ffreq := (flashMode octal f).2, fsize := BitVec.ofNat 8 f.size })

theorem bootFlash_none {f : Flash} (octal : Bool) (h : chooseDir f = none) :
    (bootFlash octal f s).sys.source = 4 ∧ (bootFlash octal f s).sys.fallback = true ∧ (bootFlash octal f s).sys.store = false := by
  unfold bootFlash
  extract_lets m a
  rw [h]
  exact ⟨rfl, rfl, rfl⟩

/-- What follows the directory: the patch of its first PATCH entry, or none. -/
def patchTaken (f : Flash) (e : Option DirEntry) (s : State) : State :=
  match e with
  | none => s
  | some e =>
    match tget f.patches e.offset with
    | some (v, ok) => applyPatch v ok s
    | none => applyPatch (flashLe f (e.offset + 4) 2) false s

theorem bootFlash_some {f : Flash} {b : Bool} (octal : Bool) (h : chooseDir f = some b) :
    bootFlash octal f s = patchTaken f ((heeded f b).find? fun e => e.type == 1) (flashUsed octal f b s) := by
  unfold bootFlash
  extract_lets m a
  have ha : a = s.onSys fun y => { y with flash := some f, fmode := m.1, ffreq := m.2, fsize := BitVec.ofNat 8 f.size } :=
    if_pos (present_of_chooseDir h)
  rw [h, ha]
  rfl

theorem patchTaken_keeps (f : Flash) (e : Option DirEntry) (s : State) : (patchTaken f e s).sys.besidePatch = s.sys.besidePatch := by
  unfold patchTaken
  split
  · rfl
  split
  · exact (applyPatch_keeps _ _ s).1
  · exact (applyPatch_keeps _ _ s).1

/-- The part once it has booted from a directory copy of its flash. -/
def flashBooted (f : Flash) (e : Option DirEntry) (b : Bool) (s : State) : State :=
  (patchTaken f e (flashUsed true f b (bootStarted s))).onSys fun y => { y with booted := true }

theorem flashBooted_sys (f : Flash) (e : Option DirEntry) (b : Bool) (h : s.sys.strap = 0) :
    (flashBooted f e b s).sys.source = 0 ∧ (flashBooted f e b s).sys.store = true ∧ (flashBooted f e b s).sys.dir = b ∧
    (flashBooted f e b s).sys.flash = some f ∧ (flashBooted f e b s).sys.dirOf = some (flashLe f (dirBase b + 8) 4, heeded f b) := by
  have hkeep := patchTaken_keeps f e (flashUsed true f b (bootStarted s))
  unfold flashBooted
  generalize patchTaken f e (flashUsed true f b (bootStarted s)) = t at hkeep
  refine ⟨(congrArg SysSt.source hkeep : t.sys.besidePatch.source = _).trans ?_, (congrArg SysSt.store hkeep : t.sys.besidePatch.store = _),
    (congrArg SysSt.dir hkeep : t.sys.besidePatch.dir = _), (congrArg SysSt.flash hkeep : t.sys.besidePatch.flash = _),
    (congrArg SysSt.dirOf hkeep : t.sys.besidePatch.dirOf = _)⟩
  show (if s.sys.strap.toNat ≤ 4 then s.sys.strap else 4) = 0
  rw [h]
  rfl

theorem flashBooted_patch {f : Flash} {e : DirEntry} {v : Nat} {ok : Bool} (b : Bool) (ht : tget f.patches e.offset = some (v, ok)) :
    flashBooted f (some e) b s = (applyPatch v ok (flashUsed true f b (bootStarted s))).onSys fun y => { y with booted := true } := by
  unfold flashBooted patchTaken
  dsimp only
  rw [ht]

/-! ### The boot wait -/

/-- The part with the domains of a boot wait off again. -/
def waitOver (s : State) : State := if s.pwr.house == .hush then domOff 5 (domOff 6 s) else s

theorem waitOver_sys (s : State) : (waitOver s).sys.besideReady = s.sys.besideReady := by
  unfold waitOver
  split
  · exact (domOff_sys (domOff 6 s) (by decide)).trans (domOff_sys s (by decide))
  · rfl

theorem waitOver_off (h : s.pwr.house = .hush) : (waitOver s).on 5 = false ∧ (waitOver s).on 6 = false := by
  unfold waitOver
  rw [if_pos (by rw [h]; decide)]
  constructor
  · rw [domOff_on]
    simp
  · rw [domOff_on, domOff_on]
    simp

/-! ### A warm reset -/

/-- A warm reset leaves the power registers, starts the Desk anew, and counts. -/
theorem warmReset_gives (h : s.desk.deferred = []) : (warmReset s).pwr = s.pwr ∧ (warmReset s).desk = { script := .idle } ∧
    (warmReset s).sys.warms = satInc s.sys.warms := by
  have hrun := runFirst_rails [] .complete false s
  unfold warmReset
  extract_lets a b c d e
  have ha : a = s := by
    unfold a
    rw [h]
    rfl
  have hb : b.rails = s.rails := by
    unfold b
    rw [ha]
    exact hrun
  have hd : d.pwr = s.pwr ∧ d.sys.warms = s.sys.warms :=
    ⟨pwr_of_rails hb, (congrArg SysSt.warms (sys_of_rails hb) : b.sys.besideReady.warms = _)⟩
  have he : e.pwr = d.pwr ∧ e.sys.warms = d.sys.warms ∧ e.desk = d.desk := by
    unfold e
    split
    next v ok hram =>
      obtain ⟨hsys, hpwr, hdesk⟩ := applyPatch_keeps v ok d
      exact ⟨hpwr, (congrArg SysSt.warms hsys : (applyPatch v ok d).sys.besidePatch.warms = _), hdesk⟩
    · exact ⟨rfl, rfl, rfl⟩
  obtain ⟨hep, hew, hed⟩ := he
  exact ⟨hep.trans hd.1, hed, congrArg satInc (hew.trans hd.2)⟩

/-! ### Clocks -/

theorem setClk_fault_lost {k : Clk} {s : State} (h : s.clk.stat.getLsbD (clkBit k) = true) :
    (setClk k false s).clk.fault.getLsbD (clkBit k) = true := by
  have hk : clkBit k < 12 := by cases k <;> decide
  simp only [setClk, State.onClk_clk, h]
  rw [if_pos (by decide), getLsbD_setBit, if_pos ⟨rfl, by omega⟩]

theorem setClk_stat_lost (k : Clk) (s : State) : (setClk k false s).clk.stat.getLsbD (clkBit k) = false := by
  rw [setClk_stat, getLsbD_setBit]
  split
  · rfl
  next h => exact BitVec.getLsbD_of_ge _ _ (by omega)

theorem setClk_stat_other {k j : Clk} (h : clkBit j ≠ clkBit k) (on : Bool) (s : State) :
    (setClk k on s).clk.stat.getLsbD (clkBit j) = s.clk.stat.getLsbD (clkBit j) := by
  rw [setClk_stat, getLsbD_setBit, if_neg fun hk => h hk.1]

theorem clkBit_ne {k j : Clk} (h : j ≠ k) : clkBit j ≠ clkBit k := by
  revert h
  cases k <;> cases j <;> decide

theorem takeLeft_clk (s : State) : (takeLeft s).clk = s.clk := by
  unfold takeLeft
  split
  · exact congrArg (·.1) (applyTally_edgeKept _ s)
  · rfl

/-- A clock's loss, with NETREF's that of the NET PLL. -/
def clockLost (k : Clk) (s : State) : State :=
  setClk k false (if k = .netref then setClk .net false (s.onClk fun c => { c with netLost := true }) else s)

theorem exec_clockLoss {k : Clk} (h2 : s.on 2 = true) (hr : k ≠ .refclk) (hd : k ≠ .deskrc) :
    exec (.clockLoss k) s = .next (takeLeft (clockLost k s)) :=
  (if_neg hr).trans (congrArg Host.Outcome.next (if_pos (by simp [h2, hd])))

theorem clockLost_clk (k : Clk) (s : State) : (clockLost k s).clk.stat.getLsbD (clkBit k) = false ∧
    (s.clk.stat.getLsbD (clkBit k) = true → (clockLost k s).clk.fault.getLsbD (clkBit k) = true) := by
  refine ⟨setClk_stat_lost k _, fun h => setClk_fault_lost ?_⟩
  split
  next hk =>
    subst hk
    exact (setClk_stat_other (by decide) false _).trans h
  next hk => exact h

theorem clockLost_keeps {k : Clk} (hr : roundsRun s = true) (hk : k ≠ .core) : (takeLeft (clockLost k s)).pwr = s.pwr ∧
    (takeLeft (clockLost k s)).desk = s.desk := by
  have hcore : (clockLost k s).clk.stat.getLsbD 2 = s.clk.stat.getLsbD 2 := by
    refine (setClk_stat_other (j := .core) (clkBit_ne (Ne.symm hk)) false _).trans ?_
    split
    · exact setClk_stat_other (j := .core) (by decide) false _
    · rfl
  have hpwr : (clockLost k s).pwr = s.pwr := by
    unfold clockLost
    split <;> rfl
  have hdesk : (clockLost k s).desk = s.desk := by
    unfold clockLost
    split <;> rfl
  have hrun : roundsRun (clockLost k s) = true := by
    rw [← hr, roundsRun, roundsRun, State.on, State.on, hcore, hpwr]
  have hkeep : takeLeft (clockLost k s) = clockLost k s := if_neg (by simp [hrun])
  rw [hkeep]
  exact ⟨hpwr, hdesk⟩

end

/-- Settles O56: the boot by its sources' equations, the resets by `warmReset_gives` and `pinReset_gives`. -/
theorem bootAndResets : Obligations.BootAndResets := by
  unfold Obligations.BootAndResets
  refine ⟨fun f s h2 hb hw => ⟨fun h => ?rom, fun h hc => ?noCopy, fun b h hc => ?copy, fun h => ?usb, fun h => ?net⟩,
    fun f s hb => congrArg Host.Outcome.next (if_neg (by simp [hb])), fun s hw hh => ?timeout,
    fun s hw => congrArg Host.Outcome.next (if_neg (by simp [hw])), fun v ok s hw hs hv => ?patch,
    fun s h2 hen => ⟨fun hhit hd => ?first, fun hhit hr => ?second⟩, fun s hen => congrArg Host.Outcome.next (if_neg (by simp [hen])),
    fun v s h2 => ⟨fun hkey => ⟨?noKey, ?noKey'⟩, fun hkey hw hf hd => ?warm, fun hkey hf => ?full⟩,
    fun c p a e s k hc => ⟨fun h => ?lineWarm, fun h => ?lineFull⟩, fun s h2 => ⟨fun k hr hd => ?loss, fun h3 => ?back⟩⟩
  case rom =>
    refine ⟨_, (exec_boot f h2 hb hw).trans (congrArg Host.Outcome.next (boot_rom f h)), rfl, ?_, rfl, rfl, rfl, rfl⟩
    show (if s.sys.strap.toNat ≤ 4 then s.sys.strap else 4) = 4
    split
    next h4 => exact BitVec.eq_of_toNat_eq (by simp; omega)
    · rfl
  case noCopy =>
    obtain ⟨hsrc, hfall, hstore⟩ := bootFlash_none (s := bootStarted s) true hc
    exact ⟨_, (exec_boot f h2 hb hw).trans (congrArg Host.Outcome.next (boot_octal f h)), rfl, hsrc, hfall, hstore⟩
  case copy =>
    have hflash := bootFlash_some (s := bootStarted s) true hc
    have hboot : exec (.boot f) s = .next (flashBooted f ((heeded f b).find? fun e => e.type == 1) b s) :=
      (exec_boot f h2 hb hw).trans (congrArg Host.Outcome.next ((boot_octal f h).trans
        (congrArg (State.onSys · fun y => { y with booted := true }) hflash)))
    obtain ⟨hsrc, hstore, hdir, hfl, hof⟩ := flashBooted_sys f ((heeded f b).find? fun e => e.type == 1) b h
    refine ⟨_, hboot, rfl, hsrc, hstore, hdir, hfl, hof, fun hp => ?_, fun e v ok hp ht => ⟨fun hv => ?_, fun hv he => ?_, fun hv he => ?_⟩⟩
    · rw [show (heeded f b).find? (fun e => e.type == 1) = none from hp]
      exact ⟨rfl, rfl⟩
    · rw [show (heeded f b).find? (fun e => e.type == 1) = some e from hp, flashBooted_patch b ht, applyPatch_signed (s := flashUsed true f b (bootStarted s)) hv]
      exact ⟨rfl, rfl⟩
    · rw [show (heeded f b).find? (fun e => e.type == 1) = some e from hp, flashBooted_patch b ht,
        applyPatch_unsigned (s := flashUsed true f b (bootStarted s)) hv he]
      exact ⟨rfl, rfl⟩
    · rw [show (heeded f b).find? (fun e => e.type == 1) = some e from hp, flashBooted_patch b ht,
        applyPatch_refused (s := flashUsed true f b (bootStarted s)) hv he]
      exact ⟨rfl, rfl⟩
  case usb =>
    obtain ⟨hwait, hboot, hon, hsrc⟩ := usbWaits_gives hb
    refine ⟨_, (exec_boot f h2 hb hw).trans (congrArg Host.Outcome.next (boot_usb f h)), hwait, hboot, hon, hsrc.trans ?_⟩
    rw [h]
    rfl
  case net => exact ⟨_, (exec_boot f h2 hb hw).trans (congrArg Host.Outcome.next (boot_net f h)), netWaits_gives hb⟩
  case timeout =>
    obtain ⟨h5, h6⟩ := waitOver_off hh
    exact ⟨_, congrArg Host.Outcome.next (if_pos hw), rfl, rfl, rfl, rfl, h5, h6⟩
  case patch =>
    have hsys := waitOver_sys s
    have hver : sigVerifies 0 ok (waitOver s) = true := (sigVerifies_congr
      (congrArg SysSt.keyprog hsys : (waitOver s).sys.besideReady.keyprog = _) (congrArg SysSt.keyrev hsys : (waitOver s).sys.besideReady.keyrev = _)).trans hv
    refine ⟨(applyPatch v ok (waitOver s)).onSys fun y => { y with waiting := false, booted := true },
      congrArg Host.Outcome.next (if_pos (by simp [hw, hs])), rfl, rfl, ?_⟩
    rw [applyPatch_signed hver]
    exact ⟨(congrArg SysSt.source hsys : (waitOver s).sys.besideReady.source = _).trans hs, rfl, rfl⟩
  case first =>
    obtain ⟨hpwr, hdesk, hwarms⟩ := warmReset_gives hd
    refine ⟨_, congrArg Host.Outcome.next ((if_pos (by simp [h2, hen])).trans (if_neg (by simp [hhit]))), rfl, rfl, hwarms, congrArg PwrSt.dom hpwr, congrArg DeskSt.claims hdesk⟩
  case second =>
    obtain ⟨hhouse, hgoal, hpin, -, -, hw2, -, -, hoff⟩ := pinReset_gives s none false true
    exact ⟨_, congrArg Host.Outcome.next ((if_pos (by simp [h2, hen])).trans (if_pos (by simp [hhit, hr]))), hw2, hpin, hhouse, hgoal, hoff 2 (by decide) (by decide)⟩
  case noKey => exact congrArg Host.Outcome.next ((if_pos h2).trans (if_pos hkey))
  case noKey' => exact congrArg Host.Outcome.next ((if_pos h2).trans (if_pos hkey))
  case warm =>
    obtain ⟨hpwr, hdesk, hwarms⟩ := warmReset_gives hd
    refine ⟨_, congrArg Host.Outcome.next ((if_pos h2).trans ((if_neg (not_not.mpr hkey)).trans ((if_neg (by rw [hf]; decide)).trans (if_pos hw)))), rfl, hwarms,
      congrArg PwrSt.dom hpwr, congrArg PwrSt.house hpwr, congrArg DeskSt.claims hdesk, congrArg DeskSt.ready hdesk, fun k _ => ?_⟩
    show ((warmReset s).desk.sess k).opened = false
    rw [hdesk]
    unfold DeskSt.sess
    split
    · exact absurd rfl ‹_›
    all_goals rfl
  case full =>
    obtain ⟨hhouse, hgoal, hpin, -, hsoft, -, -, hstrap, hoff⟩ := pinReset_gives s none true false
    exact ⟨_, congrArg Host.Outcome.next ((if_pos h2).trans ((if_neg (not_not.mpr hkey)).trans (if_pos hf))), hsoft, hpin, hstrap, hhouse, hgoal,
      hoff 2 (by decide) (by decide)⟩
  case lineWarm => exact answersOk_of_body rfl h (by unfold sysResetWarmBody sysResetBody; rw [hc]; rfl)
  case lineFull => exact answersOk_of_body rfl h (by unfold sysResetFullBody sysResetBody; rw [hc]; rfl)
  case loss =>
    obtain ⟨hstat, hfault⟩ := clockLost_clk k s
    refine ⟨_, exec_clockLoss h2 hr hd, ?_, fun h => ?_, fun hrun hk => clockLost_keeps hrun hk⟩
    · rw [takeLeft_clk]
      exact hstat
    · rw [takeLeft_clk]
      exact hfault h
  case back =>
    refine ⟨_, congrArg Host.Outcome.next ((if_pos ?_).trans (if_neg (by decide))), ?_, rfl⟩
    · have hused : ((List.range 16).any fun d => s.on d && (domClocks d).contains Clk.aud) = true :=
        List.any_eq_true.mpr ⟨3, by decide, by rw [h3]; rfl⟩
      simp only [if_neg (show ¬ Clk.aud = Clk.netref by decide), h2, hused]
      rfl
    · rw [setClk_stat, getLsbD_setBit]
      rfl

end Sys2Proof.Machine
end

section
/-! What the parts of a move leave: where the part stands, its memory, and the Ledger's readiness (spec 14). -/

namespace Sys2Proof.Machine

/-! ### Where the part stands -/

/-- The house state, the move under way, and the domains and quadrants it concerns. -/
def State.stance (s : State) := (s.pwr.house, s.pwr.goal, s.pwr.rising, s.pwr.cfg, s.pwr.dom, s.pwr.ramping)

theorem stance_of_rails {s t : State} (h : t.rails = s.rails) : t.stance = s.stance := by
  unfold State.stance
  rw [pwr_of_rails h]

/-- The memory, its control, and whether the Ledger is ready. -/
def State.lasting (s : State) := (s.ldg.ready, s.ram, s.mem)

section
variable (s : State)

@[simp] theorem State.onClk_lasting (f : ClkSt → ClkSt) : (s.onClk f).lasting = s.lasting := rfl
@[simp] theorem State.onPwr_lasting (f : PwrSt → PwrSt) : (s.onPwr f).lasting = s.lasting := rfl
@[simp] theorem State.onDesk_lasting (f : DeskSt → DeskSt) : (s.onDesk f).lasting = s.lasting := rfl
@[simp] theorem State.onPor_lasting (f : PorSt → PorSt) : (s.onPor f).lasting = s.lasting := rfl
@[simp] theorem State.onInn_lasting (f : InnSt → InnSt) : (s.onInn f).lasting = s.lasting := rfl
@[simp] theorem State.onHth_lasting (f : HthSt → HthSt) : (s.onHth f).lasting = s.lasting := rfl
@[simp] theorem State.onChan_lasting (k : Nat) (f : Chan → Chan) : (s.onChan k f).lasting = s.lasting := rfl

@[simp] theorem State.forEach_lasting {α : Type} {l : List α} {f : α → State → State} (h : ∀ a t, (f a t).lasting = t.lasting) :
    (s.forEach l f).lasting = s.lasting := State.forEach_keeps s State.lasting l f h

theorem OnlyDesk.lasting {t : State} (h : OnlyDesk s t) : t.lasting = s.lasting := by
  unfold OnlyDesk at h
  rw [h, State.onDesk_lasting]

@[simp] theorem notify_lasting (obj rest : String) : (notify obj rest s).lasting = s.lasting := (notify_only obj rest s).lasting
theorem pushLog_ready (e : LogEntry) : (pushLog e s).ldg.ready = s.ldg.ready := by
  simp only [pushLog, State.onLdg_ldg]
  split
  · split <;> rfl
  · split <;> rfl

@[simp] theorem pushLog_lasting (e : LogEntry) : (pushLog e s).lasting = s.lasting := congrArg (·, s.ram, s.mem) (pushLog_ready s e)
@[simp] theorem logEv_lasting (src code evseq arg arg2 : Nat) : (logEv src code evseq arg arg2 s).lasting = s.lasting := pushLog_lasting s _

@[simp] theorem moveEnds_lasting : (moveEnds s).lasting = s.lasting := by
  unfold moveEnds
  split <;> rfl

/-! ### Loadcast -/

@[simp] theorem setForecast_stance (n : Nat) : (setForecast n s).stance = s.stance := rfl
@[simp] theorem setForecast_lasting (n : Nat) : (setForecast n s).lasting = s.lasting := rfl

@[simp] theorem idleLoadcast_stance : (idleLoadcast s).stance = s.stance := by
  unfold idleLoadcast
  split <;> rfl

@[simp] theorem idleLoadcast_lasting : (idleLoadcast s).lasting = s.lasting := by
  unfold idleLoadcast
  split <;> rfl

@[simp] theorem idleLoadcast_hth : (idleLoadcast s).hth = s.hth := by
  unfold idleLoadcast
  split <;> rfl

/-- Out of FULL and with no move to it the pins carry 0. -/
theorem idleLoadcast_lc {s : State} (hh : s.pwr.house ≠ .full) (hg : s.pwr.goal ≠ some .full) : (idleLoadcast s).pwr.lc = 0 := by
  unfold idleLoadcast
  rw [if_neg (not_or.mpr ⟨hh, hg⟩)]
  rfl

/-! ### A house state reached -/

theorem reached_pwr (h : House) (say : Bool) : (reached h say s).pwr =
    { s.pwr with house := h, rising := false, goal := if s.pwr.goal = some h then none else s.pwr.goal } := by
  unfold reached
  extract_lets a b
  have hb : b.pwr = a.pwr := by
    unfold b
    split
    · exact notify_pwr _ _ a
    · rfl
  rw [moveEnds_pwr, hb]
  rfl

@[simp] theorem reached_lasting (h : House) (say : Bool) : (reached h say s).lasting = s.lasting := by
  unfold reached
  extract_lets a b
  have hb : b.lasting = a.lasting := by
    unfold b
    split
    · exact notify_lasting a _ _
    · rfl
  rw [moveEnds_lasting, hb]
  rfl

@[simp] theorem reached_hth (h : House) (say : Bool) : (reached h say s).hth = s.hth := by
  unfold reached
  extract_lets a b
  have hb : b.hth = a.hth := by
    unfold b
    split
    · exact notify_hth _ _ a
    · rfl
  have hm : (moveEnds b).hth = b.hth := by
    unfold moveEnds
    split <;> rfl
  exact hm.trans hb

/-! ### The entry to HUSH -/

theorem sayCrc_rails (k : Nat) : (sayCrc k s).rails = s.rails := by simp [sayCrc]
theorem sayCrc_lasting (k : Nat) : (sayCrc k s).lasting = s.lasting := by simp [sayCrc]

@[simp] theorem reloadSlots_rails : (reloadSlots s).rails = s.rails := by
  unfold reloadSlots
  extract_lets bad a factory user
  exact (State.onPor_rails a _).trans (State.forEach_rails s fun k t => sayCrc_rails t k)

@[simp] theorem reloadSlots_lasting : (reloadSlots s).lasting = s.lasting := by
  unfold reloadSlots
  extract_lets bad a factory user
  exact (State.onPor_lasting a _).trans (State.forEach_lasting s fun k t => sayCrc_lasting t k)

@[simp] theorem reportGauge_rails : (reportGauge s).rails = s.rails := by
  unfold reportGauge
  extract_lets l a
  have ha : a.rails = s.rails := State.forEach_rails s fun _ _ => rfl
  split
  · exact (notify_rails _ _ a).trans ha
  · exact ha

@[simp] theorem reportGauge_lasting : (reportGauge s).lasting = s.lasting := by
  unfold reportGauge
  extract_lets l a
  have ha : a.lasting = s.lasting := State.forEach_lasting s fun _ t => pushLog_lasting t _
  split
  · exact (notify_lasting a _ _).trans ha
  · exact ha

@[simp] theorem takePend_rails : (takePend s).rails = s.rails := by
  unfold takePend
  split
  · simp [startEnrol, enrolNote]
  · rfl

@[simp] theorem takePend_lasting : (takePend s).lasting = s.lasting := by
  unfold takePend
  split
  · simp [startEnrol, enrolNote]
  · rfl

@[simp] theorem hushRefresh_rails : (hushRefresh s).rails = s.rails := by
  unfold hushRefresh
  split <;> rfl

@[simp] theorem hushRefresh_lasting : (hushRefresh s).lasting = s.lasting := by
  unfold hushRefresh
  split <;> rfl

/-! ### Recovery touches the Ledger alone -/

/-- The part without its Ledger and its Desk. -/
def State.besideLedger (s : State) : State := { s with ldg := {}, desk := {} }

@[simp] theorem State.onLdg_besideLedger (f : LdgSt → LdgSt) : (s.onLdg f).besideLedger = s.besideLedger := rfl
@[simp] theorem State.onPhys_besideLedger (k : Nat) (f : PhysPage → PhysPage) : (s.onPhys k f).besideLedger = s.besideLedger := rfl
@[simp] theorem logEv_besideLedger (src code evseq arg arg2 : Nat) : (logEv src code evseq arg arg2 s).besideLedger = s.besideLedger := rfl

theorem notify_besideLedger (obj rest : String) : (notify obj rest s).besideLedger = s.besideLedger := by
  have h := notify_only obj rest s
  unfold OnlyDesk at h
  rw [h]
  rfl

theorem State.forEach_besideLedger {α : Type} {l : List α} {f : α → State → State} (h : ∀ a t, (f a t).besideLedger = t.besideLedger) :
    (s.forEach l f).besideLedger = s.besideLedger := State.forEach_keeps s State.besideLedger l f h

theorem wear_besideLedger (k stage part : Nat) : (wear k stage part s).besideLedger = s.besideLedger := by
  unfold wear
  rw [notify_besideLedger]
  rfl

theorem retire_besideLedger (k : Nat) (residue : Bool) : (retire k residue s).besideLedger = s.besideLedger := by
  unfold retire
  extract_lets a n b c d e
  have ha : a.besideLedger = s.besideLedger := (State.onLdg_besideLedger _ _).trans (State.onPhys_besideLedger s _ _)
  have hb : b.besideLedger = a.besideLedger := (State.onLdg_besideLedger _ _).trans (State.onPhys_besideLedger a _ _)
  clear_value a b
  have hc : c.besideLedger = s.besideLedger := by
    unfold c
    split
    · split
      · rw [notify_besideLedger, hb, ha]
      · rw [hb, ha]
    · exact ha
  clear_value c
  have hd : d.besideLedger = c.besideLedger := State.onPhys_besideLedger c _ _
  have he : e.besideLedger = d.besideLedger := State.onPhys_besideLedger d _ _
  clear_value d
  split
  · split
    · rw [logEv_besideLedger, notify_besideLedger, he, hd, hc]
    · rw [State.onPhys_besideLedger, hd, hc]
  · exact hc

theorem writePhys_besideLedger (k : Nat) (img : List Byte) (part f : Nat) (residue : Bool) :
    (writePhys k img part f residue s).1.besideLedger = s.besideLedger := by
  unfold writePhys
  extract_lets a b
  have hb : b.besideLedger = s.besideLedger := by
    unfold b
    split
    · rfl
    · rw [wear_besideLedger]
      rfl
  split
  · exact hb
  · dsimp only
    rw [retire_besideLedger, wear_besideLedger]
    exact hb

theorem releaseOld_besideLedger (olds : List (Nat × Nat)) (zeroAll : Bool) (fails : List Nat) (residue : Bool) (s : State) :
    (releaseOld olds zeroAll fails residue s).1.besideLedger = s.besideLedger := by
  induction olds generalizing s fails with
  | nil => rfl
  | cons o r ih =>
    rw [releaseOld]
    split
    · rw [ih]
      split
      · rw [State.onPhys_besideLedger, writePhys_besideLedger]
      · exact writePhys_besideLedger s _ _ _ _ _
    · exact (ih _ _).trans rfl

theorem enterPairs_besideLedger (ps : List (Nat × Nat)) : (enterPairs ps s).1.besideLedger = s.besideLedger :=
  (State.onLdg_besideLedger (s.forEach _ _) _).trans (State.forEach_besideLedger s fun p t => by
    dsimp only
    rw [State.onLdg_besideLedger, State.onPhys_besideLedger, State.onPhys_besideLedger])

theorem recoverLedger_besideLedger : (recoverLedger s).besideLedger = s.besideLedger := by
  unfold recoverLedger
  extract_lets a taken b c n
  have ha : a.besideLedger = s.besideLedger := by
    unfold a
    split
    next j hj =>
      split
      · rw [releaseOld_besideLedger]
        exact enterPairs_besideLedger s _
      · rfl
    · rfl
  have hb : b.besideLedger = a.besideLedger := State.forEach_besideLedger a fun k t => State.onPhys_besideLedger t k _
  have hc : c.besideLedger = b.besideLedger := State.onLdg_besideLedger b _
  clear_value a b c
  split
  · rw [logEv_besideLedger, State.onLdg_besideLedger, hc, hb, ha]
  · rw [hc, hb, ha]

theorem recoverLedger_ready : (recoverLedger s).ldg.ready = true := by
  unfold recoverLedger
  extract_lets a b c d n
  split
  · exact pushLog_ready _ _
  · rfl

end

end Sys2Proof.Machine
end

section
/-! What holds no effect for a reply still holds none: events, blocks and domains defer nothing (spec 03 R85, R688). -/

namespace Sys2Proof.Machine

/-- The effects held for a reply. -/
def State.deferred (s : State) : List (Nat × Deferred) := s.desk.deferred

section Parts

variable (s : State)

@[simp] theorem State.onClk_deferred (f : ClkSt → ClkSt) : (s.onClk f).deferred = s.deferred := rfl
@[simp] theorem State.onPwr_deferred (f : PwrSt → PwrSt) : (s.onPwr f).deferred = s.deferred := rfl
@[simp] theorem State.onSys_deferred (f : SysSt → SysSt) : (s.onSys f).deferred = s.deferred := rfl
@[simp] theorem State.onTly_deferred (f : TlySt → TlySt) : (s.onTly f).deferred = s.deferred := rfl
@[simp] theorem State.onEvq_deferred (f : EvqSt → EvqSt) : (s.onEvq f).deferred = s.deferred := rfl
@[simp] theorem State.onWeave_deferred (f : WeaveSt → WeaveSt) : (s.onWeave f).deferred = s.deferred := rfl
@[simp] theorem State.onInn_deferred (f : InnSt → InnSt) : (s.onInn f).deferred = s.deferred := rfl
@[simp] theorem State.onLdr_deferred (f : LdrSt → LdrSt) : (s.onLdr f).deferred = s.deferred := rfl
@[simp] theorem State.onLdg_deferred (f : LdgSt → LdgSt) : (s.onLdg f).deferred = s.deferred := rfl
@[simp] theorem State.onMem_deferred (f : MemSt → MemSt) : (s.onMem f).deferred = s.deferred := rfl
@[simp] theorem State.onCch_deferred (f : CchSt → CchSt) : (s.onCch f).deferred = s.deferred := rfl
@[simp] theorem State.onAud_deferred (f : AudSt → AudSt) : (s.onAud f).deferred = s.deferred := rfl
@[simp] theorem State.onUsb_deferred (f : UsbSt → UsbSt) : (s.onUsb f).deferred = s.deferred := rfl
@[simp] theorem State.onPor_deferred (f : PorSt → PorSt) : (s.onPor f).deferred = s.deferred := rfl
@[simp] theorem State.onHth_deferred (f : HthSt → HthSt) : (s.onHth f).deferred = s.deferred := rfl
@[simp] theorem State.onChan_deferred (k : Nat) (f : Chan → Chan) : (s.onChan k f).deferred = s.deferred := rfl
@[simp] theorem State.onGuest_deferred (g : Nat) (f : Guest → Guest) : (s.onGuest g f).deferred = s.deferred := rfl
@[simp] theorem State.onPlan_deferred (n : String) (f : Plan → Plan) : (s.onPlan n f).deferred = s.deferred := rfl
@[simp] theorem State.onStake_deferred (k : Nat) (f : Stake → Stake) : (s.onStake k f).deferred = s.deferred := rfl
@[simp] theorem State.onRoute_deferred (r : Nat) (f : Route → Route) : (s.onRoute r f).deferred = s.deferred := rfl
@[simp] theorem State.onWin_deferred (k : Nat) (f : Window → Window) : (s.onWin k f).deferred = s.deferred := rfl
@[simp] theorem setDom_deferred (d : Nat) (b : Bool) : (setDom d b s).deferred = s.deferred := rfl

@[simp] theorem State.onNet_deferred (p : Nat) (f : NetSt → NetSt) : (s.onNet p f).deferred = s.deferred := by
  unfold State.onNet
  split <;> rfl

@[simp] theorem State.forEach_deferred {α : Type} {l : List α} {f : α → State → State} (h : ∀ a t, (f a t).deferred = t.deferred) :
    (s.forEach l f).deferred = s.deferred := State.forEach_keeps s State.deferred l f h

/-! ### Notices and the log -/

@[simp] theorem pushLog_deferred (e : LogEntry) : (pushLog e s).deferred = s.deferred := rfl
@[simp] theorem logEv_deferred (src code evseq arg arg2 : Nat) : (logEv src code evseq arg arg2 s).deferred = s.deferred := rfl
@[simp] theorem logAt_deferred (t : Tally) (late : Bool) (src code evseq arg arg2 : Nat) :
    (logAt t late src code evseq arg arg2 s).deferred = s.deferred := rfl
@[simp] theorem notify_deferred (obj rest : String) : (notify obj rest s).deferred = s.deferred := deferred_of_quiet (notify_quiet obj rest s)
@[simp] theorem notifyOne_deferred (k : Nat) (obj rest : String) : (notifyOne k obj rest s).deferred = s.deferred :=
  deferred_of_quiet (sayTo_quiet k obj _ s)

@[simp] theorem moveEnds_deferred : (moveEnds s).deferred = s.deferred := by
  unfold moveEnds
  split <;> rfl

/-! ### Events -/

@[simp] theorem deskFail_deferred (e : Event) (code : Nat) : (deskFail e code s).deferred = s.deferred := by
  unfold deskFail
  split <;> simp

@[simp] theorem rejectEv_deferred (e : Event) : (rejectEv e s).deferred = s.deferred := by simp [rejectEv]

@[simp] theorem countLate_deferred (e : Event) (due : Nat) : (countLate e due s).deferred = s.deferred := by
  unfold countLate
  split <;> simp

@[simp] theorem lateTo_deferred (e : Event) (due : Nat) : (lateTo e due s).deferred = s.deferred := by
  unfold lateTo
  split <;> simp

@[simp] theorem handleLate_deferred (e : Event) (due : Nat) : (handleLate e due s).deferred = s.deferred := by
  simp only [handleLate]
  repeat' split
  all_goals simp

@[simp] theorem queueRequest_deferred (src : Src) (seq : BitVec 16) (named stamp : Tally) (r : LdrReq) :
    (queueRequest src seq named stamp r s).deferred = s.deferred := by
  unfold queueRequest
  split <;> simp

@[simp] theorem enqueue_deferred (e : Event) (cut : Bool) : (enqueue e cut s).deferred = s.deferred := by
  simp only [enqueue]
  repeat' split
  all_goals simp

@[simp] theorem postInner_deferred (src : Src) (seq : BitVec 16) (cut : Bool) (eff : Effect) :
    (postInner src seq cut eff s).deferred = s.deferred := enqueue_deferred s _ cut

@[simp] theorem finishUnbind_deferred (r : Nat) : (finishUnbind r s).deferred = s.deferred := by simp [finishUnbind]

@[simp] theorem drainRoute_deferred (fuel r : Nat) (cut : Bool) : (drainRoute fuel r cut s).deferred = s.deferred := by
  induction fuel generalizing s with
  | zero => rfl
  | succ f ih =>
    rw [drainRoute]
    split
    · split <;> simp
    · simp [ih]
    · split <;> simp [ih]

@[simp] theorem drainRoutes_deferred (cut : Bool) : (drainRoutes cut s).deferred = s.deferred := by simp [drainRoutes]
@[simp] theorem postDelivery_deferred (cut : Bool) (d : Delivery) : (postDelivery cut d s).deferred = s.deferred := by simp [postDelivery]

@[simp] theorem postStored_deferred (cut : Bool) : (postStored cut s).deferred = s.deferred :=
  State.forEach_deferred s fun d t => by split <;> simp

@[simp] theorem admitHeld_deferred (cut : Bool) : (admitHeld cut s).deferred = s.deferred := by
  simp only [admitHeld, postStored_deferred, drainRoutes_deferred]
  rw [State.forEach_deferred _ fun e t => by split <;> simp]
  rfl

/-! ### Effects -/

@[simp] theorem askZero_deferred (checkin : Bool) (rs : List Nat) : (askZero checkin rs s).deferred = s.deferred := rfl
@[simp] theorem holdRooms_deferred (g r n : Nat) : (holdRooms g r n s).deferred = s.deferred := rfl
@[simp] theorem setStep_deferred (g : Nat) (code : StepCode) (to_ : LeaveTo) : (setStep g code to_ s).deferred = s.deferred := rfl
@[simp] theorem dropImage_deferred (g : Nat) : (dropImage g s).deferred = s.deferred := rfl
@[simp] theorem takeChans_deferred (g lo hi n : Nat) : (takeChans g lo hi n s).deferred = s.deferred := rfl

@[simp] theorem assignChans_deferred : (assignChans s).deferred = s.deferred :=
  State.forEach_deferred s fun g t => by
    dsimp only
    split <;> rfl

@[simp] theorem doCheckin_deferred (g : Nat) (p : Plan) (prec : Prec) (cls : Option GClass) (c : Nat) :
    (doCheckin s g p prec cls c).deferred = s.deferred := by
  unfold doCheckin
  repeat' split
  all_goals rfl

@[simp] theorem doReturn_deferred (g c : Nat) : (doReturn s g c).deferred = s.deferred := by
  unfold doReturn
  dsimp only
  split
  · exact assignChans_deferred _
  · rfl

@[simp] theorem applyScale_deferred (p : Plan) (i : Nat) (mode : Option SMode) (win hr : Option Nat) (exp : Option Int) :
    (applyScale p i mode win hr exp s).deferred = s.deferred := by
  have hw : ∀ m, ({ s with ram := m } : State).deferred = s.deferred := fun _ => rfl
  unfold applyScale
  split
  · simp only
    split
    · rw [State.forEach_deferred _ fun g t => State.onGuest_deferred t g _]
      split <;> simp [hw]
    · split <;> simp [hw]
  · rfl

/-- An effect that succeeds defers nothing. -/
theorem applyEffect_deferred {e : Event} {t : Nat} {s u : State} (h : applyEffect e t s = .ok u) : u.deferred = s.deferred := by
  simp only [applyEffect] at h
  repeat' split at h
  all_goals cases h
  all_goals simp

@[simp] theorem applyOne_deferred (t : Nat) (e : Event) : (applyOne t e s).deferred = s.deferred := by
  unfold applyOne
  split
  next heq => exact applyEffect_deferred heq
  next => simp

@[simp] theorem applyTally_deferred (t : Nat) : (applyTally t s).deferred = s.deferred := by
  simp only [applyTally, admitHeld_deferred]
  rw [State.forEach_deferred]
  · simp
  · intro e u
    split <;> simp

@[simp] theorem takeLeft_deferred : (takeLeft s).deferred = s.deferred := by
  unfold takeLeft
  split <;> simp

/-! ### Blocks on and off -/

@[simp] theorem postReady_deferred (ch : Nat) (on_ cut : Bool) : (postReady ch on_ cut s).deferred = s.deferred := by
  unfold postReady
  split <;> simp

@[simp] theorem setReady_deferred (ch : Nat) (on_ cut : Bool) : (setReady ch on_ cut s).deferred = s.deferred := by
  unfold setReady
  split <;> simp

@[simp] theorem toState_deferred (ch : Nat) (st : HState) (cut : Bool) : (toState ch st cut s).deferred = s.deferred := by
  unfold toState
  split
  · rfl
  · dsimp only
    split <;> simp

@[simp] theorem hearthOff_deferred : (hearthOff s).deferred = s.deferred :=
  (State.onHth_deferred _ _).trans (State.forEach_deferred s fun n t => toState_deferred t n .off false)

@[simp] theorem hearthOn_deferred : (hearthOn s).deferred = s.deferred := (State.onHth_deferred _ _).trans (hearthOff_deferred s)

@[simp] theorem clocksOn_deferred (d : Nat) : (clocksOn d s).deferred = s.deferred :=
  State.forEach_deferred s fun _ t => by split <;> rfl

@[simp] theorem clocksOff_deferred (d : Nat) : (clocksOff d s).deferred = s.deferred := State.forEach_deferred s fun _ _ => rfl

@[simp] theorem pd5On_deferred : (pd5On s).deferred = s.deferred := by
  unfold pd5On usbAttach
  dsimp only
  split <;> rfl

@[simp] theorem netOn_deferred (p : Nat) : (netOn p s).deferred = s.deferred := State.onNet_deferred s p _
@[simp] theorem pd8On_deferred : (pd8On s).deferred = s.deferred := State.forEach_deferred { s with cch := {} } fun _ _ => rfl
@[simp] theorem pd9On_deferred : (pd9On s).deferred = s.deferred := rfl
@[simp] theorem pd10On_deferred : (pd10On s).deferred = s.deferred := rfl
@[simp] theorem pd11On_deferred : (pd11On s).deferred = s.deferred := State.forEach_deferred s fun _ _ => rfl

@[simp] theorem leftOpen_deferred (r : Nat) : (leftOpen r s).deferred = s.deferred := by
  unfold leftOpen
  split <;> simp

@[simp] theorem pd1Off_deferred : (pd1Off s).deferred = s.deferred := rfl
@[simp] theorem pd3Off_deferred : (pd3Off s).deferred = s.deferred := rfl
@[simp] theorem pd8Off_deferred : (pd8Off s).deferred = s.deferred := State.forEach_deferred s fun r t => leftOpen_deferred t r

@[simp] theorem pd9Off_deferred : (pd9Off s).deferred = s.deferred := by
  unfold pd9Off
  extract_lets a b
  have ha : a.deferred = s.deferred := State.forEach_deferred s fun _ _ => rfl
  have hb : b.deferred = a.deferred := State.forEach_deferred a fun _ _ => rfl
  exact hb.trans ha

@[simp] theorem pd10Off_deferred : (pd10Off s).deferred = s.deferred := by
  unfold pd10Off
  extract_lets a b
  have ha : a.deferred = s.deferred := State.forEach_deferred s fun _ _ => rfl
  exact (takeLeft_deferred _).trans ha

@[simp] theorem pd11Off_deferred : (pd11Off s).deferred = s.deferred := rfl

@[simp] theorem dropPlan_deferred (p : Plan) : (dropPlan p s).deferred = s.deferred := by
  unfold dropPlan
  extract_lets a b
  have ha : a.deferred = s.deferred := State.forEach_deferred s fun _ _ => rfl
  have hb : b.deferred = a.deferred := State.forEach_deferred a fun _ _ => rfl
  exact hb.trans ha

@[simp] theorem quadOff_deferred (q : Nat) : (quadOff q s).deferred = s.deferred :=
  State.forEach_deferred s fun p t => dropPlan_deferred t p

/-! ### The end of a session -/

variable {s}

/-- What a session that ends held takes place then; nothing held, nothing to take place. -/
theorem endSession_undeferred (h : s.deferred = []) (k : Nat) : (endSession k s).deferred = [] := by
  by_cases ho : (s.sess k).opened = true
  · refine (endSession_deferred ho).trans ?_
    rw [show s.desk.deferred = [] from h]
    rfl
  · unfold endSession
    rw [if_neg ho]
    exact h

theorem pd5Off_undeferred (h : s.deferred = []) : (pd5Off s).deferred = [] := endSession_undeferred (s := usbDetach s) h 1

theorem netOff_undeferred (h : s.deferred = []) (p : Nat) : (netOff p s).deferred = [] := by
  have hend : ∀ k (t : State), t.deferred = [] → (if (t.sess k).port = p then endSession k t else t).deferred = [] := fun k t ht => by
    split
    · exact endSession_undeferred ht k
    · exact ht
  exact (State.onNet_deferred _ p _).trans (hend 3 _ (hend 2 s h))

/-! ### Domains -/

theorem domOff_undeferred (h : s.deferred = []) (d : Nat) : (domOff d s).deferred = [] := by
  rw [domOff_eq]
  split
  · exact h
  · have hb : (domOffBefore d s).deferred = [] := by
      unfold domOffBefore
      split
      · exact (hearthOff_deferred s).trans h
      · exact pd5Off_undeferred h
      · exact netOff_undeferred h 0
      · exact netOff_undeferred h 1
      · exact h
    have hc : (clocksOff d (setDom d false (domOffBefore d s))).deferred = [] := (clocksOff_deferred _ d).trans hb
    generalize clocksOff d (setDom d false (domOffBefore d s)) = t at hc
    unfold domOffAfter
    split
    case h_2 => rfl
    all_goals simpa using hc

/-- A domain of the house's upper states comes on, and defers nothing. -/
theorem domOn_deferred {d : Nat} (h : 4 ≤ d) : (domOn d s).deferred = s.deferred := by
  rw [domOn_eq]
  split
  · rfl
  · refine Eq.trans ?_ ((clocksOn_deferred _ d).trans (setDom_deferred s d true))
    unfold domOnAfter
    split
    case h_1 | h_2 | h_3 => omega
    all_goals simp

theorem forEach_domOff_undeferred (l : List Nat) (h : s.deferred = []) : (s.forEach l domOff).deferred = [] := by
  induction l generalizing s with
  | nil => exact h
  | cons d l ih =>
    rw [State.forEach_cons]
    exact ih (domOff_undeferred h d)

end Parts

end Sys2Proof.Machine
end

section
/-! What the runs of domains of a move leave: which are on, the memory's control, and the Hearth's channels (spec 14 Table 14.3). -/

namespace Sys2Proof.Machine

/-! ### Several domains at once -/

/-- The power registers without PWR_DOM. -/
def PwrSt.besideDom (p : PwrSt) : PwrSt := { p with dom := 0 }

/-- A domain is switched on where the power registers call for it. -/
def onWhere (q : PwrSt → Nat → Bool) (d : Nat) (s : State) : State := if q s.pwr d = true then domOn d s else s

section

variable (s : State)

theorem domOn_besideDom (d : Nat) : (domOn d s).pwr.besideDom = s.pwr.besideDom := by
  rw [domOn_pwr]
  rfl

theorem domOff_besideDom {d : Nat} (h : d ≠ 2) : (domOff d s).pwr.besideDom = s.pwr.besideDom := by
  rw [domOff_pwr s h]
  rfl

theorem forEach_domOff_besideDom {l : List Nat} (h : 2 ∉ l) : (s.forEach l domOff).pwr.besideDom = s.pwr.besideDom := by
  induction l generalizing s with
  | nil => rfl
  | cons d l ih =>
    rw [List.mem_cons, not_or] at h
    rw [State.forEach_cons, ih _ h.2, domOff_besideDom s (Ne.symm h.1)]

theorem onWhere_besideDom (q : PwrSt → Nat → Bool) (d : Nat) : (onWhere q d s).pwr.besideDom = s.pwr.besideDom := by
  unfold onWhere
  split
  · exact domOn_besideDom s d
  · rfl

theorem forEach_onWhere_besideDom (q : PwrSt → Nat → Bool) (l : List Nat) : (s.forEach l (onWhere q)).pwr.besideDom = s.pwr.besideDom :=
  State.forEach_keeps s (·.pwr.besideDom) l _ fun d t => onWhere_besideDom t q d

theorem onWhere_on (q : PwrSt → Nat → Bool) {d k : Nat} (hk : k < 16) : (onWhere q d s).on k = (s.on k || (k == d && q s.pwr d)) := by
  unfold onWhere
  split
  next h => rw [domOn_on s hk, h, Bool.and_true]
  next h => rw [Bool.not_eq_true] at h; simp [h]

/-- What is called for does not depend on what is on: each of the domains comes on by the registers at the start. -/
theorem forEach_onWhere_on {q : PwrSt → Nat → Bool} (hq : ∀ p p' d, p.besideDom = p'.besideDom → q p d = q p' d) (l : List Nat) {k : Nat}
    (hk : k < 16) : (s.forEach l (onWhere q)).on k = (s.on k || (l.contains k && q s.pwr k)) := by
  induction l generalizing s with
  | nil => simp
  | cons d l ih =>
    rw [State.forEach_cons, ih, onWhere_on s q hk, hq _ _ k (onWhere_besideDom s q d), List.contains_cons]
    by_cases hd : k = d
    · subst hd
      cases q s.pwr k <;> simp
    · have hdk : (k == d) = false := beq_false_of_ne hd
      rw [hdk, Bool.false_and, Bool.or_false, Bool.false_or]

theorem forEach_onWhere_deferred (q : PwrSt → Nat → Bool) {l : List Nat} (h : ∀ d ∈ l, 4 ≤ d) :
    (s.forEach l (onWhere q)).deferred = s.deferred := by
  induction l generalizing s with
  | nil => rfl
  | cons d l ih =>
    rw [State.forEach_cons, ih _ fun k hk => h k (List.mem_cons_of_mem d hk)]
    unfold onWhere
    split
    · exact domOn_deferred (h d List.mem_cons_self)
    · rfl

/-- The domains a configuration has on. -/
def configured (p : PwrSt) (d : Nat) : Bool := decide (4 ≤ d) && p.cfg.getLsbD (d - 4)

theorem configured_congr (p p' : PwrSt) (d : Nat) (h : p.besideDom = p'.besideDom) : configured p d = configured p' d := by
  have hc : p.cfg = p'.cfg := (congrArg PwrSt.cfg h : p.besideDom.cfg = p'.besideDom.cfg)
  rw [configured, configured, hc]

theorem forEach_cfgOn_eq (l : List Nat) : (s.forEach l fun d t => if t.cfgOn d then domOn d t else t) = s.forEach l (onWhere configured) := rfl

/-! ### The memory's control -/

theorem mem_of_edgeKept {s t : State} (h : t.edgeKept = s.edgeKept) : t.mem = s.mem := congrArg (·.2.2.2.2.2.2.2.1) h

@[simp] theorem postReady_mem (ch : Nat) (on_ cut : Bool) : (postReady ch on_ cut s).mem = s.mem := by
  unfold postReady
  split
  · exact mem_of_edgeKept (by simp [postInner])
  · rfl

@[simp] theorem setReady_mem (ch : Nat) (on_ cut : Bool) : (setReady ch on_ cut s).mem = s.mem := by
  unfold setReady
  split
  · rfl
  · rw [postReady_mem, mem_of_edgeKept (notify_edgeKept _ _ _)]
    rfl

@[simp] theorem toState_mem (ch : Nat) (st : HState) (cut : Bool) : (toState ch st cut s).mem = s.mem := by
  unfold toState
  split
  · rfl
  · dsimp only
    split
    · rfl
    · exact setReady_mem s ch false cut

@[simp] theorem hearthOff_mem : (hearthOff s).mem = s.mem :=
  (State.onHth_mem (s.forEach (List.range 8) fun n t => toState n .off false t) _).trans
    (State.forEach_keeps s State.mem _ _ fun n t => toState_mem t n .off false)

theorem pd11On_mem : (pd11On s).mem = s.mem := State.forEach_keeps s State.mem _ _ fun _ t => State.onLdr_mem t _

theorem clocksOn_mem (d : Nat) : (clocksOn d s).mem = s.mem :=
  State.forEach_keeps s State.mem _ _ fun k t => by split <;> rfl

/-- The rooms, the Larder and the Hearth come on beside the memory. -/
theorem domOn_mem {d : Nat} (h : d ∈ [10, 11, 4]) : (domOn d s).mem = s.mem := by
  rw [domOn_eq]
  split
  · rfl
  · refine Eq.trans ?_ (clocksOn_mem (setDom d true s) d)
    generalize clocksOn d (setDom d true s) = t
    simp only [List.mem_cons, List.not_mem_nil, or_false] at h
    obtain rfl | rfl | rfl := h
    · rfl
    · exact pd11On_mem t
    · exact (State.onHth_mem (hearthOff t) _).trans (hearthOff_mem t)

theorem forEach_onWhere_mem (q : PwrSt → Nat → Bool) {l : List Nat} (h : ∀ d ∈ l, d ∈ [10, 11, 4]) : (s.forEach l (onWhere q)).mem = s.mem := by
  induction l generalizing s with
  | nil => rfl
  | cons d l ih =>
    rw [State.forEach_cons, ih _ fun k hk => h k (List.mem_cons_of_mem d hk)]
    unfold onWhere
    split
    · exact domOn_mem s (h d List.mem_cons_self)
    · rfl

/-! ### The Hearth's channels -/

/-- Every channel of the Hearth is off. -/
def ChansOff (s : State) : Prop := ∀ n, n < 8 → (s.chan n).state = .off

theorem chan_of_ge {n : Nat} {s : State} (h : s.hth.chans.length ≤ n) : (s.chan n).state = .off := by
  unfold State.chan
  rw [List.getD_eq_default _ _ h]

theorem toState_off_chan (n : Nat) (cut : Bool) : ((toState n .off cut s).chan n).state = .off := by
  by_cases hoff : (s.chan n).state = .off
  · rw [toState, if_pos hoff]
    exact hoff
  · have hn : n < s.hth.chans.length := Nat.lt_of_not_le fun h => hoff (chan_of_ge h)
    rw [toState_chan cut hn hoff]
    rfl

theorem toState_off_keeps {k : Nat} (n : Nat) (cut : Bool) {s : State} (h : (s.chan k).state = .off) :
    ((toState n .off cut s).chan k).state = .off := by
  by_cases hk : k = n
  · subst hk
    exact toState_off_chan s k cut
  · rw [toState_chan_ne hk]
    exact h

theorem forEach_toState_off (cut : Bool) (l : List Nat) {k : Nat} (h : k ∈ l ∨ (s.chan k).state = .off) :
    ((s.forEach l fun n t => toState n .off cut t).chan k).state = .off := by
  induction l generalizing s with
  | nil => simpa using h
  | cons n l ih =>
    rw [State.forEach_cons]
    refine ih _ ?_
    obtain hk | hk := h
    · obtain rfl | hk := List.mem_cons.mp hk
      · exact .inr (toState_off_chan s k cut)
      · exact .inl hk
    · exact .inr (toState_off_keeps n cut hk)

/-- The Hearth's power-off takes every channel to OFF. -/
theorem hearthOff_chansOff : ChansOff (hearthOff s) := by
  intro n hn
  have h := forEach_toState_off s false (List.range 8) (k := n) (.inl (List.mem_range.mpr hn))
  unfold hearthOff
  generalize (s.forEach (List.range 8) fun n t => toState n .off false t) = t at h
  unfold State.chan at h ⊢
  dsimp only [State.onHth]
  by_cases hl : n < t.hth.chans.length
  · rw [List.getD_eq_getElem _ _ hl] at h
    rw [List.getD_eq_getElem _ _ (by simpa using hl), List.getElem_map]
    exact h
  · rw [List.getD_eq_default _ _ (by simpa using hl)]

theorem chansOff_of_hth {s t : State} (h : t.hth = s.hth) (hs : ChansOff s) : ChansOff t := fun n hn => by
  rw [chan_of_hth h]
  exact hs n hn

theorem clocksOff_hth (d : Nat) : (clocksOff d s).hth = s.hth := State.forEach_keeps s State.hth _ _ fun _ _ => rfl

theorem dropPlan_hth (p : Plan) : (dropPlan p s).hth = s.hth := by
  unfold dropPlan
  extract_lets a b
  have ha : a.hth = s.hth := State.forEach_keeps s State.hth _ _ fun _ _ => rfl
  have hb : b.hth = a.hth := State.forEach_keeps a State.hth _ _ fun _ _ => rfl
  exact hb.trans ha

theorem quadOff_hth (q : Nat) : (quadOff q s).hth = s.hth := State.forEach_keeps s State.hth _ _ fun p t => dropPlan_hth t p

theorem pd9Off_hth : (pd9Off s).hth = s.hth := by
  unfold pd9Off
  extract_lets a b
  have ha : a.hth = s.hth := State.forEach_keeps s State.hth _ _ fun _ _ => rfl
  have hb : b.hth = a.hth := State.forEach_keeps a State.hth _ _ fun _ _ => rfl
  exact hb.trans ha

theorem takeLeft_hth : (takeLeft s).hth = s.hth := by
  unfold takeLeft
  split
  · exact hth_of_edgeKept (applyTally_edgeKept _ s)
  · rfl

theorem pd10Off_hth : (pd10Off s).hth = s.hth := by
  unfold pd10Off
  extract_lets a b
  have ha : a.hth = s.hth := State.forEach_keeps s State.hth _ _ fun _ _ => rfl
  exact (takeLeft_hth _).trans ha

/-- The domains of FULL go off and leave no channel on. -/
theorem domOff_chansOff {d : Nat} (hd : d ∈ [15, 14, 13, 12, 11, 10, 9, 4]) {s : State} (h : ChansOff s) : ChansOff (domOff d s) := by
  rw [domOff_eq]
  split
  · exact h
  · have hc : (clocksOff d (setDom d false (domOffBefore d s))).hth = (domOffBefore d s).hth := clocksOff_hth (setDom d false _) d
    have hb : ChansOff (clocksOff d (setDom d false (domOffBefore d s))) := by
      refine chansOff_of_hth hc ?_
      by_cases h4 : d = 4
      · subst h4
        exact hearthOff_chansOff s
      · simp only [List.mem_cons, List.not_mem_nil, or_false] at hd
        unfold domOffBefore
        split
        case h_1 => exact absurd rfl h4
        case h_2 | h_3 | h_4 => omega
        case h_5 => exact h
    generalize clocksOff d (setDom d false (domOffBefore d s)) = t at hb
    refine chansOff_of_hth ?_ hb
    unfold domOffAfter
    split
    case h_1 | h_2 | h_3 | h_4 => simp at hd
    case h_5 => exact pd9Off_hth t
    case h_6 => exact pd10Off_hth t
    case h_8 | h_9 | h_10 | h_11 => exact quadOff_hth t _
    all_goals rfl

theorem forEach_domOff_chansOff {l : List Nat} (hl : ∀ d ∈ l, d ∈ [15, 14, 13, 12, 11, 10, 9, 4]) {s : State} (h : ChansOff s) :
    ChansOff (s.forEach l domOff) := by
  induction l generalizing s with
  | nil => exact h
  | cons d l ih =>
    rw [State.forEach_cons]
    exact ih (fun k hk => hl k (List.mem_cons_of_mem d hk)) (domOff_chansOff (hl d List.mem_cons_self) h)

end

end Sys2Proof.Machine
end

section
/-! The steps of a move that go on by themselves: the quadrants' ramps and the rise to FULL (spec 14 R588, R609, R613). -/

namespace Sys2Proof.Machine

section

variable {s t : State}

/-! ### Reading the stance -/

theorem on_of_stance (h : t.stance = s.stance) (k : Nat) : t.on k = s.on k :=
  congrArg (·.getLsbD k) (congrArg (·.2.2.2.2.1) h : t.pwr.dom = s.pwr.dom)

theorem house_of_stance (h : t.stance = s.stance) : t.pwr.house = s.pwr.house := congrArg (·.1) h
theorem goal_of_stance (h : t.stance = s.stance) : t.pwr.goal = s.pwr.goal := congrArg (·.2.1) h
theorem rising_of_stance (h : t.stance = s.stance) : t.pwr.rising = s.pwr.rising := congrArg (·.2.2.1) h
theorem cfg_of_stance (h : t.stance = s.stance) : t.pwr.cfg = s.pwr.cfg := congrArg (·.2.2.2.1) h
theorem ramping_of_stance (h : t.stance = s.stance) : t.pwr.ramping = s.pwr.ramping := congrArg (·.2.2.2.2.2) h

theorem cfgOn_of_cfg (h : t.pwr.cfg = s.pwr.cfg) (d : Nat) : t.cfgOn d = s.cfgOn d := by rw [State.cfgOn, State.cfgOn, h]

theorem mem_of_lasting (h : t.lasting = s.lasting) : t.mem = s.mem := congrArg (·.2.2) h
theorem ram_of_lasting (h : t.lasting = s.lasting) : t.ram = s.ram := congrArg (·.2.1) h

theorem house_of_besideDom (h : t.pwr.besideDom = s.pwr.besideDom) : t.pwr.house = s.pwr.house :=
  (congrArg PwrSt.house h : t.pwr.besideDom.house = s.pwr.besideDom.house)
theorem goal_of_besideDom (h : t.pwr.besideDom = s.pwr.besideDom) : t.pwr.goal = s.pwr.goal :=
  (congrArg PwrSt.goal h : t.pwr.besideDom.goal = s.pwr.besideDom.goal)
theorem rising_of_besideDom (h : t.pwr.besideDom = s.pwr.besideDom) : t.pwr.rising = s.pwr.rising :=
  (congrArg PwrSt.rising h : t.pwr.besideDom.rising = s.pwr.besideDom.rising)
theorem cfg_of_besideDom (h : t.pwr.besideDom = s.pwr.besideDom) : t.pwr.cfg = s.pwr.cfg :=
  (congrArg PwrSt.cfg h : t.pwr.besideDom.cfg = s.pwr.besideDom.cfg)
theorem ramping_of_besideDom (h : t.pwr.besideDom = s.pwr.besideDom) : t.pwr.ramping = s.pwr.ramping :=
  (congrArg PwrSt.ramping h : t.pwr.besideDom.ramping = s.pwr.besideDom.ramping)

variable (s)

/-! ### The quadrants -/

/-- The next quadrant whose switch is to ramp. -/
def nextRamp : Option Nat := (List.range 4).find? fun q => s.cfgOn (12 + q) && !s.on (12 + q)

/-- The announcement of a ramp that starts. -/
def announced : State := if roundsRun s then s else setForecast (s.tly.now.toNat + 1) s

theorem announced_stance : (announced s).stance = s.stance := by
  unfold announced
  split
  · rfl
  · exact setForecast_stance s _

theorem announced_lasting : (announced s).lasting = s.lasting := by
  unfold announced
  split
  · rfl
  · exact setForecast_lasting s _

theorem announced_deferred : (announced s).deferred = s.deferred := by
  unfold announced
  split <;> rfl

theorem startRamp_ramping {q : Nat} (h : s.pwr.ramping = some q) : startRamp s = s := if_pos (by rw [h]; rfl)

theorem startRamp_idle (h : s.pwr.ramping = none) :
    startRamp s = match nextRamp s with | some q => announced (s.onPwr fun p => { p with ramping := some q }) | none => s :=
  if_neg (by rw [h]; decide)

/-- A quadrant that ramps lets no other start; with none ramping the next one does. -/
theorem startRamp_stance : (startRamp s).stance =
    (s.pwr.house, s.pwr.goal, s.pwr.rising, s.pwr.cfg, s.pwr.dom, s.pwr.ramping.or (nextRamp s)) := by
  cases hr : s.pwr.ramping with
  | some q =>
    rw [startRamp_ramping s hr, State.stance, hr]
    rfl
  | none =>
    rw [startRamp_idle s hr]
    split
    next q hq => exact (announced_stance _).trans (by rw [hq]; rfl)
    next hq =>
      rw [State.stance, hr, hq]
      rfl

theorem startRamp_lasting : (startRamp s).lasting = s.lasting := by
  cases hr : s.pwr.ramping with
  | some q => rw [startRamp_ramping s hr]
  | none =>
    rw [startRamp_idle s hr]
    split
    · exact announced_lasting _
    · rfl

theorem startRamp_deferred : (startRamp s).deferred = s.deferred := by
  cases hr : s.pwr.ramping with
  | some q => rw [startRamp_ramping s hr]
  | none =>
    rw [startRamp_idle s hr]
    split
    · exact announced_deferred _
    · rfl

theorem startRamp_on (k : Nat) : (startRamp s).on k = s.on k :=
  congrArg (·.getLsbD k) (congrArg (·.2.2.2.2.1) (startRamp_stance s) : (startRamp s).pwr.dom = s.pwr.dom)

theorem startRamp_goes : (startRamp s).pwr.ramping = s.pwr.ramping.or (nextRamp s) := congrArg (·.2.2.2.2.2) (startRamp_stance s)

/-! ### The rise to FULL -/

theorem reached_on (h : House) (say : Bool) (k : Nat) : (reached h say s).on k = s.on k := by
  unfold State.on
  rw [reached_pwr]

theorem reached_house (h : House) (say : Bool) : (reached h say s).pwr.house = h := by rw [reached_pwr]

theorem reached_goal {h : House} (say : Bool) (hg : s.pwr.goal = some h) : (reached h say s).pwr.goal = none := by
  rw [reached_pwr]
  exact if_pos hg

/-- FULL reached, as it is told. -/
def arrived : State := idleLoadcast (reached .full true s)

theorem arrived_on (k : Nat) : (arrived s).on k = s.on k := (on_of_stance (idleLoadcast_stance _) k).trans (reached_on s .full true k)
theorem arrived_house : (arrived s).pwr.house = .full := (house_of_stance (idleLoadcast_stance _)).trans (reached_house s .full true)
theorem arrived_lasting : (arrived s).lasting = s.lasting := (idleLoadcast_lasting _).trans (reached_lasting s .full true)

theorem arrived_goal (h : s.pwr.goal = some .full) : (arrived s).pwr.goal = none :=
  (goal_of_stance (idleLoadcast_stance _)).trans (reached_goal s true h)

/-- The domains of FULL beside the memory, once it has been seen to. -/
def furnished : State := s.forEach [10, 11, 4] (onWhere configured)

theorem furnished_on {k : Nat} (hk : k < 16) : (furnished s).on k = (s.on k || ([10, 11, 4].contains k && configured s.pwr k)) :=
  forEach_onWhere_on s configured_congr _ hk

theorem furnished_besideDom : (furnished s).pwr.besideDom = s.pwr.besideDom := forEach_onWhere_besideDom s _ _
theorem furnished_mem : (furnished s).mem = s.mem := forEach_onWhere_mem s _ fun _ hd => hd

theorem riseOn_idle (h : s.pwr.rising = false ∨ s.pwr.goal ≠ some .full) : riseOn s = s := if_pos (by simpa using h)

theorem riseOn_memory (hr : s.pwr.rising = true) (hg : s.pwr.goal = some .full) (hc : s.cfgOn 9 = true) (h9 : s.on 9 = false) :
    riseOn s = domOn 9 s :=
  (if_neg (by simp [hr, hg])).trans (if_pos (by simp [hc, h9]))

/-- Once the memory is seen to, the rise ends unless a quadrant's ramp keeps it. -/
theorem riseOn_rest (hr : s.pwr.rising = true) (hg : s.pwr.goal = some .full) (hm : (s.cfgOn 9 && !s.on 9) = false)
    (h9 : (!s.on 9 || s.mem.trained || s.mem.fail) = true) :
    riseOn s = if (startRamp (furnished s)).pwr.ramping.isSome then startRamp (furnished s) else arrived (startRamp (furnished s)) :=
  (if_neg (by simp [hr, hg])).trans ((if_neg (by rw [hm]; decide)).trans (if_pos h9))

/-- A rise switches nothing off. -/
theorem riseOn_on {k : Nat} (h : s.on k = true) : (riseOn s).on k = true := by
  have hk : k < 16 := Nat.lt_of_not_le fun hge => by
    have hz : s.on k = false := BitVec.getLsbD_of_ge s.pwr.dom k hge
    rw [h] at hz
    cases hz
  have hrest : (startRamp (furnished s)).on k = true := by
    rw [startRamp_on, furnished_on s hk, h, Bool.true_or]
  by_cases hi : s.pwr.rising = false ∨ s.pwr.goal ≠ some .full
  · rw [riseOn_idle s hi]
    exact h
  · rw [not_or, Bool.not_eq_false, not_not] at hi
    obtain ⟨hr, hg⟩ := hi
    unfold riseOn
    rw [if_neg (by simp [hr, hg])]
    split
    · rw [domOn_on s hk, h, Bool.true_or]
    split
    · change (if (startRamp (furnished s)).pwr.ramping.isSome then startRamp (furnished s) else arrived (startRamp (furnished s))).on k = true
      split
      · exact hrest
      · rw [arrived_on]
        exact hrest
    · exact h

/-- A rise with the memory on, or not wanted, leaves the memory's control. -/
theorem riseOn_mem (h9 : s.on 9 = true) : (riseOn s).mem = s.mem := by
  have hrest : (startRamp (furnished s)).mem = s.mem := (mem_of_lasting (startRamp_lasting _)).trans (furnished_mem s)
  unfold riseOn
  split
  · rfl
  rw [if_neg (by simp [h9])]
  split
  · change (if (startRamp (furnished s)).pwr.ramping.isSome then startRamp (furnished s) else arrived (startRamp (furnished s))).mem = s.mem
    split
    · exact hrest
    · exact (mem_of_lasting (arrived_lasting _)).trans hrest
  · rfl

end

end Sys2Proof.Machine
end

section
/-! The moves between house states (O54; spec 14 Table 14.3, R583 to R591, R645). -/

namespace Sys2Proof.Machine

section

variable (s : State)

/-! ### `house.set` -/

section
variable {c : Ctx} {p : Pfx} {e : Env} {s : State}

theorem houseSetBody_noRefclk (h : houseNum s.pwr.house < houseNum (houseOf (e.word "state"))) (hc : s.clk.stat.getLsbD 0 = false) :
    houseSetBody c p e s = .err 40 "state" s := if_pos (by rw [hc]; simp [h])

/-- What `house.set` does once REFCLK and the temperature allow it. -/
theorem houseSetBody_allowed (ht : s.pwr.therm = .none) (hc : s.clk.stat.getLsbD 0 = true) (hg : s.pwr.goal = none)
    (hs : houseOf (e.word "state") ≠ s.pwr.house) {k : Nat} (ho : c.origin = .sess k) :
    houseSetBody c p e s = .ok []
      (let h := houseOf (e.word "state")
      let u := s.onPwr fun p => { p with goal := some h }
      let u := if s.pwr.house = .full then startFades u else u
      let u := if !wantsDom h s.pwr.cfg (sessDom k s) then defer k (.house h) u else u
      if h = .vault then defer k .wakeRelease u else u) := by
  unfold houseSetBody
  rw [ho]
  exact (if_neg (by simp [hc])).trans ((if_neg (by simp [ht])).trans ((if_neg (by simp [hg])).trans (if_neg hs)))

theorem houseSetBody_moving (ht : s.pwr.therm = .none) (hc : s.clk.stat.getLsbD 0 = true) (hg : s.pwr.goal ≠ none) :
    houseSetBody c p e s = .err 41 "" s :=
  (if_neg (by simp [hc])).trans ((if_neg (by simp [ht])).trans (if_pos (Option.isSome_iff_ne_none.mpr hg)))

theorem houseSetBody_there (ht : s.pwr.therm = .none) (hc : s.clk.stat.getLsbD 0 = true) (hg : s.pwr.goal = none)
    (hs : houseOf (e.word "state") = s.pwr.house) : houseSetBody c p e s = .ok [] s :=
  (if_neg (by simp [hc])).trans ((if_neg (by simp [ht])).trans ((if_neg (by simp [hg])).trans (if_pos hs)))

end

/-- The guests in the rounds fade. -/
def FadesBegun (u : State) : Prop := ∀ x ∈ u.inn.guests, x.2.inRounds = true → x.2.fading = true

theorem startFades_begun : FadesBegun (startFades s) := by
  intro x hx hr
  obtain ⟨y, -, rfl⟩ := List.mem_map.mp hx
  dsimp only at hr ⊢
  split at hr
  next hy => rw [if_pos hy]
  next hy => exact absurd hr hy

theorem houseSet_clause : ∀ c p a e s k, Passes houseSetV c p a e s → c.origin = .sess k → s.pwr.therm = .none → s.clk.stat.getLsbD 0 = true →
    (s.pwr.goal ≠ none → Refuses (.houseSet c p a) c s 41 "") ∧
    (s.pwr.goal = none → houseOf (e.word "state") = s.pwr.house → AnswersOk (.houseSet c p a) c s [] s) ∧
    (s.pwr.goal = none → houseOf (e.word "state") ≠ s.pwr.house → s.pwr.house ≠ .full → houseOf (e.word "state") ≠ .vault →
      (wantsDom (houseOf (e.word "state")) s.pwr.cfg (sessDom k s) = true → AnswersOk (.houseSet c p a) c s []
        (s.onPwr fun p => { p with goal := some (houseOf (e.word "state")) })) ∧
      (wantsDom (houseOf (e.word "state")) s.pwr.cfg (sessDom k s) = false → AnswersOk (.houseSet c p a) c s []
        ((s.onPwr fun p => { p with goal := some (houseOf (e.word "state")) }).onDesk fun d => { d with
          deferred := d.deferred ++ [(k, .house (houseOf (e.word "state")))] }))) ∧
    (s.pwr.goal = none → s.pwr.house = .full → houseOf (e.word "state") ≠ .full → AnswersWith (.houseSet c p a) c s fun ls u => ls = [] ∧
      u.pwr.goal = some (houseOf (e.word "state")) ∧ FadesBegun u) := by
  intro c p a e s k hp ho ht hc
  refine ⟨fun hg => refuses_of_body rfl hp (houseSetBody_moving ht hc hg),
    fun hg hs => answersOk_of_body rfl hp (houseSetBody_there ht hc hg hs), fun hg hs hf hv => ⟨fun hw => ?_, fun hw => ?_⟩, fun hg hf hs => ?_⟩
  · refine answersOk_of_body rfl hp ((houseSetBody_allowed ht hc hg hs ho).trans ?_)
    dsimp only
    rw [if_neg hf, if_neg hv, if_neg (by rw [hw]; decide)]
  · refine answersOk_of_body rfl hp ((houseSetBody_allowed ht hc hg hs ho).trans ?_)
    dsimp only
    rw [if_neg hf, if_neg hv, if_pos (by rw [hw]; decide)]
    rfl
  · refine answersWith_of_body rfl hp ⟨_, _, houseSetBody_allowed ht hc hg (by rw [hf]; exact hs) ho, rfl, ?_⟩
    dsimp only
    rw [if_pos hf]
    have hfade := startFades_begun (s.onPwr fun p => { p with goal := some (houseOf (e.word "state")) })
    have hgoal : (startFades (s.onPwr fun p => { p with goal := some (houseOf (e.word "state")) })).pwr.goal = some (houseOf (e.word "state")) := rfl
    generalize startFades (s.onPwr fun p => { p with goal := some (houseOf (e.word "state")) }) = u at hfade hgoal
    split <;> split <;> exact ⟨hgoal, hfade⟩

/-! ### Up -/

theorem domOn_on_ne {d k : Nat} (h : k ≠ d) : (domOn d s).on k = s.on k := by
  unfold State.on
  rw [domOn_pwr, getLsbD_setBit, if_neg (by simp [h])]

theorem domOn_house (d : Nat) : (domOn d s).pwr.house = s.pwr.house := house_of_besideDom (domOn_besideDom s d)
theorem domOn_goal (d : Nat) : (domOn d s).pwr.goal = s.pwr.goal := goal_of_besideDom (domOn_besideDom s d)

/-- The Ledger comes up recovered and the memory is left to itself. -/
theorem domOn_ledger {s : State} (h : s.on 1 = false) : (domOn 1 s).ldg.ready = true ∧ (domOn 1 s).ram = s.ram := by
  rw [domOn_eq, if_neg (by rw [h]; decide)]
  have hram : (clocksOn 1 (setDom 1 true s)).ram = s.ram := rfl
  generalize clocksOn 1 (setDom 1 true s) = t at hram
  have hkept : (pd1On t).besideLedger = t.besideLedger := recoverLedger_besideLedger _
  exact ⟨recoverLedger_ready _, (congrArg State.ram hkept : (pd1On t).besideLedger.ram = t.besideLedger.ram).trans hram⟩

theorem domOn_desk {s : State} (h : s.on 2 = false) : (domOn 2 s).ldg.ready = s.ldg.ready ∧ (domOn 2 s).ram = s.ram := by
  rw [domOn_eq, if_neg (by rw [h]; decide)]
  exact ⟨rfl, rfl⟩

/-- What an entry to HUSH does once it is reached. -/
def entered (s : State) : State := idleLoadcast (hushRefresh (takePend (reportGauge (reloadSlots s))))

theorem entered_stance : (entered s).stance = s.stance := by
  refine (idleLoadcast_stance _).trans (stance_of_rails ?_)
  rw [hushRefresh_rails, takePend_rails, reportGauge_rails, reloadSlots_rails]

theorem entered_lasting : (entered s).lasting = s.lasting := by
  rw [entered, idleLoadcast_lasting, hushRefresh_lasting, takePend_lasting, reportGauge_lasting, reloadSlots_lasting]

theorem vaultToHush_clause {s : State} (hh : s.pwr.house = .vault) (hg : s.pwr.goal = some .hush) (hv : s.pwr.vaon = true)
    (ht : s.sys.testmode = false) (h1 : s.on 1 = false) (h2 : s.on 2 = false) :
    Gives .moveVaultToHush s fun t => t.pwr.house = .hush ∧ t.pwr.goal = none ∧ t.on 1 = true ∧ t.on 2 = true ∧
      t.ldg.ready = true ∧ (∀ d, 3 ≤ d → t.on d = s.on d) ∧ t.ram = s.ram := by
  refine ⟨entered (reached .hush false (domOn 2 (domOn 1 s))), congrArg Host.Outcome.next (if_pos (by simp [hh, hg, hv, ht])), ?_⟩
  have hst := entered_stance (reached .hush false (domOn 2 (domOn 1 s)))
  have hla := (entered_lasting (reached .hush false (domOn 2 (domOn 1 s)))).trans (reached_lasting _ _ _)
  have hon : ∀ k, (entered (reached .hush false (domOn 2 (domOn 1 s)))).on k = (domOn 2 (domOn 1 s)).on k := fun k =>
    (on_of_stance hst k).trans (reached_on _ _ _ k)
  have hgoal : (domOn 2 (domOn 1 s)).pwr.goal = some .hush := by rw [domOn_goal, domOn_goal, hg]
  obtain ⟨hready, hram⟩ := domOn_ledger h1
  obtain ⟨hready', hram'⟩ := domOn_desk (s := domOn 1 s) (by rw [domOn_on_ne s (by decide), h2])
  refine ⟨(house_of_stance hst).trans (reached_house _ _ _), (goal_of_stance hst).trans (reached_goal _ _ hgoal), ?_, ?_, ?_, fun d hd => ?_, ?_⟩
  · rw [hon, domOn_on_ne _ (by decide), domOn_on _ (by decide), beq_self_eq_true, Bool.or_true]
  · rw [hon, domOn_on _ (by decide), beq_self_eq_true, Bool.or_true]
  · exact (congrArg (·.1) hla).trans (hready'.trans hready)
  · rw [hon, domOn_on_ne _ (by omega), domOn_on_ne _ (by omega)]
  · exact (ram_of_lasting hla).trans (hram'.trans hram)

theorem hushToLobby_clause {s : State} (hh : s.pwr.house = .hush) (hg : s.pwr.goal = some .lobby) :
    Gives .moveHushToLobby s fun t => t.pwr.house = .lobby ∧
      t.pwr.goal = none ∧ t.on 3 = true ∧ (∀ d ∈ [5, 6, 7, 8], t.on d = (s.on d || s.cfgOn d)) ∧ t.on 4 = s.on 4 := by
  refine ⟨reached .lobby true ((domOn 3 s).forEach [5, 6, 7, 8] (onWhere configured)), congrArg Host.Outcome.next (if_pos (by simp [hh, hg])), ?_⟩
  have hbd := (forEach_onWhere_besideDom (domOn 3 s) configured [5, 6, 7, 8]).trans (domOn_besideDom s 3)
  have hon : ∀ k, k < 16 → (reached .lobby true ((domOn 3 s).forEach [5, 6, 7, 8] (onWhere configured))).on k =
      ((domOn 3 s).on k || ([5, 6, 7, 8].contains k && configured s.pwr k)) := fun k hk => by
    rw [reached_on, forEach_onWhere_on _ configured_congr _ hk, configured_congr _ _ k (domOn_besideDom s 3)]
  refine ⟨reached_house _ _ _, reached_goal _ _ ((goal_of_besideDom hbd).trans hg), ?_, fun d hd => ?_, ?_⟩
  · rw [hon 3 (by decide), domOn_on s (by decide), beq_self_eq_true, Bool.or_true, Bool.true_or]
  · have hd16 : d < 16 ∧ d ≠ 3 := by
      simp only [List.mem_cons, List.not_mem_nil, or_false] at hd
      omega
    rw [hon d hd16.1, domOn_on_ne s hd16.2, List.contains_iff_mem.mpr hd, Bool.true_and]
    rfl
  · rw [hon 4 (by decide), domOn_on_ne s (by decide)]
    exact Bool.or_false _

theorem lobbyToFull_clause {s : State} (hh : s.pwr.house = .lobby) (hg : s.pwr.goal = some .full) (hr : s.pwr.rising = false) (h9 : s.on 9 = false) :
    (s.cfgOn 9 = true → Gives .moveLobbyToFull s fun t => t.on 9 = true ∧ t.pwr.rising = true ∧ t.pwr.house = .lobby ∧
      t.mem.trained = false ∧ t.mem.eccNext = s.mem.ctlEcc) ∧
    (s.pwr.cfg = 0 → s.pwr.ramping = none → Gives .moveLobbyToFull s fun t => t.pwr.house = .full ∧ t.pwr.goal = none) := by
  have hstart : exec .moveLobbyToFull s = .next (riseOn (s.onPwr fun p => { p with rising := true })) :=
    congrArg Host.Outcome.next (if_pos (by simp [hh, hg, hr]))
  have hgu : (s.onPwr fun p => { p with rising := true }).pwr.goal = some .full := hg
  have hhu : (s.onPwr fun p => { p with rising := true }).pwr.house = .lobby := hh
  have h9u : (s.onPwr fun p => { p with rising := true }).on 9 = false := h9
  have hmu : (s.onPwr fun p => { p with rising := true }).mem = s.mem := rfl
  have hru : (s.onPwr fun p => { p with rising := true }).pwr.rising = true := rfl
  refine ⟨fun hc => ⟨_, hstart, ?_⟩, fun hc hp => ⟨_, hstart, ?_⟩⟩
  · have hcu : (s.onPwr fun p => { p with rising := true }).cfgOn 9 = true := hc
    generalize (s.onPwr fun p => { p with rising := true }) = u at hgu hhu h9u hmu hru hcu
    rw [riseOn_memory u hru hgu hcu h9u]
    have hbd := domOn_besideDom u 9
    refine ⟨by rw [domOn_on u (by decide), beq_self_eq_true, Bool.or_true], (rising_of_besideDom hbd).trans hru, (house_of_besideDom hbd).trans hhu, ?_⟩
    have hmem : (clocksOn 9 (setDom 9 true u)).mem = s.mem := (clocksOn_mem (setDom 9 true u) 9).trans hmu
    rw [domOn_eq, if_neg (by rw [h9u]; decide)]
    exact ⟨rfl, congrArg MemSt.ctlEcc hmem⟩
  · have hcu : (s.onPwr fun p => { p with rising := true }).pwr.cfg = 0 := hc
    have hpu : (s.onPwr fun p => { p with rising := true }).pwr.ramping = none := hp
    generalize (s.onPwr fun p => { p with rising := true }) = u at hgu hhu h9u hmu hru hcu hpu
    have hoff : ∀ t : State, t.pwr.cfg = 0 → ∀ d, t.cfgOn d = false := fun t ht d => by simp [State.cfgOn, ht]
    have hfcfg : (furnished u).pwr.cfg = 0 := (cfg_of_besideDom (furnished_besideDom u)).trans hcu
    have hnext : nextRamp (furnished u) = none := List.find?_eq_none.mpr fun q _ => by simp [hoff _ hfcfg]
    have hramp : (startRamp (furnished u)).pwr.ramping = none := by
      rw [startRamp_goes, ramping_of_besideDom (furnished_besideDom u), hpu, hnext]
      rfl
    rw [riseOn_rest u hru hgu (by simp [hoff u hcu]) (by simp [h9u]), if_neg (by rw [hramp]; decide)]
    refine ⟨arrived_house _, arrived_goal _ ?_⟩
    rw [show (startRamp (furnished u)).pwr.goal = (furnished u).pwr.goal from congrArg (·.2.1) (startRamp_stance (furnished u))]
    exact (goal_of_besideDom (furnished_besideDom u)).trans hgu

/-! ### Training and the quadrants -/

/-- The memory trained at a capacity. -/
def trainedAt (n : Nat) (s : State) : State := s.onMem fun m => { m with
  trained := true, valid := true, eccOn := m.eccNext, rate := if m.rateNext = 3 then 2 else m.rateNext
  installed := BitVec.ofNat 8 n, usable := BitVec.ofNat 8 (if m.eccNext then n * 15 / 16 else n) }

theorem memTrainDone_clause {n : Nat} {s : State} (hlo : 16 ≤ n) (hhi : n ≤ 128) (heven : n % 2 = 0) (h9 : s.on 9 = true)
    (ht : s.mem.trained = false) (hf : s.mem.fail = false) : Gives (.memTrainDone n) s fun t =>
    t.mem.trained = true ∧ t.mem.valid = true ∧ t.mem.eccOn = s.mem.eccNext ∧ t.mem.installed = BitVec.ofNat 8 n ∧
    t.mem.usable = BitVec.ofNat 8 (if s.mem.eccNext then n * 15 / 16 else n) ∧
    (s.pwr.rising = true → s.pwr.goal = some .full → (∀ d ∈ [10, 11, 4], s.cfgOn d = true → t.on d = true) ∧
      ((∀ q, q < 4 → s.cfgOn (12 + q) = false) → s.pwr.ramping = none → t.pwr.house = .full) ∧
      (s.cfgOn 12 = true → s.on 12 = false → s.pwr.ramping = none → t.pwr.ramping = some 0 ∧ t.pwr.house = s.pwr.house)) := by
  have hmem : (riseOn (trainedAt n s)).mem = (trainedAt n s).mem := riseOn_mem _ h9
  refine ⟨riseOn (trainedAt n s), congrArg Host.Outcome.next (if_pos (by simp [capacityOk, hlo, hhi, heven, h9, ht, hf])),
    congrArg MemSt.trained hmem, congrArg MemSt.valid hmem, congrArg MemSt.eccOn hmem, congrArg MemSt.installed hmem, congrArg MemSt.usable hmem, ?_⟩
  intro hr hg
  have hpwr : (trainedAt n s).pwr = s.pwr := rfl
  have hrest := riseOn_rest (trainedAt n s) hr hg (by simp [show (trainedAt n s).on 9 = true from h9]) (by simp [trainedAt])
  generalize trainedAt n s = u at hpwr hrest
  have hbd : (furnished u).pwr.besideDom = s.pwr.besideDom := (furnished_besideDom u).trans (congrArg PwrSt.besideDom hpwr)
  have hstance := startRamp_stance (furnished u)
  have hramp : s.pwr.ramping = none → (startRamp (furnished u)).pwr.ramping = nextRamp (furnished u) := fun hp => by
    rw [startRamp_goes, ramping_of_besideDom hbd, hp]
    rfl
  have hcfg : ∀ d, (furnished u).cfgOn d = s.cfgOn d := cfgOn_of_cfg (cfg_of_besideDom hbd)
  refine ⟨fun d hd hc => ?_, fun hq hp => ?_, fun hc h12 hp => ?_⟩
  · have hon : (startRamp (furnished u)).on d = true := by
      have hd16 : d < 16 := by
        simp only [List.mem_cons, List.not_mem_nil, or_false] at hd
        omega
      rw [startRamp_on, furnished_on u hd16, List.contains_iff_mem.mpr hd, hpwr, show configured s.pwr d = true from hc]
      simp
    rw [hrest]
    split
    · exact hon
    · rw [arrived_on, hon]
  · have hnext : nextRamp (furnished u) = none := List.find?_eq_none.mpr fun q hq4 => by
      rw [hcfg, hq q (List.mem_range.mp hq4), Bool.false_and]
      decide
    rw [hrest, if_neg (by rw [hramp hp, hnext]; decide)]
    exact arrived_house _
  · have hon12 : (furnished u).on 12 = false := by
      rw [furnished_on u (by decide), show u.on 12 = s.on 12 from congrArg (·.dom.getLsbD 12) hpwr, h12]
      rfl
    have hnext : nextRamp (furnished u) = some 0 := by
      unfold nextRamp
      rw [show List.range 4 = 0 :: [1, 2, 3] from rfl, List.find?_cons_of_pos (by rw [hcfg, hc, hon12]; rfl)]
    rw [hrest, if_pos (by rw [hramp hp, hnext]; rfl)]
    exact ⟨(hramp hp).trans hnext, (congrArg (·.1) hstance : _ = (furnished u).pwr.house).trans (house_of_besideDom hbd)⟩

theorem memTrainFail_clause {s : State} (h9 : s.on 9 = true) (ht : s.mem.trained = false) (hf : s.mem.fail = false) :
    Gives .memTrainFail s fun t => t.mem.fail = true ∧ t.mem.trained = false := by
  have hnote : (notify "mem" "train err" (s.onMem fun m => { m with fail := true })).mem = { s.mem with fail := true } :=
    mem_of_edgeKept (notify_edgeKept _ _ _)
  have h9' : (notify "mem" "train err" (s.onMem fun m => { m with fail := true })).on 9 = true := by
    unfold State.on
    rw [notify_pwr]
    exact h9
  refine ⟨riseOn (notify "mem" "train err" (s.onMem fun m => { m with fail := true })), congrArg Host.Outcome.next (if_pos (by simp [h9, ht, hf])), ?_⟩
  have hmem := (riseOn_mem _ h9').trans hnote
  exact ⟨congrArg MemSt.fail hmem, (congrArg MemSt.trained hmem).trans ht⟩

theorem quadrantRampEnd_clause {q : Nat} {s : State} (hq : q < 4) (hr : s.pwr.ramping = some q) :
    Gives (.quadrantRampEnd q) s fun t => t.on (12 + q) = true := by
  have hon : (announced (domOn (12 + q) (s.onPwr fun p => { p with ramping := none }))).on (12 + q) = true := by
    rw [on_of_stance (announced_stance _), domOn_on _ (by omega), beq_self_eq_true, Bool.or_true]
  refine ⟨_, congrArg Host.Outcome.next (if_pos hr), ?_⟩
  change (if (announced (domOn (12 + q) (s.onPwr fun p => { p with ramping := none }))).pwr.rising then
    riseOn (announced (domOn (12 + q) (s.onPwr fun p => { p with ramping := none })))
    else startRamp (announced (domOn (12 + q) (s.onPwr fun p => { p with ramping := none })))).on (12 + q) = true
  split
  · exact riseOn_on _ hon
  · rw [startRamp_on, hon]

/-! ### Down -/

theorem checkOut_pwr (l : List Nat) : (s.forEach l toRegistered).pwr = s.pwr ∧ (s.forEach l toRegistered).hth = s.hth := by
  have h := reopened_besideRooms l s
  exact ⟨(congrArg State.pwr h : (s.forEach l toRegistered).besideRooms.pwr = s.besideRooms.pwr),
    (congrArg State.hth h : (s.forEach l toRegistered).besideRooms.hth = s.besideRooms.hth)⟩

/-- The domains a move down switches off are off, and others as they were. -/
theorem forEach_domOff_reached {l : List Nat} (h : House) (say : Bool) (k : Nat) :
    (reached h say (s.forEach l domOff)).on k = (s.on k && !l.contains k) := by rw [reached_on, forEach_domOff_on]

/-- FULL left: the guests checked out, the domains of FULL off, no quadrant ramping. -/
def leftFull (s : State) : State :=
  (((hearthOff s).forEach (((hearthOff s).inn.guests.filter fun e => e.2.inRounds).map (·.1)) toRegistered).forEach
    [15, 14, 13, 12, 11, 10, 9, 4] domOff).onPwr fun p => { p with ramping := none }

theorem leftFull_on (k : Nat) : (leftFull s).on k = (s.on k && !([15, 14, 13, 12, 11, 10, 9, 4].contains k)) := by
  have hout := (checkOut_pwr (hearthOff s) (((hearthOff s).inn.guests.filter fun e => e.2.inRounds).map (·.1))).1
  refine (forEach_domOff_on _ _ k).trans ?_
  unfold State.on
  rw [hout, pwr_of_rails (hearthOff_rails s)]

theorem leftFull_goal : (leftFull s).pwr.goal = s.pwr.goal := by
  have hout := (checkOut_pwr (hearthOff s) (((hearthOff s).inn.guests.filter fun e => e.2.inRounds).map (·.1))).1
  refine (goal_of_besideDom (forEach_domOff_besideDom _ (l := [15, 14, 13, 12, 11, 10, 9, 4]) (by decide))).trans ?_
  rw [hout, pwr_of_rails (hearthOff_rails s)]

theorem leftFull_chansOff : ChansOff (leftFull s) := by
  have hout := (checkOut_pwr (hearthOff s) (((hearthOff s).inn.guests.filter fun e => e.2.inRounds).map (·.1))).2
  exact forEach_domOff_chansOff (fun _ hd => hd) (chansOff_of_hth hout (hearthOff_chansOff s))

theorem fullToLobby_clause {s : State} (hh : s.pwr.house = .full) (hg : s.pwr.goal = some .lobby) (hf : fadesEnded s = true) :
    Gives .moveFullToLobby s fun t =>
    t.pwr.house = .lobby ∧ t.pwr.goal = none ∧ (∀ d ∈ [4, 9, 10, 11, 12, 13, 14, 15], t.on d = false) ∧
    (∀ d ∈ [1, 2, 3, 5, 6, 7, 8], t.on d = s.on d) ∧ (∀ n, n < 8 → (t.chan n).state = .off) ∧ t.pwr.lc = 0 := by
  refine ⟨idleLoadcast (reached .lobby true (leftFull s)), congrArg Host.Outcome.next (if_pos (by simp [hh, hg, hf, houseNum])), ?_⟩
  have hst := idleLoadcast_stance (reached .lobby true (leftFull s))
  have hhouse : (reached .lobby true (leftFull s)).pwr.house = .lobby := reached_house _ _ _
  have hgoal : (reached .lobby true (leftFull s)).pwr.goal = none := reached_goal _ _ ((leftFull_goal s).trans hg)
  have hon : ∀ k, (idleLoadcast (reached .lobby true (leftFull s))).on k = (s.on k && !([15, 14, 13, 12, 11, 10, 9, 4].contains k)) := fun k =>
    (on_of_stance hst k).trans ((reached_on _ _ _ k).trans (leftFull_on s k))
  refine ⟨(house_of_stance hst).trans hhouse, (goal_of_stance hst).trans hgoal, fun d hd => ?_, fun d hd => ?_, ?_,
    idleLoadcast_lc (by rw [hhouse]; decide) (by rw [hgoal]; decide)⟩
  · have hin : [15, 14, 13, 12, 11, 10, 9, 4].contains d = true := by
      revert d
      decide
    rw [hon, hin]
    exact Bool.and_false _
  · have hout : [15, 14, 13, 12, 11, 10, 9, 4].contains d = false := by
      revert d
      decide
    rw [hon, hout]
    exact Bool.and_true _
  · exact chansOff_of_hth ((idleLoadcast_hth _).trans (reached_hth _ _ _)) (leftFull_chansOff s)

theorem reached_deferred (h : House) (say : Bool) : (reached h say s).deferred = s.deferred := by
  unfold reached
  extract_lets a b
  have hb : b.deferred = a.deferred := by
    unfold b
    split
    · exact notify_deferred a _ _
    · rfl
  exact (moveEnds_deferred b).trans hb

theorem sayCrc_deferred (k : Nat) : (sayCrc k s).deferred = s.deferred := by simp [sayCrc]

theorem reloadSlots_deferred : (reloadSlots s).deferred = s.deferred := by
  unfold reloadSlots
  extract_lets bad a factory user
  exact (State.onPor_deferred a _).trans (State.forEach_deferred s fun k t => sayCrc_deferred t k)

theorem reportGauge_deferred : (reportGauge s).deferred = s.deferred := by
  unfold reportGauge
  extract_lets l a
  have ha : a.deferred = s.deferred := State.forEach_deferred s fun _ t => pushLog_deferred t _
  split
  · exact (notify_deferred a _ _).trans ha
  · exact ha

theorem hushRefresh_deferred : (hushRefresh s).deferred = s.deferred := by
  unfold hushRefresh
  split <;> rfl

variable {s}

/-- Nothing held for a reply, nothing to take place. -/
theorem settleDue_undeferred (h : s.deferred = []) : settleDue s = s :=
  settleDue_of_none fun e he => by
    rw [show s.desk.deferred = [] from h] at he
    cases he

theorem heldHouse_undeferred (h : s.deferred = []) (f : Nat → Bool) : heldHouse f s = false := by
  unfold heldHouse
  rw [show s.desk.deferred = [] from h]
  rfl

theorem lobbyToHush_clause (hh : s.pwr.house = .lobby) (hr : s.pwr.rising = false) (hg : s.pwr.goal = some .hush) (hd : s.desk.deferred = []) :
    Gives .moveLobbyToHush s fun t => t.pwr.house = .hush ∧ t.pwr.goal = none ∧ (∀ d ∈ [3, 5, 6, 7, 8], t.on d = false) ∧
      t.on 1 = s.on 1 ∧ t.on 2 = s.on 2 := by
  have hbd : (s.forEach [8, 7, 6, 5, 3] domOff).pwr.besideDom = s.pwr.besideDom := forEach_domOff_besideDom s (by decide)
  have hdue : (hushRefresh (reportGauge (reloadSlots (reached .hush true (s.forEach [8, 7, 6, 5, 3] domOff))))).deferred = [] := by
    rw [hushRefresh_deferred, reportGauge_deferred, reloadSlots_deferred, reached_deferred]
    exact forEach_domOff_undeferred _ hd
  have hst : (hushRefresh (reportGauge (reloadSlots (reached .hush true (s.forEach [8, 7, 6, 5, 3] domOff))))).stance =
      (reached .hush true (s.forEach [8, 7, 6, 5, 3] domOff)).stance := stance_of_rails (by
    rw [hushRefresh_rails, reportGauge_rails, reloadSlots_rails])
  have hon := fun k => (on_of_stance hst k).trans (forEach_domOff_reached s .hush true (l := [8, 7, 6, 5, 3]) k)
  refine ⟨_, congrArg Host.Outcome.next ((if_pos (by simp [hh, hr, hg, heldHouse_undeferred hd])).trans (settleDue_undeferred hdue)),
    (house_of_stance hst).trans (reached_house _ _ _), (goal_of_stance hst).trans (reached_goal _ _ ((goal_of_besideDom hbd).trans hg)),
    fun d hd => ?_, (hon 1).trans (Bool.and_true _), (hon 2).trans (Bool.and_true _)⟩
  have hin : [8, 7, 6, 5, 3].contains d = true := by
    revert d
    decide
  rw [hon, hin]
  exact Bool.and_false _

/-- What an entry to VAULT does before the last domains go off: what was begun ends, and the cell is read. -/
def vaultReady (mv : Nat) (s : State) : State :=
  dropEnrol ((releaseWake (gaugeCheck mv ((List.range 4).foldl (fun s _ => commitLog [] s) (runAllJobs (s.ldg.queue.length + 1) s)))).onPwr
    fun p => { p with resetV := p.resetV + 1 })

theorem vaultReady_pwr (mv : Nat) (s : State) :
    (vaultReady mv s).pwr = { s.pwr with resetV := s.pwr.resetV + 1 } ∧ (vaultReady mv s).por.wakeOut = false := by
  have hlogs : ((List.range 4).foldl (fun s _ => commitLog [] s) (runAllJobs (s.ldg.queue.length + 1) s)).rails = s.rails :=
    (State.forEach_rails _ (l := List.range 4) fun _ t => commitLog_rails [] t).trans (runAllJobs_rails _ s)
  have hpwr := pwr_of_rails hlogs
  unfold vaultReady
  generalize (List.range 4).foldl (fun s _ => commitLog [] s) (runAllJobs (s.ldg.queue.length + 1) s) = t at hpwr
  refine ⟨?_, ?_⟩
  · rw [pwr_of_rails (rails_of_powerKept (dropEnrol_powerKept _))]
    show { t.pwr with resetV := t.pwr.resetV + 1 } = _
    rw [hpwr]
  · unfold dropEnrol
    split <;> rfl

theorem pd2Off_bare (s : State) : (pd2Off s).desk = { sess0 := {}, script := .idle } ∧ (s.por.wakeOut = false → (pd2Off s).por.wakeOut = false) := by
  unfold pd2Off
  extract_lets a b c
  refine ⟨rfl, fun h => ?_⟩
  show a.por.wakeOut = false
  unfold a
  split
  · rfl
  · exact h

theorem domOff_desk (h : s.on 2 = true) : (domOff 2 s).desk = { sess0 := {}, script := .idle } ∧ (s.por.wakeOut = false → (domOff 2 s).por.wakeOut = false) := by
  rw [domOff_eq, if_neg (by rw [h]; decide)]
  exact pd2Off_bare _

theorem domOff_ledger (s : State) : (domOff 1 s).desk = s.desk ∧ (domOff 1 s).por = s.por := by
  rw [domOff_eq]
  split
  · exact ⟨rfl, rfl⟩
  · exact ⟨rfl, rfl⟩

theorem bareDesk_closed (k : Nat) : (({ sess0 := {}, script := .idle } : DeskSt).sess k).opened = false := by
  match k with
  | 0 | 1 | 2 | _ + 3 => rfl

theorem reached_por (h : House) (s : State) : (reached h false s).por = s.por := by
  unfold reached moveEnds
  extract_lets a b
  split <;> rfl

theorem hushToVault_clause (mv : Nat) (hh : s.pwr.house = .hush) (hg : s.pwr.goal = some .vault) (hd : s.desk.deferred = []) (h2 : s.on 2 = true) :
    Gives (.moveHushToVault mv) s fun t => t.pwr.house = .vault ∧ t.on 1 = false ∧ t.on 2 = false ∧ t.pwr.resetV = s.pwr.resetV + 1 ∧
      t.pwr.byFail = false ∧ t.por.wakeOut = false ∧ ∀ k, (t.sess k).opened = false := by
  refine ⟨(domOff 1 (domOff 2 (reached .vault false (vaultReady mv s)))).onPwr fun p => { p with byFail := false, woken := false },
    congrArg Host.Outcome.next (if_pos (by simp [hh, hg, heldHouse_undeferred hd])), ?_⟩
  obtain ⟨hpwr, hwake⟩ := vaultReady_pwr mv s
  have hr : (reached .vault false (vaultReady mv s)).pwr.resetV = s.pwr.resetV + 1 := by
    rw [reached_pwr, hpwr]
  have h2r : (reached .vault false (vaultReady mv s)).on 2 = true := by
    rw [reached_on]
    unfold State.on
    rw [hpwr]
    exact h2
  have hhr : (reached .vault false (vaultReady mv s)).pwr.house = .vault := reached_house _ _ _
  have hwr : (reached .vault false (vaultReady mv s)).por.wakeOut = false := by rw [reached_por, hwake]
  generalize reached .vault false (vaultReady mv s) = u at hr h2r hhr hwr
  have hc : (domOff 1 (domOff 2 u)).course = u.course := (domOff_dom _ 1).2.trans (domOff_dom u 2).2
  obtain ⟨hdesk, hpor⟩ := domOff_desk h2r
  obtain ⟨hdesk', hpor'⟩ := domOff_ledger (domOff 2 u)
  have hon : ∀ k, (domOff 1 (domOff 2 u)).on k = (u.on k && k != 2 && k != 1) := fun k => by rw [domOff_on, domOff_on]
  refine ⟨(congrArg (·.1) hc).trans hhr, (hon 1).trans (by simp), (hon 2).trans (by simp), (congrArg (·.2.2.2.2.2.1) hc).trans hr, rfl, ?_, fun k => ?_⟩
  · show (domOff 1 (domOff 2 u)).por.wakeOut = false
    rw [hpor', hpor hwr]
  · show ((domOff 1 (domOff 2 u)).desk.sess k).opened = false
    rw [hdesk', hdesk]
    exact bareDesk_closed k

/-! ### Power failure and resets -/

theorem saveOverflow_rails (s : State) : (saveOverflow s).rails = s.rails := State.onLdg_rails s _

/-- What a power failure does before the domains are cut: the outputs dry, the Hearth off, the commit in progress ended. -/
def failureReady (r : Nat) (s : State) : State :=
  saveOverflow (runFirst [] .complete (decide (r ≠ 0)) (hearthOff (dryOutputs true (entryCheck (s.onPwr fun p => { p with pfail := true }))))).1

theorem failureReady_pwr (r : Nat) (s : State) : (failureReady r s).pwr = { s.pwr with pfail := true } := by
  have hdry : (dryOutputs true (entryCheck (s.onPwr fun p => { p with pfail := true }))).rails = (s.onPwr fun p => { p with pfail := true }).rails :=
    (State.onInn_rails _ _).trans (rails_of_powerKept (entryCheck_powerKept (s.onPwr fun p => { p with pfail := true })))
  have h := pwr_of_rails ((saveOverflow_rails _).trans ((runFirst_rails [] .complete (decide (r ≠ 0)) _).trans ((hearthOff_rails _).trans hdry)))
  exact h

/-- The reset voltage counted, and every domain but PD0 off. -/
def failed (s : State) : State := cutAll (dropEnrol (s.onPwr fun p => { p with resetV := p.resetV + 1 }))

theorem failed_gives (s : State) : (failed s).pwr.resetV = s.pwr.resetV + 1 ∧ ∀ d, 1 ≤ d → d < 16 → (failed s).on d = false := by
  obtain ⟨hc, hoff⟩ := cutAll_gives (dropEnrol (s.onPwr fun p => { p with resetV := p.resetV + 1 }))
  refine ⟨(congrArg (·.2.2.2.2.2.1) hc).trans ?_, hoff⟩
  exact congrArg PwrSt.resetV (pwr_of_rails (rails_of_powerKept (dropEnrol_powerKept (s.onPwr fun p => { p with resetV := p.resetV + 1 }))))

theorem pwrfail_clause (r : Nat) (s : State) : (s.pwr.house ≠ .vault → Gives (.pwrfail r) s fun t => t.pwr.house = .vault ∧ t.pwr.byFail = true ∧
      t.pwr.goal = none ∧ t.pwr.resetV = s.pwr.resetV + 1 ∧ ∀ d, 1 ≤ d → d < 16 → t.on d = false) ∧
    (s.pwr.house = .vault → exec (.pwrfail r) s = .next s) := by
  refine ⟨fun h => ?_, fun h => congrArg Host.Outcome.next (if_neg (not_not.mpr h))⟩
  refine ⟨(failed (failureReady r s)).onPwr fun p => { p with house := .vault, goal := none, byFail := true, woken := false },
    congrArg Host.Outcome.next (if_pos h), ?_⟩
  obtain ⟨hreset, hoff⟩ := failed_gives (failureReady r s)
  rw [failureReady_pwr] at hreset
  generalize failed (failureReady r s) = u at hreset hoff
  exact ⟨rfl, rfl, rfl, hreset, hoff⟩

theorem vaonWake_clause (b : BitVec 3) (s : State) : s.pwr.house = .vault → s.pwr.vaon = true → s.sys.testmode = false → s.pwr.goal = none →
    (s.pwr.byFail = true ∨ s.pwr.woken = true → Gives (.vaonWake b) s fun t => t.pwr.goal = some .hush ∧ t.sys.strap = b ∧
      t.sys.rCold = true ∧ t.sys.rPin = false ∧ t.sys.warms = 0) ∧
    (s.pwr.byFail = false → s.pwr.woken = false → exec (.vaonWake b) s = .next s) := fun hh hv ht hg =>
  ⟨fun hw => ⟨_, congrArg Host.Outcome.next (if_pos (by simpa [hh, hv, ht, hg] using hw)), rfl, rfl, rfl, rfl, rfl⟩,
    fun hf hw => congrArg Host.Outcome.next (if_neg (by simp [hf, hw]))⟩

/-! ### The configuration -/

/-- The domains below the quadrants that a configuration has on in a house state. -/
def wanted (c : BitVec 12) (p : PwrSt) (d : Nat) : Bool := wantsDom p.house c d

theorem wanted_congr (c : BitVec 12) (p p' : PwrSt) (d : Nat) (h : p.besideDom = p'.besideDom) : wanted c p d = wanted c p' d := by
  have hh : p.house = p'.house := (congrArg PwrSt.house h : p.besideDom.house = p'.besideDom.house)
  rw [wanted, wanted, hh]

/-- The domains a configuration may switch on at once, in order of need. -/
def belowQuads : List Nat := onOrder.filter fun d => decide (4 ≤ d) && decide (d < 12)

/-- A configuration in force, but for the quadrants' ramps. -/
def configuredTo (c : BitVec 12) (s : State) : State :=
  ((s.forEach (cfgDrops c s) domOff).onPwr fun p => { p with cfg := c, ramping := p.ramping.filter fun q => c.getLsbD (8 + q) }).forEach
    belowQuads (onWhere (wanted c))

theorem applyCfg_eq (c : BitVec 12) (s : State) : applyCfg c s =
    if (configuredTo c s).pwr.house = .full then startRamp (configuredTo c s) else riseOn (configuredTo c s) := rfl

theorem mem_cfgDrops {c : BitVec 12} {d : Nat} (s : State) :
    (cfgDrops c s).contains d = (offOrder.contains d && (decide (4 ≤ d) && s.on d && !wantsDom s.cfgHouse c d)) := by
  rw [Bool.eq_iff_iff]
  simp [cfgDrops]

theorem cfgDrops_ge (c : BitVec 12) (s : State) : ∀ d ∈ cfgDrops c s, 4 ≤ d := fun d hd => by
  simp only [cfgDrops, List.mem_filter, Bool.and_eq_true, decide_eq_true_eq] at hd
  exact hd.2.1.1

theorem configuredTo_deferred (c : BitVec 12) (h : s.deferred = []) : (configuredTo c s).deferred = [] :=
  (forEach_onWhere_deferred _ (wanted c) (by decide)).trans (forEach_domOff_undeferred (cfgDrops c s) h)

theorem configuredTo_besideDom (c : BitVec 12) (s : State) : (configuredTo c s).pwr.besideDom =
    ({ s.pwr with cfg := c, ramping := s.pwr.ramping.filter fun q => c.getLsbD (8 + q) } : PwrSt).besideDom := by
  have h2 : 2 ∉ cfgDrops c s := fun h => absurd (cfgDrops_ge c s 2 h) (by decide)
  have hoff := forEach_domOff_besideDom s h2
  unfold configuredTo
  rw [forEach_onWhere_besideDom]
  generalize s.forEach (cfgDrops c s) domOff = u at hoff
  have hset : ∀ p : PwrSt, ({ p with cfg := c, ramping := p.ramping.filter fun q => c.getLsbD (8 + q) } : PwrSt).besideDom =
      { p.besideDom with cfg := c, ramping := p.besideDom.ramping.filter fun q => c.getLsbD (8 + q) } := fun _ => rfl
  exact (hset u.pwr).trans ((congrArg (fun p : PwrSt => { p with cfg := c, ramping := p.ramping.filter fun q => c.getLsbD (8 + q) }) hoff).trans (hset s.pwr).symm)

theorem belowQuads_iff : ∀ {d : Nat}, d < 12 → belowQuads.contains d = decide (4 ≤ d) ∧ (4 ≤ d → offOrder.contains d = true) := by decide

/-- In a house state that no rise is leaving, the domains below the quadrants are as the configuration wants them. -/
theorem configuredTo_on {c : BitVec 12} (hr : s.pwr.rising = false) {d : Nat} (hd : d < 12) :
    (configuredTo c s).on d = if 4 ≤ d then wantsDom s.pwr.house c d else s.on d := by
  have hbd := forEach_domOff_besideDom s (l := cfgDrops c s) fun h => absurd (cfgDrops_ge c s 2 h) (by decide)
  have hhouse : s.cfgHouse = s.pwr.house := if_neg (by rw [hr]; decide)
  unfold configuredTo
  rw [forEach_onWhere_on _ (wanted_congr c) _ (by omega)]
  have hu : ((s.forEach (cfgDrops c s) domOff).onPwr fun p => { p with cfg := c, ramping := p.ramping.filter fun q => c.getLsbD (8 + q) }).on d =
      (s.on d && !(cfgDrops c s).contains d) := forEach_domOff_on s (cfgDrops c s) d
  have hw : wanted c ((s.forEach (cfgDrops c s) domOff).onPwr fun p => { p with cfg := c, ramping := p.ramping.filter fun q => c.getLsbD (8 + q) }).pwr d =
      wantsDom s.pwr.house c d :=
    (congrArg (wantsDom · c d) (house_of_besideDom hbd) : wantsDom (s.forEach (cfgDrops c s) domOff).pwr.house c d = _)
  rw [hu, hw, mem_cfgDrops, hhouse]
  have hin := belowQuads_iff hd
  rw [hin.1]
  split
  next h4 =>
    rw [hin.2 h4]
    cases s.on d <;> cases wantsDom s.pwr.house c d <;> simp [h4]
  next h4 => simp [h4]

theorem pwrDomcfgWrite_clause (v : W32) (h2 : s.on 2 = true) (hd : s.desk.deferred = []) :
    (cfgBad (BitVec.ofNat 12 (fld v 4 12)) = false → s.pwr.rising = false →
      (∀ d ∈ cfgDrops (BitVec.ofNat 12 (fld v 4 12)) s, domHolds d s = false) → Gives (.pwrDomcfgWrite v) s fun t =>
        t.pwr.cfg = BitVec.ofNat 12 (fld v 4 12) ∧ (∀ d, 4 ≤ d → d < 12 → t.on d = wantsDom s.pwr.house (BitVec.ofNat 12 (fld v 4 12)) d) ∧
        (∀ d, d < 4 → t.on d = s.on d)) ∧
    (cfgBad (BitVec.ofNat 12 (fld v 4 12)) = true → exec (.pwrDomcfgWrite v) s = .next s) := by
  have hexec : exec (.pwrDomcfgWrite v) s = .next (settleDue (writeDomcfg v s)) := congrArg Host.Outcome.next (if_pos h2)
  unfold writeDomcfg at hexec
  generalize BitVec.ofNat 12 (fld v 4 12) = c at hexec
  refine ⟨fun hb hr hh => ?_, fun hb => ?_⟩
  · have hany : ((cfgDrops c s).any fun d => domHolds d s) = false := List.any_eq_false.mpr fun d hdd => by rw [hh d hdd]; decide
    have happly : exec (.pwrDomcfgWrite v) s = .next (settleDue (applyCfg c s)) :=
      hexec.trans (congrArg (fun t => Host.Outcome.next (settleDue t)) (if_neg (by rw [hb, hany]; decide)))
    rw [applyCfg_eq] at happly
    have hbd := configuredTo_besideDom c s
    have hrise : (configuredTo c s).pwr.rising = false := (congrArg PwrSt.rising hbd : (configuredTo c s).pwr.besideDom.rising = _).trans hr
    have hcfg : (configuredTo c s).pwr.cfg = c := (congrArg PwrSt.cfg hbd : (configuredTo c s).pwr.besideDom.cfg = _)
    have hon := fun d (h : d < 12) => configuredTo_on (c := c) hr h
    have hdue := configuredTo_deferred c hd
    generalize configuredTo c s = u at happly hrise hcfg hon hdue
    have hrest : ∃ t, exec (.pwrDomcfgWrite v) s = .next t ∧ t.pwr.cfg = c ∧ ∀ d, t.on d = u.on d := by
      by_cases hf : u.pwr.house = .full
      · rw [if_pos hf, settleDue_undeferred ((startRamp_deferred u).trans hdue)] at happly
        exact ⟨_, happly, (congrArg (·.2.2.2.1) (startRamp_stance u)).trans hcfg, startRamp_on u⟩
      · rw [if_neg hf, riseOn_idle u (.inl hrise), settleDue_undeferred hdue] at happly
        exact ⟨u, happly, hcfg, fun _ => rfl⟩
    obtain ⟨t, ht, htc, hton⟩ := hrest
    refine ⟨t, ht, htc, fun d h4 h12 => ?_, fun d h4 => ?_⟩
    · rw [hton, hon d h12, if_pos h4]
    · rw [hton, hon d (by omega), if_neg (by omega)]
  · exact hexec.trans (congrArg Host.Outcome.next ((congrArg settleDue (if_pos (by rw [hb]; rfl))).trans (settleDue_undeferred hd)))

end

/-- Settles O54: each move is the runs of domains it switches, between what its steps leave of the power registers (`stance`). -/
theorem houseMoves : Obligations.HouseMoves := by
  unfold Obligations.HouseMoves
  refine ⟨houseSet_clause, fun c p a e s hp hu hc => refuses_of_body rfl hp (houseSetBody_noRefclk hu hc),
    fun s hh hg hv ht h1 h2 => vaultToHush_clause hh hg hv ht h1 h2, fun s h => ?_, fun s hh hg => hushToLobby_clause hh hg,
    fun s hh hg hr h9 => lobbyToFull_clause hh hg hr h9, fun n s hlo hhi he h9 ht hf => memTrainDone_clause hlo hhi he h9 ht hf, fun n s h => ?_,
    fun s h9 ht hf => memTrainFail_clause h9 ht hf, fun q s hq hr => quadrantRampEnd_clause hq hr, fun q s h => congrArg Host.Outcome.next (if_neg h),
    fun s hh hg hf => fullToLobby_clause hh hg hf, fun s hh hr hg hd => lobbyToHush_clause hh hr hg hd,
    fun mv s hh hg hd h2 => hushToVault_clause mv hh hg hd h2, pwrfail_clause, vaonWake_clause, fun b s => ?_, fun s => ?_,
    fun v s h2 hd => pwrDomcfgWrite_clause v h2 hd, fun c p a e s hp => answersWith_of_body rfl hp ⟨_, _, rfl, rfl, rfl⟩⟩
  · exact congrArg Host.Outcome.next (if_neg (by simp [h]))
  · have hcap : capacityOk n = false := by
      unfold capacityOk
      obtain h | h | h := h
      · simp [Nat.not_le.mpr h]
      · simp [Nat.not_le.mpr h]
      · simp [h]
    exact congrArg Host.Outcome.next (if_neg (by simp [hcap]))
  · obtain ⟨hhouse, hgoal, hpin, hcold, -, -, htest, hstrap, hoff⟩ := pinReset_gives s (some b) false false
    exact ⟨pinReset (some b) false false s, rfl, hhouse, hgoal, hpin, hcold, hstrap, htest, hoff⟩
  · obtain ⟨-, hgoal, -, hoff⟩ := pinCut_gives s
    exact ⟨(pinCut s).onSys fun y => { y with testmode := true }, rfl, rfl, hgoal, hoff⟩

end Sys2Proof.Machine
end

section
/-! What one channel's step leaves of the Hearth's other channels and settings, and a walk over the channels (spec 13). -/

namespace Sys2Proof.Machine

/-- The Hearth beside its channels, and how many channels it has. -/
def State.hearth (s : State) : HthSt × Nat := ({ s.hth with chans := [] }, s.hth.chans.length)

theorem hearth_of_hth {s t : State} (h : t.hth = s.hth) : t.hearth = s.hearth := by rw [State.hearth, State.hearth, h]

section
variable {s t : State} (h : t.hearth = s.hearth)
include h

theorem length_of_hearth : t.hth.chans.length = s.hth.chans.length := congrArg (·.2) h
theorem vsup_of_hearth : t.hth.vsup = s.hth.vsup := congrArg (·.1.vsup) h
theorem vref_of_hearth : t.hth.vref = s.hth.vref := congrArg (·.1.vref) h
theorem sag_of_hearth : t.hth.sag = s.hth.sag := congrArg (·.1.sag) h
theorem suplow_of_hearth : t.hth.suplow = s.hth.suplow := congrArg (·.1.suplow) h
theorem tokens_of_hearth : t.hth.tokens = s.hth.tokens := congrArg (·.1.tokens) h
theorem imax_of_hearth : t.hth.imax = s.hth.imax := congrArg (·.1.imax) h
theorem period_of_hearth : t.hth.period = s.hth.period := congrArg (·.1.period) h

end

theorem State.onChan_hearth (k : Nat) (f : Chan → Chan) (s : State) : (s.onChan k f).hearth = s.hearth :=
  congrArg (Prod.mk { s.hth with chans := [] }) (State.onChan_length k f s)

theorem toState_hearth (ch : Nat) (st : HState) (cut : Bool) (s : State) : (toState ch st cut s).hearth = s.hearth := by
  obtain ⟨hbeside, hlen⟩ := toState_besideChans ch st cut s
  exact Prod.ext hbeside hlen

theorem setReady_hearth (ch : Nat) (on_ cut : Bool) (s : State) : (setReady ch on_ cut s).hearth = s.hearth := by
  obtain ⟨hbeside, hlen⟩ := setReady_besideChans ch on_ cut s
  exact Prod.ext hbeside hlen

theorem lt_of_chan {n : Nat} {s : State} (h : (s.chan n).state ≠ .off) : n < s.hth.chans.length :=
  Nat.lt_of_not_le fun hle => h (chan_of_ge hle)

/-! ### A walk over the channels -/

/-- An operation for a channel that leaves the others and the Hearth's settings. -/
structure PerChan {α : Type} (key : α → Nat) (f : α → State → State) : Prop where
  others : ∀ a j s, j ≠ key a → (f a s).chan j = s.chan j
  settings : ∀ a s, (f a s).hearth = s.hearth

section
variable {α : Type} {key : α → Nat} {f : α → State → State} (h : PerChan key f)
include h

theorem PerChan.forEach_hearth (l : List α) (s : State) : (s.forEach l f).hearth = s.hearth :=
  State.forEach_keeps s State.hearth l f fun a t => h.settings a t

theorem PerChan.forEach_others {l : List α} {j : Nat} (hj : j ∉ l.map key) (s : State) : (s.forEach l f).chan j = s.chan j := by
  induction l generalizing s with
  | nil => rfl
  | cons a l ih =>
    rw [List.map_cons, List.mem_cons, not_or] at hj
    rw [State.forEach_cons, ih hj.2, h.others a j s hj.1]

/-- A walk that comes to each channel once does to it what its step does, started from its own part of the state. -/
theorem PerChan.forEach_chan {l : List α} (hl : (l.map key).Nodup) {a : α} (ha : a ∈ l) (s : State) :
    ∃ u : State, u.chan (key a) = s.chan (key a) ∧ u.hearth = s.hearth ∧ (s.forEach l f).chan (key a) = (f a u).chan (key a) := by
  induction l generalizing s with
  | nil => cases ha
  | cons b l ih =>
    rw [List.map_cons, List.nodup_cons] at hl
    rw [State.forEach_cons]
    obtain rfl | hin := List.mem_cons.mp ha
    · exact ⟨s, rfl, rfl, h.forEach_others hl.1 _⟩
    · obtain ⟨u, hchan, hset, hres⟩ := ih hl.2 hin (f b s)
      have hne : key a ≠ key b := fun heq => hl.1 (heq ▸ List.mem_map_of_mem hin)
      exact ⟨u, hchan.trans (h.others b _ s hne), hset.trans (h.settings b s), hres⟩

end

/-- A walk over the eight channels. -/
theorem PerChan.forEach_range {f : Nat → State → State} (h : PerChan id f) {n : Nat} (hn : n < 8) (s : State) :
    ∃ u : State, u.chan n = s.chan n ∧ u.hearth = s.hearth ∧ (s.forEach (List.range 8) f).chan n = (f n u).chan n :=
  h.forEach_chan (by rw [List.map_id]; exact List.nodup_range) (a := n) (List.mem_range.mpr hn) s

theorem PerChan.ite {α : Type} {key : α → Nat} {f : α → State → State} (h : PerChan key f) (c : α → State → Prop) [∀ a s, Decidable (c a s)] :
    PerChan key fun a s => if c a s then f a s else s where
  others a j s hj := by
    split
    · exact h.others a j s hj
    · rfl
  settings a s := by
    split
    · exact h.settings a s
    · rfl

/-! ### The operations of a channel -/

theorem toState_perChan (st : HState) (cut : Bool) : PerChan id fun n s => toState n st cut s where
  others _ _ s hj := toState_chan_ne hj st cut s
  settings n s := toState_hearth n st cut s

theorem latch_chan_ne {ch j : Nat} (hj : j ≠ ch) (f : HFault) (final cut : Bool) (s : State) : (latch ch f final cut s).chan j = s.chan j := by
  unfold latch
  split
  · rfl
  · refine (chan_of_hth ((logEv_hth _ _ _ _ _ _).trans (notify_hth _ _ _)) j).trans ?_
    rw [State.onChan_chan_ne hj, toState_chan_ne hj]

theorem latch_hearth (ch : Nat) (f : HFault) (final cut : Bool) (s : State) : (latch ch f final cut s).hearth = s.hearth := by
  unfold latch
  split
  · rfl
  · refine (hearth_of_hth ((logEv_hth _ _ _ _ _ _).trans (notify_hth _ _ _))).trans ?_
    rw [State.onChan_hearth, toState_hearth]

/-- A channel that is not idle takes the fault. -/
theorem latch_chan {ch : Nat} (f : HFault) (final cut : Bool) {s : State} (h : (s.chan ch).idle = false) :
    (latch ch f final cut s).chan ch = { (s.chan ch).enter .fault s.hth.period with fault := f } := by
  have hst : (s.chan ch).state ≠ .off ∧ (s.chan ch).state ≠ .fault := by simpa [Chan.idle] using h
  have hlen := lt_of_chan hst.1
  unfold latch
  rw [if_neg (by rw [h]; decide)]
  refine (chan_of_hth ((logEv_hth _ _ _ _ _ _).trans (notify_hth _ _ _)) ch).trans ?_
  rw [State.onChan_chan (by rw [length_of_hearth (toState_hearth ch .fault cut s)]; exact hlen), toState_chan cut hlen hst.2]

theorem abortChan_perChan (cut : Bool) : PerChan id fun n s => abortChan n cut s where
  others _ _ s hj := by
    unfold abortChan
    split
    · exact latch_chan_ne hj _ _ _ _
    · exact (State.onChan_chan_ne hj _ _).trans (toState_chan_ne hj _ _ _)
  settings n s := by
    unfold abortChan
    split
    · exact latch_hearth _ _ _ _ _
    · exact (State.onChan_hearth _ _ _).trans (toState_hearth _ _ _ _)

theorem readyStep_perChan (cut : Bool) : PerChan (·.1) fun (e : Nat × HMeas) s => readyStep e.1 e.2 cut s where
  others e j s hj := by
    unfold readyStep
    dsimp only
    split
    · rfl
    split
    · exact (setReady_chan_ne hj _ _ _).trans (State.onChan_chan_ne hj _ _)
    split
    · rfl
    split
    · split
      · exact setReady_chan_ne hj _ _ _
      · rfl
    split
    · exact setReady_chan_ne hj _ _ _
    · rfl
  settings e s := by
    unfold readyStep
    dsimp only
    split
    · rfl
    split
    · exact (setReady_hearth _ _ _ _).trans (State.onChan_hearth _ _ _)
    split
    · rfl
    split
    · split
      · exact setReady_hearth _ _ _ _
      · rfl
    split
    · exact setReady_hearth _ _ _ _
    · rfl

/-! ### One channel's part of a period -/

/-- The channel measured. -/
def Chan.read (vsup : Nat) (m : HMeas) (c : Chan) : Chan := c.measured (c.loadMv vsup m.hv).toNat (c.loadMa m.hsp m.hsn)

section
variable (vsup : Nat) (m : HMeas) (c : Chan)

/-- Measurement changes the four estimates alone. -/
theorem Chan.read_estimates : ∃ v i r t, c.read vsup m = { c with v := v, i := i, rest := r, temp := t } := ⟨_, _, _, _, rfl⟩

theorem Chan.read_keeps : (c.read vsup m).state = c.state ∧ (c.read vsup m).mode = c.mode ∧ (c.read vsup m).div = c.div ∧
    (c.read vsup m).token = c.token ∧ (c.read vsup m).ready = c.ready ∧ (c.read vsup m).ilim = c.ilim ∧ (c.read vsup m).rhot = c.rhot ∧
    (c.read vsup m).target = c.target ∧ (c.read vsup m).ramp = c.ramp ∧ (c.read vsup m).present = c.present := by
  obtain ⟨v, i, r, t, h⟩ := c.read_estimates vsup m
  rw [h]
  exact ⟨rfl, rfl, rfl, rfl, rfl, rfl, rfl, rfl, rfl, rfl⟩

theorem Chan.read_state : (c.read vsup m).state = c.state := (c.read_keeps vsup m).1
theorem Chan.read_mode : (c.read vsup m).mode = c.mode := (c.read_keeps vsup m).2.1
theorem Chan.read_div : (c.read vsup m).div = c.div := (c.read_keeps vsup m).2.2.1

theorem Chan.read_idle : (c.read vsup m).idle = c.idle := by rw [Chan.idle, Chan.idle, Chan.read_state]

theorem Chan.read_loadMv (hv : Nat) : (c.read vsup m).loadMv vsup hv = c.loadMv vsup hv := by
  rw [Chan.loadMv, Chan.loadMv, Chan.drainMv, Chan.drainMv, Chan.read_div]

end

/-- The channel's present target has been reached and its current has stayed below ILIM. -/
def Chan.arrived (m : HMeas) (c : Chan) : Bool :=
  c.state == .ramp && decide (c.present = c.target.toNat * 1000000) && m.below10 && decide (c.i.toNat < c.ilim.toNat)

/-- A channel's part of a period once it is measured and no fault is found. -/
def stepChan (ch : Nat) (m : HMeas) (cut : Bool) (s : State) : State :=
  let s := s.onChan ch Chan.stepped
  readyStep ch m cut (if (s.chan ch).arrived m = true then toState ch .run cut s else s)

theorem loopChan_eq (ch : Nat) (m : HMeas) (cut : Bool) (s : State) : loopChan ch m cut s =
    (let s' := s.onChan ch (Chan.read s.hth.vsup.toNat m)
    if (s'.chan ch).idle then s'
    else if (s'.chan ch).mode = .off then toState ch .off cut s'
    else match loopFault s.hth.vsup.toNat m (s'.chan ch) with
      | some f => latch ch f false cut s'
      | none => stepChan ch m cut s') := rfl

theorem stepChan_perChan (cut : Bool) : PerChan (·.1) fun (e : Nat × HMeas) s => stepChan e.1 e.2 cut s where
  others e j s hj := by
    refine ((readyStep_perChan cut).others e j _ hj).trans ?_
    split
    · rw [toState_chan_ne hj, State.onChan_chan_ne hj]
    · exact State.onChan_chan_ne hj _ _
  settings e s := by
    refine ((readyStep_perChan cut).settings e _).trans ?_
    split
    · rw [toState_hearth, State.onChan_hearth]
    · exact State.onChan_hearth _ _ _

theorem loopChan_perChan (cut : Bool) : PerChan (·.1) fun (e : Nat × HMeas) s => loopChan e.1 e.2 cut s where
  others e j s hj := by
    have hread : (s.onChan e.1 (Chan.read s.hth.vsup.toNat e.2)).chan j = s.chan j := State.onChan_chan_ne hj _ s
    rw [loopChan_eq]
    dsimp only
    split
    · exact hread
    split
    · rw [toState_chan_ne hj, hread]
    split
    · rw [latch_chan_ne hj, hread]
    · exact ((stepChan_perChan cut).others e j _ hj).trans hread
  settings e s := by
    have hread : (s.onChan e.1 (Chan.read s.hth.vsup.toNat e.2)).hearth = s.hearth := State.onChan_hearth _ _ s
    rw [loopChan_eq]
    dsimp only
    split
    · exact hread
    split
    · rw [toState_hearth, hread]
    split
    · rw [latch_hearth, hread]
    · exact ((stepChan_perChan cut).settings e _).trans hread

/-- A channel in OFF or FAULT is measured and no more. -/
theorem loopChan_idle {ch : Nat} (m : HMeas) (cut : Bool) {s : State} (hl : ch < s.hth.chans.length) (h : (s.chan ch).idle = true) :
    (loopChan ch m cut s).chan ch = (s.chan ch).read s.hth.vsup.toNat m := by
  have hread := State.onChan_chan hl (Chan.read s.hth.vsup.toNat m)
  rw [loopChan_eq]
  dsimp only
  rw [if_pos (by rw [hread, Chan.read_idle, h]), hread]

/-- Nothing that Table 13.4 names has lasted. -/
def Calm (m : HMeas) : Prop := m.over1ms = false ∧ m.open20 = false ∧ m.fet100 = false ∧ m.adc1ms = false

theorem loopFault_calm {m : HMeas} (h : Calm m) {vsup : Nat} {c : Chan} (hv : -500 ≤ c.loadMv vsup m.hv) : loopFault vsup m c = none := by
  obtain ⟨hover, hopen, hfet, hadc⟩ := h
  unfold loopFault
  rw [hover, hopen, hfet, hadc]
  simp only [Bool.false_and, Bool.false_or, Bool.false_eq_true, if_false, decide_eq_true_eq]
  exact if_neg (not_lt.mpr hv)

/-- A channel at work whose measurements show no fault is measured and takes its step. -/
theorem loopChan_calm {ch : Nat} {m : HMeas} (cut : Bool) {s : State} (hl : ch < s.hth.chans.length) (hi : (s.chan ch).idle = false)
    (hm : (s.chan ch).mode ≠ .off) (hc : Calm m) (hv : -500 ≤ (s.chan ch).loadMv s.hth.vsup.toNat m.hv) :
    loopChan ch m cut s = stepChan ch m cut (s.onChan ch (Chan.read s.hth.vsup.toNat m)) := by
  have hread := State.onChan_chan hl (Chan.read s.hth.vsup.toNat m)
  rw [loopChan_eq]
  dsimp only
  have hfault : loopFault s.hth.vsup.toNat m ((s.onChan ch (Chan.read s.hth.vsup.toNat m)).chan ch) = none := by
    rw [hread]
    exact loopFault_calm hc (by rw [Chan.read_loadMv]; exact hv)
  rw [if_neg (by rw [hread, Chan.read_idle, hi]; decide), if_neg (by rw [hread, Chan.read_mode]; exact hm), hfault]

/-- A channel but for READY and what RHOTAUTO writes. -/
def Chan.besideReady (c : Chan) : Chan := { c with ready := false, rhot := 0, autoDone := false }

theorem readyStep_besideReady {ch : Nat} (m : HMeas) (cut : Bool) {s : State} (hl : ch < s.hth.chans.length) :
    ((readyStep ch m cut s).chan ch).besideReady = (s.chan ch).besideReady := by
  have hset : ∀ b, ((setReady ch b cut s).chan ch).besideReady = (s.chan ch).besideReady := fun b => by
    rw [setReady_chan b cut hl]
    rfl
  unfold readyStep
  dsimp only
  split
  · rfl
  split
  · rw [setReady_chan true cut (by rw [State.onChan_length]; exact hl), State.onChan_chan hl]
    rfl
  split
  · rfl
  split
  · split
    · exact hset true
    · rfl
  split
  · exact hset false
  · rfl

/-- A channel that ramps or runs is READY once R has reached 0.90 × RHOT. -/
theorem readyStep_ready {ch : Nat} (m : HMeas) (cut : Bool) {s : State} (hl : ch < s.hth.chans.length) (hst : (s.chan ch).state.mayReady = true)
    (hr : (s.chan ch).ready = false) (h0 : (s.chan ch).rhot ≠ 0) (h90 : 90 * (s.chan ch).rhot.toNat ≤ 100 * (s.chan ch).rest.toNat) :
    ((readyStep ch m cut s).chan ch).ready = true := by
  unfold readyStep
  dsimp only
  rw [if_neg (by rw [hst]; decide)]
  by_cases hauto : ((s.chan ch).state == .run && (s.chan ch).rhotauto && !(s.chan ch).autoDone && m.steady2s) = true
  · rw [if_pos hauto, setReady_chan true cut (by rw [State.onChan_length]; exact hl)]
  · rw [if_neg hauto, if_neg h0, if_pos (by rw [hr]; decide), if_pos h90, setReady_chan true cut hl]

/-- The step of a channel, before READY follows. -/
theorem stepChan_chan {ch : Nat} {m : HMeas} (cut : Bool) {s : State} (hl : ch < s.hth.chans.length) :
    ∃ w : State, ch < w.hth.chans.length ∧ stepChan ch m cut s = readyStep ch m cut w ∧
      w.chan ch = if (s.chan ch).stepped.arrived m = true then (s.chan ch).stepped.enter .run s.hth.period else (s.chan ch).stepped := by
  have hstep := State.onChan_chan hl Chan.stepped
  have hl' : ch < (s.onChan ch Chan.stepped).hth.chans.length := by rw [State.onChan_length]; exact hl
  refine ⟨_, ?_, rfl, ?_⟩
  · split
    · rw [length_of_hearth (toState_hearth _ _ _ _)]
      exact hl'
    · exact hl'
  · rw [hstep]
    split
    next ha =>
      have hramp : (s.chan ch).stepped.state = .ramp := by
        simp only [Chan.arrived, Bool.and_eq_true, beq_iff_eq] at ha
        exact ha.1.1.1
      rw [toState_chan cut hl' (by rw [hstep, hramp]; decide), hstep]
      rfl
    next => exact hstep

end Sys2Proof.Machine
end

section
/-! The Hearth's loop and the states of a channel around it (O51; spec 13 R550 to R566, Table 13.3). -/

namespace Sys2Proof.Machine

/-! ### The gates -/

/-- A channel but for its gate. -/
def Chan.besideGate (c : Chan) : Chan := { c with gate := false, aim := 0, clamp := 0, duty := 0, drive := 0 }

theorem Chan.driveGate_besideGate (c : Chan) : c.driveGate.besideGate = c.besideGate := by
  unfold Chan.driveGate
  split
  · dsimp only
    split <;> rfl
  · rfl

theorem driveGates_chan (s : State) (k : Nat) : (driveGates s).chan k = (s.chan k).driveGate := by
  show (s.hth.chans.map Chan.driveGate).getD k {} = (s.hth.chans.getD k {}).driveGate
  by_cases h : k < s.hth.chans.length
  · rw [List.getD_eq_getElem _ _ (by simpa using h), List.getElem_map, List.getD_eq_getElem _ _ h]
  · rw [List.getD_eq_default _ _ (by simpa using h), List.getD_eq_default _ _ (Nat.le_of_not_lt h)]
    rfl

theorem meanSteps_le (n on want : Nat) : meanSteps n on want ≤ n := by
  unfold meanSteps
  split
  · exact le_rfl
  · exact min_le_left _ _

/-- A quantity driven for that long averages at most what is wanted. -/
theorem meanSteps_mul_le (n on want : Nat) : meanSteps n on want * on ≤ want * n := by
  unfold meanSteps
  split
  next h => simp [h]
  next h => exact (Nat.mul_le_mul_right on (min_le_right _ _)).trans (Nat.div_mul_le_self _ _)

theorem Chan.aimOf_clamp_le (c : Chan) : c.aimOf.2.2 ≤ c.ilim.toNat := by
  unfold Chan.aimOf
  dsimp only
  split
  · exact Nat.div_le_self _ _
  · exact le_rfl
  · exact le_rfl

/-- What an idle gate shows, and the bounds a driven one keeps to (R550, Table 13.2). -/
def Chan.Gated (c : Chan) : Prop :=
  (c.state.driven = false → c.gate = false ∧ c.duty = 0 ∧ c.drive = 0) ∧
  (c.state.driven = true → c.gate = true ∧ c.clamp ≤ c.ilim.toNat ∧
    (c.mode ≠ .linear → c.duty ≤ c.pwmSteps ∧ c.duty * c.i.toNat ≤ c.clamp * c.pwmSteps ∧
      (c.state = .run → c.reg = false → c.duty * (c.v.toNat * c.v.toNat) ≤ c.aim * c.aim * c.pwmSteps)))

/-- The gate of a driven channel in a PWM mode. -/
theorem Chan.driveGate_pwm {c : Chan} (hd : c.state.driven = true) (hm : c.mode ≠ .linear) : c.driveGate = { c with
    gate := true, aim := c.aimOf.2.1, clamp := c.aimOf.2.2, drive := 0
    duty := min (if c.aimOf.1 then meanSteps c.pwmSteps c.i.toNat c.aimOf.2.1
      else meanSteps c.pwmSteps (c.v.toNat * c.v.toNat) (c.aimOf.2.1 * c.aimOf.2.1)) (meanSteps c.pwmSteps c.i.toNat c.aimOf.2.2) } := by
  unfold Chan.driveGate
  rw [if_pos hd]
  dsimp only
  rw [if_neg (by simpa using hm)]

theorem Chan.driveGate_gated (c : Chan) : c.driveGate.Gated := by
  cases hd : c.state.driven with
  | false =>
    have h : c.driveGate = { c with gate := false, aim := 0, clamp := 0, duty := 0, drive := 0 } := if_neg (by rw [hd]; decide)
    rw [h]
    exact ⟨fun _ => ⟨rfl, rfl, rfl⟩, fun h' => absurd (hd.symm.trans h') (by decide)⟩
  | true =>
    by_cases hm : c.mode = .linear
    · have h : c.driveGate = { c with
          gate := true, aim := c.aimOf.2.1, clamp := c.aimOf.2.2, duty := 0
          drive := Config.gateDrive c.aimOf.2.1 c.aimOf.2.2 c.v.toNat c.i.toNat } := by
        unfold Chan.driveGate
        rw [if_pos hd]
        dsimp only
        rw [if_pos (by simpa using hm)]
      rw [h]
      exact ⟨fun h' => absurd (h'.symm.trans hd) (by decide), fun _ => ⟨rfl, c.aimOf_clamp_le, fun hn => absurd hm hn⟩⟩
    · rw [Chan.driveGate_pwm hd hm]
      refine ⟨fun h' => absurd (h'.symm.trans hd) (by decide), fun _ => ⟨rfl, c.aimOf_clamp_le, fun _ => ⟨?_, ?_, fun hr hg => ?_⟩⟩⟩
      · exact (min_le_right _ _).trans (meanSteps_le _ _ _)
      · exact (Nat.mul_le_mul_right _ (min_le_right _ _)).trans (meanSteps_mul_le _ _ _)
      · have haim : c.aimOf.1 = false := by
          have hrun : c.state = .run := hr
          unfold Chan.aimOf
          rw [hrun]
          exact hg
        refine (Nat.mul_le_mul_right _ (min_le_left _ _)).trans ?_
        rw [haim]
        exact meanSteps_mul_le _ _ _

/-! ### A period -/

/-- The supply as a period reads it. -/
def supplied (sns mean : Nat) (s : State) : State := s.onHth fun h => { h with
  vsup := satOf 16 (supplyMv sns s.hth.ratio), vref := if h.frozen = 0 then satOf 16 (supplyMv mean h.ratio) else h.vref, frozen := h.frozen - 1
  suphigh := decide (17000 < supplyMv sns s.hth.ratio), vglow := false }

section
variable (sns mean : Nat) (s : State)

/-- What a period reads of the supply changes no setting and no channel. -/
theorem supplied_reading : ∃ a b c d, supplied sns mean s = s.onHth fun h => { h with vsup := a, vref := b, frozen := c, suphigh := d, vglow := false } :=
  ⟨satOf 16 (supplyMv sns s.hth.ratio), if s.hth.frozen = 0 then satOf 16 (supplyMv mean s.hth.ratio) else s.hth.vref, s.hth.frozen - 1,
    decide (17000 < supplyMv sns s.hth.ratio), rfl⟩

theorem supplied_keeps : (supplied sns mean s).hth.chans = s.hth.chans ∧ (supplied sns mean s).hth.sag = s.hth.sag ∧
    (supplied sns mean s).hth.suplow = s.hth.suplow ∧ (supplied sns mean s).hth.tokens = s.hth.tokens ∧
    (supplied sns mean s).hth.imax = s.hth.imax ∧ (supplied sns mean s).hth.period = s.hth.period := by
  obtain ⟨a, b, c, d, h⟩ := supplied_reading sns mean s
  rw [h]
  exact ⟨rfl, rfl, rfl, rfl, rfl, rfl⟩

theorem supplied_chan (k : Nat) : (supplied sns mean s).chan k = s.chan k := by
  rw [State.chan, State.chan, (supplied_keeps sns mean s).1]

end

/-- Every channel measured and taken its step. -/
def stepped (ms : List HMeas) (s : State) : State := s.forEach ((List.range 8).zip ms) fun e s => loopChan e.1 e.2 false s

/-- The supply seen to, and the tokens granted. -/
def granted (vsup : Nat) (s : State) : State := grantTokens 8 (supplySag false false (supplyLow vsup false false s))

/-- The next period counted, and the gates driven. -/
def driven (s : State) : State := driveGates (s.onHth fun h => { h with period := h.period + 1 })

theorem exec_period (ms : List HMeas) (sns mean : Nat) {s : State} (h4 : s.on 4 = true) (hc : s.clk.stat.getLsbD 10 = true) :
    exec (.controlLoopPeriod ms sns mean false false false false) s =
      .next (driven (granted (supplyMv sns s.hth.ratio) (stepped ms (supplied sns mean s)))) :=
  congrArg Host.Outcome.next (if_pos (by rw [h4, hc]; rfl))

theorem driven_chan (s : State) (k : Nat) : (driven s).chan k = (s.chan k).driveGate := driveGates_chan _ k

theorem satOf_toNat {n : Nat} (h : n < 65536) : (satOf 16 n).toNat = n := by
  rw [satOf_small (by exact h), BitVec.toNat_ofNat, Nat.mod_eq_of_lt h]

/-- What O51 takes of the supply: it is high enough, does not sag yet, and its reference is not frozen. -/
structure SupplyOk (sns mean : Nat) (s : State) : Prop where
  sag : s.hth.sag = false
  suplow : s.hth.suplow = false
  frozen : s.hth.frozen = 0
  low : 4500 ≤ supplyMv sns s.hth.ratio
  vsup : supplyMv sns s.hth.ratio < 65536
  vref : supplyMv mean s.hth.ratio < 65536

/-- Of eight channels only this one may be at work. -/
structure Alone (n : Nat) (s : State) : Prop where
  length : s.hth.chans.length = 8
  here : n < 8
  others : ∀ k, k < 8 → k ≠ n → (s.chan k).state = .off

section
variable {ms : List HMeas} {sns mean n : Nat} {m : HMeas} {s : State}

theorem mem_zip_range {k : Nat} (hk : k < 8) (h : ms[k]? = some m) : (k, m) ∈ (List.range 8).zip ms :=
  List.mem_iff_getElem?.mpr ⟨k, List.getElem?_zip_eq_some.mpr ⟨List.getElem?_range hk, h⟩⟩

theorem zip_range_nodup (h : ms.length = 8) : (((List.range 8).zip ms).map (·.1)).Nodup := by
  rw [List.map_fst_zip (by rw [List.length_range, h])]
  exact List.nodup_range

theorem stepped_hearth (ms : List HMeas) (s : State) : (stepped ms s).hearth = s.hearth := (loopChan_perChan false).forEach_hearth _ s

/-- Each channel is stepped from its own state. -/
theorem stepped_chan (h8 : ms.length = 8) {k : Nat} (hk : k < 8) (hm : ms[k]? = some m) (s : State) :
    ∃ u : State, u.chan k = s.chan k ∧ u.hearth = s.hearth ∧ (stepped ms s).chan k = (loopChan k m false u).chan k :=
  (loopChan_perChan false).forEach_chan (zip_range_nodup h8) (mem_zip_range hk hm) s

/-- A channel in OFF stays there, and without a token if it had none. -/
theorem stepped_off (h8 : ms.length = 8) {k : Nat} (hk : k < 8) {s : State} (hl : s.hth.chans.length = 8) (ho : (s.chan k).state = .off) :
    ((stepped ms s).chan k).state = .off ∧ ((stepped ms s).chan k).token = (s.chan k).token := by
  obtain ⟨u, hchan, hset, hres⟩ := stepped_chan h8 hk (List.getElem?_eq_getElem (h8 ▸ hk)) s
  have hidle : (u.chan k).idle = true := by rw [hchan, Chan.idle, ho]; rfl
  rw [hres, loopChan_idle _ false (by rw [length_of_hearth hset, hl]; exact hk) hidle, hchan]
  have hkeeps := (s.chan k).read_keeps u.hth.vsup.toNat ms[k]
  exact ⟨hkeeps.1.trans ho, hkeeps.2.2.2.1⟩

theorem Alone.stepped (h8 : ms.length = 8) (ha : Alone n s) : Alone n (stepped ms s) where
  length := (length_of_hearth (stepped_hearth ms s)).trans ha.length
  here := ha.here
  others k hk hn := (stepped_off h8 hk ha.length (ha.others k hk hn)).1

theorem Alone.supplied (ha : Alone n s) : Alone n (supplied sns mean s) where
  length := by rw [(supplied_keeps sns mean s).1, ha.length]
  here := ha.here
  others k hk hn := by rw [supplied_chan, ha.others k hk hn]

theorem supplied_vsup (h : SupplyOk sns mean s) : (supplied sns mean s).hth.vsup.toNat = supplyMv sns s.hth.ratio := satOf_toNat h.vsup

theorem supplied_vref (h : SupplyOk sns mean s) : (supplied sns mean s).hth.vref.toNat = supplyMv mean s.hth.ratio :=
  (congrArg BitVec.toNat (if_pos h.frozen)).trans (satOf_toNat h.vref)

/-- A channel at work without a fault, once it is measured and has taken its step. -/
theorem stepped_calm (h8 : ms.length = 8) (ha : Alone n s) (hok : SupplyOk sns mean s) (hm : ms[n]? = some m) (hi : (s.chan n).idle = false)
    (hmode : (s.chan n).mode ≠ .off) (hc : Calm m) (hv : -500 ≤ (s.chan n).loadMv (supplyMv sns s.hth.ratio) m.hv) :
    ∃ u : State, u.chan n = (s.chan n).read (supplyMv sns s.hth.ratio) m ∧ u.hearth = (supplied sns mean s).hearth ∧
      (Machine.stepped ms (Machine.supplied sns mean s)).chan n = (stepChan n m false u).chan n := by
  obtain ⟨u, hchan, hset, hres⟩ := stepped_chan h8 ha.here hm (Machine.supplied sns mean s)
  have hsame : u.chan n = s.chan n := hchan.trans (supplied_chan sns mean s n)
  have hlen : n < u.hth.chans.length := by rw [length_of_hearth hset, ha.supplied.length]; exact ha.here
  have hvsup : u.hth.vsup.toNat = supplyMv sns s.hth.ratio := by rw [vsup_of_hearth hset, supplied_vsup hok]
  rw [hres, loopChan_calm false hlen (by rw [hsame]; exact hi) (by rw [hsame]; exact hmode) hc (by rw [hsame, hvsup]; exact hv)]
  refine ⟨u.onChan n (Chan.read u.hth.vsup.toNat m), ?_, (State.onChan_hearth _ _ _).trans hset, rfl⟩
  rw [State.onChan_chan hlen, hsame, hvsup]

/-! ### The supply and the tokens -/

theorem supplyLow_high {vsup : Nat} (h : 4500 ≤ vsup) (hs : s.hth.suplow = false) : supplyLow vsup false false s = s := by
  unfold supplyLow
  rw [if_neg (Nat.not_lt.mpr h), if_neg (by simp [hs])]

theorem supplySag_steady (h : s.hth.sag = false) (hv : 92 * s.hth.vref.toNat ≤ 100 * s.hth.vsup.toNat) : supplySag false false s = s := by
  unfold supplySag
  dsimp only
  rw [if_neg (by simpa [h] using hv), if_neg (by simp [h])]

theorem filter_range_single : ∀ {n : Nat}, n < 8 → (List.range 8).filter (· == n) = [n] := by decide

/-- The only channel at work is the only one that may be waiting. -/
theorem nextWaiting_alone (ha : Alone n s) :
    nextWaiting s = if (s.chan n).state = .wait ∧ (s.chan n).mode ≠ .off then some n else none := by
  have hother : ∀ k ∈ List.range 8, ((s.chan k).state == .wait && (s.chan k).mode != .off) =
      (decide ((s.chan n).state = .wait ∧ (s.chan n).mode ≠ .off) && k == n) := fun k hk => by
    by_cases hkn : k = n
    · subst hkn
      rw [Bool.eq_iff_iff]
      simp
    · rw [ha.others k (List.mem_range.mp hk) hkn, beq_false_of_ne hkn, Bool.and_false]
      rfl
  unfold nextWaiting
  rw [List.filter_congr hother]
  split
  next hw =>
    simp only [hw, and_self, decide_true, Bool.true_and, ne_eq, not_false_eq_true]
    rw [filter_range_single ha.here]
    rfl
  next hw => simp [hw]

theorem grantTokens_none {f : Nat} (h : nextWaiting s = none) : grantTokens f s = s := by
  cases f with
  | zero => rfl
  | succ f => rw [grantTokens, h]

theorem chan_mem {c : Chan} (h : c ∈ s.hth.chans) : ∃ k, k < s.hth.chans.length ∧ s.chan k = c := by
  obtain ⟨k, hk, rfl⟩ := List.mem_iff_getElem.mp h
  exact ⟨k, hk, List.getD_eq_getElem _ _ hk⟩

theorem tokensHeld_zero (h : ∀ k, k < s.hth.chans.length → (s.chan k).token = false) : tokensHeld s = 0 :=
  List.countP_eq_zero.mpr fun c hc => by
    obtain ⟨k, hk, rfl⟩ := chan_mem hc
    rw [h k hk]
    decide

theorem budgetUsed_zero (h : ∀ k, k < s.hth.chans.length → (s.chan k).state.hasToken = false ∧ (s.chan k).state ≠ .run) : budgetUsed s = 0 :=
  List.sum_eq_zero fun x hx => by
    obtain ⟨c, hc, rfl⟩ := List.mem_map.mp hx
    obtain ⟨k, hk, rfl⟩ := chan_mem hc
    obtain ⟨ht, hr⟩ := h k hk
    rw [if_neg (by rw [ht]; decide), if_neg hr]

/-- The channel given its token. -/
def probing (n : Nat) (s : State) : State := (toState n .probe false s).onChan n fun c => { c with token := true }

theorem probing_hearth (n : Nat) (s : State) : (probing n s).hearth = s.hearth := (State.onChan_hearth _ _ _).trans (toState_hearth _ _ _ _)

theorem probing_chan (hl : n < s.hth.chans.length) (hw : (s.chan n).state = .wait) :
    (probing n s).chan n = { (s.chan n).enter .probe s.hth.period with token := true } := by
  unfold probing
  rw [State.onChan_chan (by rw [length_of_hearth (toState_hearth _ _ _ _)]; exact hl), toState_chan false hl (by rw [hw]; decide)]

theorem probing_alone (ha : Alone n s) : Alone n (probing n s) where
  length := (length_of_hearth (probing_hearth n s)).trans ha.length
  here := ha.here
  others k hk hn := by
    unfold probing
    rw [State.onChan_chan_ne hn, toState_chan_ne hn]
    exact ha.others k hk hn

/-- The only channel that waits is given a token while the budget and the tokens allow. -/
theorem grantTokens_alone (ha : Alone n s) (hw : (s.chan n).state = .wait) (hmode : (s.chan n).mode ≠ .off) (hsag : s.hth.sag = false)
    (hlow : s.hth.suplow = false) (ht : s.hth.tokens ≠ 0) (hk : ∀ k, k < 8 → (s.chan k).token = false)
    (hi : (s.chan n).ilim.toNat ≤ s.hth.imax.toNat) : grantTokens 8 s = probing n s := by
  have hnext : nextWaiting s = some n := (nextWaiting_alone ha).trans (if_pos ⟨hw, hmode⟩)
  have hheld : tokensHeld s = 0 := tokensHeld_zero fun k h => hk k (ha.length ▸ h)
  have hused : budgetUsed s = 0 := budgetUsed_zero fun k h => by
    by_cases hkn : k = n
    · rw [hkn, hw]
      decide
    · rw [ha.others k (ha.length ▸ h) hkn]
      decide
  have htok : ¬ s.hth.tokens.toNat ≤ 0 := fun h0 => ht (BitVec.eq_of_toNat_eq (by simpa using h0))
  rw [grantTokens, hnext]
  dsimp only
  rw [if_neg (by
    rw [hsag, hlow, hheld, hused]
    simpa using ⟨fun h0 => htok (Nat.le_of_eq h0), hi⟩)]
  refine grantTokens_none ((nextWaiting_alone (probing_alone ha)).trans (if_neg fun h => ?_))
  rw [probing_chan (by rw [ha.length]; exact ha.here) hw] at h
  cases (h.1 : HState.probe = HState.wait)

/-- A channel whose ILIM alone exceeds the budget waits on. -/
theorem grantTokens_over (ha : Alone n s) (hi : s.hth.imax.toNat < (s.chan n).ilim.toNat) : grantTokens 8 s = s := by
  by_cases hw : (s.chan n).state = .wait ∧ (s.chan n).mode ≠ .off
  · rw [grantTokens, (nextWaiting_alone ha).trans (if_pos hw)]
    exact if_pos (by simp only [Bool.or_eq_true, decide_eq_true_eq]; omega)
  · exact grantTokens_none ((nextWaiting_alone ha).trans (if_neg hw))

end

end Sys2Proof.Machine
end

section
/-! What a period, and the commands beside it, do to a channel (O51; spec 13 Table 13.3, R548 to R566). -/

namespace Sys2Proof.Machine

/-! ### The step of a channel by its state -/

section
variable {c d : Chan} (h : c.besideReady = d.besideReady)
include h

theorem state_of_besideReady : c.state = d.state := (congrArg Chan.state h : c.besideReady.state = d.besideReady.state)
theorem token_of_besideReady : c.token = d.token := (congrArg Chan.token h : c.besideReady.token = d.besideReady.token)
theorem present_of_besideReady : c.present = d.present := (congrArg Chan.present h : c.besideReady.present = d.besideReady.present)
theorem v_of_besideReady : c.v = d.v := (congrArg Chan.v h : c.besideReady.v = d.besideReady.v)
theorem i_of_besideReady : c.i = d.i := (congrArg Chan.i h : c.besideReady.i = d.besideReady.i)

end

/-- Driving the gate changes nothing else of a channel. -/
theorem Chan.driveGate_keeps (c : Chan) : c.driveGate.state = c.state ∧ c.driveGate.token = c.token ∧ c.driveGate.present = c.present ∧
    c.driveGate.v = c.v ∧ c.driveGate.i = c.i ∧ c.driveGate.ready = c.ready := by
  have h := c.driveGate_besideGate
  exact ⟨(congrArg Chan.state h : c.driveGate.besideGate.state = c.besideGate.state), (congrArg Chan.token h : c.driveGate.besideGate.token = c.besideGate.token),
    (congrArg Chan.present h : c.driveGate.besideGate.present = c.besideGate.present), (congrArg Chan.v h : c.driveGate.besideGate.v = c.besideGate.v),
    (congrArg Chan.i h : c.driveGate.besideGate.i = c.besideGate.i), (congrArg Chan.ready h : c.driveGate.besideGate.ready = c.besideGate.ready)⟩

theorem Chan.stepped_of_wait {c : Chan} (h : c.state = .wait) : c.stepped = c := by
  unfold Chan.stepped
  rw [h]

theorem Chan.stepped_of_ramp {c : Chan} (h : c.state = .ramp) :
    c.stepped = { c with present := min (c.target.toNat * 1000000) (c.present + rampStep c.target.toNat 0 c.ramp.toNat) } := by
  unfold Chan.stepped
  rw [h]
  rfl

theorem stepChan_wait {ch : Nat} (m : HMeas) {s : State} (hl : ch < s.hth.chans.length) (h : (s.chan ch).state = .wait) :
    (stepChan ch m false s).chan ch = s.chan ch := by
  obtain ⟨w, -, heq, hw⟩ := stepChan_chan (m := m) false hl
  have hna : ¬ (s.chan ch).arrived m = true := by simp [Chan.arrived, h]
  rw [Chan.stepped_of_wait h, if_neg hna] at hw
  rw [heq, readyStep, if_pos (by rw [hw, h]; rfl), hw]

theorem Chan.read_rest (vsup : Nat) (m : HMeas) {c : Chan} (h0 : 0 < c.loadMa m.hsp m.hsn) (h2 : c.ilim.toNat ≤ 50 * c.loadMa m.hsp m.hsn) :
    (c.read vsup m).rest.toNat = min 65535 (nearDiv (100 * (c.loadMv vsup m.hv).toNat) (c.loadMa m.hsp m.hsn)) := by
  have hrest : (c.read vsup m).rest = BitVec.ofNat 16 (min 65535 (nearDiv (100 * (c.loadMv vsup m.hv).toNat) (c.loadMa m.hsp m.hsn))) :=
    congrArg (BitVec.ofNat 16) (if_pos ⟨h0, h2⟩)
  rw [hrest, BitVec.toNat_ofNat, Nat.mod_eq_of_lt]
  exact lt_of_le_of_lt (min_le_left _ _) (by decide)

/-- The channel that ramps, measured and moved on. -/
def rampedOn (vsup : Nat) (m : HMeas) (c : Chan) : Chan := (c.read vsup m).stepped

theorem rampedOn_keeps (vsup : Nat) (m : HMeas) {c : Chan} (h : c.state = .ramp) :
    (rampedOn vsup m c).state = .ramp ∧ (rampedOn vsup m c).token = c.token ∧ (rampedOn vsup m c).ready = c.ready ∧
    (rampedOn vsup m c).ilim = c.ilim ∧ (rampedOn vsup m c).rhot = c.rhot ∧ (rampedOn vsup m c).target = c.target ∧
    (rampedOn vsup m c).rest = (c.read vsup m).rest ∧ (rampedOn vsup m c).v = (c.read vsup m).v ∧ (rampedOn vsup m c).i = (c.read vsup m).i ∧
    (rampedOn vsup m c).present = min (c.target.toNat * 1000000) (c.present + rampStep c.target.toNat 0 c.ramp.toNat) := by
  obtain ⟨hst, -, -, htok, hready, hilim, hrhot, htarget, hramp, hpresent⟩ := c.read_keeps vsup m
  have heq := Chan.stepped_of_ramp (hst.trans h)
  unfold rampedOn
  generalize c.read vsup m = r at *
  rw [heq]
  exact ⟨hst.trans h, htok, hready, hilim, hrhot, htarget, rfl, rfl, rfl, by rw [← htarget, ← hramp, ← hpresent]⟩

section
variable {ms : List HMeas} {sns mean n : Nat} {m : HMeas} {s : State}

theorem lt_eight (h8 : ms.length = 8) (hm : ms[n]? = some m) : n < 8 := by
  obtain ⟨h, -⟩ := List.getElem?_eq_some_iff.mp hm
  omega

theorem stepped_settings (ms : List HMeas) (sns mean : Nat) (s : State) :
    (Machine.stepped ms (supplied sns mean s)).hearth = (supplied sns mean s).hearth := stepped_hearth ms _

/-- A steady supply leaves the states to the tokens alone. -/
theorem granted_steady (hok : SupplyOk sns mean s) (hv : 92 * supplyMv mean s.hth.ratio ≤ 100 * supplyMv sns s.hth.ratio) :
    granted (supplyMv sns s.hth.ratio) (Machine.stepped ms (supplied sns mean s)) = grantTokens 8 (Machine.stepped ms (supplied sns mean s)) := by
  have hset := stepped_settings ms sns mean s
  obtain ⟨-, hsag, hlow, -, -, -⟩ := supplied_keeps sns mean s
  have hvsup := (congrArg BitVec.toNat (vsup_of_hearth hset)).trans (supplied_vsup hok)
  have hvref := (congrArg BitVec.toNat (vref_of_hearth hset)).trans (supplied_vref hok)
  unfold granted
  rw [supplyLow_high hok.low ((suplow_of_hearth hset).trans (hlow.trans hok.suplow)),
    supplySag_steady ((sag_of_hearth hset).trans (hsag.trans hok.sag)) (by rw [hvsup, hvref]; exact hv)]

/-- A channel that waits is measured, and waits until the tokens are granted. -/
theorem stepped_wait (h8 : ms.length = 8) (ha : Alone n s) (hok : SupplyOk sns mean s) (hm : ms[n]? = some m) (hw : (s.chan n).state = .wait)
    (hmode : (s.chan n).mode ≠ .off) (hc : Calm m) (hv : -500 ≤ (s.chan n).loadMv (supplyMv sns s.hth.ratio) m.hv) :
    (Machine.stepped ms (supplied sns mean s)).chan n = (s.chan n).read (supplyMv sns s.hth.ratio) m := by
  obtain ⟨u, hchan, hset, hres⟩ := stepped_calm h8 ha hok hm (by rw [Chan.idle, hw]; rfl) hmode hc hv
  have hlen : n < u.hth.chans.length := by rw [length_of_hearth hset, ha.supplied.length]; exact ha.here
  rw [hres, stepChan_wait m hlen (by rw [hchan, Chan.read_state, hw]), hchan]

theorem wait_granted (h4 : s.on 4 = true) (hclk : s.clk.stat.getLsbD 10 = true) (h8 : ms.length = 8) (ha : Alone n s) (hok : SupplyOk sns mean s)
    (hm : ms[n]? = some m) (hmode : (s.chan n).mode ≠ .off) (hc : Calm m) (hv : -500 ≤ (s.chan n).loadMv (supplyMv sns s.hth.ratio) m.hv)
    (hsag : 92 * supplyMv mean s.hth.ratio ≤ 100 * supplyMv sns s.hth.ratio) (htok : ∀ k, k < 8 → (s.chan k).token = false)
    (hw : (s.chan n).state = .wait) (ht : s.hth.tokens ≠ 0) (hi : (s.chan n).ilim.toNat ≤ s.hth.imax.toNat) :
    Gives (.controlLoopPeriod ms sns mean false false false false) s fun t => (t.chan n).state = .probe ∧
      (t.chan n).token = true ∧ (t.chan n).gate = true ∧ t.hth.period = s.hth.period + 1 ∧ t.hth.vsup.toNat = supplyMv sns s.hth.ratio := by
  refine ⟨_, exec_period ms sns mean h4 hclk, ?_⟩
  rw [granted_steady hok hsag]
  have hset := stepped_settings ms sns mean s
  have hread := stepped_wait h8 ha hok hm hw hmode hc hv
  have hau := ha.supplied (sns := sns) (mean := mean) |>.stepped h8
  obtain ⟨-, hsagk, hlow, htokens, himax, hperiod⟩ := supplied_keeps sns mean s
  have hvsup := (congrArg BitVec.toNat (vsup_of_hearth hset)).trans (supplied_vsup hok)
  have htokU : ∀ k, k < 8 → ((Machine.stepped ms (supplied sns mean s)).chan k).token = false := fun k hk => by
    by_cases hkn : k = n
    · rw [hkn, hread, ((s.chan n).read_keeps _ m).2.2.2.1, htok n ha.here]
    · have hoff := stepped_off h8 hk ha.supplied.length (ha.supplied (sns := sns) (mean := mean) |>.others k hk hkn)
      rw [hoff.2, supplied_chan, htok k hk]
  have hwU : ((Machine.stepped ms (supplied sns mean s)).chan n).state = .wait := by rw [hread, Chan.read_state, hw]
  have hmodeU : ((Machine.stepped ms (supplied sns mean s)).chan n).mode ≠ .off := by rw [hread, Chan.read_mode]; exact hmode
  have hilimU : ((Machine.stepped ms (supplied sns mean s)).chan n).ilim = (s.chan n).ilim := by rw [hread, ((s.chan n).read_keeps _ m).2.2.2.2.2.1]
  have hgrant := grantTokens_alone hau hwU hmodeU ((sag_of_hearth hset).trans (hsagk.trans hok.sag)) ((suplow_of_hearth hset).trans (hlow.trans hok.suplow))
    (by rw [tokens_of_hearth hset, htokens]; exact ht) htokU (by rw [hilimU, imax_of_hearth hset, himax]; exact hi)
  have hperU : (Machine.stepped ms (supplied sns mean s)).hth.period = s.hth.period := (period_of_hearth hset).trans hperiod
  generalize Machine.stepped ms (supplied sns mean s) = u at hwU hgrant hperU hau hvsup
  rw [hgrant]
  have hprobe := probing_chan (by rw [hau.length]; exact hau.here) hwU
  have hd : (((probing n u).chan n).driveGate).state = .probe ∧ (((probing n u).chan n).driveGate).token = true := by
    obtain ⟨hst, htk, -⟩ := ((probing n u).chan n).driveGate_keeps
    rw [hst, htk, hprobe]
    exact ⟨rfl, rfl⟩
  refine ⟨by rw [driven_chan]; exact hd.1, by rw [driven_chan]; exact hd.2, ?_, ?_, ?_⟩
  · rw [driven_chan]
    exact (((probing n u).chan n).driveGate_gated.2 (by rw [hd.1]; rfl)).1
  · show (probing n u).hth.period + 1 = _
    rw [period_of_hearth (probing_hearth n u), hperU]
  · show (probing n u).hth.vsup.toNat = _
    rw [vsup_of_hearth (probing_hearth n u), hvsup]

theorem wait_denied (h4 : s.on 4 = true) (hclk : s.clk.stat.getLsbD 10 = true) (h8 : ms.length = 8) (ha : Alone n s) (hok : SupplyOk sns mean s)
    (hm : ms[n]? = some m) (hmode : (s.chan n).mode ≠ .off) (hc : Calm m) (hv : -500 ≤ (s.chan n).loadMv (supplyMv sns s.hth.ratio) m.hv)
    (hsag : 92 * supplyMv mean s.hth.ratio ≤ 100 * supplyMv sns s.hth.ratio) (hw : (s.chan n).state = .wait)
    (hi : s.hth.imax.toNat < (s.chan n).ilim.toNat) :
    Gives (.controlLoopPeriod ms sns mean false false false false) s fun t => (t.chan n).state = .wait := by
  refine ⟨_, exec_period ms sns mean h4 hclk, ?_⟩
  rw [granted_steady hok hsag]
  have hset := stepped_settings ms sns mean s
  have hread := stepped_wait h8 ha hok hm hw hmode hc hv
  have hau := ha.supplied (sns := sns) (mean := mean) |>.stepped h8
  have hover : (Machine.stepped ms (supplied sns mean s)).hth.imax.toNat < ((Machine.stepped ms (supplied sns mean s)).chan n).ilim.toNat := by
    rw [hread, ((s.chan n).read_keeps _ m).2.2.2.2.2.1, imax_of_hearth hset, (supplied_keeps sns mean s).2.2.2.2.1]
    exact hi
  rw [grantTokens_over hau hover]
  beta_reduce
  rw [driven_chan, (Chan.driveGate_keeps _).1, hread, Chan.read_state, hw]

/-- A channel that ramps, after its step: what READY does not touch, and READY itself. -/
theorem stepped_ramp (h8 : ms.length = 8) (ha : Alone n s) (hok : SupplyOk sns mean s) (hm : ms[n]? = some m) (hr : (s.chan n).state = .ramp)
    (hmode : (s.chan n).mode ≠ .off) (hc : Calm m) (hv : -500 ≤ (s.chan n).loadMv (supplyMv sns s.hth.ratio) m.hv) :
    ∃ (c w : Chan) (p : Nat), c = rampedOn (supplyMv sns s.hth.ratio) m (s.chan n) ∧ w = (if c.arrived m = true then c.enter .run p else c) ∧
      ((Machine.stepped ms (supplied sns mean s)).chan n).besideReady = w.besideReady ∧
      (c.ready = false → c.rhot ≠ 0 → 90 * c.rhot.toNat ≤ 100 * c.rest.toNat →
        ((Machine.stepped ms (supplied sns mean s)).chan n).ready = true) := by
  obtain ⟨u, hchan, hset, hres⟩ := stepped_calm h8 ha hok hm (by rw [Chan.idle, hr]; rfl) hmode hc hv
  have hlen : n < u.hth.chans.length := by rw [length_of_hearth hset, ha.supplied.length]; exact ha.here
  obtain ⟨x, hx, heq, hxc⟩ := stepChan_chan (m := m) false hlen
  rw [hchan, show ((s.chan n).read (supplyMv sns s.hth.ratio) m).stepped = rampedOn (supplyMv sns s.hth.ratio) m (s.chan n) from rfl] at hxc
  obtain ⟨hst, -⟩ := rampedOn_keeps (supplyMv sns s.hth.ratio) m hr
  rw [hres, heq]
  refine ⟨_, _, u.hth.period, rfl, rfl, (readyStep_besideReady m false hx).trans (congrArg Chan.besideReady hxc), ?_⟩
  generalize rampedOn (supplyMv sns s.hth.ratio) m (s.chan n) = c at hxc hst
  intro hrd h0 h90
  have hkept : (x.chan n).state.mayReady = true ∧ (x.chan n).ready = false ∧ (x.chan n).rhot = c.rhot ∧ (x.chan n).rest = c.rest := by
    rw [hxc]
    split
    · exact ⟨rfl, (congrArg (· && HState.run.mayReady) hrd), rfl, rfl⟩
    · exact ⟨by rw [hst]; rfl, hrd, rfl, rfl⟩
  obtain ⟨hmay, hrx, hrhot, hrest⟩ := hkept
  exact readyStep_ready m false hx hmay hrx (by rw [hrhot]; exact h0) (by rw [hrhot, hrest]; exact h90)

theorem ramp_goes (h4 : s.on 4 = true) (hclk : s.clk.stat.getLsbD 10 = true) (h8 : ms.length = 8) (ha : Alone n s) (hok : SupplyOk sns mean s)
    (hm : ms[n]? = some m) (hmode : (s.chan n).mode ≠ .off) (hc : Calm m) (hv : -500 ≤ (s.chan n).loadMv (supplyMv sns s.hth.ratio) m.hv)
    (hsag : 92 * supplyMv mean s.hth.ratio ≤ 100 * supplyMv sns s.hth.ratio) (hr : (s.chan n).state = .ramp) :
    Gives (.controlLoopPeriod ms sns mean false false false false) s fun t =>
      (t.chan n).v = satOf 16 ((s.chan n).loadMv (supplyMv sns s.hth.ratio) m.hv).toNat ∧ (t.chan n).i = satOf 16 ((s.chan n).loadMa m.hsp m.hsn) ∧
      (t.chan n).present = min ((s.chan n).target.toNat * 1000000)
        ((s.chan n).present + rampStep (s.chan n).target.toNat 0 (s.chan n).ramp.toNat) ∧
      ((t.chan n).present = (s.chan n).target.toNat * 1000000 → m.below10 = true → (s.chan n).loadMa m.hsp m.hsn < (s.chan n).ilim.toNat →
        (t.chan n).state = .run ∧ (t.chan n).token = false) ∧
      ((t.chan n).present < (s.chan n).target.toNat * 1000000 → (t.chan n).state = .ramp) ∧
      (0 < (s.chan n).loadMa m.hsp m.hsn → (s.chan n).ilim.toNat ≤ 50 * (s.chan n).loadMa m.hsp m.hsn → (s.chan n).rhot ≠ 0 →
        (s.chan n).ready = false → 90 * (s.chan n).rhot.toNat ≤ 100 * min 65535 (nearDiv (100 * ((s.chan n).loadMv (supplyMv sns s.hth.ratio) m.hv).toNat)
          ((s.chan n).loadMa m.hsp m.hsn)) → (t.chan n).ready = true) := by
  refine ⟨_, exec_period ms sns mean h4 hclk, ?_⟩
  rw [granted_steady hok hsag]
  have hau := ha.supplied (sns := sns) (mean := mean) |>.stepped h8
  obtain ⟨c, w, p, hce, hwe, hbeside, hready⟩ := stepped_ramp h8 ha hok hm hr hmode hc hv
  obtain ⟨hst, htok, hrd, hilim, hrhot, htarget, hrest, hcv, hci, hpresent⟩ := rampedOn_keeps (supplyMv sns s.hth.ratio) m hr
  rw [← hce] at hst htok hrd hilim hrhot htarget hrest hcv hci hpresent
  have hwst : w.state = if c.arrived m = true then .run else .ramp := by
    rw [hwe]
    split
    · rfl
    · exact hst
  have hw : w.v = c.v ∧ w.i = c.i ∧ w.present = c.present := by
    rw [hwe]
    split <;> exact ⟨rfl, rfl, rfl⟩
  have hwtok : c.arrived m = true → w.token = false := fun h => by
    rw [hwe, if_pos h]
    exact Bool.and_false _
  clear hwe
  have hUst : ((Machine.stepped ms (supplied sns mean s)).chan n).state = w.state := state_of_besideReady hbeside
  have hnw : ((Machine.stepped ms (supplied sns mean s)).chan n).state ≠ .wait := by
    rw [hUst, hwst]
    split <;> decide
  rw [grantTokens_none ((nextWaiting_alone hau).trans (if_neg fun h => hnw h.1))]
  beta_reduce
  rw [driven_chan]
  obtain ⟨hgst, hgt, hgp, hgv, hgi, hgr⟩ := ((Machine.stepped ms (supplied sns mean s)).chan n).driveGate_keeps
  generalize (Machine.stepped ms (supplied sns mean s)).chan n = d at hbeside hready hUst hgst hgt hgp hgv hgi hgr
  have hdst : d.driveGate.state = w.state := hgst.trans hUst
  have hdv : d.driveGate.v = c.v := (hgv.trans (v_of_besideReady hbeside)).trans hw.1
  have hdi : d.driveGate.i = c.i := (hgi.trans (i_of_besideReady hbeside)).trans hw.2.1
  have hdp : d.driveGate.present = c.present := (hgp.trans (present_of_besideReady hbeside)).trans hw.2.2
  have hdt : d.driveGate.token = w.token := hgt.trans (token_of_besideReady hbeside)
  refine ⟨hdv.trans hcv, hdi.trans hci, hdp.trans hpresent, fun hp hb hi => ?_, fun hp => ?_, fun h0 h2 hr0 hrf h90 => ?_⟩
  · have harr : c.arrived m = true := by
      have hilt : c.i.toNat < c.ilim.toNat := by
        rw [hci, hilim, show ((s.chan n).read (supplyMv sns s.hth.ratio) m).i = satOf 16 ((s.chan n).loadMa m.hsp m.hsn) from rfl,
          satOf_toNat (hi.trans (s.chan n).ilim.isLt)]
        exact hi
      simp only [Chan.arrived, Bool.and_eq_true, beq_iff_eq, decide_eq_true_eq]
      exact ⟨⟨⟨hst, by rw [htarget, ← hp, hdp]⟩, hb⟩, hilt⟩
    exact ⟨by rw [hdst, hwst, if_pos harr], by rw [hdt, hwtok harr]⟩
  · have hnarr : ¬ c.arrived m = true := fun h => by
      simp only [Chan.arrived, Bool.and_eq_true, beq_iff_eq, decide_eq_true_eq] at h
      rw [hdp, h.1.1.2, htarget] at hp
      exact lt_irrefl _ hp
    rw [hdst, hwst, if_neg hnarr]
  · rw [hgr]
    refine hready (hrd.trans hrf) (by rw [hrhot]; exact hr0) ?_
    rw [hrhot, hrest, Chan.read_rest _ m h0 h2]
    exact h90

/-! ### A sag -/

/-- The channel that holds its current through a sag. -/
def holding (n : Nat) (s : State) : State := (toState n .hold false s).onChan n fun c => { c with heldI := c.i.toNat }

theorem holding_perChan : PerChan id holding where
  others _ _ s hj := (State.onChan_chan_ne hj _ _).trans (toState_chan_ne hj _ _ s)
  settings n s := (State.onChan_hearth _ _ _).trans (toState_hearth n _ _ s)

/-- The sag noted. -/
def sagging (s : State) : State := s.onHth fun h => { h with sag := true }

theorem sagging_length (s : State) : (sagging s).hth.chans.length = s.hth.chans.length := rfl

/-- A sag that begins holds the channels that ramp. -/
def sagBegun (s : State) : State :=
  (sagging s).forEach (List.range 8) fun k t => if (t.chan k).state = .ramp then holding k t else t

theorem supplySag_begins (h : s.hth.sag = false) (hv : 100 * s.hth.vsup.toNat < 92 * s.hth.vref.toNat) : supplySag false false s = sagBegun s :=
  if_pos (by simpa [h] using hv)

theorem sagBegun_perChan : PerChan id fun k t => if (t.chan k).state = .ramp then holding k t else t :=
  holding_perChan.ite fun k t => (t.chan k).state = .ramp

theorem sagBegun_hearth (s : State) : (sagBegun s).hearth = (sagging s).hearth := sagBegun_perChan.forEach_hearth (List.range 8) (sagging s)

theorem sagBegun_sag (s : State) : (sagBegun s).hth.sag = true := (sag_of_hearth (sagBegun_hearth s)).trans rfl

theorem sagBegun_chan {k : Nat} (hk : k < 8) (s : State) : (s.chan k).state ≠ .ramp → (sagBegun s).chan k = s.chan k := fun h => by
  obtain ⟨u, hchan, -, hres⟩ := sagBegun_perChan.forEach_range hk (sagging s)
  refine hres.trans ?_
  have hsame : u.chan k = s.chan k := hchan
  rw [if_neg (by rw [hsame]; exact h), hsame]

theorem sagBegun_holds {k : Nat} (hk : k < 8) (h : (s.chan k).state = .ramp) :
    ((sagBegun s).chan k).state = .hold ∧ ((sagBegun s).chan k).token = (s.chan k).token := by
  obtain ⟨u, hchan, -, hres⟩ := sagBegun_perChan.forEach_range hk (sagging s)
  have hsame : u.chan k = s.chan k := hchan
  have hlen : k < u.hth.chans.length := lt_of_chan (by rw [hsame, h]; decide)
  have hhold : (sagBegun s).chan k = { (u.chan k).enter .hold u.hth.period with heldI := ((u.chan k).enter .hold u.hth.period).i.toNat } := by
    refine hres.trans ?_
    rw [if_pos (by rw [hsame]; exact h), holding,
      State.onChan_chan (by rw [length_of_hearth (toState_hearth _ _ _ _)]; exact hlen), toState_chan false hlen (by rw [hsame, h]; decide)]
  rw [hhold, hsame]
  exact ⟨rfl, Bool.and_true _⟩

theorem driven_sag (s : State) : (driven s).hth.sag = s.hth.sag := rfl

theorem sag_clause (h4 : s.on 4 = true) (hclk : s.clk.stat.getLsbD 10 = true) (h8 : ms.length = 8) (ha : Alone n s) (hok : SupplyOk sns mean s)
    (hm : ms[n]? = some m) (hmode : (s.chan n).mode ≠ .off) (hc : Calm m) (hb : m.below10 = false)
    (hv : -500 ≤ (s.chan n).loadMv (supplyMv sns s.hth.ratio) m.hv) (hr : (s.chan n).state = .ramp)
    (hsag : 100 * supplyMv sns s.hth.ratio < 92 * supplyMv mean s.hth.ratio) :
    Gives (.controlLoopPeriod ms sns mean false false false false) s fun t => t.hth.sag = true ∧ (t.chan n).state = .hold ∧
      (t.chan n).token = (s.chan n).token := by
  refine ⟨_, exec_period ms sns mean h4 hclk, ?_⟩
  have hset := stepped_settings ms sns mean s
  have hau := ha.supplied (sns := sns) (mean := mean) |>.stepped h8
  obtain ⟨-, hsagk, hlow, -, -, -⟩ := supplied_keeps sns mean s
  have hvsup := (congrArg BitVec.toNat (vsup_of_hearth hset)).trans (supplied_vsup hok)
  have hvref := (congrArg BitVec.toNat (vref_of_hearth hset)).trans (supplied_vref hok)
  obtain ⟨c, w, p, hce, hwe, hbeside, -⟩ := stepped_ramp h8 ha hok hm hr hmode hc hv
  obtain ⟨hst, htok, -⟩ := rampedOn_keeps (supplyMv sns s.hth.ratio) m hr
  rw [← hce] at hst htok
  rw [if_neg (by simp [Chan.arrived, hb])] at hwe
  subst hwe
  have hstU : ((Machine.stepped ms (supplied sns mean s)).chan n).state = .ramp := (state_of_besideReady hbeside).trans hst
  have htokU : ((Machine.stepped ms (supplied sns mean s)).chan n).token = (s.chan n).token := (token_of_besideReady hbeside).trans htok
  have hbegin := supplySag_begins ((sag_of_hearth hset).trans (hsagk.trans hok.sag)) (by rw [hvsup, hvref]; exact hsag)
  have hlowU : (Machine.stepped ms (supplied sns mean s)).hth.suplow = false := (suplow_of_hearth hset).trans (hlow.trans hok.suplow)
  unfold granted
  rw [supplyLow_high hok.low hlowU, hbegin]
  clear hce hbeside
  generalize Machine.stepped ms (supplied sns mean s) = u at hau hstU htokU
  obtain ⟨hhold, hholdTok⟩ := sagBegun_holds (s := u) ha.here hstU
  have hnone : grantTokens 8 (sagBegun u) = sagBegun u := by
    have hab : Alone n (sagBegun u) := ⟨((length_of_hearth (sagBegun_hearth u)).trans (sagging_length u)).trans hau.length, ha.here, fun k hk hkn => by
      rw [sagBegun_chan hk u (by rw [hau.others k hk hkn]; decide)]
      exact hau.others k hk hkn⟩
    exact grantTokens_none ((nextWaiting_alone hab).trans (if_neg (by rw [hhold]; simp)))
  obtain ⟨hgst, hgt, -⟩ := ((sagBegun u).chan n).driveGate_keeps
  rw [hnone]
  beta_reduce
  rw [driven_chan, driven_sag]
  exact ⟨sagBegun_sag u, hgst.trans hhold, hgt.trans (hholdTok.trans htokU)⟩

end

/-! ### Beside the loop -/

/-- What the end of a probe records of a channel as it is measured then. -/
def Chan.probeDone (tamb : Nat) (c : Chan) : Chan :=
  let c := { c with rcold := c.rest.toNat, tamb := tamb, present := 0 }
  { c with temp := satOf 16 (filamentTemp tamb c.rest.toNat c.rcold) }

theorem Chan.probeDone_keeps (tamb : Nat) (c : Chan) : (c.probeDone tamb).state = c.state ∧ (c.probeDone tamb).token = c.token ∧
    (c.probeDone tamb).present = 0 ∧ (c.probeDone tamb).tamb = tamb ∧ (c.probeDone tamb).rcold = c.rest.toNat := ⟨rfl, rfl, rfl, rfl, rfl⟩

/-- A measurement of the pins with nothing to say of how long it has lasted. -/
def pinsRead (hv : Nat) (h : HShunt) : HMeas :=
  { hv := hv, hsp := h.hsp, hsn := h.hsn, over1ms := false, open20 := false, fet100 := false, adc1ms := false, below10 := false, cold10 := false, steady2s := false }

/-- The channel whose probe has ended. -/
def probed (vsup hv : Nat) (h : HShunt) (tamb : Nat) (c : Chan) : Chan := (c.read vsup (pinsRead hv h)).probeDone tamb

theorem probed_keeps (vsup hv : Nat) (h : HShunt) (tamb : Nat) (c : Chan) : (probed vsup hv h tamb c).state = c.state ∧
    (probed vsup hv h tamb c).token = c.token ∧ (probed vsup hv h tamb c).present = 0 ∧ (probed vsup hv h tamb c).tamb = tamb ∧
    (probed vsup hv h tamb c).rcold = (c.read vsup (pinsRead hv h)).rest.toNat := by
  obtain ⟨hst, -, -, htok, -⟩ := c.read_keeps vsup (pinsRead hv h)
  obtain ⟨hst', htok', hpres, htamb, hrc⟩ := (c.read vsup (pinsRead hv h)).probeDone_keeps tamb
  exact ⟨hst'.trans hst, htok'.trans htok, hpres, htamb, hrc⟩

theorem probeEnd_clause (ch hv : Nat) (hsp hsn : Int) (tamb : Nat) (s : State) (h4 : s.on 4 = true) (hp : (s.chan ch).state = .probe)
    (h0 : 0 < (s.chan ch).loadMa hsp hsn) (h2 : (s.chan ch).ilim.toNat ≤ 50 * (s.chan ch).loadMa hsp hsn) :
    Gives (.probeEnd ch hv ⟨hsp, hsn⟩ tamb) s fun t => (t.chan ch).state = .ramp ∧ (t.chan ch).present = 0 ∧ (t.chan ch).tamb = tamb ∧
      (t.chan ch).rcold = min 65535 (nearDiv (100 * ((s.chan ch).loadMv s.hth.vsup.toNat hv).toNat) ((s.chan ch).loadMa hsp hsn)) ∧
      (t.chan ch).token = (s.chan ch).token ∧ ∀ k, k ≠ ch → t.chan k = s.chan k := by
  refine ⟨(toState ch .ramp false s).onChan ch (probed s.hth.vsup.toNat hv ⟨hsp, hsn⟩ tamb), congrArg Host.Outcome.next (if_pos (by rw [h4, hp]; rfl)), ?_⟩
  have hl : ch < s.hth.chans.length := lt_of_chan (by rw [hp]; decide)
  have hl' : ch < (toState ch .ramp false s).hth.chans.length := by rw [length_of_hearth (toState_hearth _ _ _ _)]; exact hl
  have hchan := (State.onChan_chan hl' (probed s.hth.vsup.toNat hv ⟨hsp, hsn⟩ tamb)).trans
    (congrArg _ (toState_chan false hl (show (s.chan ch).state ≠ .ramp by rw [hp]; decide)))
  have hmv : ((s.chan ch).enter .ramp s.hth.period).loadMv s.hth.vsup.toNat hv = (s.chan ch).loadMv s.hth.vsup.toNat hv := rfl
  have hma : ((s.chan ch).enter .ramp s.hth.period).loadMa hsp hsn = (s.chan ch).loadMa hsp hsn := rfl
  have hilim : ((s.chan ch).enter .ramp s.hth.period).ilim = (s.chan ch).ilim := rfl
  have hstE : ((s.chan ch).enter .ramp s.hth.period).state = .ramp := rfl
  have htokE : ((s.chan ch).enter .ramp s.hth.period).token = (s.chan ch).token := Bool.and_true _
  generalize (s.chan ch).enter .ramp s.hth.period = c at hchan hmv hma hilim hstE htokE
  obtain ⟨hst, htok, hpres, htamb, hrc⟩ := probed_keeps s.hth.vsup.toNat hv ⟨hsp, hsn⟩ tamb c
  have hrest := Chan.read_rest s.hth.vsup.toNat (pinsRead hv ⟨hsp, hsn⟩) (c := c) (by rw [pinsRead, hma]; exact h0) (by rw [pinsRead, hma, hilim]; exact h2)
  refine ⟨?_, ?_, ?_, ?_, ?_, fun k hk => (State.onChan_chan_ne hk _ _).trans (toState_chan_ne hk _ _ s)⟩
  · rw [hchan, hst, hstE]
  · rw [hchan, hpres]
  · rw [hchan, htamb]
  · rw [hchan, hrc, hrest]
    simp only [pinsRead, hmv, hma]
  · rw [hchan, htok, htokE]

/-- A channel that holds parks when the sag lasts. -/
theorem holdTimeout_clause (s : State) (h : s.hth.sag = true) : Gives .holdTimeout s fun t => ∀ n, n < 8 →
    ((s.chan n).state = .hold → (t.chan n).state = .park) ∧ ((s.chan n).state ≠ .hold → t.chan n = s.chan n) := by
  refine ⟨_, congrArg Host.Outcome.next (if_pos h), fun n hn => ?_⟩
  obtain ⟨u, hchan, -, hres⟩ := ((toState_perChan .park false).ite fun n (s : State) => (s.chan n).state = .hold).forEach_range hn s
  refine ⟨fun hh => ?_, fun hh => ?_⟩
  · rw [hres, if_pos (by rw [hchan]; exact hh), toState_chan false (lt_of_chan (by rw [hchan, hh]; decide)) (by rw [hchan, hh]; decide)]
    rfl
  · rw [hres, if_neg (by rw [hchan]; exact hh), hchan]

theorem abortChan_retry {n : Nat} (cut : Bool) {s : State} (hp : (s.chan n).state = .park) (hr : (s.chan n).retries.toNat < 3) :
    (abortChan n cut s).chan n = { (s.chan n).enter .backoff s.hth.period with retries := (s.chan n).retries + 1 } := by
  have hl : n < s.hth.chans.length := lt_of_chan (by rw [hp]; decide)
  unfold abortChan
  rw [if_neg (Nat.not_le.mpr hr), State.onChan_chan (by rw [length_of_hearth (toState_hearth _ _ _ _)]; exact hl),
    toState_chan cut hl (by rw [hp]; decide)]
  rfl

theorem abortChan_last {n : Nat} (cut : Bool) {s : State} (hp : (s.chan n).state = .park) (hr : 3 ≤ (s.chan n).retries.toNat) :
    (abortChan n cut s).chan n = { (s.chan n).enter .fault s.hth.period with fault := .rampfail } := by
  unfold abortChan
  rw [if_pos hr, latch_chan _ _ _ (by rw [Chan.idle, hp]; rfl)]

/-- A parked channel backs off and counts a retry; the fourth time it fails. -/
theorem parkTimeout_clause (cut : Bool) (s : State) (h : s.hth.sag = true) : Gives (.parkTimeout cut) s fun t => ∀ n, n < 8 →
    ((s.chan n).state = .park → (s.chan n).retries.toNat < 3 → (t.chan n).state = .backoff ∧
      (t.chan n).retries = (s.chan n).retries + 1 ∧ (t.chan n).token = false) ∧
    ((s.chan n).state = .park → 3 ≤ (s.chan n).retries.toNat → (t.chan n).state = .fault ∧ (t.chan n).fault = .rampfail) ∧
    ((s.chan n).state ≠ .park → t.chan n = s.chan n) := by
  refine ⟨_, congrArg Host.Outcome.next (if_pos h), fun n hn => ?_⟩
  obtain ⟨u, hchan, -, hres⟩ := ((abortChan_perChan cut).ite fun n (s : State) => (s.chan n).state = .park).forEach_range hn s
  refine ⟨fun hp hr => ?_, fun hp hr => ?_, fun hp => ?_⟩
  · rw [hres, if_pos (by rw [hchan]; exact hp), abortChan_retry cut (by rw [hchan, hp]) (by rw [hchan]; exact hr), hchan]
    exact ⟨rfl, rfl, Bool.and_false _⟩
  · rw [hres, if_pos (by rw [hchan]; exact hp), abortChan_last cut (by rw [hchan, hp]) (by rw [hchan]; exact hr)]
    exact ⟨rfl, rfl⟩
  · rw [hres, if_neg (by rw [hchan]; exact hp), hchan]

theorem backoffEnd_clause (ch : Nat) (s : State) (h : (s.chan ch).state = .backoff) : Gives (.backoffEnd ch) s fun t => (t.chan ch).state = .wait ∧
    (t.chan ch).asked = s.hth.period ∧ ∀ k, k ≠ ch → t.chan k = s.chan k := by
  refine ⟨toState ch .wait false s, congrArg Host.Outcome.next (if_pos h), ?_⟩
  have hchan := toState_chan false (lt_of_chan (show (s.chan ch).state ≠ .off by rw [h]; decide)) (show (s.chan ch).state ≠ .wait by rw [h]; decide)
  exact ⟨by rw [hchan]; rfl, by rw [hchan]; rfl, fun k hk => toState_chan_ne hk _ _ s⟩

theorem gateWatchdog_clause (s : State) : Gives .gateWatchdog s fun t => ∀ n, (t.chan n).gate = false ∧ (t.chan n).duty = 0 ∧
    (t.chan n).state = (s.chan n).state := by
  refine ⟨_, rfl, fun n => ?_⟩
  have hchan : (s.onHth fun h => { h with chans := h.chans.map fun c => { c with gate := false, duty := 0, drive := 0 } }).chan n =
      { s.chan n with gate := false, duty := 0, drive := 0 } := by
    show (s.hth.chans.map fun c => { c with gate := false, duty := 0, drive := 0 }).getD n {} = { s.hth.chans.getD n {} with gate := false, duty := 0, drive := 0 }
    by_cases h : n < s.hth.chans.length
    · rw [List.getD_eq_getElem _ _ (by simpa using h), List.getElem_map, List.getD_eq_getElem _ _ h]
    · rw [List.getD_eq_default _ _ (by simpa using h), List.getD_eq_default _ _ (Nat.le_of_not_lt h)]
  rw [hchan]
  exact ⟨rfl, rfl, rfl⟩

/-- Settles O51: in a period each channel is stepped from its own part of the state (`PerChan`), and the one at work alone takes the supply
and the tokens. -/
theorem hearthLoop : Obligations.HearthLoop := by
  unfold Obligations.HearthLoop
  refine ⟨fun ms sns mean n m s h4 hclk hl h8 hm => ?_, fun ms sns mean n m s h4 hclk hl h8 hm => ?_, fun ms v w b1 b2 b3 b4 s h4 => ?_,
    fun ms v w b1 b2 b3 b4 s h4 hclk => ?_, fun ch hv hsp hsn tamb s h4 hp => probeEnd_clause ch hv hsp hsn tamb s h4 hp, holdTimeout_clause,
    parkTimeout_clause, backoffEnd_clause, gateWatchdog_clause⟩
  · intro vsup vref vl i ⟨hover, hopen, hfet, hadc, hv⟩ hothers hmode hsag hlow hfroz h45 hvs hvr h92
    have ha : Alone n s := ⟨hl, lt_eight h8 hm, fun k hk hkn => (hothers k hk hkn).1⟩
    have hok : SupplyOk sns mean s := ⟨hsag, hlow, hfroz, h45, hvs, hvr⟩
    have hc : Calm m := ⟨hover, hopen, hfet, hadc⟩
    refine ⟨fun hw htok ht hi => wait_granted h4 hclk h8 ha hok hm hmode hc hv h92 (fun k hk => ?_) hw ht hi,
      fun hw hi => wait_denied h4 hclk h8 ha hok hm hmode hc hv h92 hw hi, fun hr => ramp_goes h4 hclk h8 ha hok hm hmode hc hv h92 hr⟩
    by_cases hkn : k = n
    · rw [hkn, htok]
    · exact (hothers k hk hkn).2
  · intro vsup vref ⟨hover, hopen, hfet, hadc, hb, hv⟩ hothers hmode hr hsag hlow hfroz h45 hvs hvr h92
    exact sag_clause h4 hclk h8 ⟨hl, lt_eight h8 hm, hothers⟩ ⟨hsag, hlow, hfroz, h45, hvs, hvr⟩ hm hmode ⟨hover, hopen, hfet, hadc⟩ hb hv hr h92
  · exact congrArg Host.Outcome.next (if_neg (by simp [h4]))
  · refine ⟨_, congrArg Host.Outcome.next (if_pos (by rw [h4, hclk]; rfl)), fun k => ?_⟩
    unfold loopPeriod
    dsimp only
    rw [driveGates_chan]
    exact Chan.driveGate_gated _

end Sys2Proof.Machine
end
